-- ==== Sys2Proof/Word.lean ====
section
/-! DEFINITION. The words of the DK-9: lane words, lane masks, virtual addresses, bytes, and sorted sparse stores.
Only the types and their plainest arithmetic stand here; every operation of the machine stands in Machine/. -/

namespace Sys2Proof

/-- One 32-bit word: a lane of a vector register, a scalar register, an instruction word (R44, R68). -/
abbrev Word := BitVec 32

/-- A lane mask: bit l stands for lane l of the group (R26). -/
abbrev Mask := BitVec 32

/-- A byte of memory (R3). -/
abbrev Byte := BitVec 8

/-- A guest virtual address (R138, R334). -/
abbrev VA := BitVec 56

/-- A sparse map from numbers to data, kept sorted by key. A key that is not listed holds the default that the
reader names. -/
abbrev Store (α : Type) := List (Nat × α)

/-- What a store holds at a key, or the default. -/
def Store.get {α : Type} (dflt : α) : Store α → Nat → α
  | [], _ => dflt
  | (k, v) :: rest, i => if k = i then v else Store.get dflt rest i

/-- What a store lists at a key, if it lists it. -/
def Store.find {α : Type} : Store α → Nat → Option α
  | [], _ => none
  | (k, v) :: rest, i => if k = i then some v else Store.find rest i

/-- Apply a function to everything that a store lists. -/
def Store.mapVals {α : Type} (m : Store α) (f : Nat → α → α) : Store α := m.map fun kv => (kv.1, f kv.1 kv.2)

/-- Whether a store lists a key. -/
def Store.has {α : Type} : Store α → Nat → Bool
  | [], _ => false
  | (k, _) :: rest, i => if k = i then true else Store.has rest i

/-- Remove a key, wherever it stands. -/
def Store.erase {α : Type} : Store α → Nat → Store α
  | [], _ => []
  | (k, v) :: rest, i => if k = i then Store.erase rest i else (k, v) :: Store.erase rest i

/-- Write a key, keeping the keys sorted. -/
def Store.put {α : Type} : Store α → Nat → α → Store α
  | [], i, x => [(i, x)]
  | (k, v) :: rest, i, x =>
    if i < k then (i, x) :: (k, v) :: rest
    else if i = k then (i, x) :: rest
    else (k, v) :: Store.put rest i x

/-- Write a key in canonical form: the default is not listed. -/
def Store.set {α : Type} [DecidableEq α] (dflt : α) (m : Store α) (i : Nat) (x : α) : Store α :=
  if x = dflt then Store.erase m i else Store.put m i x

/-- Change what a store holds at a key. -/
def Store.modify {α : Type} (dflt : α) (m : Store α) (i : Nat) (f : α → α) : Store α :=
  Store.put m i (f (Store.get dflt m i))

/-- Keys strictly rising. -/
def Store.sorted {α : Type} : Store α → Bool
  | [] => true
  | [_] => true
  | (k, _) :: (k', v') :: rest => decide (k < k') && Store.sorted ((k', v') :: rest)

end Sys2Proof
end

