-- ==== Sys2Proof/Syntax.lean ====
section
/-! DEFINITION. The instruction set of the DK-9: one constructor for each row of the table of operations and
events. A row with an encoding carries its fields as the word holds them; a row without one is a step of the
device, of its firmware or of the world outside, and carries what it concerns. -/

namespace Sys2Proof

/-- The element types of gmode.TYPE (R44). -/
inductive ElemType where
  | i32 | n32 | f32 | f64 | h16x2 | b16x2 | i16x2 | n16x2 | i8x4 | n8x4
  deriving DecidableEq, Repr

/-- The conditions of SCMP (R136). -/
inductive ScmpCond where
  | eq | ne | lt | ge | le | gt | ltu | geu | leu | gtu
  deriving DecidableEq, Repr

/-- The conditions of BRU (R117). -/
inductive BruCond where
  | sel | nsel | eq | ne | lt | ge | ltu | geu
  deriving DecidableEq, Repr

/-- The conditions of ICMP (R147). -/
inductive IcmpCond where
  | eq | ne | lt | le | gt | ge
  deriving DecidableEq, Repr

/-- The conditions of FCMP (R156). -/
inductive FcmpCond where
  | eq | ne | lt | le | gt | ge | un | ord
  deriving DecidableEq, Repr

/-- The modes of VOTE (R163). -/
inductive VoteMode where
  | all | any | uni
  deriving DecidableEq, Repr

/-- The source-lane rules of SHFL (R164). -/
inductive ShflMode where
  | idx | up | down | xor
  deriving DecidableEq, Repr

/-- The operations of GRED and GSCAN (R166). -/
inductive RedOp where
  | add | min | max | and | or | xor
  deriving DecidableEq, Repr

/-- The operations of ATOM and ATOMS (R256). -/
inductive AtomOp where
  | add | min | max | minu | maxu | and | or | xor | exch | cas | fadd | fmin | fmax
  deriving DecidableEq, Repr

/-- The collectives of COLL (R307). -/
inductive CollOp where
  | allGather | reduceScatter | allReduce | broadcast
  deriving DecidableEq, Repr

/-- How a collective ends at this member: with the SRC bytes of the members in rank order, of which its own are what it reads, or
with an error code (R307 to R309). -/
inductive CollOutcome where
  | done (inputs : List (List Byte))
  | mismatch
  | remoteError
  deriving DecidableEq, Repr

/-- What a patrol scrub finds in a line (R217, R218, R220). -/
inductive ScrubFinding where
  | clean | corrected | uncorrectable
  deriving DecidableEq, Repr

/-- An access to device memory that comes from outside the module: over the fabric (R204) or over a Holry Link
(R403). Bytes are written when it is a store. -/
inductive ExternalAccess where
  | read (addr : Nat) (length : Nat)
  | write (addr : Nat) (data : List Byte)
  | atomAdd (addr : Nat) (data : List Byte)
  deriving DecidableEq, Repr

/-- Where a firmware command comes from: a quadrant's mailbox in the host window, or the ECALL of a group
(R400, R405, R406). -/
inductive CommandSource where
  | mailbox (quad : Nat)
  | guest (gid : Nat)
  deriving DecidableEq, Repr

/-- An SPDM request (R412): the requester, a Holry Link 0 or 1 or the endpoint e of the fabric as 2 + e, and the message. -/
structure SpdmRequest where
  requester : Nat
  bytes : List Byte
  deriving DecidableEq, Repr

/-- The operations and events of the DK-9, in the order of the table; the commands and what comes from outside stand last. -/
inductive Instr where
  /-- NOP (R112). Does nothing for one clk. -/
  | nop
  /-- SETMODE (R113). Writes the selected TYPE, RND, SAT, FTZ and ALG fields of gmode from IMM11 or a scalar register. -/
  | setmode (s : Bool) (w : BitVec 5) (a : BitVec 7) (i : BitVec 11)
  /-- SETGRD (R113). Writes the guard fields GIDX, GNEG and GEN of gmode. -/
  | setgrd (s : Bool) (a : BitVec 7) (i : BitVec 5)
  /-- SETMEM (R113). Writes the MORD and MSCOPE fields of gmode that later accesses carry. -/
  | setmem (s : Bool) (w : BitVec 2) (a : BitVec 7) (i : BitVec 5)
  /-- BRA (R116). Moves the issuing slot to PC + 4·OFF22. -/
  | bra (j : BitVec 22)
  /-- BRC (R29). Divergent branch on a predicate; splits the slot into taken and not-taken lanes, pushing the other slot as a path entry if live. -/
  | brc (p : BitVec 3) (j : BitVec 22)
  /-- BRU (R117). Moves the whole slot to the target when the chosen scc condition holds. -/
  | bru (c : BruCond) (j : BitVec 22)
  /-- MARK (R29). Pushes the other live slot as a path entry and a join entry for the rejoin address. -/
  | mark (j : BitVec 22)
  /-- JOIN (R29). Marks member lanes arrived at the topmost join entry and rejoins them when all members have arrived. -/
  | join
  /-- BRP (R123). Holds the issuing slot at a team-wide regrouping branch until the group arrives. -/
  | brp (a : BitVec 7) (i : BitVec 11)
  /-- BRP_SYNCHRONISE (R33). When every group of the team has arrived at the same BRP or exited, each bench regroups its lanes by target. -/
  | brpSynchronise (tid : Nat)
  /-- REGROUP_RETURN (R35). When every new group of a bench has completed its BRP join entry or exited, lanes return to their original groups. -/
  | regroupReturn (core : Nat) (bench : Nat)
  /-- CALL (R116). Writes the return address into v30 and v31 of every slot lane and branches. -/
  | call (j : BitVec 22)
  /-- RET (R119). Jumps each lane to the address in a register pair, diverging by distinct targets. -/
  | ret (a : BitVec 7)
  /-- JMPR (R119). Indirect jump with the same effect as RET. -/
  | jmpr (a : BitVec 7)
  /-- EXIT (R120). Ends every lane of the issuing slot and removes them from join entries. -/
  | exit
  /-- GROUP_EXIT_RELEASE (R40). An exited group whose engine counters reach 0 releases its extended blocks, base block and slot. -/
  | groupExitRelease (gid : Nat)
  /-- FLASHPT (R126). Records the group's flashback point with its recipe id and clears the unrewindable flag. -/
  | flashpt (i : BitVec 11)
  /-- TRAP (R128). Stops the group with SOFTWARE_TRAP and a fault record carrying the code. -/
  | trap (i : BitVec 11)
  /-- BKPT (R129). Stops the group with BREAKPOINT when a debugger is attached, else acts as NOP. -/
  | bkpt (i : BitVec 11)
  /-- YIELD (R130). Sets the group's yield count so that it is not ready for n clk. -/
  | yield (i : BitVec 11)
  /-- YIELD_COUNT_EXPIRY (R130). The yield count reaches 0 and the group is ready again. -/
  | yieldCountExpiry (gid : Nat)
  /-- SADD (R133). Scalar wrapping add. -/
  | sadd (d : BitVec 7) (a : BitVec 7) (b : BitVec 7)
  /-- SSUB (R133). Scalar wrapping subtract. -/
  | ssub (d : BitVec 7) (a : BitVec 7) (b : BitVec 7)
  /-- SMUL (R133). Scalar multiply, low 32 bits. -/
  | smul (d : BitVec 7) (a : BitVec 7) (b : BitVec 7)
  /-- SMULH (R133). Scalar signed multiply, high 32 bits. -/
  | smulh (d : BitVec 7) (a : BitVec 7) (b : BitVec 7)
  /-- SAND (R133). Scalar bitwise AND. -/
  | sand (d : BitVec 7) (a : BitVec 7) (b : BitVec 7)
  /-- SOR (R133). Scalar bitwise OR. -/
  | sor (d : BitVec 7) (a : BitVec 7) (b : BitVec 7)
  /-- SXOR (R133). Scalar bitwise XOR. -/
  | sxor (d : BitVec 7) (a : BitVec 7) (b : BitVec 7)
  /-- SSHL (R133). Scalar shift left. -/
  | sshl (d : BitVec 7) (a : BitVec 7) (b : BitVec 7)
  /-- SSHR (R133). Scalar logical shift right. -/
  | sshr (d : BitVec 7) (a : BitVec 7) (b : BitVec 7)
  /-- SSRA (R133). Scalar arithmetic shift right. -/
  | ssra (d : BitVec 7) (a : BitVec 7) (b : BitVec 7)
  /-- SMIN (R133). Scalar signed minimum. -/
  | smin (d : BitVec 7) (a : BitVec 7) (b : BitVec 7)
  /-- SMAX (R133). Scalar signed maximum. -/
  | smax (d : BitVec 7) (a : BitVec 7) (b : BitVec 7)
  /-- SMINN (R133). Scalar unsigned minimum. -/
  | sminn (d : BitVec 7) (a : BitVec 7) (b : BitVec 7)
  /-- SMAXN (R133). Scalar unsigned maximum. -/
  | smaxn (d : BitVec 7) (a : BitVec 7) (b : BitVec 7)
  /-- SADDI (R134). Adds a sign-extended immediate to a scalar register. -/
  | saddi (d : BitVec 7) (a : BitVec 7) (i : BitVec 11)
  /-- SANDI (R134). ANDs a sign-extended immediate into a scalar register. -/
  | sandi (d : BitVec 7) (a : BitVec 7) (i : BitVec 11)
  /-- SORI (R134). ORs a zero-extended immediate into a scalar register. -/
  | sori (d : BitVec 7) (a : BitVec 7) (i : BitVec 11)
  /-- LIT (R79). Writes the following literal word to a scalar register. -/
  | lit (d : BitVec 7) (lit : Word)
  /-- SCMP (R136). Compares two scalars and writes all four fields of scc. -/
  | scmp (a : BitVec 7) (b : BitVec 7) (c : ScmpCond)
  /-- SSEL (R137). Selects one of two scalars by scc.SEL. -/
  | ssel (d : BitVec 7) (a : BitVec 7) (b : BitVec 7)
  /-- SLD (R138). Long-latency scalar load of 1 to 16 bytes on behalf of the whole group. -/
  | sld (d : BitVec 7) (a : BitVec 7) (l : BitVec 4) (z : BitVec 3) (f : BitVec 4)
  /-- SST (R138). Long-latency scalar store of 1 to 16 bytes on behalf of the whole group. -/
  | sst (d : BitVec 7) (a : BitVec 7) (l : BitVec 4) (z : BitVec 3) (f : BitVec 4)
  /-- MFS (R142). Writes a special identity or status value to a scalar or vector register. -/
  | mfs (d : BitVec 7) (i : BitVec 11)
  /-- IADD (R143). Vector integer add with vector B. -/
  | iadd (d : BitVec 7) (a : BitVec 7) (b : BitVec 7)
  /-- ISUB (R143). Vector integer subtract with vector B. -/
  | isub (d : BitVec 7) (a : BitVec 7) (b : BitVec 7)
  /-- IMUL (R143). Vector integer multiply with vector B. -/
  | imul (d : BitVec 7) (a : BitVec 7) (b : BitVec 7)
  /-- IMULH (R143). Vector integer high multiply with vector B. -/
  | imulh (d : BitVec 7) (a : BitVec 7) (b : BitVec 7)
  /-- IMIN (R143). Vector integer minimum with vector B. -/
  | imin (d : BitVec 7) (a : BitVec 7) (b : BitVec 7)
  /-- IMAX (R143). Vector integer maximum with vector B. -/
  | imax (d : BitVec 7) (a : BitVec 7) (b : BitVec 7)
  /-- IABS (R143). Vector integer absolute value. -/
  | iabs (d : BitVec 7) (a : BitVec 7)
  /-- INEG (R143). Vector integer negate. -/
  | ineg (d : BitVec 7) (a : BitVec 7)
  /-- IAND (R143). Vector bitwise AND with vector B. -/
  | iand (d : BitVec 7) (a : BitVec 7) (b : BitVec 7)
  /-- IOR (R143). Vector bitwise OR with vector B. -/
  | ior (d : BitVec 7) (a : BitVec 7) (b : BitVec 7)
  /-- IXOR (R143). Vector bitwise XOR with vector B. -/
  | ixor (d : BitVec 7) (a : BitVec 7) (b : BitVec 7)
  /-- INOT (R143). Vector bitwise NOT. -/
  | inot (d : BitVec 7) (a : BitVec 7)
  /-- ISHL (R143). Vector integer shift left with vector B. -/
  | ishl (d : BitVec 7) (a : BitVec 7) (b : BitVec 7)
  /-- ISHR (R143). Vector integer shift right with vector B. -/
  | ishr (d : BitVec 7) (a : BitVec 7) (b : BitVec 7)
  /-- IADD_SCALAR_B (R143). Vector integer add with scalar B. -/
  | iaddScalarB (d : BitVec 7) (a : BitVec 7) (b : BitVec 7)
  /-- ISUB_SCALAR_B (R143). Vector integer subtract with scalar B. -/
  | isubScalarB (d : BitVec 7) (a : BitVec 7) (b : BitVec 7)
  /-- IMUL_SCALAR_B (R143). Vector integer multiply with scalar B. -/
  | imulScalarB (d : BitVec 7) (a : BitVec 7) (b : BitVec 7)
  /-- IMULH_SCALAR_B (R143). Vector integer high multiply with scalar B. -/
  | imulhScalarB (d : BitVec 7) (a : BitVec 7) (b : BitVec 7)
  /-- IMIN_SCALAR_B (R143). Vector integer minimum with scalar B. -/
  | iminScalarB (d : BitVec 7) (a : BitVec 7) (b : BitVec 7)
  /-- IMAX_SCALAR_B (R143). Vector integer maximum with scalar B. -/
  | imaxScalarB (d : BitVec 7) (a : BitVec 7) (b : BitVec 7)
  /-- IAND_SCALAR_B (R143). Vector bitwise AND with scalar B. -/
  | iandScalarB (d : BitVec 7) (a : BitVec 7) (b : BitVec 7)
  /-- IOR_SCALAR_B (R143). Vector bitwise OR with scalar B. -/
  | iorScalarB (d : BitVec 7) (a : BitVec 7) (b : BitVec 7)
  /-- IXOR_SCALAR_B (R143). Vector bitwise XOR with scalar B. -/
  | ixorScalarB (d : BitVec 7) (a : BitVec 7) (b : BitVec 7)
  /-- ISHL_SCALAR_B (R143). Vector integer shift left by a scalar. -/
  | ishlScalarB (d : BitVec 7) (a : BitVec 7) (b : BitVec 7)
  /-- ISHR_SCALAR_B (R143). Vector integer shift right by a scalar. -/
  | ishrScalarB (d : BitVec 7) (a : BitVec 7) (b : BitVec 7)
  /-- IMAD (R145). Vector integer multiply-add into D, saturated or wrapped once. -/
  | imad (d : BitVec 7) (a : BitVec 7) (b : BitVec 7)
  /-- ICMP (R147). Compares vector lanes and writes predicate bits. -/
  | icmp (d : BitVec 7) (a : BitVec 7) (b : BitVec 7) (c : IcmpCond)
  /-- ISEL (R148). Selects each lane from A or B by a predicate. -/
  | isel (d : BitVec 7) (a : BitVec 7) (b : BitVec 7) (p : BitVec 3)
  /-- POPC (R149). Counts 1 bits of each lane word. -/
  | popc (d : BitVec 7) (a : BitVec 7)
  /-- CLZ (R149). Counts leading zeros of each lane word. -/
  | clz (d : BitVec 7) (a : BitVec 7)
  /-- CTZ (R149). Counts trailing zeros of each lane word. -/
  | ctz (d : BitVec 7) (a : BitVec 7)
  /-- BREV (R149). Reverses the bits of each lane word. -/
  | brev (d : BitVec 7) (a : BitVec 7)
  /-- BFE (R150). Extracts a bit field, signed or unsigned. -/
  | bfe (d : BitVec 7) (a : BitVec 7) (b : BitVec 7) (s : Bool)
  /-- BFI (R150). Inserts a bit field into D. -/
  | bfi (d : BitVec 7) (a : BitVec 7) (b : BitVec 7)
  /-- LEA (R151). Writes a + b·2^X per lane. -/
  | lea (d : BitVec 7) (a : BitVec 7) (b : BitVec 7) (x : BitVec 4)
  /-- IADDI (R146). Adds a sign-extended immediate to every element. -/
  | iaddi (d : BitVec 7) (a : BitVec 7) (i : BitVec 11)
  /-- ISHLI (R146). Shifts every element left by an immediate. -/
  | ishli (d : BitVec 7) (a : BitVec 7) (i : BitVec 11)
  /-- ISHRI (R146). Shifts every element right by an immediate. -/
  | ishri (d : BitVec 7) (a : BitVec 7) (i : BitVec 11)
  /-- VMOV (R151). Copies a vector register per lane. -/
  | vmov (d : BitVec 7) (a : BitVec 7)
  /-- VLI (R151). Writes a sign-extended 18-bit immediate to every active lane. -/
  | vli (d : BitVec 7) (i : BitVec 18)
  /-- FADD (R154). Vector float add with vector B. -/
  | fadd (d : BitVec 7) (a : BitVec 7) (b : BitVec 7)
  /-- FSUB (R154). Vector float subtract with vector B. -/
  | fsub (d : BitVec 7) (a : BitVec 7) (b : BitVec 7)
  /-- FMUL (R154). Vector float multiply with vector B. -/
  | fmul (d : BitVec 7) (a : BitVec 7) (b : BitVec 7)
  /-- FMIN (R154). Vector float minimum with vector B. -/
  | fmin (d : BitVec 7) (a : BitVec 7) (b : BitVec 7)
  /-- FMAX (R154). Vector float maximum with vector B. -/
  | fmax (d : BitVec 7) (a : BitVec 7) (b : BitVec 7)
  /-- FABS (R153). Clears the sign bit of each element. -/
  | fabs (d : BitVec 7) (a : BitVec 7)
  /-- FNEG (R153). Inverts the sign bit of each element. -/
  | fneg (d : BitVec 7) (a : BitVec 7)
  /-- FCOPYSIGN (R153). Copies the sign bit of vector B into each element. -/
  | fcopysign (d : BitVec 7) (a : BitVec 7) (b : BitVec 7)
  /-- FADD_SCALAR_B (R154). Vector float add with scalar B. -/
  | faddScalarB (d : BitVec 7) (a : BitVec 7) (b : BitVec 7)
  /-- FSUB_SCALAR_B (R154). Vector float subtract with scalar B. -/
  | fsubScalarB (d : BitVec 7) (a : BitVec 7) (b : BitVec 7)
  /-- FMUL_SCALAR_B (R154). Vector float multiply with scalar B. -/
  | fmulScalarB (d : BitVec 7) (a : BitVec 7) (b : BitVec 7)
  /-- FMIN_SCALAR_B (R154). Vector float minimum with scalar B. -/
  | fminScalarB (d : BitVec 7) (a : BitVec 7) (b : BitVec 7)
  /-- FMAX_SCALAR_B (R154). Vector float maximum with scalar B. -/
  | fmaxScalarB (d : BitVec 7) (a : BitVec 7) (b : BitVec 7)
  /-- FCOPYSIGN_SCALAR_B (R153). Copies the sign bit of a scalar into each element. -/
  | fcopysignScalarB (d : BitVec 7) (a : BitVec 7) (b : BitVec 7)
  /-- FFMA (R155). Fused multiply-add x·y + d, rounded once. -/
  | ffma (d : BitVec 7) (a : BitVec 7) (b : BitVec 7)
  /-- FFMS (R155). Fused multiply-subtract x·y − d, rounded once. -/
  | ffms (d : BitVec 7) (a : BitVec 7) (b : BitVec 7)
  /-- FNFMA (R155). Negated fused multiply-add −(x·y) + d, rounded once. -/
  | fnfma (d : BitVec 7) (a : BitVec 7) (b : BitVec 7)
  /-- FCMP (R156). Compares float lanes and writes predicate bits. -/
  | fcmp (d : BitVec 7) (a : BitVec 7) (b : BitVec 7) (c : FcmpCond)
  /-- FRCP (R157). Reciprocal within 1 ulp. -/
  | frcp (d : BitVec 7) (a : BitVec 7)
  /-- FRSQ (R157). Reciprocal square root within 1 ulp. -/
  | frsq (d : BitVec 7) (a : BitVec 7)
  /-- FSQRT (R157). Correctly rounded square root. -/
  | fsqrt (d : BitVec 7) (a : BitVec 7)
  /-- FEXP2 (R157). Base-2 exponential within 2 ulp. -/
  | fexp2 (d : BitVec 7) (a : BitVec 7)
  /-- FLOG2 (R157). Base-2 logarithm within the stated bound. -/
  | flog2 (d : BitVec 7) (a : BitVec 7)
  /-- FSIN (R157). Sine within 2^−21 absolute. -/
  | fsin (d : BitVec 7) (a : BitVec 7)
  /-- FCOS (R157). Cosine within 2^−21 absolute. -/
  | fcos (d : BitVec 7) (a : BitVec 7)
  /-- FDIV (R157). Correctly rounded division. -/
  | fdiv (d : BitVec 7) (a : BitVec 7) (b : BitVec 7)
  /-- FCVT (R159). Converts elements from the source type in X to gmode.TYPE. -/
  | fcvt (d : BitVec 7) (a : BitVec 7) (t : ElemType)
  /-- FROUND (R160). Rounds each element to an integral value by gmode.RND. -/
  | fround (d : BitVec 7) (a : BitVec 7)
  /-- FCLASS (R161). Writes a 10-bit class mask per element. -/
  | fclass (d : BitVec 7) (a : BitVec 7)
  /-- PAND (R162). Predicate AND over active lanes. -/
  | pand (d : BitVec 7) (a : BitVec 7) (b : BitVec 7)
  /-- POR (R162). Predicate OR over active lanes. -/
  | por (d : BitVec 7) (a : BitVec 7) (b : BitVec 7)
  /-- PXOR (R162). Predicate XOR over active lanes. -/
  | pxor (d : BitVec 7) (a : BitVec 7) (b : BitVec 7)
  /-- PNOT (R162). Predicate NOT over active lanes. -/
  | pnot (d : BitVec 7) (a : BitVec 7)
  /-- PMOV (R162). Predicate copy over active lanes. -/
  | pmov (d : BitVec 7) (a : BitVec 7)
  /-- BALLOT (R162). Writes a scalar whose bits are the predicate of active lanes. -/
  | ballot (d : BitVec 7) (a : BitVec 7)
  /-- PFROMS (R162). Copies scalar bits into a predicate for active lanes. -/
  | pfroms (d : BitVec 7) (a : BitVec 7)
  /-- VOTE (R163). Computes all, any or uniform over active predicate bits and broadcasts it. -/
  | vote (d : BitVec 7) (a : BitVec 7) (v : VoteMode)
  /-- SHFL (R164). Moves words between lanes by index, up, down or xor. -/
  | shfl (d : BitVec 7) (a : BitVec 7) (b : BitVec 7) (v : ShflMode)
  /-- VTOS (R165). Copies one lane's word to a scalar. -/
  | vtos (d : BitVec 7) (a : BitVec 7) (f : Bool) (n : BitVec 5)
  /-- STOV (R165). Broadcasts a scalar to every active lane. -/
  | stov (d : BitVec 7) (a : BitVec 7)
  /-- GRED (R167). Reduces the active lanes into a scalar, float adds by a fixed tree. -/
  | gred (d : BitVec 7) (a : BitVec 7) (o : RedOp)
  /-- GSCAN (R167). Inclusive or exclusive scan over active lanes in ascending order. -/
  | gscan (d : BitVec 7) (a : BitVec 7) (e : Bool) (o : RedOp)
  /-- HMUL (R198). Algebra product a·b by the slot's structure table. -/
  | hmul (d : BitVec 7) (a : BitVec 7) (b : BitVec 7)
  /-- HCONJ (R198). Algebra conjugate by the slot's conjugation mask. -/
  | hconj (d : BitVec 7) (a : BitVec 7)
  /-- HNORM (R198). Algebra norm by the slot's norm signature. -/
  | hnorm (d : BitVec 7) (a : BitVec 7)
  /-- HFMA (R198). Algebra product a·b plus d, rounded once per component. -/
  | hfma (d : BitVec 7) (a : BitVec 7) (b : BitVec 7)
  /-- PNPK (R199). Packs unpacked bytes of a group register into a plank layout. -/
  | pnpk (d : BitVec 7) (a : BitVec 7)
  /-- PNUNPK (R199). Unpacks a plank at p planes into integer bytes. -/
  | pnunpk (d : BitVec 7) (a : BitVec 7) (c : Bool) (p : BitVec 3)
  /-- PNEXP (R199). Expands a plank at p planes into scaled f32 values. -/
  | pnexp (d : BitVec 7) (a : BitVec 7) (b : BitVec 7) (c : Bool) (p : BitVec 3)
  /-- ALGLD (R196). Loads and checks an 80-byte algebra image into an algebra slot. -/
  | algld (d : BitVec 7) (a : BitVec 7)
  /-- LD (R252). Long-latency per-lane global load. -/
  | ld (d : BitVec 7) (a : BitVec 7) (l : BitVec 4) (z : BitVec 3) (f : BitVec 4)
  /-- ST (R252). Long-latency per-lane global store. -/
  | st (d : BitVec 7) (a : BitVec 7) (l : BitVec 4) (z : BitVec 3) (f : BitVec 4)
  /-- LDS (R253). Per-lane load from the own or a peer stash. -/
  | lds (d : BitVec 7) (a : BitVec 7) (z : BitVec 3) (f : BitVec 4)
  /-- STS (R253). Per-lane store to the own or a peer stash. -/
  | sts (d : BitVec 7) (a : BitVec 7) (z : BitVec 3) (f : BitVec 4)
  /-- LDL (R254). Per-lane load from the lane's lane-store slice. -/
  | ldl (d : BitVec 7) (a : BitVec 7) (z : BitVec 3) (f : BitVec 4)
  /-- STL (R254). Per-lane store to the lane's lane-store slice. -/
  | stl (d : BitVec 7) (a : BitVec 7) (z : BitVec 3) (f : BitVec 4)
  /-- PREF (R255). Requests lines into the LLC and optionally L1, never faulting. -/
  | pref (h : BitVec 7) (a : BitVec 7) (l : BitVec 4) (z : BitVec 3) (f : BitVec 4)
  /-- ATOM (R256). Long-latency per-lane global read-modify-write. -/
  | atom (d : BitVec 7) (a : BitVec 7) (l : BitVec 4) (z : BitVec 3) (o : AtomOp)
  /-- ATOMS (R256). Per-lane stash read-modify-write. -/
  | atoms (d : BitVec 7) (a : BitVec 7) (z : BitVec 3) (o : AtomOp)
  /-- FENCE (R260). Orders the group's accesses at a scope after earlier accesses complete. -/
  | fence (f : Bool) (i : BitVec 5)
  /-- ACQRM (R261). Acquire load that first probes every core of the partition to promote team-scope releases. -/
  | acqrm (d : BitVec 7) (a : BitVec 7) (l : BitVec 4) (z : BitVec 3) (f : BitVec 4)
  /-- MCST (R262). Stores lane data into the stash of every cluster team named by a mask. -/
  | mcst (d : BitVec 7) (a : BitVec 7) (l : BitVec 4) (z : BitVec 3) (f : BitVec 4)
  /-- REDLD (R264). Emits reducing-load packets to a fabric reduction group. -/
  | redld (d : BitVec 7) (a : BitVec 7) (l : BitVec 4) (z : BitVec 3) (f : BitVec 4)
  /-- BAR (R290). Arrives at a team barrier instance. -/
  | bar (m : Bool) (a : BitVec 7) (b : BitVec 2)
  /-- BARC (R292). Arrives at the cluster barrier. -/
  | barc
  /-- SIGWAIT (R293). Waits until a stash signal word reaches a threshold, then writes its value. -/
  | sigwait (d : BitVec 7) (a : BitVec 7) (l : BitVec 4) (f : BitVec 4)
  /-- SIGWAIT_SATISFIED (R293). A write to the signal word satisfies a waiting SIGWAIT, which completes 20 clk later as an acquire. -/
  | sigwaitSatisfied (gid : Nat)
  /-- SIGADD (R294). Adds a scalar to a stash signal word as one read-modify-write. -/
  | sigadd (a : BitVec 7) (b : BitVec 7)
  /-- WAITC (R295). Waits until engine counter c_k is at most n, then acts as an acquire or raises ENGINE_FAULT. -/
  | waitc (k : BitVec 2) (s : BitVec 3) (n : BitVec 8)
  /-- XACQ (R97). Requests n extended register blocks from the bench pool, queuing if not grantable. -/
  | xacq (r : Bool) (a : BitVec 7) (i : BitVec 11)
  /-- XACQ_GRANT (R98). A queued request is granted by the no-overtake rule once enough blocks are free. -/
  | xacqGrant (gid : Nat)
  /-- XREL (R97). Releases every held extended block to the pool. -/
  | xrel
  /-- RECLD (R297). Loads and checks a 64-byte tensor record from the stash into a record slot. -/
  | recld (d : BitVec 7) (a : BitVec 7) (s : BitVec 4)
  /-- CPIN (R301). Queues a copy of a tensor box from global memory into a stash tile. -/
  | cpin (d : BitVec 7) (a : BitVec 7) (l : BitVec 4) (s : BitVec 4) (t : Bool) (g : Bool)
  /-- CPOUT (R301). Queues a copy of a stash tile out to global memory. -/
  | cpout (d : BitVec 7) (a : BitVec 7) (l : BitVec 4) (s : BitVec 4) (t : Bool) (g : Bool)
  /-- CPST (R301). Queues a verbatim stash-to-stash copy. -/
  | cpst (d : BitVec 7) (a : BitVec 7) (l : BitVec 4) (s : BitVec 4) (t : Bool) (g : Bool)
  /-- CPGATH (R301). Queues a gathering copy whose dimension-1 coordinates come from an index list. -/
  | cpgath (d : BitVec 7) (a : BitVec 7) (l : BitVec 4) (s : BitVec 4) (t : Bool) (g : Bool)
  /-- CLAMPLD (R186). Latches a B tile from the stash into clamp banks, expanding algebra elements when asked. -/
  | clampld (d : BitVec 7) (a : BitVec 7) (s : BitVec 4) (e : Bool) (c : Bool) (l : Bool)
  /-- CLAMP_FILL_START (R188). The bank fill starts once every preceding array instruction reading the bank has read its last row. -/
  | clampFillStart (core : Nat)
  /-- CLAMP_FILL_COMPLETE (R188). At F + 72 the filled banks become ready and the status word is written. -/
  | clampFillComplete (core : Nat)
  /-- MMA (R191). Streams jig rows through latched weights into an accumulator tile, products in order a·b. -/
  | mma (d : BitVec 7) (a : BitVec 7) (p : BitVec 4) (b : BitVec 2)
  /-- MMAR (R191). Streams jig rows through left-expanded weights, products in order b·a. -/
  | mmar (d : BitVec 7) (a : BitVec 7) (p : BitVec 4) (b : BitVec 2)
  /-- ARRAY_STREAM_START (R192). A queued MMA or MMAR starts streaming at the latest of its issue, the previous entry's last row and its banks' ready clk. -/
  | arrayStreamStart (core : Nat)
  /-- ARRAY_LAST_ROW_READ (R182). The clk after the last A row read the lease and queue entry are removed. -/
  | arrayLastRowRead (core : Nat)
  /-- ARRAY_LAST_ACCUMULATOR_WRITE (R192). The last accumulator write completes the MMA or MMAR 24 clk after its last row read. -/
  | arrayLastAccumulatorWrite (core : Nat)
  /-- ACCZ (R194). Zeroes the rows of a tile owned by the active lanes. -/
  | accz (a : BitVec 7)
  /-- ACCLD (R194). Loads four accumulator values per active lane into registers. -/
  | accld (d : BitVec 7) (a : BitVec 7) (q : BitVec 2) (c : BitVec 5)
  /-- ACCST (R194). Stores four register values per active lane into a tile. -/
  | accst (d : BitVec 7) (a : BitVec 7) (q : BitVec 2) (c : BitVec 5)
  /-- OMAP (R184). Loads and checks a 32-byte jig from the stash into a jig slot. -/
  | omap (d : BitVec 7) (a : BitVec 7) (s : BitVec 4)
  /-- LAUNCH (R306). Reads a launch packet from the stash and enqueues it, waiting while the queue is full. -/
  | launch (d : BitVec 7) (a : BitVec 7) (l : BitVec 4)
  /-- LAUNCH_PACKET_ENTRY (R306). A waiting LAUNCH's packet enters its queue when room frees and its status word is written. -/
  | launchPacketEntry (gid : Nat)
  /-- COLL (R307). Starts an all-gather, reduce-scatter, all-reduce or broadcast from a stash descriptor. -/
  | coll (d : BitVec 7) (a : BitVec 7) (l : BitVec 4) (g : CollOp)
  /-- COLL_COMPLETE (R309). The collective completes at this member or ends with a mismatch or remote error code. -/
  | collComplete (gid : Nat) (outcome : CollOutcome)
  /-- CKFOLD (R389). Folds active lanes into k0 or k1 as a float or integer sum. -/
  | ckfold (d : BitVec 7) (a : BitVec 7) (x : Bool)
  /-- CKTEST (R389). Compares k0 with k1 and faults with CHECK_FAIL when they disagree. -/
  | cktest (a : BitVec 7) (x : Bool)
  /-- CKCLR (R389). Sets k0 and k1 to +0. -/
  | ckclr
  /-- BOOST (R378). Requests a boost grant for the core paid from its life budget, or ends the grant in force. -/
  | boost (d : BitVec 7) (a : BitVec 7)
  /-- RDWEAR (R382). Reads a field of a unit's wear record from the last boundary. -/
  | rdwear (d : BitVec 7) (a : BitVec 7) (k : BitVec 3) (f : BitVec 4)
  /-- RDLIFE (R383). Reads a life-budget value of the core. -/
  | rdlife (d : BitVec 7) (i : BitVec 11)
  /-- RDCNT (R391). Reads the virtual device's instance of an event or error counter. -/
  | rdcnt (d : BitVec 7) (i : BitVec 11)
  /-- RDTIME (R392). Reads the 64-bit module time in ns. -/
  | rdtime (d : BitVec 7)
  /-- TILEB (R394). Sets the group's tile tag and joins or opens a stamp slot. -/
  | tileb (a : BitVec 7)
  /-- TILEE (R394). Clears the tile tag and closes the group's participation. -/
  | tilee
  /-- STAMP_RECORD_WRITE (R397). Once every joined group has closed and tagged operations have completed, the stamp record is written to the ring or dropped. -/
  | stampRecordWrite (core : Nat) (slot : Nat)
  /-- MFSR (R399). Reads a system register into a scalar. -/
  | mfsr (d : BitVec 7) (i : BitVec 11)
  /-- MTSR (R399). Writes a system register, including stamp registers and stash window bindings. -/
  | mtsr (a : BitVec 7) (i : BitVec 11)
  /-- ECALL (R400). Waits for open windows, stops both slots and enters a firmware service. -/
  | ecall (i : BitVec 11)
  /-- ERET (R400). Firmware returns to the group at the saved PC with results in s0 and s1. -/
  | eret
  /-- TLBI (R401). Firmware performs one TLB or remote-cache invalidation and waits for it. -/
  | tlbi (a : BitVec 7) (k : BitVec 3)
  /-- LONG_LATENCY_COMPLETE (R85). A long-latency global access completes, releasing the instruction after its lookahead window. -/
  | longLatencyComplete (gid : Nat) (op : Nat)
  /-- RELEASE_LOG_PROBE (R233). A core probed for a line promotes its log entries for that line and answers. -/
  | releaseLogProbe (core : Nat) (line : Nat)
  /-- REPLICA_LOCK_TIMEOUT (R237). A load stalled 2 µs on a locked replica passes the commit to firmware, which completes it and invalidates unreachable replicas. -/
  | replicaLockTimeout (part : Nat) (entry : Nat)
  /-- STASH_LINE_FILL (R213). A touch of an absent bound window line fills it from the LLC; the touching access proceeds when it lands. -/
  | stashLineFill (tid : Nat) (line : Nat)
  /-- GROUP_GUARDED (R285). A group ready for 32 consecutive clk without issuing becomes guarded. -/
  | groupGuarded (gid : Nat)
  /-- WATCHDOG_EXPIRY (R321). A group's wait time reaches WATCHDOG and it faults with WAIT_TIMEOUT. -/
  | watchdogExpiry (gid : Nat)
  /-- REGISTER_WAIT_DEADLOCK (R100). The team's deadlock timer reaches 1,024 and each group waiting at XACQ faults. -/
  | registerWaitDeadlock (tid : Nat)
  /-- COPY_START (R304). The streamer begins a copy's first access 4 clk after it reaches the queue head. -/
  | copyStart (core : Nat)
  /-- COPY_COMPLETE (R304). A copy completes or stops: status word, c0 decrement and signal add fall in one clk in issue order. -/
  | copyComplete (core : Nat)
  /-- MCST_DESTINATION_WRITE (R263). A multicast destination write is performed, and c2 falls after the last one. -/
  | mcstDestinationWrite (gid : Nat) (rank : Nat)
  /-- REDLD_RESPONSE (R265). The reduced value from the switches arrives and is written to the lane's footprint. -/
  | redldResponse (gid : Nat) (lane : Nat) (value : BitVec 64) (reachable : Bool)
  /-- ALGLD_COMPLETE (R196). The checked image replaces the algebra slot for every resident team. -/
  | algldComplete (gid : Nat)
  /-- PACKET_ACCEPT (R270). A packet at a queue head with a free launch-table entry is checked and accepted or refused. -/
  | packetAccept (quad : Nat) (queue : Nat)
  /-- DISPATCH_DECISION (R272). The partition's dispatcher examines candidates in priority order and places or reserves teams. -/
  | dispatchDecision (part : Nat)
  /-- GANG_FENCE (R281). The oldest waiting gang's wait reaches GANGFENCE and the fence is set on its rectangle. -/
  | gangFence (part : Nat)
  /-- TEAM_RETIRE (R41). A team whose groups and operations are done retires, freeing resources and setting its completion bit. -/
  | teamRetire (tid : Nat)
  /-- DEPENDENCY_TIMEOUT (R275). A consumer's required bits stay unset for the watchdog with no live owner and it ends with status 3. -/
  | dependencyTimeout (part : Nat) (launch : Nat)
  /-- INTERVAL_BOUNDARY (R369). Every 1.000 ms the wear records, LBUD, rests, spares and wear store are updated in order. -/
  | intervalBoundary
  /-- SPARE_SWAP_OUT (R373). A replaced core leaves service at the first instant it holds no team or reservation. -/
  | spareSwapOut (die : Nat)
  /-- BOOST_THERMAL_DROP (R380). A boosted core exceeding BOOSTTMAX drops its clock and its grant ends. -/
  | boostThermalDrop (core : Nat)
  /-- SLICE_END (R325). The slice timer expires and every team of the virtual device is stopped, rewound or saved. -/
  | sliceEnd (vdev : Nat)
  /-- UNRWLIM_EXPIRY (R325). The run-on timer reaches UNRWLIM and unrewindable groups are stopped and saved whole. -/
  | unrwlimExpiry (tid : Nat)
  /-- SAVE_IMAGE_TAKEN (R326). After drains and write-backs, the save counter is incremented and the image is taken. -/
  | saveImageTaken (vdev : Nat)
  /-- ADMISSION (R350). A runnable virtual device is admitted to a partition, receives its core set and is restored. -/
  | admission (vdev : Nat) (part : Nat)
  /-- CORE_SET_REPLACEMENT (R351). Firmware replaces an unavailable or resting core in a resident device's set. -/
  | coreSetReplacement (vdev : Nat) (old : Nat) (new : Nat)
  /-- CARVE_APPLY (R208). A new VCARVE reaches a core when no team of the device is resident, invalidating L1. -/
  | carveApply (core : Nat)
  /-- EPOCH_CLOSE (R354). A checkpoint epoch closes with a save, remaining page streaming, image and trailer. -/
  | epochClose (vdev : Nat)
  /-- CHECKPOINT_PAGE_STREAM (R353). A streamer copies a dirty page into the stream region by the R340 protocol. -/
  | checkpointPageStream (vdev : Nat) (page : Nat)
  /-- FRAME_PULL_COMPLETE (R357). A pulled 64 KiB frame lands at the destination and parked accesses replay. -/
  | framePullComplete (vdev : Nat) (frame : Nat) (data : List Byte)
  /-- MIGRATION_SWITCH (R356). After the image crosses, the forwarding entry is added, notices sent and the device becomes runnable at the destination. -/
  | migrationSwitch (vdev : Nat)
  /-- MIGRATION_NOTICE (R358). A peer receiving a migration notice drops its entries, re-points accesses and acknowledges. -/
  | migrationNotice (part : Nat) (old : Nat) (new : Nat) (handle : Nat)
  /-- MIGRATION_ACKNOWLEDGEMENT (R358). A peer's acknowledgement arrives and the forwarding entry is removed when all have acknowledged. -/
  | migrationAcknowledgement (part : Nat) (handle : Nat) (peer : Nat)
  /-- FORWARDING_EXPIRY (R358). A forwarding entry expires after 100 ms and later accesses abort. -/
  | forwardingExpiry (part : Nat) (handle : Nat)
  /-- MODULE_RESET (R5). A module reset returns every item to its Reset column value. -/
  | moduleReset
  /-- BOOT (R385). Firmware loads the wear store, charges a worst-case interval, extends measurements and sets the core map. -/
  | boot
  /-- POWER_EXIT_COMPLETE (R415). A quadrant rest or deep idle exit completes and waiting packets enter their queues. -/
  | powerExitComplete (quad : Nat)
  /-- SAMPLE (R409). A sample record is taken every 2^k issues matching the filter. -/
  | sample (gid : Nat)
  /-- TRIGGER_STAGE (R409). A trigger stage matches and arms the next or stops the device. -/
  | triggerStage (vdev : Nat)
  /-- POWER_LOSS (R385). The module loses power; work and non-preserved state are lost, accrual stops, and a wear-store bank being written may be left failing its checks. -/
  | powerLoss
  /-- DIRECTORY_RECALL (R214). The home slice recalls a stash-held line, writing back its dirty sectors and making it absent. -/
  | directoryRecall (line : Nat)
  /-- PATROL_SCRUB (R220). Periodic scrub reads and corrects memory and LLC sectors. -/
  | patrolScrub (line : Nat) (finding : ScrubFinding)
  /-- BANK_REFRESH (R83). A main-file bank refreshes one row on its refresh clk, slipping a coinciding vector read. -/
  | bankRefresh (core : Nat) (bench : Nat) (bank : Nat)
  /-- LAUNCH_PORT_WRITE (R269). A whole 128-byte posted host write enters the packet into its launch queue or is discarded. -/
  | launchPortWrite (quad : Nat) (port : Nat) (data : List Byte)
  /-- MONITOR_MEASUREMENT (R365). Every 1,024 intervals the ageing monitors are measured, retiring cores above RETIREPPM. -/
  | monitorMeasurement (readings : List Nat)
  /-- FORWARDED_ACCESS (R358). An access through a stale entry reaches the source and is forwarded to the destination. -/
  | forwardedAccess (part : Nat) (handle : Nat) (frame : Nat)
  /-- MIGRATION_SOURCE_LOST (R361). The source or its link fails during the pull; unpulled frames fault with POSTCOPY_SOURCE_LOST. -/
  | migrationSourceLost (vdev : Nat)
  /-- FABRIC_REQUEST (R204). An incoming fabric access to an exported frame is served or answered with an abort. -/
  | fabricRequest (part : Nat) (access : ExternalAccess)
  /-- FABRIC_LINK_DOWN (R345). A fabric port link-down invalidates remote translation entries of endpoints through it. -/
  | fabricLinkDown (part : Nat) (endpoints : List Nat)
  /-- CXL_LINK_DOWN (R404). A CXL link-down makes accesses to its window abort. -/
  | cxlLinkDown (port : Nat)
  /-- COUNTER_LOW_READ (R393). A host read of a counter's low word returns bits [31:0] and latches the high half. -/
  | counterLowRead (offset : Nat)
  /-- COUNTER_HIGH_READ (R393). A host read of the latched high word returns the latch and clears it. -/
  | counterHighRead (offset : Nat)
  /-- HOST_REGISTER_WRITE (R402). A host write to a window offset without behaviour of its own, such as the command block, is stored or discarded. -/
  | hostRegisterWrite (offset : Nat) (data : List Byte)
  /-- CREATE_VDEV (R348). Enters a virtual device descriptor in the table after checking its shape. -/
  | createVdev (src : CommandSource)
  /-- DESTROY_VDEV (R349). Ends the device's launches with status 6, frees its queues and frames and removes it. -/
  | destroyVdev (src : CommandSource)
  /-- LAUNCH_COMMAND (R408). Firmware writes a launch packet into a named queue. -/
  | launchCommand (src : CommandSource)
  /-- SAVE (R327). Saves the whole virtual device into a buffer, or continues it in place if the buffer is short. -/
  | save (src : CommandSource)
  /-- RESTORE (R330). Checks an image by counter and tag and restores the device. -/
  | restore (src : CommandSource)
  /-- MIGRATE_OUT (R356). Freezes and saves the device and hands it to a destination endpoint. -/
  | migrateOut (src : CommandSource)
  /-- MIGRATE_IN (R356). Accepts an incoming migrated context with its descriptor. -/
  | migrateIn (src : CommandSource)
  /-- CHECKPOINT_DISABLE (R355). CHECKPOINT with MODE 0 disables checkpoint streaming. -/
  | checkpointDisable (src : CommandSource)
  /-- CHECKPOINT_RUN (R353). CHECKPOINT with MODE 1 writes CKCTL and starts epoch streaming. -/
  | checkpointRun (src : CommandSource)
  /-- CHECKPOINT_CLOSE_NOW (R354). CHECKPOINT with MODE 2 closes the current epoch at once. -/
  | checkpointCloseNow (src : CommandSource)
  /-- SET_LIFE (R374). Sets TARGET, and at expert level LBUDCAP and WEARCTL. -/
  | setLife (src : CommandSource)
  /-- BOOST_POLICY (R377). Sets BOOSTEN per device or BOOSTCTL per partition. -/
  | boostPolicy (src : CommandSource)
  /-- ATTEST (R412). Returns a signed report of measurements, states and the wear block. -/
  | attest (src : CommandSource)
  /-- PARTITION (R347). Sets the partitioning code, or at expert level PLACECTL. -/
  | partition (src : CommandSource)
  /-- CARVE (R207). Sets a device's VCARVE, and for the host CARVELIM. -/
  | carve (src : CommandSource)
  /-- DEBUG_ATTACH_ATTACH (R409). Attaches a user or vendor debugger with a stop policy. -/
  | debugAttachAttach (src : CommandSource)
  /-- DEBUG_ATTACH_DETACH (R409). Detaches the debugger and resumes every group it stopped. -/
  | debugAttachDetach (src : CommandSource)
  /-- DEBUG_ATTACH_STOP (R409). Stops a group, team or device under the policy. -/
  | debugAttachStop (src : CommandSource)
  /-- DEBUG_ATTACH_STEP (R409). Resumes one stopped group for exactly one instruction. -/
  | debugAttachStep (src : CommandSource)
  /-- DEBUG_ATTACH_SET_SAMPLING (R409). Sets the sample buffer, rate and filters. -/
  | debugAttachSetSampling (src : CommandSource)
  /-- DEBUG_ATTACH_SET_TRIGGERS (R409). Sets up to four trigger stages. -/
  | debugAttachSetTriggers (src : CommandSource)
  /-- DUMP (R332). Writes the state of a halted device into a buffer, sealed under PROT = 1. -/
  | dump (src : CommandSource)
  /-- DUMP_OPEN (R331). Guest service that verifies a protected dump and writes its clear body into the guest's frames. -/
  | dumpOpen (src : CommandSource)
  /-- RETIRE_PAGE (R343). Retires a 64 KiB frame through the owner-change procedure. -/
  | retirePage (src : CommandSource)
  /-- FACTOR_TABLES (R366). Replaces the FV and FT factor tables. -/
  | factorTables (src : CommandSource)
  /-- ANSWER_RESUME (R317). Resumes a stopped group at its resume PC. -/
  | answerResume (src : CommandSource)
  /-- ANSWER_ABORT (R317). Aborts the launch of a stopped group with the stop's code. -/
  | answerAbort (src : CommandSource)
  /-- ANSWER_REPLAY (R318). Reports the page present and replays the unfinished lanes or the suspended copy. -/
  | answerReplay (src : CommandSource)
  /-- ANSWER_DECLINE (R318). Declines a page fault, aborting the launch or completing the copy with PAGE_FAULT. -/
  | answerDecline (src : CommandSource)
  /-- TABLES_SET_S1ROOT (R333). Sets the first-stage root of a device. -/
  | tablesSetS1root (src : CommandSource)
  /-- TABLES_SET_S2ROOT (R333). Sets the second-stage root of a device. -/
  | tablesSetS2root (src : CommandSource)
  /-- TABLES_INVALIDATE (R337). Performs a translation invalidation of a stated kind. -/
  | tablesInvalidate (src : CommandSource)
  /-- TABLES_SET_WINDOW_GRANT (R344). Sets a host or CXL window grant of a device. -/
  | tablesSetWindowGrant (src : CommandSource)
  /-- TABLES_SET_REPLICA_ENTRY (R341). Sets a replica-table entry. -/
  | tablesSetReplicaEntry (src : CommandSource)
  /-- TABLES_EXTEND_MEASUREMENT (R411). Extends MR5 or MR6 with a host digest. -/
  | tablesExtendMeasurement (src : CommandSource)
  /-- COMMS_SET_COMMUNICATOR (R408). Sets a communicator table entry. -/
  | commsSetCommunicator (src : CommandSource)
  /-- COMMS_REMOVE_COMMUNICATOR (R408). Removes a communicator table entry. -/
  | commsRemoveCommunicator (src : CommandSource)
  /-- COMMS_SET_REDUCTION_GROUP (R264). Configures a fabric reduction group. -/
  | commsSetReductionGroup (src : CommandSource)
  /-- COMMS_REMOVE_REDUCTION_GROUP (R264). Removes a fabric reduction group. -/
  | commsRemoveReductionGroup (src : CommandSource)
  /-- POWER_QUADRANT_REST (R415). Puts quadrants with no resident device into rest. -/
  | powerQuadrantRest (src : CommandSource)
  /-- POWER_DEEP_IDLE (R415). Puts all four quadrants into rest, leaving only mailboxes, wake and SPDM powered. -/
  | powerDeepIdle (src : CommandSource)
  /-- POWER_EXIT (R415). Starts the exit of quadrants from rest or deep idle. -/
  | powerExit (src : CommandSource)
  /-- LOGS_FAULT_QUEUE_STATE (R431). Returns the fault queue's head, tail and overflow counts. -/
  | logsFaultQueueState (src : CommandSource)
  /-- LOGS_ADVANCE_TAIL (R431). Advances the fault-queue tail up to the head. -/
  | logsAdvanceTail (src : CommandSource)
  /-- LOGS_READ_EVENT_LOG (R315). Returns and removes the oldest event-log records. -/
  | logsReadEventLog (src : CommandSource)
  /-- LOGS_SET_EVENT_INTERRUPT (R315). Sets the quadrant's interrupt address and data. -/
  | logsSetEventInterrupt (src : CommandSource)
  /-- LOGS_CLEAR_COUNTERS (R408). Clears host-total counters. -/
  | logsClearCounters (src : CommandSource)
  /-- GET_VERSION (R412). SPDM request for supported versions. -/
  | getVersion (request : SpdmRequest)
  /-- GET_CAPABILITIES (R412). SPDM request for capabilities. -/
  | getCapabilities (request : SpdmRequest)
  /-- NEGOTIATE_ALGORITHMS (R412). SPDM algorithm negotiation. -/
  | negotiateAlgorithms (request : SpdmRequest)
  /-- GET_DIGESTS (R412). SPDM request for certificate chain digests. -/
  | getDigests (request : SpdmRequest)
  /-- GET_CERTIFICATE (R412). SPDM request for the certificate chain. -/
  | getCertificate (request : SpdmRequest)
  /-- CHALLENGE (R412). SPDM signed challenge. -/
  | challenge (request : SpdmRequest)
  /-- GET_MEASUREMENTS (R412). SPDM request for measurements MR0..MR7. -/
  | getMeasurements (request : SpdmRequest)
  /-- KEY_EXCHANGE (R412). SPDM session key exchange over secp384r1. -/
  | keyExchange (request : SpdmRequest)
  /-- FINISH (R412). SPDM session finish. -/
  | finish (request : SpdmRequest)
  /-- END_SESSION (R412). Ends an SPDM session. -/
  | endSession (request : SpdmRequest)
  /-- HOST_MEMORY_ACCESS (R403). A host read or write over a Holry Link to a device frame that firmware exported is served at the home slice, acting on LLC lines and stash-held lines. -/
  | hostMemoryAccess (access : ExternalAccess)
  /-- PULL_REQUEST (R356). During phase 4 the migration source receives a frame pull request, sends the 64 KiB frame, and frees its frames and entry once the pulled map is full. -/
  | pullRequest (part : Nat) (handle : Nat) (frame : Nat)
  /-- FABRIC_ROUTE_RESTORED (R345). The fabric again routes to an endpoint after a link-down, so fresh accesses to it stop faulting with REMOTE_UNREACHABLE. -/
  | fabricRouteRestored (part : Nat) (endpoint : Nat)
  /-- HALT_RELEASE (R311). Firmware clears a virtual device's halt flag set under DUMPHOLD or by a debugger stop, after which the guest may open its dump. -/
  | haltRelease (vdev : Nat)
  /-- CORE_RETIREMENT (R13). Firmware retires a failed core, updating the retired-core set and marking it unavailable so that a spare is called at the next boundary. -/
  | coreRetirement (die : Nat) (position : Nat)
  deriving DecidableEq, Repr

end Sys2Proof
end

