-- ==== Sys2Proof/Config.lean ====
section
/-! DEFINITION. What the manual leaves open: free values and functions that it names without giving them. Each is an
opaque constant, so that no proof can see what it is. The assumption log names every one. -/

namespace Sys2Proof.Config

/-- A free choice between two outcomes, the n-th of a run (DESIGN CHOICE, log 8). -/
opaque freeBool : Nat → Bool
/-- A free byte, the n-th of a run (DESIGN CHOICE, log 8). -/
opaque freeByte : Nat → Byte
/-- A free number, the n-th of a run (DESIGN CHOICE, log 8). -/
opaque freeNat : Nat → Nat

/-- The binary32 value that a special function of R157 (0 FRCP, 1 FRSQ, 3 FEXP2, 4 FLOG2, 5 FSIN, 6 FCOS) has for an
input under FTZ. The manual fixes it only inside a bound, which Machine/Special.lean keeps (DESIGN CHOICE, log 10). -/
opaque specialValue : Nat → Bool → Word → Word

/-- The hash that chooses the slice and the set of a 64 KiB frame's lines in the LLC of a quadrant; it is not given (R202, DESIGN CHOICE, log 11). -/
opaque llcHash : Nat → Nat → Nat

/-- The clks that a physical route between two positions of a die takes beyond the logical hops (R12, DESIGN CHOICE, log 44); at most 6 of
them count. -/
opaque routeExtra : Nat → Nat → Nat

/-- SHA3-256, which the manual names and does not give (R411, PRESUMED, log 13). -/
opaque sha3 : List Byte → BitVec 256
/-- AES-256-GCM sealing of a body under a context key, an IV and the bound header bytes, and its 128-bit tag
(R329, PRESUMED, log 13). -/
opaque sealBody : BitVec 256 → Nat → List Byte → List Byte → List Byte
/-- The 128-bit tag of a sealed or clear body (R329, PRESUMED, log 13). -/
opaque sealTag : BitVec 256 → Nat → List Byte → List Byte → BitVec 128
/-- The 32-byte identity seed in the fuses, and the certificate for the public key with the digest of its chain (R410, PRESUMED, log 13). -/
opaque identitySeed : BitVec 256
opaque certificate : List Byte
opaque chainDigest : BitVec 256
/-- The ML-DSA-44 key pair that the ROM derives from a seed: the private key, which stays in the ROM's domain, and the public key (R410, PRESUMED,
log 13). -/
opaque privateKey : BitVec 256 → List Byte
opaque publicKey : BitVec 256 → List Byte
/-- ML-DSA-44 signatures of a message under a private key (R410, R412, PRESUMED, log 13). -/
opaque sign : List Byte → List Byte → List Byte
/-- Whether a request of NEGOTIATE_ALGORITHMS offers the k-th of the responder's algorithms (R412, PRESUMED, log 13). -/
opaque spdmOffers : Nat → List Byte → Bool
/-- Whether a vendor token, as its digest and signature, names this device and verifies (R413, PRESUMED, log 13). -/
opaque vendorToken : List Byte → Bool
/-- The payload of an SPDM response, whose bytes the manual does not give (R412, PRESUMED, log 13). -/
opaque spdmResponse : Nat → List Byte → List Byte
/-- A context key that firmware draws (R312, PRESUMED, log 13). -/
opaque freshKey : Nat → BitVec 256
/-- A byte of the body of a save image or dump, whose layout the manual leaves to firmware: by image number and offset
(R326, R331, DESIGN CHOICE, log 12). -/
opaque imageByte : Nat → Nat → Byte
/-- The address of the firmware code that an ECALL enters (R400, DESIGN CHOICE, log 14). -/
opaque firmwareEntry : Nat → VA

end Sys2Proof.Config
end

