-- ==== Sys2Proof/WellFormed.lean ====
section
/-! DEFINITION. Which instructions are well-formed: the conditions of row 1 of R78 that an encoding's fields must
meet beyond their widths, each as the instruction's entry states it. An event is well-formed when the units it names
exist. The other rows of R78 are conditions of execution (Machine/Operands.lean). -/

namespace Sys2Proof

/-- Why a word is no instruction, or why a term stands for none (R78 row 1). The last three are the two encodings
whose entry names ILLEGAL_OPERAND in place of ILLEGAL_OPCODE (R142, R293), and a text that is too short. -/
inductive DecodeReject where
  /-- an unassigned major opcode (R76, R78). -/
  | unassignedOpcode
  /-- a reserved X, F or other selection value (R78). -/
  | reservedSelection
  /-- a must-be-zero field that is nonzero (R76, R78). -/
  | nonzeroField
  /-- LA nonzero outside the long-latency instructions (R77, R78). -/
  | lookaheadNotAllowed
  /-- MFS with a nonzero A raises ILLEGAL_OPERAND (R142). -/
  | mfsSource
  /-- SIGWAIT with SZ other than 4 raises ILLEGAL_OPERAND (R293). -/
  | sigwaitSize
  /-- an event that names a unit that does not exist. -/
  | noSuchUnit
  /-- fewer bytes than the instruction has. -/
  | truncated
  deriving DecidableEq, Repr

/-- A field that must be zero. -/
def nonzero {n : Nat} (x : BitVec n) : Option DecodeReject :=
  if x = 0 then none else some .nonzeroField

/-- The units that an event names exist. -/
def within (c : Bool) : Option DecodeReject :=
  if c then none else some .noSuchUnit

/-- The source of a command exists: one of four mailboxes, or one of the 24,576 group slots. -/
def CommandSource.inRange : CommandSource → Bool
  | .mailbox q => decide (q < 4)
  | .guest g => decide (g < 24576)

/-- The IMM11 bits that SETMODE's write selects name: [4] ALG [10:9], [3] FTZ [8], [2] SAT [7], [1] RND [6:4],
[0] TYPE [3:0] (R113). -/
def selectedImm (w : BitVec 5) : BitVec 11 :=
  (if w.getLsbD 4 then 0x600#11 else 0) ||| (if w.getLsbD 3 then 0x100#11 else 0) |||
  (if w.getLsbD 2 then 0x080#11 else 0) ||| (if w.getLsbD 1 then 0x070#11 else 0) |||
  (if w.getLsbD 0 then 0x00F#11 else 0)

/-- The low IMM11 bits that SETMEM's write selects name: [1] MORD [4:3], [0] MSCOPE [2:0] (R113). -/
def selectedMemImm (w : BitVec 2) : BitVec 5 :=
  (if w.getLsbD 1 then 0x18#5 else 0) ||| (if w.getLsbD 0 then 0x07#5 else 0)

/-- The first condition of row 1 of R78, beyond the field widths, that an instruction breaks. -/
def Instr.defect : Instr → Option DecodeReject
  | .nop => none
  | .setmode s w a i =>
    if w = 0 then some .reservedSelection
    else if s then nonzero i
    else if a ≠ 0 then some .nonzeroField
    else nonzero (i &&& ~~~(selectedImm w))
  | .setgrd s a i =>
    if s then nonzero i
    else if a ≠ 0 then some .nonzeroField
    else if i.getLsbD 0 then none
    else nonzero i
  | .setmem s w a i =>
    if w = 0 then some .reservedSelection
    else if s then nonzero i
    else if a ≠ 0 then some .nonzeroField
    else nonzero (i &&& ~~~(selectedMemImm w))
  | .bra _ => none
  | .brc _ _ => none
  | .bru _ _ => none
  | .mark _ => none
  | .join => none
  | .brp _ _ => none
  | .brpSynchronise tid => within (decide (tid < 3072))
  | .regroupReturn core bench => within (decide (core < 192) && decide (bench < 16))
  | .call _ => none
  | .ret _ => none
  | .jmpr _ => none
  | .exit => none
  | .groupExitRelease gid => within (decide (gid < 24576))
  | .flashpt _ => none
  | .trap _ => none
  | .bkpt _ => none
  | .yield _ => none
  | .yieldCountExpiry gid => within (decide (gid < 24576))
  | .sadd _ _ _ => none
  | .ssub _ _ _ => none
  | .smul _ _ _ => none
  | .smulh _ _ _ => none
  | .sand _ _ _ => none
  | .sor _ _ _ => none
  | .sxor _ _ _ => none
  | .sshl _ _ _ => none
  | .sshr _ _ _ => none
  | .ssra _ _ _ => none
  | .smin _ _ _ => none
  | .smax _ _ _ => none
  | .sminn _ _ _ => none
  | .smaxn _ _ _ => none
  | .saddi _ _ _ => none
  | .sandi _ _ _ => none
  | .sori _ _ _ => none
  | .lit _ _ => none
  | .scmp _ _ _ => none
  | .ssel _ _ _ => none
  | .sld _ _ _ _ _ => none
  | .sst _ _ _ _ _ => none
  | .mfs _ _ => none
  | .iadd _ _ _ => none
  | .isub _ _ _ => none
  | .imul _ _ _ => none
  | .imulh _ _ _ => none
  | .imin _ _ _ => none
  | .imax _ _ _ => none
  | .iabs _ _ => none
  | .ineg _ _ => none
  | .iand _ _ _ => none
  | .ior _ _ _ => none
  | .ixor _ _ _ => none
  | .inot _ _ => none
  | .ishl _ _ _ => none
  | .ishr _ _ _ => none
  | .iaddScalarB _ _ _ => none
  | .isubScalarB _ _ _ => none
  | .imulScalarB _ _ _ => none
  | .imulhScalarB _ _ _ => none
  | .iminScalarB _ _ _ => none
  | .imaxScalarB _ _ _ => none
  | .iandScalarB _ _ _ => none
  | .iorScalarB _ _ _ => none
  | .ixorScalarB _ _ _ => none
  | .ishlScalarB _ _ _ => none
  | .ishrScalarB _ _ _ => none
  | .imad _ _ _ => none
  | .icmp _ _ _ _ => none
  | .isel _ _ _ _ => none
  | .popc _ _ => none
  | .clz _ _ => none
  | .ctz _ _ => none
  | .brev _ _ => none
  | .bfe _ _ _ _ => none
  | .bfi _ _ _ => none
  | .lea _ _ _ _ => none
  | .iaddi _ _ _ => none
  | .ishli _ _ _ => none
  | .ishri _ _ _ => none
  | .vmov _ _ => none
  | .vli _ _ => none
  | .fadd _ _ _ => none
  | .fsub _ _ _ => none
  | .fmul _ _ _ => none
  | .fmin _ _ _ => none
  | .fmax _ _ _ => none
  | .fabs _ _ => none
  | .fneg _ _ => none
  | .fcopysign _ _ _ => none
  | .faddScalarB _ _ _ => none
  | .fsubScalarB _ _ _ => none
  | .fmulScalarB _ _ _ => none
  | .fminScalarB _ _ _ => none
  | .fmaxScalarB _ _ _ => none
  | .fcopysignScalarB _ _ _ => none
  | .ffma _ _ _ => none
  | .ffms _ _ _ => none
  | .fnfma _ _ _ => none
  | .fcmp _ _ _ _ => none
  | .frcp _ _ => none
  | .frsq _ _ => none
  | .fsqrt _ _ => none
  | .fexp2 _ _ => none
  | .flog2 _ _ => none
  | .fsin _ _ => none
  | .fcos _ _ => none
  | .fdiv _ _ _ => none
  | .fcvt _ _ _ => none
  | .fround _ _ => none
  | .fclass _ _ => none
  | .pand _ _ _ => none
  | .por _ _ _ => none
  | .pxor _ _ _ => none
  | .pnot _ _ => none
  | .pmov _ _ => none
  | .ballot _ _ => none
  | .pfroms _ _ => none
  | .vote _ _ _ => none
  | .shfl _ _ _ _ => none
  | .vtos _ _ f n =>
    if f then nonzero n else none
  | .stov _ _ => none
  | .gred _ _ _ => none
  | .gscan _ _ _ _ => none
  | .hmul _ _ _ => none
  | .hconj _ _ => none
  | .hnorm _ _ => none
  | .hfma _ _ _ => none
  | .pnpk _ _ => none
  | .pnunpk _ _ _ p =>
    if p = 0 then some .reservedSelection else none
  | .pnexp _ _ _ _ p =>
    if p = 0 then some .reservedSelection else none
  | .algld _ _ => none
  | .ld _ _ _ _ _ => none
  | .st _ _ _ _ _ => none
  | .lds _ _ _ _ => none
  | .sts _ _ _ _ => none
  | .ldl _ _ _ _ => none
  | .stl _ _ _ _ => none
  | .pref h _ _ z _ =>
    if h.toNat < 3 ∧ z.toNat < 5 then none else some .reservedSelection
  | .atom _ _ _ _ _ => none
  | .atoms _ _ _ _ => none
  | .fence f i =>
    if f then none else nonzero i
  | .acqrm _ _ _ _ _ => none
  | .mcst _ _ _ _ _ => none
  | .redld _ _ _ _ _ => none
  | .bar m a _ =>
    if m then none else nonzero a
  | .barc => none
  | .sigwait _ _ _ _ => none
  | .sigwaitSatisfied gid => within (decide (gid < 24576))
  | .sigadd _ _ => none
  | .waitc _ _ _ => none
  | .xacq r a i =>
    if r then nonzero i else nonzero a
  | .xacqGrant gid => within (decide (gid < 24576))
  | .xrel => none
  | .recld _ _ _ => none
  | .cpin _ _ _ _ _ _ => none
  | .cpout _ _ _ _ _ _ => none
  | .cpst _ _ _ _ _ _ => none
  | .cpgath _ _ _ _ _ _ => none
  | .clampld _ _ _ e c l =>
    if e then none else if c || l then some .reservedSelection else none
  | .clampFillStart core => within (decide (core < 192))
  | .clampFillComplete core => within (decide (core < 192))
  | .mma _ _ _ _ => none
  | .mmar _ _ _ _ => none
  | .arrayStreamStart core => within (decide (core < 192))
  | .arrayLastRowRead core => within (decide (core < 192))
  | .arrayLastAccumulatorWrite core => within (decide (core < 192))
  | .accz _ => none
  | .accld _ _ _ _ => none
  | .accst _ _ _ _ => none
  | .omap _ _ _ => none
  | .launch _ _ _ => none
  | .launchPacketEntry gid => within (decide (gid < 24576))
  | .coll _ _ _ _ => none
  | .collComplete gid _ => within (decide (gid < 24576))
  | .ckfold _ _ _ => none
  | .cktest a x =>
    if x then nonzero a else none
  | .ckclr => none
  | .boost _ _ => none
  | .rdwear _ a k f =>
    if k.toNat < 4 ∧ f.toNat < 9 then (if k.toNat < 2 then nonzero a else none) else some .reservedSelection
  | .rdlife _ _ => none
  | .rdcnt _ _ => none
  | .rdtime _ => none
  | .tileb _ => none
  | .tilee => none
  | .stampRecordWrite core slot => within (decide (core < 192) && decide (slot < 16))
  | .mfsr _ _ => none
  | .mtsr _ _ => none
  | .ecall _ => none
  | .eret => none
  | .tlbi _ k =>
    if k.toNat < 4 then none else some .reservedSelection
  | .longLatencyComplete gid _ => within (decide (gid < 24576))
  | .releaseLogProbe core _ => within (decide (core < 192))
  | .replicaLockTimeout part _ => within (decide (part < 4))
  | .stashLineFill tid _ => within (decide (tid < 3072))
  | .directoryRecall _ => none
  | .patrolScrub _ _ => none
  | .bankRefresh core bench bank => within (decide (core < 192) && decide (bench < 16) && decide (bank < 4))
  | .groupGuarded gid => within (decide (gid < 24576))
  | .watchdogExpiry gid => within (decide (gid < 24576))
  | .registerWaitDeadlock tid => within (decide (tid < 3072))
  | .copyStart core => within (decide (core < 192))
  | .copyComplete core => within (decide (core < 192))
  | .mcstDestinationWrite gid _ => within (decide (gid < 24576))
  | .redldResponse gid lane _ _ => within (decide (gid < 24576) && decide (lane < 32))
  | .algldComplete gid => within (decide (gid < 24576))
  | .launchPortWrite quad _ _ => within (decide (quad < 4))
  | .packetAccept quad _ => within (decide (quad < 4))
  | .dispatchDecision part => within (decide (part < 4))
  | .gangFence part => within (decide (part < 4))
  | .teamRetire tid => within (decide (tid < 3072))
  | .dependencyTimeout part _ => within (decide (part < 4))
  | .intervalBoundary => none
  | .spareSwapOut _ => none
  | .monitorMeasurement _ => none
  | .boostThermalDrop core => within (decide (core < 192))
  | .sliceEnd vdev => within (decide (vdev < 65))
  | .unrwlimExpiry tid => within (decide (tid < 3072))
  | .saveImageTaken vdev => within (decide (vdev < 65))
  | .admission vdev part => within (decide (vdev < 65) && decide (part < 4))
  | .coreSetReplacement vdev old new => within (decide (vdev < 65) && decide (old < 192) && decide (new < 192))
  | .carveApply core => within (decide (core < 192))
  | .epochClose vdev => within (decide (vdev < 65))
  | .checkpointPageStream vdev _ => within (decide (vdev < 65))
  | .framePullComplete vdev _ _ => within (decide (vdev < 65))
  | .migrationSwitch vdev => within (decide (vdev < 65))
  | .migrationNotice part _ _ _ => within (decide (part < 4))
  | .migrationAcknowledgement part _ _ => within (decide (part < 4))
  | .forwardingExpiry part _ => within (decide (part < 4))
  | .forwardedAccess part _ _ => within (decide (part < 4))
  | .migrationSourceLost vdev => within (decide (vdev < 65))
  | .fabricRequest part _ => within (decide (part < 4))
  | .fabricLinkDown part _ => within (decide (part < 4))
  | .cxlLinkDown _ => none
  | .moduleReset => none
  | .boot => none
  | .powerExitComplete quad => within (decide (quad < 4))
  | .sample gid => within (decide (gid < 24576))
  | .triggerStage vdev => within (decide (vdev < 65))
  | .counterLowRead _ => none
  | .counterHighRead _ => none
  | .hostRegisterWrite _ _ => none
  | .createVdev src => within (src.inRange)
  | .destroyVdev src => within (src.inRange)
  | .launchCommand src => within (src.inRange)
  | .save src => within (src.inRange)
  | .restore src => within (src.inRange)
  | .migrateOut src => within (src.inRange)
  | .migrateIn src => within (src.inRange)
  | .checkpointDisable src => within (src.inRange)
  | .checkpointRun src => within (src.inRange)
  | .checkpointCloseNow src => within (src.inRange)
  | .setLife src => within (src.inRange)
  | .boostPolicy src => within (src.inRange)
  | .attest src => within (src.inRange)
  | .partition src => within (src.inRange)
  | .carve src => within (src.inRange)
  | .debugAttachAttach src => within (src.inRange)
  | .debugAttachDetach src => within (src.inRange)
  | .debugAttachStop src => within (src.inRange)
  | .debugAttachStep src => within (src.inRange)
  | .debugAttachSetSampling src => within (src.inRange)
  | .debugAttachSetTriggers src => within (src.inRange)
  | .dump src => within (src.inRange)
  | .dumpOpen src => within (src.inRange)
  | .retirePage src => within (src.inRange)
  | .factorTables src => within (src.inRange)
  | .answerResume src => within (src.inRange)
  | .answerAbort src => within (src.inRange)
  | .answerReplay src => within (src.inRange)
  | .answerDecline src => within (src.inRange)
  | .tablesSetS1root src => within (src.inRange)
  | .tablesSetS2root src => within (src.inRange)
  | .tablesInvalidate src => within (src.inRange)
  | .tablesSetWindowGrant src => within (src.inRange)
  | .tablesSetReplicaEntry src => within (src.inRange)
  | .tablesExtendMeasurement src => within (src.inRange)
  | .commsSetCommunicator src => within (src.inRange)
  | .commsRemoveCommunicator src => within (src.inRange)
  | .commsSetReductionGroup src => within (src.inRange)
  | .commsRemoveReductionGroup src => within (src.inRange)
  | .powerQuadrantRest src => within (src.inRange)
  | .powerDeepIdle src => within (src.inRange)
  | .powerExit src => within (src.inRange)
  | .logsFaultQueueState src => within (src.inRange)
  | .logsAdvanceTail src => within (src.inRange)
  | .logsReadEventLog src => within (src.inRange)
  | .logsSetEventInterrupt src => within (src.inRange)
  | .logsClearCounters src => within (src.inRange)
  | .getVersion r => within (decide (r.requester < 2050))
  | .getCapabilities r => within (decide (r.requester < 2050))
  | .negotiateAlgorithms r => within (decide (r.requester < 2050))
  | .getDigests r => within (decide (r.requester < 2050))
  | .getCertificate r => within (decide (r.requester < 2050))
  | .challenge r => within (decide (r.requester < 2050))
  | .getMeasurements r => within (decide (r.requester < 2050))
  | .keyExchange r => within (decide (r.requester < 2050))
  | .finish r => within (decide (r.requester < 2050))
  | .endSession r => within (decide (r.requester < 2050))
  | .hostMemoryAccess _ => none
  | .pullRequest part _ _ => within (decide (part < 4))
  | .fabricRouteRestored part _ => within (decide (part < 4))
  | .powerLoss => none
  | .haltRelease vdev => within (decide (vdev < 65))
  | .coreRetirement _ _ => none

/-- A well-formed instruction: one that some word encodes, or an event about units that exist. -/
def Instr.wellFormed (i : Instr) : Bool := i.defect.isNone

/-- The rows of the table that have no encoding: steps of the device, of its firmware or of the world outside. -/
def Instr.isEvent : Instr → Bool
  | .nop => false
  | .setmode _ _ _ _ => false
  | .setgrd _ _ _ => false
  | .setmem _ _ _ _ => false
  | .bra _ => false
  | .brc _ _ => false
  | .bru _ _ => false
  | .mark _ => false
  | .join => false
  | .brp _ _ => false
  | .brpSynchronise _ => true
  | .regroupReturn _ _ => true
  | .call _ => false
  | .ret _ => false
  | .jmpr _ => false
  | .exit => false
  | .groupExitRelease _ => true
  | .flashpt _ => false
  | .trap _ => false
  | .bkpt _ => false
  | .yield _ => false
  | .yieldCountExpiry _ => true
  | .sadd _ _ _ => false
  | .ssub _ _ _ => false
  | .smul _ _ _ => false
  | .smulh _ _ _ => false
  | .sand _ _ _ => false
  | .sor _ _ _ => false
  | .sxor _ _ _ => false
  | .sshl _ _ _ => false
  | .sshr _ _ _ => false
  | .ssra _ _ _ => false
  | .smin _ _ _ => false
  | .smax _ _ _ => false
  | .sminn _ _ _ => false
  | .smaxn _ _ _ => false
  | .saddi _ _ _ => false
  | .sandi _ _ _ => false
  | .sori _ _ _ => false
  | .lit _ _ => false
  | .scmp _ _ _ => false
  | .ssel _ _ _ => false
  | .sld _ _ _ _ _ => false
  | .sst _ _ _ _ _ => false
  | .mfs _ _ => false
  | .iadd _ _ _ => false
  | .isub _ _ _ => false
  | .imul _ _ _ => false
  | .imulh _ _ _ => false
  | .imin _ _ _ => false
  | .imax _ _ _ => false
  | .iabs _ _ => false
  | .ineg _ _ => false
  | .iand _ _ _ => false
  | .ior _ _ _ => false
  | .ixor _ _ _ => false
  | .inot _ _ => false
  | .ishl _ _ _ => false
  | .ishr _ _ _ => false
  | .iaddScalarB _ _ _ => false
  | .isubScalarB _ _ _ => false
  | .imulScalarB _ _ _ => false
  | .imulhScalarB _ _ _ => false
  | .iminScalarB _ _ _ => false
  | .imaxScalarB _ _ _ => false
  | .iandScalarB _ _ _ => false
  | .iorScalarB _ _ _ => false
  | .ixorScalarB _ _ _ => false
  | .ishlScalarB _ _ _ => false
  | .ishrScalarB _ _ _ => false
  | .imad _ _ _ => false
  | .icmp _ _ _ _ => false
  | .isel _ _ _ _ => false
  | .popc _ _ => false
  | .clz _ _ => false
  | .ctz _ _ => false
  | .brev _ _ => false
  | .bfe _ _ _ _ => false
  | .bfi _ _ _ => false
  | .lea _ _ _ _ => false
  | .iaddi _ _ _ => false
  | .ishli _ _ _ => false
  | .ishri _ _ _ => false
  | .vmov _ _ => false
  | .vli _ _ => false
  | .fadd _ _ _ => false
  | .fsub _ _ _ => false
  | .fmul _ _ _ => false
  | .fmin _ _ _ => false
  | .fmax _ _ _ => false
  | .fabs _ _ => false
  | .fneg _ _ => false
  | .fcopysign _ _ _ => false
  | .faddScalarB _ _ _ => false
  | .fsubScalarB _ _ _ => false
  | .fmulScalarB _ _ _ => false
  | .fminScalarB _ _ _ => false
  | .fmaxScalarB _ _ _ => false
  | .fcopysignScalarB _ _ _ => false
  | .ffma _ _ _ => false
  | .ffms _ _ _ => false
  | .fnfma _ _ _ => false
  | .fcmp _ _ _ _ => false
  | .frcp _ _ => false
  | .frsq _ _ => false
  | .fsqrt _ _ => false
  | .fexp2 _ _ => false
  | .flog2 _ _ => false
  | .fsin _ _ => false
  | .fcos _ _ => false
  | .fdiv _ _ _ => false
  | .fcvt _ _ _ => false
  | .fround _ _ => false
  | .fclass _ _ => false
  | .pand _ _ _ => false
  | .por _ _ _ => false
  | .pxor _ _ _ => false
  | .pnot _ _ => false
  | .pmov _ _ => false
  | .ballot _ _ => false
  | .pfroms _ _ => false
  | .vote _ _ _ => false
  | .shfl _ _ _ _ => false
  | .vtos _ _ _ _ => false
  | .stov _ _ => false
  | .gred _ _ _ => false
  | .gscan _ _ _ _ => false
  | .hmul _ _ _ => false
  | .hconj _ _ => false
  | .hnorm _ _ => false
  | .hfma _ _ _ => false
  | .pnpk _ _ => false
  | .pnunpk _ _ _ _ => false
  | .pnexp _ _ _ _ _ => false
  | .algld _ _ => false
  | .ld _ _ _ _ _ => false
  | .st _ _ _ _ _ => false
  | .lds _ _ _ _ => false
  | .sts _ _ _ _ => false
  | .ldl _ _ _ _ => false
  | .stl _ _ _ _ => false
  | .pref _ _ _ _ _ => false
  | .atom _ _ _ _ _ => false
  | .atoms _ _ _ _ => false
  | .fence _ _ => false
  | .acqrm _ _ _ _ _ => false
  | .mcst _ _ _ _ _ => false
  | .redld _ _ _ _ _ => false
  | .bar _ _ _ => false
  | .barc => false
  | .sigwait _ _ _ _ => false
  | .sigwaitSatisfied _ => true
  | .sigadd _ _ => false
  | .waitc _ _ _ => false
  | .xacq _ _ _ => false
  | .xacqGrant _ => true
  | .xrel => false
  | .recld _ _ _ => false
  | .cpin _ _ _ _ _ _ => false
  | .cpout _ _ _ _ _ _ => false
  | .cpst _ _ _ _ _ _ => false
  | .cpgath _ _ _ _ _ _ => false
  | .clampld _ _ _ _ _ _ => false
  | .clampFillStart _ => true
  | .clampFillComplete _ => true
  | .mma _ _ _ _ => false
  | .mmar _ _ _ _ => false
  | .arrayStreamStart _ => true
  | .arrayLastRowRead _ => true
  | .arrayLastAccumulatorWrite _ => true
  | .accz _ => false
  | .accld _ _ _ _ => false
  | .accst _ _ _ _ => false
  | .omap _ _ _ => false
  | .launch _ _ _ => false
  | .launchPacketEntry _ => true
  | .coll _ _ _ _ => false
  | .collComplete _ _ => true
  | .ckfold _ _ _ => false
  | .cktest _ _ => false
  | .ckclr => false
  | .boost _ _ => false
  | .rdwear _ _ _ _ => false
  | .rdlife _ _ => false
  | .rdcnt _ _ => false
  | .rdtime _ => false
  | .tileb _ => false
  | .tilee => false
  | .stampRecordWrite _ _ => true
  | .mfsr _ _ => false
  | .mtsr _ _ => false
  | .ecall _ => false
  | .eret => false
  | .tlbi _ _ => false
  | .longLatencyComplete _ _ => true
  | .releaseLogProbe _ _ => true
  | .replicaLockTimeout _ _ => true
  | .stashLineFill _ _ => true
  | .directoryRecall _ => true
  | .patrolScrub _ _ => true
  | .bankRefresh _ _ _ => true
  | .groupGuarded _ => true
  | .watchdogExpiry _ => true
  | .registerWaitDeadlock _ => true
  | .copyStart _ => true
  | .copyComplete _ => true
  | .mcstDestinationWrite _ _ => true
  | .redldResponse _ _ _ _ => true
  | .algldComplete _ => true
  | .launchPortWrite _ _ _ => true
  | .packetAccept _ _ => true
  | .dispatchDecision _ => true
  | .gangFence _ => true
  | .teamRetire _ => true
  | .dependencyTimeout _ _ => true
  | .intervalBoundary => true
  | .spareSwapOut _ => true
  | .monitorMeasurement _ => true
  | .boostThermalDrop _ => true
  | .sliceEnd _ => true
  | .unrwlimExpiry _ => true
  | .saveImageTaken _ => true
  | .admission _ _ => true
  | .coreSetReplacement _ _ _ => true
  | .carveApply _ => true
  | .epochClose _ => true
  | .checkpointPageStream _ _ => true
  | .framePullComplete _ _ _ => true
  | .migrationSwitch _ => true
  | .migrationNotice _ _ _ _ => true
  | .migrationAcknowledgement _ _ _ => true
  | .forwardingExpiry _ _ => true
  | .forwardedAccess _ _ _ => true
  | .migrationSourceLost _ => true
  | .fabricRequest _ _ => true
  | .fabricLinkDown _ _ => true
  | .cxlLinkDown _ => true
  | .moduleReset => true
  | .boot => true
  | .powerExitComplete _ => true
  | .sample _ => true
  | .triggerStage _ => true
  | .counterLowRead _ => true
  | .counterHighRead _ => true
  | .hostRegisterWrite _ _ => true
  | .createVdev _ => true
  | .destroyVdev _ => true
  | .launchCommand _ => true
  | .save _ => true
  | .restore _ => true
  | .migrateOut _ => true
  | .migrateIn _ => true
  | .checkpointDisable _ => true
  | .checkpointRun _ => true
  | .checkpointCloseNow _ => true
  | .setLife _ => true
  | .boostPolicy _ => true
  | .attest _ => true
  | .partition _ => true
  | .carve _ => true
  | .debugAttachAttach _ => true
  | .debugAttachDetach _ => true
  | .debugAttachStop _ => true
  | .debugAttachStep _ => true
  | .debugAttachSetSampling _ => true
  | .debugAttachSetTriggers _ => true
  | .dump _ => true
  | .dumpOpen _ => true
  | .retirePage _ => true
  | .factorTables _ => true
  | .answerResume _ => true
  | .answerAbort _ => true
  | .answerReplay _ => true
  | .answerDecline _ => true
  | .tablesSetS1root _ => true
  | .tablesSetS2root _ => true
  | .tablesInvalidate _ => true
  | .tablesSetWindowGrant _ => true
  | .tablesSetReplicaEntry _ => true
  | .tablesExtendMeasurement _ => true
  | .commsSetCommunicator _ => true
  | .commsRemoveCommunicator _ => true
  | .commsSetReductionGroup _ => true
  | .commsRemoveReductionGroup _ => true
  | .powerQuadrantRest _ => true
  | .powerDeepIdle _ => true
  | .powerExit _ => true
  | .logsFaultQueueState _ => true
  | .logsAdvanceTail _ => true
  | .logsReadEventLog _ => true
  | .logsSetEventInterrupt _ => true
  | .logsClearCounters _ => true
  | .getVersion _ => true
  | .getCapabilities _ => true
  | .negotiateAlgorithms _ => true
  | .getDigests _ => true
  | .getCertificate _ => true
  | .challenge _ => true
  | .getMeasurements _ => true
  | .keyExchange _ => true
  | .finish _ => true
  | .endSession _ => true
  | .hostMemoryAccess _ => true
  | .pullRequest _ _ _ => true
  | .fabricRouteRestored _ _ => true
  | .powerLoss => true
  | .haltRelease _ => true
  | .coreRetirement _ _ => true

end Sys2Proof
end

