-- ==== Sys2Proof/Decode.lean ====
section
/-! DEFINITION. Decoding an instruction word (R68 to R70, R76 to R79), and the encoder written from the same tables.
The decoder is total: a word that is no instruction is rejected by name (R78 row 1). No word decodes to an event. -/

namespace Sys2Proof

/-- Bits [31:25], the major opcode (R68). -/
def fOp (w : Word) : BitVec 7 := w.extractLsb' 25 7
/-- Bits [24:18], the D field, or F in format S (R69). -/
def fD (w : Word) : BitVec 7 := w.extractLsb' 18 7
/-- Bits [17:11], the A field (R69). -/
def fA (w : Word) : BitVec 7 := w.extractLsb' 11 7
/-- Bits [10:4], the B field of format R (R69). -/
def fB (w : Word) : BitVec 7 := w.extractLsb' 4 7
/-- Bits [3:0], the X field of format R (R69). -/
def fX (w : Word) : BitVec 4 := w.extractLsb' 0 4
/-- Bits [10:0], IMM11 of formats I and S (R69). -/
def fImm (w : Word) : BitVec 11 := w.extractLsb' 0 11
/-- Bits [17:0], the immediate of VLI (R151). -/
def fImm18 (w : Word) : BitVec 18 := w.extractLsb' 0 18
/-- Bits [10:7], LA of formats L and T (R69). -/
def fLa (w : Word) : BitVec 4 := w.extractLsb' 7 4
/-- Bits [6:4], SZ of format L (R69). -/
def fSz (w : Word) : BitVec 3 := w.extractLsb' 4 3
/-- Bits [3:0], OFF4 of format L (R69). -/
def fOff4 (w : Word) : BitVec 4 := w.extractLsb' 0 4
/-- Bits [24:22], P of format J (R69). -/
def fP (w : Word) : BitVec 3 := w.extractLsb' 22 3
/-- Bits [21:0], OFF22 of format J (R69). -/
def fOff22 (w : Word) : BitVec 22 := w.extractLsb' 0 22
/-- Bits [6:3], XS of format T (R69). -/
def fXs (w : Word) : BitVec 4 := w.extractLsb' 3 4
/-- Bits [2:0], FL of format T (R69). -/
def fFl (w : Word) : BitVec 3 := w.extractLsb' 0 3

/-- Format R (R69). -/
def packR (op d a b : BitVec 7) (x : BitVec 4) : Word := op ++ d ++ a ++ b ++ x
/-- Format I (R69). -/
def packI (op d a : BitVec 7) (imm : BitVec 11) : Word := op ++ d ++ a ++ imm
/-- Format L (R69). -/
def packL (op d a : BitVec 7) (la : BitVec 4) (sz : BitVec 3) (off : BitVec 4) : Word := op ++ d ++ a ++ la ++ sz ++ off
/-- Format J (R69). -/
def packJ (op : BitVec 7) (p : BitVec 3) (off : BitVec 22) : Word := op ++ p ++ off
/-- Format S (R69). -/
def packS (op f a : BitVec 7) (imm : BitVec 11) : Word := op ++ f ++ a ++ imm
/-- Format T (R69). -/
def packT (op d a : BitVec 7) (la xs : BitVec 4) (fl : BitVec 3) : Word := op ++ d ++ a ++ la ++ xs ++ fl
/-- The form of VLI: format I with an 18-bit immediate in A and IMM11 (R151). -/
def packV (op d : BitVec 7) (imm : BitVec 18) : Word := op ++ d ++ imm

/-- The codes of gmode.TYPE (R44). -/
def ElemType.code : ElemType → Nat
  | .i32 => 0 | .n32 => 1 | .f32 => 2 | .f64 => 3 | .h16x2 => 4 | .b16x2 => 5 | .i16x2 => 6 | .n16x2 => 7 | .i8x4 => 8 | .n8x4 => 9
/-- TYPE 10 to 15 are reserved (R44). -/
def ElemType.ofCode : Nat → Option ElemType
  | 0 => some .i32 | 1 => some .n32 | 2 => some .f32 | 3 => some .f64 | 4 => some .h16x2 | 5 => some .b16x2
  | 6 => some .i16x2 | 7 => some .n16x2 | 8 => some .i8x4 | 9 => some .n8x4 | _ => none
/-- X of SCMP (R136). -/
def ScmpCond.code : ScmpCond → Nat
  | .eq => 0 | .ne => 1 | .lt => 2 | .ge => 3 | .le => 4 | .gt => 5 | .ltu => 6 | .geu => 7 | .leu => 8 | .gtu => 9
/-- X of SCMP, 10 to 15 reserved (R136). -/
def ScmpCond.ofCode : Nat → Option ScmpCond
  | 0 => some .eq | 1 => some .ne | 2 => some .lt | 3 => some .ge | 4 => some .le | 5 => some .gt | 6 => some .ltu
  | 7 => some .geu | 8 => some .leu | 9 => some .gtu | _ => none
/-- P of BRU (R117). -/
def BruCond.code : BruCond → Nat
  | .sel => 0 | .nsel => 1 | .eq => 2 | .ne => 3 | .lt => 4 | .ge => 5 | .ltu => 6 | .geu => 7
/-- P of BRU (R117). -/
def BruCond.ofCode : Nat → Option BruCond
  | 0 => some .sel | 1 => some .nsel | 2 => some .eq | 3 => some .ne | 4 => some .lt | 5 => some .ge | 6 => some .ltu
  | 7 => some .geu | _ => none
/-- X of ICMP (R147). -/
def IcmpCond.code : IcmpCond → Nat
  | .eq => 0 | .ne => 1 | .lt => 2 | .le => 3 | .gt => 4 | .ge => 5
/-- X of ICMP, 6 to 15 reserved (R147). -/
def IcmpCond.ofCode : Nat → Option IcmpCond
  | 0 => some .eq | 1 => some .ne | 2 => some .lt | 3 => some .le | 4 => some .gt | 5 => some .ge | _ => none
/-- X of FCMP (R156). -/
def FcmpCond.code : FcmpCond → Nat
  | .eq => 0 | .ne => 1 | .lt => 2 | .le => 3 | .gt => 4 | .ge => 5 | .un => 6 | .ord => 7
/-- X of FCMP, 8 to 15 reserved (R156). -/
def FcmpCond.ofCode : Nat → Option FcmpCond
  | 0 => some .eq | 1 => some .ne | 2 => some .lt | 3 => some .le | 4 => some .gt | 5 => some .ge | 6 => some .un
  | 7 => some .ord | _ => none
/-- X of VOTE (R163). -/
def VoteMode.code : VoteMode → Nat
  | .all => 0 | .any => 1 | .uni => 2
/-- X of VOTE, 3 to 15 reserved (R163). -/
def VoteMode.ofCode : Nat → Option VoteMode
  | 0 => some .all | 1 => some .any | 2 => some .uni | _ => none
/-- X of SHFL (R164). -/
def ShflMode.code : ShflMode → Nat
  | .idx => 0 | .up => 1 | .down => 2 | .xor => 3
/-- X of SHFL, 4 to 15 reserved (R164). -/
def ShflMode.ofCode : Nat → Option ShflMode
  | 0 => some .idx | 1 => some .up | 2 => some .down | 3 => some .xor | _ => none
/-- The operation of GRED and GSCAN (R166). -/
def RedOp.code : RedOp → Nat
  | .add => 0 | .min => 1 | .max => 2 | .and => 3 | .or => 4 | .xor => 5
/-- The operation of GRED and GSCAN, other values reserved (R166). -/
def RedOp.ofCode : Nat → Option RedOp
  | 0 => some .add | 1 => some .min | 2 => some .max | 3 => some .and | 4 => some .or | 5 => some .xor | _ => none
/-- OP of ATOM and ATOMS (R256). -/
def AtomOp.code : AtomOp → Nat
  | .add => 0 | .min => 1 | .max => 2 | .minu => 3 | .maxu => 4 | .and => 5 | .or => 6 | .xor => 7 | .exch => 8
  | .cas => 9 | .fadd => 10 | .fmin => 11 | .fmax => 12
/-- OP of ATOM and ATOMS, 13 to 15 reserved (R256). -/
def AtomOp.ofCode : Nat → Option AtomOp
  | 0 => some .add | 1 => some .min | 2 => some .max | 3 => some .minu | 4 => some .maxu | 5 => some .and | 6 => some .or
  | 7 => some .xor | 8 => some .exch | 9 => some .cas | 10 => some .fadd | 11 => some .fmin | 12 => some .fmax | _ => none
/-- FL of COLL (R307). -/
def CollOp.code : CollOp → Nat
  | .allGather => 0 | .reduceScatter => 1 | .allReduce => 2 | .broadcast => 3
/-- FL of COLL, 4 to 7 reserved (R307). -/
def CollOp.ofCode : Nat → Option CollOp
  | 0 => some .allGather | 1 => some .reduceScatter | 2 => some .allReduce | 3 => some .broadcast | _ => none

/-- A decoded instruction, when its must-be-zero fields are zero and no condition of its entry is broken. -/
def arm (zeros : List Bool) (i : Instr) : Except DecodeReject Instr :=
  if zeros.all id then
    match i.defect with
    | none => .ok i
    | some r => .error r
  else .error .nonzeroField

/-- Opcodes 0x00 to 0x0F: control, mode and divergence (R112 to R130). -/
def decodeControl (w : Word) : Except DecodeReject Instr :=
  match (fOp w).toNat with
  | 0x00 =>
    arm [(fD w) == 0, (fA w) == 0, (fImm w) == 0] (.nop)
  | 0x01 =>
    arm [((fD w).extractLsb' 6 1) == 0] (.setmode ((fD w).getLsbD 5) ((fD w).extractLsb' 0 5) (fA w) (fImm w))
  | 0x02 =>
    arm [((fD w).extractLsb' 6 1) == 0, ((fD w).extractLsb' 0 5) == 0, ((fImm w).extractLsb' 5 6) == 0] (.setgrd ((fD w).getLsbD 5) (fA w) ((fImm w).extractLsb' 0 5))
  | 0x03 =>
    arm [(fP w) == 0] (.bra (fOff22 w))
  | 0x04 =>
    arm [] (.brc (fP w) (fOff22 w))
  | 0x05 =>
    (match BruCond.ofCode (fP w).toNat with
      | some c => arm [] (.bru c (fOff22 w))
      | none => .error .reservedSelection)
  | 0x06 =>
    arm [(fP w) == 0] (.mark (fOff22 w))
  | 0x07 =>
    arm [(fD w) == 0, (fA w) == 0, (fImm w) == 0] (.join)
  | 0x08 =>
    arm [(fD w) == 0] (.brp (fA w) (fImm w))
  | 0x09 =>
    arm [(fP w) == 0] (.call (fOff22 w))
  | 0x0A =>
    arm [(fD w) == 0, (fImm w) == 0] (.ret (fA w))
  | 0x0B =>
    arm [(fD w) == 0, (fImm w) == 0] (.jmpr (fA w))
  | 0x0C =>
    arm [(fD w) == 0, (fA w) == 0, (fImm w) == 0] (.exit)
  | 0x0D =>
    arm [(fD w) == 0, (fA w) == 0] (.flashpt (fImm w))
  | 0x0E =>
    (match (fD w).toNat with
    | 0 => arm [(fA w) == 0] (.trap (fImm w))
    | 1 => arm [(fA w) == 0] (.bkpt (fImm w))
    | 2 => arm [(fA w) == 0] (.yield (fImm w))
    | _ => .error .reservedSelection)
  | 0x0F =>
    arm [((fD w).extractLsb' 6 1) == 0, ((fD w).extractLsb' 2 3) == 0, ((fImm w).extractLsb' 5 6) == 0] (.setmem ((fD w).getLsbD 5) ((fD w).extractLsb' 0 2) (fA w) ((fImm w).extractLsb' 0 5))
  | _ => .error .unassignedOpcode

/-- Opcodes 0x10 to 0x1F: scalar (R131 to R142). -/
def decodeScalar (w : Word) (lit : Word) : Except DecodeReject Instr :=
  match (fOp w).toNat with
  | 0x10 =>
    (match (fX w).toNat with
    | 0 => arm [] (.sadd (fD w) (fA w) (fB w))
    | 1 => arm [] (.ssub (fD w) (fA w) (fB w))
    | 2 => arm [] (.smul (fD w) (fA w) (fB w))
    | 3 => arm [] (.smulh (fD w) (fA w) (fB w))
    | 4 => arm [] (.sand (fD w) (fA w) (fB w))
    | 5 => arm [] (.sor (fD w) (fA w) (fB w))
    | 6 => arm [] (.sxor (fD w) (fA w) (fB w))
    | 7 => arm [] (.sshl (fD w) (fA w) (fB w))
    | 8 => arm [] (.sshr (fD w) (fA w) (fB w))
    | 9 => arm [] (.ssra (fD w) (fA w) (fB w))
    | 10 => arm [] (.smin (fD w) (fA w) (fB w))
    | 11 => arm [] (.smax (fD w) (fA w) (fB w))
    | 12 => arm [] (.sminn (fD w) (fA w) (fB w))
    | 13 => arm [] (.smaxn (fD w) (fA w) (fB w))
    | _ => .error .reservedSelection)
  | 0x11 =>
    arm [] (.saddi (fD w) (fA w) (fImm w))
  | 0x12 =>
    arm [] (.sandi (fD w) (fA w) (fImm w))
  | 0x13 =>
    arm [] (.sori (fD w) (fA w) (fImm w))
  | 0x14 =>
    arm [(fA w) == 0, (fImm w) == 0] (.lit (fD w) lit)
  | 0x15 =>
    (match ScmpCond.ofCode (fX w).toNat with
      | some c => arm [(fD w) == 0] (.scmp (fA w) (fB w) c)
      | none => .error .reservedSelection)
  | 0x16 =>
    arm [(fX w) == 0] (.ssel (fD w) (fA w) (fB w))
  | 0x17 =>
    arm [] (.sld (fD w) (fA w) (fLa w) (fSz w) (fOff4 w))
  | 0x18 =>
    arm [] (.sst (fD w) (fA w) (fLa w) (fSz w) (fOff4 w))
  | 0x19 =>
    if (fA w) != 0 then .error .mfsSource else arm [] (.mfs (fD w) (fImm w))
  | _ => .error .unassignedOpcode

/-- Opcodes 0x20 to 0x2F: vector integer (R143 to R151). -/
def decodeVecInt (w : Word) : Except DecodeReject Instr :=
  match (fOp w).toNat with
  | 0x20 =>
    (match (fX w).toNat with
    | 0 => arm [] (.iadd (fD w) (fA w) (fB w))
    | 1 => arm [] (.isub (fD w) (fA w) (fB w))
    | 2 => arm [] (.imul (fD w) (fA w) (fB w))
    | 3 => arm [] (.imulh (fD w) (fA w) (fB w))
    | 4 => arm [] (.imin (fD w) (fA w) (fB w))
    | 5 => arm [] (.imax (fD w) (fA w) (fB w))
    | 6 => arm [(fB w) == 0] (.iabs (fD w) (fA w))
    | 7 => arm [(fB w) == 0] (.ineg (fD w) (fA w))
    | 8 => arm [] (.iand (fD w) (fA w) (fB w))
    | 9 => arm [] (.ior (fD w) (fA w) (fB w))
    | 10 => arm [] (.ixor (fD w) (fA w) (fB w))
    | 11 => arm [(fB w) == 0] (.inot (fD w) (fA w))
    | 12 => arm [] (.ishl (fD w) (fA w) (fB w))
    | 13 => arm [] (.ishr (fD w) (fA w) (fB w))
    | _ => .error .reservedSelection)
  | 0x21 =>
    (match (fX w).toNat with
    | 0 => arm [] (.iaddScalarB (fD w) (fA w) (fB w))
    | 1 => arm [] (.isubScalarB (fD w) (fA w) (fB w))
    | 2 => arm [] (.imulScalarB (fD w) (fA w) (fB w))
    | 3 => arm [] (.imulhScalarB (fD w) (fA w) (fB w))
    | 4 => arm [] (.iminScalarB (fD w) (fA w) (fB w))
    | 5 => arm [] (.imaxScalarB (fD w) (fA w) (fB w))
    | 8 => arm [] (.iandScalarB (fD w) (fA w) (fB w))
    | 9 => arm [] (.iorScalarB (fD w) (fA w) (fB w))
    | 10 => arm [] (.ixorScalarB (fD w) (fA w) (fB w))
    | 12 => arm [] (.ishlScalarB (fD w) (fA w) (fB w))
    | 13 => arm [] (.ishrScalarB (fD w) (fA w) (fB w))
    | _ => .error .reservedSelection)
  | 0x22 =>
    arm [(fX w) == 0] (.imad (fD w) (fA w) (fB w))
  | 0x23 =>
    (match IcmpCond.ofCode (fX w).toNat with
      | some c => arm [] (.icmp (fD w) (fA w) (fB w) c)
      | none => .error .reservedSelection)
  | 0x24 =>
    arm [((fX w).extractLsb' 3 1) == 0] (.isel (fD w) (fA w) (fB w) ((fX w).extractLsb' 0 3))
  | 0x25 =>
    (match (fX w).toNat with
    | 0 => arm [(fB w) == 0] (.popc (fD w) (fA w))
    | 1 => arm [(fB w) == 0] (.clz (fD w) (fA w))
    | 2 => arm [(fB w) == 0] (.ctz (fD w) (fA w))
    | 3 => arm [(fB w) == 0] (.brev (fD w) (fA w))
    | _ => .error .reservedSelection)
  | 0x26 =>
    arm [((fX w).extractLsb' 1 3) == 0] (.bfe (fD w) (fA w) (fB w) ((fX w).getLsbD 0))
  | 0x27 =>
    arm [(fX w) == 0] (.bfi (fD w) (fA w) (fB w))
  | 0x28 =>
    arm [] (.lea (fD w) (fA w) (fB w) (fX w))
  | 0x29 =>
    arm [] (.iaddi (fD w) (fA w) (fImm w))
  | 0x2A =>
    arm [] (.ishli (fD w) (fA w) (fImm w))
  | 0x2B =>
    arm [] (.ishri (fD w) (fA w) (fImm w))
  | 0x2C =>
    arm [(fB w) == 0, (fX w) == 0] (.vmov (fD w) (fA w))
  | 0x2D =>
    arm [] (.vli (fD w) (fImm18 w))
  | _ => .error .unassignedOpcode

/-- Opcodes 0x30 to 0x3F: vector float (R152 to R161). -/
def decodeFloat (w : Word) : Except DecodeReject Instr :=
  match (fOp w).toNat with
  | 0x30 =>
    (match (fX w).toNat with
    | 0 => arm [] (.fadd (fD w) (fA w) (fB w))
    | 1 => arm [] (.fsub (fD w) (fA w) (fB w))
    | 2 => arm [] (.fmul (fD w) (fA w) (fB w))
    | 3 => arm [] (.fmin (fD w) (fA w) (fB w))
    | 4 => arm [] (.fmax (fD w) (fA w) (fB w))
    | 5 => arm [(fB w) == 0] (.fabs (fD w) (fA w))
    | 6 => arm [(fB w) == 0] (.fneg (fD w) (fA w))
    | 7 => arm [] (.fcopysign (fD w) (fA w) (fB w))
    | _ => .error .reservedSelection)
  | 0x31 =>
    (match (fX w).toNat with
    | 0 => arm [] (.faddScalarB (fD w) (fA w) (fB w))
    | 1 => arm [] (.fsubScalarB (fD w) (fA w) (fB w))
    | 2 => arm [] (.fmulScalarB (fD w) (fA w) (fB w))
    | 3 => arm [] (.fminScalarB (fD w) (fA w) (fB w))
    | 4 => arm [] (.fmaxScalarB (fD w) (fA w) (fB w))
    | 7 => arm [] (.fcopysignScalarB (fD w) (fA w) (fB w))
    | _ => .error .reservedSelection)
  | 0x32 =>
    (match (fX w).toNat with
    | 0 => arm [] (.ffma (fD w) (fA w) (fB w))
    | 1 => arm [] (.ffms (fD w) (fA w) (fB w))
    | 2 => arm [] (.fnfma (fD w) (fA w) (fB w))
    | _ => .error .reservedSelection)
  | 0x33 =>
    (match FcmpCond.ofCode (fX w).toNat with
      | some c => arm [] (.fcmp (fD w) (fA w) (fB w) c)
      | none => .error .reservedSelection)
  | 0x34 =>
    (match (fX w).toNat with
    | 0 => arm [(fB w) == 0] (.frcp (fD w) (fA w))
    | 1 => arm [(fB w) == 0] (.frsq (fD w) (fA w))
    | 2 => arm [(fB w) == 0] (.fsqrt (fD w) (fA w))
    | 3 => arm [(fB w) == 0] (.fexp2 (fD w) (fA w))
    | 4 => arm [(fB w) == 0] (.flog2 (fD w) (fA w))
    | 5 => arm [(fB w) == 0] (.fsin (fD w) (fA w))
    | 6 => arm [(fB w) == 0] (.fcos (fD w) (fA w))
    | 7 => arm [] (.fdiv (fD w) (fA w) (fB w))
    | _ => .error .reservedSelection)
  | 0x35 =>
    (match ElemType.ofCode (fX w).toNat with
      | some t => arm [(fB w) == 0] (.fcvt (fD w) (fA w) t)
      | none => .error .reservedSelection)
  | 0x36 =>
    arm [(fB w) == 0, (fX w) == 0] (.fround (fD w) (fA w))
  | 0x37 =>
    arm [(fB w) == 0, (fX w) == 0] (.fclass (fD w) (fA w))
  | _ => .error .unassignedOpcode

/-- Opcodes 0x40 to 0x47: predicates and lane exchange (R162 to R168). -/
def decodeLane (w : Word) : Except DecodeReject Instr :=
  match (fOp w).toNat with
  | 0x40 =>
    (match (fX w).toNat with
    | 0 => arm [] (.pand (fD w) (fA w) (fB w))
    | 1 => arm [] (.por (fD w) (fA w) (fB w))
    | 2 => arm [] (.pxor (fD w) (fA w) (fB w))
    | 3 => arm [(fB w) == 0] (.pnot (fD w) (fA w))
    | 4 => arm [(fB w) == 0] (.pmov (fD w) (fA w))
    | _ => .error .reservedSelection)
  | 0x41 =>
    (match (fX w).toNat with
    | 0 => arm [(fB w) == 0] (.ballot (fD w) (fA w))
    | 1 => arm [(fB w) == 0] (.pfroms (fD w) (fA w))
    | _ => .error .reservedSelection)
  | 0x42 =>
    (match VoteMode.ofCode (fX w).toNat with
      | some v => arm [(fB w) == 0] (.vote (fD w) (fA w) v)
      | none => .error .reservedSelection)
  | 0x43 =>
    (match ShflMode.ofCode (fX w).toNat with
      | some v => arm [] (.shfl (fD w) (fA w) (fB w) v)
      | none => .error .reservedSelection)
  | 0x44 =>
    arm [((fB w).extractLsb' 5 1) == 0, (fX w) == 0] (.vtos (fD w) (fA w) ((fB w).getLsbD 6) ((fB w).extractLsb' 0 5))
  | 0x45 =>
    arm [(fB w) == 0, (fX w) == 0] (.stov (fD w) (fA w))
  | 0x46 =>
    (match RedOp.ofCode (fX w).toNat with
      | some o => arm [(fB w) == 0] (.gred (fD w) (fA w) o)
      | none => .error .reservedSelection)
  | 0x47 =>
    (match RedOp.ofCode ((fX w).extractLsb' 0 3).toNat with
      | some o => arm [(fB w) == 0] (.gscan (fD w) (fA w) ((fX w).getLsbD 3) o)
      | none => .error .reservedSelection)
  | _ => .error .unassignedOpcode

/-- Opcodes 0x48 to 0x4F: algebra, planes (R196 to R199). -/
def decodeAlgebra (w : Word) : Except DecodeReject Instr :=
  match (fOp w).toNat with
  | 0x48 =>
    arm [(fX w) == 0] (.hmul (fD w) (fA w) (fB w))
  | 0x49 =>
    arm [(fB w) == 0, (fX w) == 0] (.hconj (fD w) (fA w))
  | 0x4A =>
    arm [(fB w) == 0, (fX w) == 0] (.hnorm (fD w) (fA w))
  | 0x4B =>
    arm [(fX w) == 0] (.hfma (fD w) (fA w) (fB w))
  | 0x4C =>
    arm [(fB w) == 0, (fX w) == 0] (.pnpk (fD w) (fA w))
  | 0x4D =>
    arm [(fB w) == 0] (.pnunpk (fD w) (fA w) ((fX w).getLsbD 3) ((fX w).extractLsb' 0 3))
  | 0x4E =>
    arm [] (.pnexp (fD w) (fA w) (fB w) ((fX w).getLsbD 3) ((fX w).extractLsb' 0 3))
  | 0x4F =>
    arm [(fB w) == 0, (fX w) == 0] (.algld (fD w) (fA w))
  | _ => .error .unassignedOpcode

/-- Opcodes 0x50 to 0x5F: memory (R247 to R265). -/
def decodeMemory (w : Word) : Except DecodeReject Instr :=
  match (fOp w).toNat with
  | 0x50 =>
    arm [] (.ld (fD w) (fA w) (fLa w) (fSz w) (fOff4 w))
  | 0x51 =>
    arm [] (.st (fD w) (fA w) (fLa w) (fSz w) (fOff4 w))
  | 0x52 =>
    if (fLa w) != 0 then .error .lookaheadNotAllowed else arm [] (.lds (fD w) (fA w) (fSz w) (fOff4 w))
  | 0x53 =>
    if (fLa w) != 0 then .error .lookaheadNotAllowed else arm [] (.sts (fD w) (fA w) (fSz w) (fOff4 w))
  | 0x54 =>
    if (fLa w) != 0 then .error .lookaheadNotAllowed else arm [] (.ldl (fD w) (fA w) (fSz w) (fOff4 w))
  | 0x55 =>
    if (fLa w) != 0 then .error .lookaheadNotAllowed else arm [] (.stl (fD w) (fA w) (fSz w) (fOff4 w))
  | 0x56 =>
    arm [] (.pref (fD w) (fA w) (fLa w) (fSz w) (fOff4 w))
  | 0x57 =>
    (match AtomOp.ofCode (fOff4 w).toNat with
      | some o => arm [] (.atom (fD w) (fA w) (fLa w) (fSz w) o)
      | none => .error .reservedSelection)
  | 0x58 =>
    (match AtomOp.ofCode (fOff4 w).toNat with
      | some o => if (fLa w) != 0 then .error .lookaheadNotAllowed else arm [] (.atoms (fD w) (fA w) (fSz w) o)
      | none => .error .reservedSelection)
  | 0x59 =>
    arm [((fD w).extractLsb' 1 6) == 0, (fA w) == 0, ((fImm w).extractLsb' 5 6) == 0] (.fence ((fD w).getLsbD 0) ((fImm w).extractLsb' 0 5))
  | 0x5A =>
    arm [] (.acqrm (fD w) (fA w) (fLa w) (fSz w) (fOff4 w))
  | 0x5B =>
    arm [] (.mcst (fD w) (fA w) (fLa w) (fSz w) (fOff4 w))
  | 0x5C =>
    arm [] (.redld (fD w) (fA w) (fLa w) (fSz w) (fOff4 w))
  | _ => .error .unassignedOpcode

/-- Opcodes 0x60 to 0x6F: barriers, signals, engines and the array (R184 to R194, R290 to R301). -/
def decodeEngine (w : Word) : Except DecodeReject Instr :=
  match (fOp w).toNat with
  | 0x60 =>
    arm [((fD w).extractLsb' 1 6) == 0, ((fImm w).extractLsb' 2 9) == 0] (.bar ((fD w).getLsbD 0) (fA w) ((fImm w).extractLsb' 0 2))
  | 0x61 =>
    arm [(fD w) == 0, (fA w) == 0, (fImm w) == 0] (.barc)
  | 0x62 =>
    if (fSz w) != 4 then .error .sigwaitSize else arm [] (.sigwait (fD w) (fA w) (fLa w) (fOff4 w))
  | 0x63 =>
    arm [(fD w) == 0, (fX w) == 0] (.sigadd (fA w) (fB w))
  | 0x64 =>
    arm [((fD w).extractLsb' 2 5) == 0, (fA w) == 0] (.waitc ((fD w).extractLsb' 0 2) ((fImm w).extractLsb' 8 3) ((fImm w).extractLsb' 0 8))
  | 0x65 =>
    arm [((fD w).extractLsb' 1 6) == 0] (.xacq ((fD w).getLsbD 0) (fA w) (fImm w))
  | 0x66 =>
    arm [(fD w) == 0, (fA w) == 0, (fImm w) == 0] (.xrel)
  | 0x67 =>
    if (fLa w) != 0 then .error .lookaheadNotAllowed else arm [(fFl w) == 0] (.recld (fD w) (fA w) (fXs w))
  | 0x68 =>
    arm [((fFl w).extractLsb' 2 1) == 0] (.cpin (fD w) (fA w) (fLa w) (fXs w) ((fFl w).getLsbD 1) ((fFl w).getLsbD 0))
  | 0x69 =>
    arm [((fFl w).extractLsb' 2 1) == 0] (.cpout (fD w) (fA w) (fLa w) (fXs w) ((fFl w).getLsbD 1) ((fFl w).getLsbD 0))
  | 0x6A =>
    arm [((fFl w).extractLsb' 2 1) == 0] (.cpst (fD w) (fA w) (fLa w) (fXs w) ((fFl w).getLsbD 1) ((fFl w).getLsbD 0))
  | 0x6B =>
    arm [((fFl w).extractLsb' 2 1) == 0] (.cpgath (fD w) (fA w) (fLa w) (fXs w) ((fFl w).getLsbD 1) ((fFl w).getLsbD 0))
  | 0x6C =>
    if (fLa w) != 0 then .error .lookaheadNotAllowed else arm [] (.clampld (fD w) (fA w) (fXs w) ((fFl w).getLsbD 2) ((fFl w).getLsbD 1) ((fFl w).getLsbD 0))
  | 0x6D =>
    (match (fX w).toNat with
    | 0 => arm [((fB w).extractLsb' 6 1) == 0] (.mma (fD w) (fA w) ((fB w).extractLsb' 2 4) ((fB w).extractLsb' 0 2))
    | 1 => arm [((fB w).extractLsb' 6 1) == 0] (.mmar (fD w) (fA w) ((fB w).extractLsb' 2 4) ((fB w).extractLsb' 0 2))
    | _ => .error .reservedSelection)
  | 0x6E =>
    (match (fX w).toNat with
    | 0 => arm [(fD w) == 0, (fB w) == 0] (.accz (fA w))
    | 1 => arm [] (.accld (fD w) (fA w) ((fB w).extractLsb' 5 2) ((fB w).extractLsb' 0 5))
    | 2 => arm [] (.accst (fD w) (fA w) ((fB w).extractLsb' 5 2) ((fB w).extractLsb' 0 5))
    | _ => .error .reservedSelection)
  | 0x6F =>
    if (fLa w) != 0 then .error .lookaheadNotAllowed else arm [(fFl w) == 0] (.omap (fD w) (fA w) (fXs w))
  | _ => .error .unassignedOpcode

/-- Opcodes 0x70 to 0x7F: launch, collectives, checks, wear, counters and system (R306, R307, R378 to R401). -/
def decodeSystem (w : Word) : Except DecodeReject Instr :=
  match (fOp w).toNat with
  | 0x70 =>
    arm [(fXs w) == 0, (fFl w) == 0] (.launch (fD w) (fA w) (fLa w))
  | 0x71 =>
    (match CollOp.ofCode (fFl w).toNat with
      | some g => arm [(fXs w) == 0] (.coll (fD w) (fA w) (fLa w) g)
      | none => .error .reservedSelection)
  | 0x72 =>
    arm [(fB w) == 0, ((fX w).extractLsb' 1 3) == 0] (.ckfold (fD w) (fA w) ((fX w).getLsbD 0))
  | 0x73 =>
    arm [(fD w) == 0, (fB w) == 0, ((fX w).extractLsb' 1 3) == 0] (.cktest (fA w) ((fX w).getLsbD 0))
  | 0x74 =>
    arm [(fD w) == 0, (fA w) == 0, (fImm w) == 0] (.ckclr)
  | 0x75 =>
    arm [(fB w) == 0, (fX w) == 0] (.boost (fD w) (fA w))
  | 0x76 =>
    arm [((fImm w).extractLsb' 4 4) == 0] (.rdwear (fD w) (fA w) ((fImm w).extractLsb' 8 3) ((fImm w).extractLsb' 0 4))
  | 0x77 =>
    arm [(fA w) == 0] (.rdlife (fD w) (fImm w))
  | 0x78 =>
    arm [(fA w) == 0] (.rdcnt (fD w) (fImm w))
  | 0x79 =>
    arm [(fA w) == 0, (fImm w) == 0] (.rdtime (fD w))
  | 0x7A =>
    arm [(fD w) == 0, (fImm w) == 0] (.tileb (fA w))
  | 0x7B =>
    arm [(fD w) == 0, (fA w) == 0, (fImm w) == 0] (.tilee)
  | 0x7C =>
    arm [(fA w) == 0] (.mfsr (fD w) (fImm w))
  | 0x7D =>
    arm [(fD w) == 0] (.mtsr (fA w) (fImm w))
  | 0x7E =>
    arm [(fD w) == 0, (fA w) == 0] (.ecall (fImm w))
  | 0x7F =>
    (match (fD w).toNat with
    | 0 => arm [(fA w) == 0, (fImm w) == 0] (.eret)
    | 1 => arm [((fImm w).extractLsb' 3 8) == 0] (.tlbi (fA w) ((fImm w).extractLsb' 0 3))
    | _ => .error .reservedSelection)
  | _ => .error .unassignedOpcode

/-- Decode an instruction word; `lit` is the word that follows it, which only LIT reads (R79). -/
def decodeWord (w lit : Word) : Except DecodeReject Instr :=
  let op := (fOp w).toNat
  if op < 0x10 then decodeControl w
  else if op < 0x20 then decodeScalar w lit
  else if op < 0x30 then decodeVecInt w
  else if op < 0x40 then decodeFloat w
  else if op < 0x48 then decodeLane w
  else if op < 0x50 then decodeAlgebra w
  else if op < 0x60 then decodeMemory w
  else if op < 0x70 then decodeEngine w
  else decodeSystem w

/-- A word of a well-formed LIT, whose literal word follows (R79, R135). -/
def isLit (w : Word) : Bool := fOp w == 0x14#7 && fA w == 0 && fImm w == 0

/-- Four bytes as a word, the lowest address first (R3, R68). -/
def wordOfBytes (b0 b1 b2 b3 : Byte) : Word := b3 ++ b2 ++ b1 ++ b0

/-- A word as four bytes, the lowest address first (R3, R68). -/
def bytesOfWord (w : Word) : List Byte :=
  [w.extractLsb' 0 8, w.extractLsb' 8 8, w.extractLsb' 16 8, w.extractLsb' 24 8]

/-- Decode the instruction at the head of a text of bytes, and answer the rest of the text. -/
def decodeBytes : List Byte → Except DecodeReject (Instr × List Byte)
  | b0 :: b1 :: b2 :: b3 :: rest =>
    let w := wordOfBytes b0 b1 b2 b3
    if isLit w then
      match rest with
      | c0 :: c1 :: c2 :: c3 :: rest' => (decodeWord w (wordOfBytes c0 c1 c2 c3)).map (·, rest')
      | _ => .error .truncated
    else (decodeWord w 0).map (·, rest)
  | _ => .error .truncated

/-- The length in bytes of an instruction: 8 for LIT, 4 for every other (R68). -/
def Instr.size : Instr → Nat
  | .lit _ _ => 8
  | _ => 4

/-- The instruction that the decoder reads where the bits of its words are `w`, bit 0 the least significant bit of the
first word; the bits above `nbits` are zero. -/
def decodeTableWord (nbits w : Nat) : Option Instr :=
  let bits := w % 2 ^ nbits
  match decodeBytes (bytesOfWord (BitVec.ofNat 32 bits) ++ bytesOfWord (BitVec.ofNat 32 (bits / 2 ^ 32))) with
  | .ok (i, _) => some i
  | .error _ => none

/-- The words of an instruction, from the encoding tables (R69, R76, and each entry). An event has none. -/
def encode : Instr → List Word
  | .nop => [packS 0x00#7 0#7 0#7 0#11]
  | .setmode s w a i => [packS 0x01#7 (0#1 ++ BitVec.ofBool s ++ w) a i]
  | .setgrd s a i => [packS 0x02#7 (0#1 ++ BitVec.ofBool s ++ 0#5) a (0#6 ++ i)]
  | .setmem s w a i => [packS 0x0F#7 (0#1 ++ BitVec.ofBool s ++ 0#3 ++ w) a (0#6 ++ i)]
  | .bra j => [packJ 0x03#7 0#3 j]
  | .brc p j => [packJ 0x04#7 p j]
  | .bru c j => [packJ 0x05#7 (BitVec.ofNat 3 c.code) j]
  | .mark j => [packJ 0x06#7 0#3 j]
  | .join => [packS 0x07#7 0#7 0#7 0#11]
  | .brp a i => [packS 0x08#7 0#7 a i]
  | .brpSynchronise _ => []
  | .regroupReturn _ _ => []
  | .call j => [packJ 0x09#7 0#3 j]
  | .ret a => [packS 0x0A#7 0#7 a 0#11]
  | .jmpr a => [packS 0x0B#7 0#7 a 0#11]
  | .exit => [packS 0x0C#7 0#7 0#7 0#11]
  | .groupExitRelease _ => []
  | .flashpt i => [packS 0x0D#7 0#7 0#7 i]
  | .trap i => [packS 0x0E#7 0#7 0#7 i]
  | .bkpt i => [packS 0x0E#7 1#7 0#7 i]
  | .yield i => [packS 0x0E#7 2#7 0#7 i]
  | .yieldCountExpiry _ => []
  | .sadd d a b => [packR 0x10#7 d a b 0#4]
  | .ssub d a b => [packR 0x10#7 d a b 1#4]
  | .smul d a b => [packR 0x10#7 d a b 2#4]
  | .smulh d a b => [packR 0x10#7 d a b 3#4]
  | .sand d a b => [packR 0x10#7 d a b 4#4]
  | .sor d a b => [packR 0x10#7 d a b 5#4]
  | .sxor d a b => [packR 0x10#7 d a b 6#4]
  | .sshl d a b => [packR 0x10#7 d a b 7#4]
  | .sshr d a b => [packR 0x10#7 d a b 8#4]
  | .ssra d a b => [packR 0x10#7 d a b 9#4]
  | .smin d a b => [packR 0x10#7 d a b 10#4]
  | .smax d a b => [packR 0x10#7 d a b 11#4]
  | .sminn d a b => [packR 0x10#7 d a b 12#4]
  | .smaxn d a b => [packR 0x10#7 d a b 13#4]
  | .saddi d a i => [packI 0x11#7 d a i]
  | .sandi d a i => [packI 0x12#7 d a i]
  | .sori d a i => [packI 0x13#7 d a i]
  | .lit d lit => [packI 0x14#7 d 0#7 0#11, lit]
  | .scmp a b c => [packR 0x15#7 0#7 a b (BitVec.ofNat 4 c.code)]
  | .ssel d a b => [packR 0x16#7 d a b 0#4]
  | .sld d a l z f => [packL 0x17#7 d a l z f]
  | .sst d a l z f => [packL 0x18#7 d a l z f]
  | .mfs d i => [packI 0x19#7 d 0#7 i]
  | .iadd d a b => [packR 0x20#7 d a b 0#4]
  | .isub d a b => [packR 0x20#7 d a b 1#4]
  | .imul d a b => [packR 0x20#7 d a b 2#4]
  | .imulh d a b => [packR 0x20#7 d a b 3#4]
  | .imin d a b => [packR 0x20#7 d a b 4#4]
  | .imax d a b => [packR 0x20#7 d a b 5#4]
  | .iabs d a => [packR 0x20#7 d a 0#7 6#4]
  | .ineg d a => [packR 0x20#7 d a 0#7 7#4]
  | .iand d a b => [packR 0x20#7 d a b 8#4]
  | .ior d a b => [packR 0x20#7 d a b 9#4]
  | .ixor d a b => [packR 0x20#7 d a b 10#4]
  | .inot d a => [packR 0x20#7 d a 0#7 11#4]
  | .ishl d a b => [packR 0x20#7 d a b 12#4]
  | .ishr d a b => [packR 0x20#7 d a b 13#4]
  | .iaddScalarB d a b => [packR 0x21#7 d a b 0#4]
  | .isubScalarB d a b => [packR 0x21#7 d a b 1#4]
  | .imulScalarB d a b => [packR 0x21#7 d a b 2#4]
  | .imulhScalarB d a b => [packR 0x21#7 d a b 3#4]
  | .iminScalarB d a b => [packR 0x21#7 d a b 4#4]
  | .imaxScalarB d a b => [packR 0x21#7 d a b 5#4]
  | .iandScalarB d a b => [packR 0x21#7 d a b 8#4]
  | .iorScalarB d a b => [packR 0x21#7 d a b 9#4]
  | .ixorScalarB d a b => [packR 0x21#7 d a b 10#4]
  | .ishlScalarB d a b => [packR 0x21#7 d a b 12#4]
  | .ishrScalarB d a b => [packR 0x21#7 d a b 13#4]
  | .imad d a b => [packR 0x22#7 d a b 0#4]
  | .icmp d a b c => [packR 0x23#7 d a b (BitVec.ofNat 4 c.code)]
  | .isel d a b p => [packR 0x24#7 d a b (0#1 ++ p)]
  | .popc d a => [packR 0x25#7 d a 0#7 0#4]
  | .clz d a => [packR 0x25#7 d a 0#7 1#4]
  | .ctz d a => [packR 0x25#7 d a 0#7 2#4]
  | .brev d a => [packR 0x25#7 d a 0#7 3#4]
  | .bfe d a b s => [packR 0x26#7 d a b (0#3 ++ BitVec.ofBool s)]
  | .bfi d a b => [packR 0x27#7 d a b 0#4]
  | .lea d a b x => [packR 0x28#7 d a b x]
  | .iaddi d a i => [packI 0x29#7 d a i]
  | .ishli d a i => [packI 0x2A#7 d a i]
  | .ishri d a i => [packI 0x2B#7 d a i]
  | .vmov d a => [packR 0x2C#7 d a 0#7 0#4]
  | .vli d i => [packV 0x2D#7 d i]
  | .fadd d a b => [packR 0x30#7 d a b 0#4]
  | .fsub d a b => [packR 0x30#7 d a b 1#4]
  | .fmul d a b => [packR 0x30#7 d a b 2#4]
  | .fmin d a b => [packR 0x30#7 d a b 3#4]
  | .fmax d a b => [packR 0x30#7 d a b 4#4]
  | .fabs d a => [packR 0x30#7 d a 0#7 5#4]
  | .fneg d a => [packR 0x30#7 d a 0#7 6#4]
  | .fcopysign d a b => [packR 0x30#7 d a b 7#4]
  | .faddScalarB d a b => [packR 0x31#7 d a b 0#4]
  | .fsubScalarB d a b => [packR 0x31#7 d a b 1#4]
  | .fmulScalarB d a b => [packR 0x31#7 d a b 2#4]
  | .fminScalarB d a b => [packR 0x31#7 d a b 3#4]
  | .fmaxScalarB d a b => [packR 0x31#7 d a b 4#4]
  | .fcopysignScalarB d a b => [packR 0x31#7 d a b 7#4]
  | .ffma d a b => [packR 0x32#7 d a b 0#4]
  | .ffms d a b => [packR 0x32#7 d a b 1#4]
  | .fnfma d a b => [packR 0x32#7 d a b 2#4]
  | .fcmp d a b c => [packR 0x33#7 d a b (BitVec.ofNat 4 c.code)]
  | .frcp d a => [packR 0x34#7 d a 0#7 0#4]
  | .frsq d a => [packR 0x34#7 d a 0#7 1#4]
  | .fsqrt d a => [packR 0x34#7 d a 0#7 2#4]
  | .fexp2 d a => [packR 0x34#7 d a 0#7 3#4]
  | .flog2 d a => [packR 0x34#7 d a 0#7 4#4]
  | .fsin d a => [packR 0x34#7 d a 0#7 5#4]
  | .fcos d a => [packR 0x34#7 d a 0#7 6#4]
  | .fdiv d a b => [packR 0x34#7 d a b 7#4]
  | .fcvt d a t => [packR 0x35#7 d a 0#7 (BitVec.ofNat 4 t.code)]
  | .fround d a => [packR 0x36#7 d a 0#7 0#4]
  | .fclass d a => [packR 0x37#7 d a 0#7 0#4]
  | .pand d a b => [packR 0x40#7 d a b 0#4]
  | .por d a b => [packR 0x40#7 d a b 1#4]
  | .pxor d a b => [packR 0x40#7 d a b 2#4]
  | .pnot d a => [packR 0x40#7 d a 0#7 3#4]
  | .pmov d a => [packR 0x40#7 d a 0#7 4#4]
  | .ballot d a => [packR 0x41#7 d a 0#7 0#4]
  | .pfroms d a => [packR 0x41#7 d a 0#7 1#4]
  | .vote d a v => [packR 0x42#7 d a 0#7 (BitVec.ofNat 4 v.code)]
  | .shfl d a b v => [packR 0x43#7 d a b (BitVec.ofNat 4 v.code)]
  | .vtos d a f n => [packR 0x44#7 d a (BitVec.ofBool f ++ 0#1 ++ n) 0#4]
  | .stov d a => [packR 0x45#7 d a 0#7 0#4]
  | .gred d a o => [packR 0x46#7 d a 0#7 (BitVec.ofNat 4 o.code)]
  | .gscan d a e o => [packR 0x47#7 d a 0#7 (BitVec.ofBool e ++ BitVec.ofNat 3 o.code)]
  | .hmul d a b => [packR 0x48#7 d a b 0#4]
  | .hconj d a => [packR 0x49#7 d a 0#7 0#4]
  | .hnorm d a => [packR 0x4A#7 d a 0#7 0#4]
  | .hfma d a b => [packR 0x4B#7 d a b 0#4]
  | .pnpk d a => [packR 0x4C#7 d a 0#7 0#4]
  | .pnunpk d a c p => [packR 0x4D#7 d a 0#7 (BitVec.ofBool c ++ p)]
  | .pnexp d a b c p => [packR 0x4E#7 d a b (BitVec.ofBool c ++ p)]
  | .algld d a => [packR 0x4F#7 d a 0#7 0#4]
  | .ld d a l z f => [packL 0x50#7 d a l z f]
  | .st d a l z f => [packL 0x51#7 d a l z f]
  | .lds d a z f => [packL 0x52#7 d a 0#4 z f]
  | .sts d a z f => [packL 0x53#7 d a 0#4 z f]
  | .ldl d a z f => [packL 0x54#7 d a 0#4 z f]
  | .stl d a z f => [packL 0x55#7 d a 0#4 z f]
  | .pref h a l z f => [packL 0x56#7 h a l z f]
  | .atom d a l z o => [packL 0x57#7 d a l z (BitVec.ofNat 4 o.code)]
  | .atoms d a z o => [packL 0x58#7 d a 0#4 z (BitVec.ofNat 4 o.code)]
  | .fence f i => [packS 0x59#7 (0#6 ++ BitVec.ofBool f) 0#7 (0#6 ++ i)]
  | .acqrm d a l z f => [packL 0x5A#7 d a l z f]
  | .mcst d a l z f => [packL 0x5B#7 d a l z f]
  | .redld d a l z f => [packL 0x5C#7 d a l z f]
  | .bar m a b => [packS 0x60#7 (0#6 ++ BitVec.ofBool m) a (0#9 ++ b)]
  | .barc => [packS 0x61#7 0#7 0#7 0#11]
  | .sigwait d a l f => [packL 0x62#7 d a l 4#3 f]
  | .sigwaitSatisfied _ => []
  | .sigadd a b => [packR 0x63#7 0#7 a b 0#4]
  | .waitc k s n => [packS 0x64#7 (0#5 ++ k) 0#7 (s ++ n)]
  | .xacq r a i => [packS 0x65#7 (0#6 ++ BitVec.ofBool r) a i]
  | .xacqGrant _ => []
  | .xrel => [packS 0x66#7 0#7 0#7 0#11]
  | .recld d a s => [packT 0x67#7 d a 0#4 s 0#3]
  | .cpin d a l s t g => [packT 0x68#7 d a l s (0#1 ++ BitVec.ofBool t ++ BitVec.ofBool g)]
  | .cpout d a l s t g => [packT 0x69#7 d a l s (0#1 ++ BitVec.ofBool t ++ BitVec.ofBool g)]
  | .cpst d a l s t g => [packT 0x6A#7 d a l s (0#1 ++ BitVec.ofBool t ++ BitVec.ofBool g)]
  | .cpgath d a l s t g => [packT 0x6B#7 d a l s (0#1 ++ BitVec.ofBool t ++ BitVec.ofBool g)]
  | .clampld d a s e c l => [packT 0x6C#7 d a 0#4 s (BitVec.ofBool e ++ BitVec.ofBool c ++ BitVec.ofBool l)]
  | .clampFillStart _ => []
  | .clampFillComplete _ => []
  | .mma d a p b => [packR 0x6D#7 d a (0#1 ++ p ++ b) 0#4]
  | .mmar d a p b => [packR 0x6D#7 d a (0#1 ++ p ++ b) 1#4]
  | .arrayStreamStart _ => []
  | .arrayLastRowRead _ => []
  | .arrayLastAccumulatorWrite _ => []
  | .accz a => [packR 0x6E#7 0#7 a 0#7 0#4]
  | .accld d a q c => [packR 0x6E#7 d a (q ++ c) 1#4]
  | .accst d a q c => [packR 0x6E#7 d a (q ++ c) 2#4]
  | .omap d a s => [packT 0x6F#7 d a 0#4 s 0#3]
  | .launch d a l => [packT 0x70#7 d a l 0#4 0#3]
  | .launchPacketEntry _ => []
  | .coll d a l g => [packT 0x71#7 d a l 0#4 (BitVec.ofNat 3 g.code)]
  | .collComplete _ _ => []
  | .ckfold d a x => [packR 0x72#7 d a 0#7 (0#3 ++ BitVec.ofBool x)]
  | .cktest a x => [packR 0x73#7 0#7 a 0#7 (0#3 ++ BitVec.ofBool x)]
  | .ckclr => [packS 0x74#7 0#7 0#7 0#11]
  | .boost d a => [packR 0x75#7 d a 0#7 0#4]
  | .rdwear d a k f => [packI 0x76#7 d a (k ++ 0#4 ++ f)]
  | .rdlife d i => [packI 0x77#7 d 0#7 i]
  | .rdcnt d i => [packI 0x78#7 d 0#7 i]
  | .rdtime d => [packI 0x79#7 d 0#7 0#11]
  | .tileb a => [packI 0x7A#7 0#7 a 0#11]
  | .tilee => [packI 0x7B#7 0#7 0#7 0#11]
  | .stampRecordWrite _ _ => []
  | .mfsr d i => [packI 0x7C#7 d 0#7 i]
  | .mtsr a i => [packI 0x7D#7 0#7 a i]
  | .ecall i => [packS 0x7E#7 0#7 0#7 i]
  | .eret => [packS 0x7F#7 0#7 0#7 0#11]
  | .tlbi a k => [packS 0x7F#7 1#7 a (0#8 ++ k)]
  | .longLatencyComplete _ _ => []
  | .releaseLogProbe _ _ => []
  | .replicaLockTimeout _ _ => []
  | .stashLineFill _ _ => []
  | .directoryRecall _ => []
  | .patrolScrub _ _ => []
  | .bankRefresh _ _ _ => []
  | .groupGuarded _ => []
  | .watchdogExpiry _ => []
  | .registerWaitDeadlock _ => []
  | .copyStart _ => []
  | .copyComplete _ => []
  | .mcstDestinationWrite _ _ => []
  | .redldResponse _ _ _ _ => []
  | .algldComplete _ => []
  | .launchPortWrite _ _ _ => []
  | .packetAccept _ _ => []
  | .dispatchDecision _ => []
  | .gangFence _ => []
  | .teamRetire _ => []
  | .dependencyTimeout _ _ => []
  | .intervalBoundary => []
  | .spareSwapOut _ => []
  | .monitorMeasurement _ => []
  | .boostThermalDrop _ => []
  | .sliceEnd _ => []
  | .unrwlimExpiry _ => []
  | .saveImageTaken _ => []
  | .admission _ _ => []
  | .coreSetReplacement _ _ _ => []
  | .carveApply _ => []
  | .epochClose _ => []
  | .checkpointPageStream _ _ => []
  | .framePullComplete _ _ _ => []
  | .migrationSwitch _ => []
  | .migrationNotice _ _ _ _ => []
  | .migrationAcknowledgement _ _ _ => []
  | .forwardingExpiry _ _ => []
  | .forwardedAccess _ _ _ => []
  | .migrationSourceLost _ => []
  | .fabricRequest _ _ => []
  | .fabricLinkDown _ _ => []
  | .cxlLinkDown _ => []
  | .moduleReset => []
  | .boot => []
  | .powerExitComplete _ => []
  | .sample _ => []
  | .triggerStage _ => []
  | .counterLowRead _ => []
  | .counterHighRead _ => []
  | .hostRegisterWrite _ _ => []
  | .createVdev _ => []
  | .destroyVdev _ => []
  | .launchCommand _ => []
  | .save _ => []
  | .restore _ => []
  | .migrateOut _ => []
  | .migrateIn _ => []
  | .checkpointDisable _ => []
  | .checkpointRun _ => []
  | .checkpointCloseNow _ => []
  | .setLife _ => []
  | .boostPolicy _ => []
  | .attest _ => []
  | .partition _ => []
  | .carve _ => []
  | .debugAttachAttach _ => []
  | .debugAttachDetach _ => []
  | .debugAttachStop _ => []
  | .debugAttachStep _ => []
  | .debugAttachSetSampling _ => []
  | .debugAttachSetTriggers _ => []
  | .dump _ => []
  | .dumpOpen _ => []
  | .retirePage _ => []
  | .factorTables _ => []
  | .answerResume _ => []
  | .answerAbort _ => []
  | .answerReplay _ => []
  | .answerDecline _ => []
  | .tablesSetS1root _ => []
  | .tablesSetS2root _ => []
  | .tablesInvalidate _ => []
  | .tablesSetWindowGrant _ => []
  | .tablesSetReplicaEntry _ => []
  | .tablesExtendMeasurement _ => []
  | .commsSetCommunicator _ => []
  | .commsRemoveCommunicator _ => []
  | .commsSetReductionGroup _ => []
  | .commsRemoveReductionGroup _ => []
  | .powerQuadrantRest _ => []
  | .powerDeepIdle _ => []
  | .powerExit _ => []
  | .logsFaultQueueState _ => []
  | .logsAdvanceTail _ => []
  | .logsReadEventLog _ => []
  | .logsSetEventInterrupt _ => []
  | .logsClearCounters _ => []
  | .getVersion _ => []
  | .getCapabilities _ => []
  | .negotiateAlgorithms _ => []
  | .getDigests _ => []
  | .getCertificate _ => []
  | .challenge _ => []
  | .getMeasurements _ => []
  | .keyExchange _ => []
  | .finish _ => []
  | .endSession _ => []
  | .hostMemoryAccess _ => []
  | .pullRequest _ _ _ => []
  | .fabricRouteRestored _ _ => []
  | .powerLoss => []
  | .haltRelease _ => []
  | .coreRetirement _ _ => []

end Sys2Proof
end

