-- ==== Sys2Proof/Machine/Num.lean ====
section
/-! DEFINITION. Number formats and arithmetic (R44 to R67): the floating formats, rounding, conversion, saturation, the
plane-nested integers and the sums of the matrix array. Everything is exact integer arithmetic that narrows once. -/

namespace Sys2Proof.Num

/-- A floating format: the widths of its exponent and fraction fields (R47). -/
structure Fmt where
  ebits : Nat
  fbits : Nat
  deriving DecidableEq, Repr

/-- binary64 (R47). -/
def b64 : Fmt := ⟨11, 52⟩
/-- binary32 (R47). -/
def b32 : Fmt := ⟨8, 23⟩
/-- binary16, FP16 (R47). -/
def b16 : Fmt := ⟨5, 10⟩
/-- BF16 (R47). -/
def bf16 : Fmt := ⟨8, 7⟩

/-- The exponent bias (R47). -/
def Fmt.bias (f : Fmt) : Nat := 2 ^ (f.ebits - 1) - 1
/-- The width in bits (R47). -/
def Fmt.width (f : Fmt) : Nat := 1 + f.ebits + f.fbits
/-- The encoding of plus infinity (R48). -/
def Fmt.infCode (f : Fmt) : Nat := (2 ^ f.ebits - 1) * 2 ^ f.fbits
/-- The encoding of the largest finite value (R48). -/
def Fmt.maxCode (f : Fmt) : Nat := f.infCode - 1
/-- The sign bit. -/
def Fmt.signBit (f : Fmt) : Nat := 2 ^ (f.ebits + f.fbits)
/-- The default NaN (R48, R49). -/
def Fmt.nanCode (f : Fmt) : Nat := f.infCode + 2 ^ (f.fbits - 1)
/-- The binary exponent of the unit of a subnormal significand (R47, R48). -/
def Fmt.emin (f : Fmt) : Int := 1 - (f.bias : Int) - (f.fbits : Int)

/-- The rounding modes of gmode.RND (R51). -/
inductive Rnd where
  | rne | rtz | rdn | rup | rna
  deriving DecidableEq, Repr

/-- The rounding mode of a code 0..4; gmode holds no other (R73, R114). -/
def Rnd.ofCode : Nat → Rnd
  | 0 => .rne | 1 => .rtz | 2 => .rdn | 3 => .rup | _ => .rna

/-- How a vector floating operation rounds: RND, SAT and FTZ of gmode (R51, R53, R55). -/
structure Ctl where
  rnd : Rnd
  sat : Bool
  ftz : Bool
  deriving DecidableEq, Repr

/-- The control of the matrix array: RNE, no saturation, subnormals kept (R63, R55). -/
def Ctl.array : Ctl := ⟨.rne, false, false⟩

/-- A floating value: a NaN, an infinity, or (-1)^neg * m * 2^e. -/
inductive FVal where
  | nan
  | inf (neg : Bool)
  | fin (neg : Bool) (m : Nat) (e : Int)
  deriving DecidableEq, Repr

/-- The value of an encoding (R47). -/
def Fmt.decode (f : Fmt) (c : Nat) : FVal :=
  let neg := decide (f.signBit ≤ c % (2 * f.signBit))
  let mag := c % f.signBit
  let ex := mag / 2 ^ f.fbits
  let fr := mag % 2 ^ f.fbits
  if f.infCode < mag then .nan
  else if mag = f.infCode then .inf neg
  else if ex = 0 then .fin neg fr f.emin
  else .fin neg (2 ^ f.fbits + fr) (f.emin + (ex : Int) - 1)

/-- A magnitude code with its sign (R47). -/
def Fmt.signed (f : Fmt) (neg : Bool) (mag : Nat) : Nat := if neg then f.signBit + mag else mag

/-- An encoding read as a value, a subnormal read as zero under FTZ (R55). -/
def Fmt.input (f : Fmt) (ftz : Bool) (c : Nat) : FVal :=
  match f.decode c with
  | .fin neg m e => if ftz && decide (m < 2 ^ f.fbits) then .fin neg 0 e else .fin neg m e
  | v => v

/-- Whether the truncated magnitude `q` goes up by one unit, `half` being the remainder against half a unit and
`inexact` its presence (R51). -/
def roundUp (rnd : Rnd) (neg : Bool) (q : Nat) (half : Ordering) (inexact : Bool) : Bool :=
  match rnd with
  | .rne => half == .gt || (half == .eq && decide (q % 2 = 1))
  | .rna => half == .gt || half == .eq
  | .rtz => false
  | .rdn => inexact && neg
  | .rup => inexact && !neg

/-- The result of an overflow (R52). -/
def Fmt.overflow (f : Fmt) (rnd : Rnd) (neg : Bool) : Nat :=
  match rnd, neg with
  | .rtz, _ => f.maxCode
  | .rdn, false => f.maxCode
  | .rup, true => f.maxCode
  | _, _ => f.infCode

/-- The magnitude code of a positive exact value m * 2^e, plus a part of the lowest unit when `sticky`, rounded once
(R51, R52). The callers of a sticky value give `m` more bits than the format holds. -/
def Fmt.roundMag (f : Fmt) (rnd : Rnd) (neg : Bool) (m : Nat) (e : Int) (sticky : Bool) : Nat :=
  let top : Int := e + (Nat.log2 m : Int) + 1
  let q : Int := max (top - ((f.fbits : Int) + 1)) f.emin
  let base := (q - f.emin).toNat * 2 ^ f.fbits
  if q ≤ e then
    let code := base + m * 2 ^ (e - q).toNat
    if f.infCode ≤ code then f.overflow rnd neg else code
  else
    let sh := (q - e).toNat
    let trunc := m / 2 ^ sh
    let rem := m % 2 ^ sh
    let half := 2 ^ (sh - 1)
    let ord : Ordering := if rem < half then .lt else if half < rem then .gt else if sticky then .gt else .eq
    let inexact := decide (rem ≠ 0) || sticky
    let code := base + trunc + (if roundUp rnd neg trunc ord inexact then 1 else 0)
    if f.infCode ≤ code then f.overflow rnd neg else code

/-- SAT and FTZ applied to a magnitude code (R53, R55). -/
def Fmt.finish (f : Fmt) (c : Ctl) (mag : Nat) : Nat :=
  if c.sat && decide (mag = f.infCode) then f.maxCode
  else if c.ftz && decide (mag < 2 ^ f.fbits) then 0
  else mag

/-- The encoding of a value in a format, rounded once, with SAT and FTZ (R49 to R55). -/
def Fmt.encode (f : Fmt) (c : Ctl) : FVal → Nat
  | .nan => f.nanCode
  | .inf neg => f.signed neg (f.finish c f.infCode)
  | .fin neg m e => if m = 0 then f.signed neg 0 else f.signed neg (f.finish c (f.roundMag c.rnd neg m e false))

/-- The encoding of a finite nonzero value known to within a part of its lowest unit. -/
def Fmt.encodeSticky (f : Fmt) (c : Ctl) (neg : Bool) (m : Nat) (e : Int) (sticky : Bool) : Nat :=
  if m = 0 then f.signed neg 0 else f.signed neg (f.finish c (f.roundMag c.rnd neg m e sticky))

/-- A signed integer as a value; zero is plus zero. -/
def ofInt (x : Int) (e : Int) : FVal := .fin (decide (x < 0)) x.natAbs e

/-- The signed significand of a finite value. -/
def sigOf (neg : Bool) (m : Nat) : Int := if neg then -(m : Int) else (m : Int)

/-- The exact sum of two values, with the zero sign of R54 under the rounding mode. -/
def addVal (rnd : Rnd) : FVal → FVal → FVal
  | .nan, _ => .nan
  | _, .nan => .nan
  | .inf a, .inf b => if a = b then .inf a else .nan
  | .inf a, .fin _ _ _ => .inf a
  | .fin _ _ _, .inf b => .inf b
  | .fin na ma ea, .fin nb mb eb =>
    if ma = 0 ∧ mb = 0 then .fin (if na = nb then na else rnd == .rdn) 0 0
    else
      let e := min ea eb
      let x := sigOf na ma * 2 ^ (ea - e).toNat + sigOf nb mb * 2 ^ (eb - e).toNat
      if x = 0 then .fin (rnd == .rdn) 0 0 else ofInt x e

/-- The exact product of two values (R49, R54). -/
def mulVal : FVal → FVal → FVal
  | .nan, _ => .nan
  | _, .nan => .nan
  | .inf a, .inf b => .inf (a != b)
  | .inf a, .fin nb mb _ => if mb = 0 then .nan else .inf (a != nb)
  | .fin na ma _, .inf b => if ma = 0 then .nan else .inf (na != b)
  | .fin na ma ea, .fin nb mb eb => .fin (na != nb) (ma * mb) (ea + eb)

/-- The value with its sign inverted. -/
def negVal : FVal → FVal
  | .nan => .nan
  | .inf n => .inf (!n)
  | .fin n m e => .fin (!n) m e

/-- x + y (R154). -/
def fadd (f : Fmt) (c : Ctl) (x y : Nat) : Nat := f.encode c (addVal c.rnd (f.input c.ftz x) (f.input c.ftz y))
/-- x - y (R154). -/
def fsub (f : Fmt) (c : Ctl) (x y : Nat) : Nat := f.encode c (addVal c.rnd (f.input c.ftz x) (negVal (f.input c.ftz y)))
/-- x * y (R154). -/
def fmul (f : Fmt) (c : Ctl) (x y : Nat) : Nat := f.encode c (mulVal (f.input c.ftz x) (f.input c.ftz y))
/-- The fused forms: x * y + z, with the product and the addend negated on request (R155). -/
def ffma (f : Fmt) (c : Ctl) (negProd negAdd : Bool) (x y z : Nat) : Nat :=
  let p := mulVal (f.input c.ftz x) (f.input c.ftz y)
  let a := f.input c.ftz z
  f.encode c (addVal c.rnd (if negProd then negVal p else p) (if negAdd then negVal a else a))

/-- Order of two values that are not NaN; minus zero equals plus zero (R156). -/
def ltVal : FVal → FVal → Bool
  | .fin na ma ea, .fin nb mb eb =>
    let e := min ea eb
    decide (sigOf na ma * 2 ^ (ea - e).toNat < sigOf nb mb * 2 ^ (eb - e).toNat)
  | .inf a, .inf b => a && !b
  | .inf a, .fin _ _ _ => a
  | .fin _ _ _, .inf b => !b
  | _, _ => false

/-- Whether a value is a NaN. -/
def FVal.isNan : FVal → Bool
  | .nan => true
  | _ => false

/-- Whether the sign of a value is minus. -/
def FVal.neg : FVal → Bool
  | .nan => false
  | .inf n => n
  | .fin n _ _ => n

/-- x before y in the order of FMIN and FMAX, where minus zero is less than plus zero (R154). -/
def before (x y : FVal) : Bool := ltVal x y || (!ltVal y x && x.neg && !y.neg)

/-- FMIN (R154). -/
def fmin (f : Fmt) (c : Ctl) (x y : Nat) : Nat :=
  let a := f.input c.ftz x; let b := f.input c.ftz y
  if a.isNan || b.isNan then f.nanCode else f.encode c (if before b a then b else a)
/-- FMAX (R154). -/
def fmax (f : Fmt) (c : Ctl) (x y : Nat) : Nat :=
  let a := f.input c.ftz x; let b := f.input c.ftz y
  if a.isNan || b.isNan then f.nanCode else f.encode c (if before a b then b else a)

/-- The conditions of FCMP (R156). -/
def fcmp (f : Fmt) (ftz : Bool) (cond : FcmpCond) (x y : Nat) : Bool :=
  let a := f.input ftz x; let b := f.input ftz y
  let un := a.isNan || b.isNan
  let lt := ltVal a b; let gt := ltVal b a
  match cond with
  | .eq => !un && !lt && !gt
  | .ne => un || lt || gt
  | .lt => !un && lt
  | .le => !un && !gt
  | .gt => !un && gt
  | .ge => !un && !lt
  | .un => un
  | .ord => !un

/-- x / y, rounded once (R157, R158). The quotient is taken to 130 bits beyond the divisor, so that the remainder only
decides what lies below. -/
def fdiv (src dst : Fmt) (c : Ctl) (x y : Nat) : Nat :=
  match src.input c.ftz x, src.input c.ftz y with
  | .nan, _ => dst.nanCode
  | _, .nan => dst.nanCode
  | .inf _, .inf _ => dst.nanCode
  | .inf a, .fin nb _ _ => dst.encode c (.inf (a != nb))
  | .fin na _ _, .inf b => dst.signed (na != b) 0
  | .fin na ma ea, .fin nb mb eb =>
    if mb = 0 then (if ma = 0 then dst.nanCode else dst.encode c (.inf (na != nb)))
    else if ma = 0 then dst.signed (na != nb) 0
    else
      let num := ma * 2 ^ 130
      dst.encodeSticky c (na != nb) (num / mb) (ea - eb - 130) (decide (num % mb ≠ 0))

/-- The integer square root by bits: the largest r with r * r ≤ n, `k` bits of r still to decide. -/
def isqrtAux (n : Nat) : Nat → Nat → Nat
  | 0, r => r
  | k + 1, r =>
    let r' := r + 2 ^ k
    if r' * r' ≤ n then isqrtAux n k r' else isqrtAux n k r

/-- The integer square root. -/
def isqrt (n : Nat) : Nat := isqrtAux n (Nat.log2 n / 2 + 1) 0

/-- √x, rounded once (R157, R158). -/
def fsqrt (src dst : Fmt) (c : Ctl) (x : Nat) : Nat :=
  match src.input c.ftz x with
  | .nan => dst.nanCode
  | .inf neg => if neg then dst.nanCode else dst.encode c (.inf false)
  | .fin neg m e =>
    if m = 0 then dst.signed neg 0
    else if neg then dst.nanCode
    else
      let sh := 140 + (e % 2).toNat
      let n := m * 2 ^ sh
      let r := isqrt n
      dst.encodeSticky c false r ((e - (sh : Int)) / 2) (decide (r * r ≠ n))

/-- The range of an element type of `w` bits. -/
def loEnd (sgn : Bool) (w : Nat) : Int := if sgn then -(2 ^ (w - 1) : Int) else 0
/-- The range of an element type of `w` bits. -/
def hiEnd (sgn : Bool) (w : Nat) : Int := if sgn then 2 ^ (w - 1) - 1 else 2 ^ w - 1
/-- `sat`: the value of the type nearest to x (R46, R92). -/
def satInt (sgn : Bool) (w : Nat) (x : Int) : Int := max (loEnd sgn w) (min (hiEnd sgn w) x)
/-- The low `w` bits of an integer (R46, R92). -/
def wrapNat (w : Nat) (x : Int) : Nat := (x % (2 ^ w : Int)).toNat
/-- A `w`-bit pattern read as signed or unsigned (R44). -/
def readInt (sgn : Bool) (w : Nat) (n : Nat) : Int :=
  let k := n % 2 ^ w
  if sgn && decide (2 ^ (w - 1) ≤ k) then (k : Int) - 2 ^ w else (k : Int)

/-- A value rounded to an integer by a rounding mode (R51, R56). -/
def roundInt (rnd : Rnd) (neg : Bool) (m : Nat) (e : Int) : Int :=
  if 0 ≤ e then sigOf neg (m * 2 ^ e.toNat)
  else
    let sh := (-e).toNat
    let t := m / 2 ^ sh
    let rem := m % 2 ^ sh
    let half := 2 ^ (sh - 1)
    let ord : Ordering := if rem < half then .lt else if half < rem then .gt else .eq
    sigOf neg (t + (if roundUp rnd neg t ord (decide (rem ≠ 0)) then 1 else 0))

/-- Float to integer (R56): out of range goes to the nearest end, a NaN becomes 0. -/
def toInt (f : Fmt) (c : Ctl) (sgn : Bool) (w : Nat) (x : Nat) : Nat :=
  match f.input c.ftz x with
  | .nan => 0
  | .inf neg => wrapNat w (if neg then loEnd sgn w else hiEnd sgn w)
  | .fin neg m e => wrapNat w (satInt sgn w (roundInt c.rnd neg m e))

/-- Integer to float (R56). The integer 0 is an exact zero result with no operand sign: R54 gives it minus under RDN and plus
otherwise (DEDUCED, log 45). -/
def fromInt (f : Fmt) (c : Ctl) (x : Int) : Nat :=
  if x = 0 then f.signed (c.rnd == .rdn) 0 else f.encode c (ofInt x 0)

/-- Float to float (R56). A zero keeps its sign in every rounding mode (DESIGN CHOICE, log 45). -/
def convert (src dst : Fmt) (c : Ctl) (x : Nat) : Nat := dst.encode c (src.input c.ftz x)

/-- FROUND (R160): a zero result keeps the sign of its input. -/
def fround (f : Fmt) (c : Ctl) (x : Nat) : Nat :=
  match f.input c.ftz x with
  | .fin neg m e =>
    let r := roundInt c.rnd neg m e
    if r = 0 then f.signed neg 0 else f.encode c (ofInt r 0)
  | v => f.encode c v

/-- FCLASS (R161): the 10-bit class mask of an encoding, read as stored. -/
def fclass (f : Fmt) (x : Nat) : Nat :=
  let neg := decide (f.signBit ≤ x % (2 * f.signBit))
  let mag := x % f.signBit
  if f.infCode < mag then (if 2 ^ (f.fbits - 1) ≤ mag % 2 ^ f.fbits then 2 ^ 9 else 2 ^ 8)
  else if mag = f.infCode then (if neg then 2 ^ 0 else 2 ^ 7)
  else if mag = 0 then (if neg then 2 ^ 3 else 2 ^ 4)
  else if mag < 2 ^ f.fbits then (if neg then 2 ^ 2 else 2 ^ 5)
  else (if neg then 2 ^ 1 else 2 ^ 6)

/-! ### Sums on the matrix array (R63 to R66) -/

/-- A value truncated toward zero to a multiple of 2^q, as a signed count of 2^q. -/
def truncTo (q : Int) (neg : Bool) (m : Nat) (e : Int) : Int :=
  if q ≤ e then sigOf neg (m * 2 ^ (e - q).toNat) else sigOf neg (m / 2 ^ (q - e).toNat)

/-- floor(log2 |t|) of a finite nonzero value. -/
def expOf (m : Nat) (e : Int) : Int := (Nat.log2 m : Int) + e

/-- The largest exponent of the finite nonzero terms of a list. -/
def maxExp : List FVal → Option Int
  | [] => none
  | .fin _ m e :: rest =>
    if m = 0 then maxExp rest
    else match maxExp rest with
      | none => some (expOf m e)
      | some k => some (max (expOf m e) k)
  | _ :: rest => maxExp rest

/-- The sum of the terms, each truncated toward zero to a multiple of 2^q. -/
def sumTrunc (q : Int) : List FVal → Int
  | [] => 0
  | .fin neg m e :: rest => truncTo q neg m e + sumTrunc q rest
  | _ :: rest => sumTrunc q rest

/-- One pass under R64: the products that the pass forms and the binary32 accumulator give the new accumulator. A
position of a structural zero forms no product and is not in the list. -/
def pass (products : List FVal) (acc : Nat) : Nat :=
  let a := b32.decode acc
  let terms := a :: products
  if terms.any FVal.isNan then b32.nanCode
  else
    let pos := terms.any (fun t => t == .inf false)
    let neg := terms.any (fun t => t == .inf true)
    if pos && neg then b32.nanCode
    else if pos then b32.infCode
    else if neg then b32.signed true b32.infCode
    else match maxExp terms with
      | none =>
        if a.neg && products.all FVal.neg then b32.signed true 0 else 0
      | some emax =>
        let q := emax - 50
        let x := sumTrunc q terms
        if x = 0 then 0 else b32.encode .array (ofInt x q)

/-- One plank of a PN pass under R65: the exact integer sum, scaled by the two scale bytes, is added to the binary32
accumulator. A reserved scale byte acts by R59: 255 prevails over 0. A plank that contributes nothing leaves every number of
the accumulator as it is, a minus zero too (DESIGN CHOICE, log 45: R59 does not say whether a zero is added), and a NaN
becomes the default NaN (R49). -/
def plankPass (sum : Int) (eA eB : Nat) (acc : Nat) : Nat :=
  if eA = 255 ∨ eB = 255 then b32.nanCode
  else if eA = 0 ∨ eB = 0 then (if (b32.decode acc).isNan then b32.nanCode else acc)
  else
    let f := b32.encode .array (ofInt sum 0)
    let g := match b32.decode f with
      | .fin neg m e => b32.encode .array (.fin neg m (e + (eA : Int) + (eB : Int) - 254))
      | v => b32.encode .array v
    fadd b32 .array acc g

/-- The three BF16 slices of a binary32 value: hi, mid and lo (R66). -/
def slices (x : Nat) : Nat × Nat × Nat :=
  match b32.decode x with
  | .nan => (bf16.nanCode, 0, 0)
  | .inf neg => (bf16.signed neg bf16.infCode, 0, 0)
  | v =>
    let rtz : Ctl := ⟨.rtz, false, false⟩
    let hi := bf16.encode rtz v
    let r1 := addVal .rne v (negVal (bf16.decode hi))
    let mid := bf16.encode rtz r1
    let r2 := addVal .rne r1 (negVal (bf16.decode mid))
    (hi, mid, bf16.encode .array r2)

/-- A sum of several terms, each counted as a product (R54, R198): a NaN or both infinities give a NaN, an infinity prevails, and
an exact zero keeps a sign only when every term is a zero of that sign. -/
def sumVals (rnd : Rnd) (ts : List FVal) : FVal :=
  let plus := ts.any (· == .inf false)
  let minus := ts.any (· == .inf true)
  if ts.any FVal.isNan || (plus && minus) then .nan
  else if plus then .inf false
  else if minus then .inf true
  else
    let parts := ts.filterMap fun t => match t with
      | .fin n m e => some (n, m, e)
      | _ => none
    let e := parts.foldl (fun acc p => if p.2.1 = 0 then acc else min acc p.2.2) (0 : Int)
    let x := parts.foldl (fun acc p => if p.2.1 = 0 then acc else acc + sigOf p.1 (p.2.1 * 2 ^ (p.2.2 - e).toNat)) (0 : Int)
    if x ≠ 0 then ofInt x e
    else if parts.isEmpty || parts.any (fun p => p.2.1 != 0) then .fin (rnd == .rdn) 0 0
    else if parts.all (fun p => p.1) then .fin true 0 0
    else if parts.all (fun p => !p.1) then .fin false 0 0
    else .fin (rnd == .rdn) 0 0

/-- The integer form z of a plane-nested element read at p planes (R58). -/
def planeInt (p : Nat) (half : Bool) (b : Byte) : Int :=
  let q := readInt true p (b.toNat / 2 ^ (8 - p))
  q * 2 ^ (8 - p) + (if half && decide (p < 8) then 2 ^ (7 - p) else 0)

/-- `mirror` (R92). -/
def mirror (i : Int) (n : Nat) (noreplicate : Bool) : Nat :=
  if n ≤ 1 then 0
  else if noreplicate then
    let m : Int := 2 * n - 2
    let j := i % m
    (if j < n then j else m - j).toNat
  else
    let m : Int := 2 * n
    let j := i % m
    (if j < n then j else m - 1 - j).toNat

end Sys2Proof.Num
end

