-- ==== Sys2Proof/Machine/Special.lean ====
section
/-! DEFINITION. The special functions of R157 and R158. FRCP, FRSQ, FEXP2, FLOG2, FSIN and FCOS are fixed functions of their input and
of FTZ that the manual gives only within a bound: the model takes an opaque value where it lies within the bound, and the nearest
binary32 value where it does not (DESIGN CHOICE, log 10). The bounds are checked against fixed-point values whose errors are allowed for. -/

namespace Sys2Proof.Special

open Sys2Proof.Num

/-- A real number known to within `err` units: num units, of which 2^scale make 1. -/
structure Approx where
  num : Int
  scale : Nat
  err : Nat
  deriving DecidableEq, Repr

/-- The bits of the fixed-point values of logarithms and exponentials. -/
def prec : Nat := 256
/-- The bits of the fixed-point values of angles, which leave room for an exact reduction of every binary32 angle. -/
def angle : Nat := 512

/-- The sum of 1 / (k * 2^k) for k = n..1, in units of 2^-prec: n terms of ln 2. -/
def ln2Sum : Nat → Nat
  | 0 => 0
  | n + 1 => ln2Sum n + 2 ^ prec / ((n + 1) * 2 ^ (n + 1))
/-- ln 2. -/
def ln2 : Nat := ln2Sum 256

/-- Terms of the series of e^t from the k-th on, the k-th being `term`. -/
def expSum (t : Nat) : Nat → Nat → Nat → Nat
  | 0, _, _ => 0
  | n + 1, k, term => term + expSum t n (k + 1) (term * t / 2 ^ prec / (k + 1))

/-- Terms of the series of atanh z from z^(2i+1) = `pow` on. -/
def atanhSum (z2 : Nat) : Nat → Nat → Nat → Nat
  | 0, _, _ => 0
  | n + 1, i, pow => pow / (2 * i + 1) + atanhSum z2 n (i + 1) (pow * z2 / 2 ^ prec)

/-- Terms of the series of atan(1/n) from the i-th on, `pow` being n^-(2i+1). -/
def atanSum (n2 : Nat) : Nat → Nat → Nat → Int
  | 0, _, _ => 0
  | k + 1, i, pow => (if i % 2 = 0 then (pow / (2 * i + 1) : Int) else -(pow / (2 * i + 1) : Int)) + atanSum n2 k (i + 1) (pow / n2)

/-- 2π in units of 2^-angle, by 16 atan(1/5) - 4 atan(1/239) for π. -/
def twoPi : Int := 32 * atanSum 25 120 0 (2 ^ angle / 5) - 8 * atanSum 57121 120 0 (2 ^ angle / 239)

/-- Terms of an alternating series: each is the one before times -r^2 over the next two factors. -/
def trigSum (r2 : Int) : Nat → Nat → Int → Int
  | 0, _, _ => 0
  | n + 1, k, term => term + trigSum r2 n (k + 2) (-(term * r2 / 2 ^ angle / ((k + 1) * (k + 2) : Nat)))

/-- 1 / x for x = (-1)^neg * m * 2^e, m nonzero. -/
def recip (neg : Bool) (m : Nat) (e : Int) : Approx := ⟨sigOf neg (2 ^ 512 / m), (512 + e).toNat, 1⟩

/-- 1 / √x for x = m * 2^e, m nonzero. -/
def recipSqrt (m : Nat) (e : Int) : Approx :=
  let odd := (e % 2).toNat
  ⟨isqrt (2 ^ 1024 / (m * 2 ^ odd)), (512 + (e - (odd : Int)) / 2).toNat, 4⟩

/-- 2^x for x = x units of 2^-prec, |x| below 200. -/
def exp2 (x : Int) : Approx :=
  let n := x / 2 ^ prec
  let f := (x % 2 ^ prec).toNat
  ⟨expSum (f * ln2 / 2 ^ prec) 70 0 (2 ^ prec), (prec - n).toNat, 2 ^ 64⟩

/-- log2 x for x = m * 2^e, m nonzero. -/
def log2 (m : Nat) (e : Int) : Approx :=
  let k := Nat.log2 m
  let y := m * 2 ^ (prec - k)
  let z := (y - 2 ^ prec) * 2 ^ prec / (y + 2 ^ prec)
  let at' := atanhSum (z * z / 2 ^ prec) 90 0 z
  ⟨(e + (k : Int)) * 2 ^ prec + (2 * at' * 2 ^ prec / ln2 : Nat), prec, 2 ^ 64⟩

/-- An angle x = sig * 2^e reduced to 0..2π, in units of 2^-angle. -/
def reduceAngle (sig : Int) (e : Int) : Int := (sig * 2 ^ (e + (angle : Int)).toNat) % twoPi

/-- sin x. -/
def sine (sig : Int) (e : Int) : Approx :=
  let r := reduceAngle sig e
  ⟨trigSum (r * r / 2 ^ angle) 70 1 r, angle, 2 ^ 256⟩

/-- cos x. -/
def cosine (sig : Int) (e : Int) : Approx :=
  let r := reduceAngle sig e
  ⟨trigSum (r * r / 2 ^ angle) 70 0 (2 ^ angle), angle, 2 ^ 256⟩

/-- One ulp of binary32 at a value, in its units: the spacing at its own exponent, subnormals included (R157). -/
def Approx.ulp (a : Approx) : Nat :=
  let top : Int := (Nat.log2 a.num.natAbs : Int) - (a.scale : Int) - 23
  2 ^ (max top (-149) + (a.scale : Int)).toNat

/-- The nearest binary32 code of a value. -/
def Approx.nearest (a : Approx) : Nat := b32.encode .array (ofInt a.num (-(a.scale : Int)))

/-- Whether a binary32 code lies within a bound of a value. An infinity stands for 2^128. -/
def Approx.near (a : Approx) (bound : Nat) (c : Nat) : Bool :=
  let close (neg : Bool) (m : Nat) (e : Int) : Bool :=
    decide ((sigOf neg m * 2 ^ (e + (a.scale : Int)).toNat - a.num).natAbs ≤ bound + a.err)
  match b32.decode c with
  | .nan => false
  | .inf neg => close neg 1 128
  | .fin neg m e => close neg m e

/-- The value of one of the six functions: the opaque one inside the bound, else the nearest. -/
def pick (k : Nat) (ftz : Bool) (x : Nat) (a : Approx) (bound : Nat) : Nat :=
  let c := (Config.specialValue k ftz (BitVec.ofNat 32 x)).toNat
  if a.near bound c then c else a.nearest

/-- The functions of R157 whose results a bound gives. -/
inductive Fn where
  | frcp | frsq | fexp2 | flog2 | fsin | fcos
  deriving DecidableEq, Repr

/-- The number under which Config names a function: its X (R157). -/
def Fn.no : Fn → Nat
  | .frcp => 0 | .frsq => 1 | .fexp2 => 3 | .flog2 => 4 | .fsin => 5 | .fcos => 6

/-- The binary32 code of an integer power of 2, when it is representable. -/
def pow2Code (n : Int) : Option Nat := if -149 ≤ n ∧ n ≤ 127 then some (b32.encode .array (.fin false 1 n)) else none

/-- Whether x = m * 2^e is a power of 2, and which. -/
def logExact (m : Nat) (e : Int) : Option Int := if m = 2 ^ Nat.log2 m then some (e + (Nat.log2 m : Int)) else none

/-- The integer that sig * 2^e is, when it is one. -/
def intExact (sig : Int) (e : Int) : Option Int :=
  if 0 ≤ e then some (sig * 2 ^ e.toNat) else if sig % 2 ^ (-e).toNat = 0 then some (sig / 2 ^ (-e).toNat) else none

/-- The binary32 result of a function for the binary32 code x of a value, before SAT and FTZ act on the result (R157, R158). -/
def eval (f : Fn) (ftz : Bool) (x : Nat) : Nat :=
  let plusInf := b32.infCode
  let one := b32.encode .array (.fin false 1 0)
  match b32.input ftz x with
  | .nan => b32.nanCode
  | .inf neg => match f with
    | .frcp => b32.signed neg 0
    | .frsq => if neg then b32.nanCode else 0
    | .fexp2 => if neg then 0 else plusInf
    | .flog2 => if neg then b32.nanCode else plusInf
    | .fsin | .fcos => b32.nanCode
  | .fin neg m e =>
    if m = 0 then
      match f with
      | .frcp | .frsq => b32.signed neg plusInf
      | .fexp2 | .fcos => one
      | .flog2 => b32.signed true plusInf
      | .fsin => b32.signed neg 0
    else
      match f with
      | .frcp => let a := recip neg m e; pick f.no ftz x a a.ulp
      | .frsq => if neg then b32.nanCode else let a := recipSqrt m e; pick f.no ftz x a a.ulp
      | .flog2 =>
        if neg then b32.nanCode
        else match logExact m e with
          | some n => b32.encode .array (ofInt n 0)
          | none => let a := log2 m e; pick f.no ftz x a (max (2 * a.ulp) (2 ^ (prec - 22)))
      | .fexp2 =>
        let sig := sigOf neg m
        match (intExact sig e).bind pow2Code with
        | some c => c
        | none =>
          let y := sig * 2 ^ (e + (prec : Int)).toNat
          if 200 * 2 ^ prec ≤ y then plusInf
          else if y ≤ -(200 * 2 ^ prec) then let a : Approx := ⟨0, prec, 2 ^ 64⟩; pick f.no ftz x a (2 ^ (prec - 148))
          else let a := exp2 y; pick f.no ftz x a (2 * a.ulp)
      | .fsin => pick f.no ftz x (sine (sigOf neg m) e) (2 ^ (angle - 21))
      | .fcos => pick f.no ftz x (cosine (sigOf neg m) e) (2 ^ (angle - 21))

/-- A function on an element of a format: widened exactly, evaluated in binary32, rounded once to the format, with SAT and FTZ
(R157). -/
def onElem (f : Fn) (fmt : Fmt) (c : Ctl) (x : Nat) : Nat :=
  let wide := b32.encode .array (fmt.input c.ftz x)
  fmt.encode c (b32.decode (eval f c.ftz wide))

end Sys2Proof.Special
end

