-- ==== Sys2Proof/Machine/State.lean ====
section
/-! DEFINITION. The state of a DK-9 module: every item that the manual names, as plain data, and State.reset. Keys of the
stores: a core is its logical number 0..191 (R11); a group slot is core * 128 + bench * 8 + bench slot; a team slot is
core * 16 + team slot (R22); a unit that a store does not list holds the default of its structure. -/

namespace Sys2Proof.Machine

/-- Why a step stops with a fault of the model. -/
inductive Fault where
  /-- An instruction is executed where no group is resident to issue it. Raised by every instruction with an encoding;
  `step` never executes one there. Safe: the machine has no such step (R14, R26). -/
  | noIssuer
  deriving DecidableEq, Repr

/-- Why a step is refused. -/
inductive Refusal where
  /-- No meaning has been written for the instruction. Raised by Dispatch only. Safe. -/
  | notModelled (mnemonic : String)
  deriving DecidableEq, Repr

/-- The fault codes of R313. -/
inductive FaultCode where
  | illegalOpcode | illegalOperand | privileged | misaligned | pageFault | permission | ownership | uncorrectable
  | remoteUnreachable | postcopySourceLost | lookaheadHazard | ephemeralExpired | registerWaitDeadlock | extensionFault
  | streamerRights | leaseConflict | algebraTableInvalid | recordInvalid | mapInvalid | accumRange | joinStackOverflow
  | checkFail | engineFault | mcastMaskInvalid | waitTimeout | softwareTrap | breakpoint
  deriving DecidableEq, Repr

/-- One vector or brine register: a word for each of the 32 lanes (R93). -/
abbrev Lanes := Vector Word 32

/-- The register that holds 0 in every lane. -/
def zeroLanes : Lanes := Vector.replicate 32 0

/-! ### Group state -/

/-- An entry of the join stack (R28, R104). -/
inductive StackEntry where
  /-- rejoin address, member mask, arrived mask -/
  | join (rejoin : VA) (member arrived : Mask)
  /-- PC and lane mask -/
  | path (pc : VA) (mask : Mask)
  deriving DecidableEq, Repr

/-- What holds a PC slot (R110, R123, R290 to R292, R35). -/
inductive Hold where
  | none
  /-- held at a BRP at this PC (R123): the target words of its lanes, read at issue (R122), and its matching JOIN. -/
  | brp (pc : VA) (targets : Lanes) (join : VA)
  /-- held at BAR with this id, presenting this mask (R290). -/
  | bar (id : Nat) (mask : Mask)
  /-- held at BARC (R292). -/
  | barc
  deriving DecidableEq, Repr

/-- A program-counter slot (R26): a PC, a lane mask (free when 0), what holds it, and the clk from which it may issue. -/
structure PcSlot where
  pc : VA := 0
  mask : Mask := 0
  hold : Hold := .none
  readyAt : Nat := 0
  deriving DecidableEq, Repr

/-- A word of a group's register files, by its check bits (R107): a lane word of a V-class register, a scalar register, a predicate, or the
control state. -/
inductive RegWord where
  | vec (n lane : Nat) | sc (n : Nat) | pred (n : Nat) | control
  deriving DecidableEq, Repr

/-- The registers of a group (R93). Vector registers v0..v119 and brine registers e0..e7 by number, scalars, predicates. -/
structure Regs where
  v : Store Lanes := []
  e : Store Lanes := []
  eValid : Store Mask := []
  eClk : Store Nat := []
  s : Store Word := []
  p : Store Mask := []
  gmode : BitVec 32 := 0
  scc : BitVec 4 := 0
  k0 : BitVec 64 := 0
  k1 : BitVec 64 := 0
  ext : Nat := 0
  /-- the words that hold an error in two bits, and those that hold one in a single bit (R107) -/
  upset : List RegWord := []
  soft : List RegWord := []
  deriving DecidableEq, Repr

/-- A firmware service that a group has called (R400): its command block, and the status word and the result of its answer. -/
structure ServiceCall where
  block : List Byte
  status : Nat
  result : List Byte
  deriving DecidableEq, Repr

/-- A flashback point (R110, R126) with the values that are kept from it (R108). -/
structure FlashPoint where
  pc : VA
  recipe : Nat
  s0 : PcSlot
  s1 : PcSlot
  stack : List StackEntry
  gmode : BitVec 32
  scc : BitVec 4
  k0 : BitVec 64
  k1 : BitVec 64
  /-- the group's issue number of its FLASHPT: a SIGWAIT that is older is not repeated by a rewind (R310) -/
  serial : Nat := 0
  /-- the services called since the point of which a repetition would act again, and those of a run that a rewind has cut short, which are to be
  repeated with the same effect (R400) -/
  calls : List ServiceCall := []
  again : List ServiceCall := []
  deriving DecidableEq, Repr

/-- What a group in recipe mode holds aside (R323). -/
structure RecipeFrame where
  point : FlashPoint
  deriving DecidableEq, Repr

/-- What a firmware entry saves (R400): the service code, the resume PC, both slots and the issuing one, and whether the service is still
to be done. -/
structure FwFrame where
  service : Nat
  resume : VA
  s0 : PcSlot
  s1 : PcSlot
  slot : Nat
  fresh : Bool := false
  /-- a TLBI that firmware is at, by its register and its kind (R401) -/
  tlbi : Option (BitVec 7 × BitVec 3) := Option.none
  deriving DecidableEq, Repr

/-- The control state of a group (R26, R28, R93, R110, R323, R400). The head of `stack` is its top. -/
structure Flow where
  s0 : PcSlot := {}
  s1 : PcSlot := {}
  last : Nat := 1
  stack : List StackEntry := []
  exited : Bool := false
  flash : Option FlashPoint := Option.none
  unrew : Bool := false
  yieldEnd : Nat := 0
  region : Bool := false
  regionDepth : Nat := 0
  /-- the regroup map as it concerns this group (R93, R43): the bench whose groups were regrouped together, 0..15, and by lane the number of the
  group from which the position came, 32 for a position that held no live lane -/
  regionBench : Nat := 0
  home : Store Nat := []
  atReturn : Bool := false
  recipe : Option RecipeFrame := Option.none
  fw : Option FwFrame := Option.none
  deriving DecidableEq, Repr

/-- The register classes of R71, and the check pair. -/
inductive RegClass where
  | V | S | P
  deriving DecidableEq, Repr

/-- A footprint of registers (R72): class, first register, count. -/
structure Span where
  cls : RegClass
  first : Nat
  count : Nat
  deriving DecidableEq, Repr

/-- The long-latency operations (R77) and what each still has to do. -/
inductive LongKind where
  | ld | st | sld | sst
  | atom (op : AtomOp)
  | pref (hint : Nat)
  | acqrm | mcst | redld | sigwait
  | copy | coll | launch
  /-- what is left of a stash access whose bound line is on a page that is not present (R213, R253) -/
  | lds | sts | atoms (op : AtomOp)
  deriving DecidableEq, Repr

/-- The part of a long-latency operation that one lane makes: lane, address, the bytes it stores or its operand. -/
structure LaneAccess where
  lane : Nat
  addr : Nat
  data : List Byte := []
  deriving DecidableEq, Repr

/-- A long-latency operation of a group whose window is open or which has not completed (R85 to R87). -/
structure LongOp where
  kind : LongKind
  serial : Nat
  pc : VA
  slot : Nat
  mask : Mask
  issueClk : Nat
  window : Nat
  regs : List Span
  gmode : BitVec 32
  sz : Nat := 4
  dest : Nat := 0
  accesses : List LaneAccess := []
  failure : Option (FaultCode × Nat) := Option.none
  unfinished : Mask := 0
  /-- the failure is the second stage's, or a frame that has not been pulled: the device's queue gets no record (R336, R357) -/
  hyper : Bool := false
  reported : Bool := false
  done : Bool := false
  dueClk : Nat := 0
  threshold : Word := 0
  destMask : Mask := 0
  /-- the line that an ACQRM has in the probe set (R233) -/
  probing : Option Nat := Option.none
  /-- the LA of the instruction: the length of its window at issue (R85, R86) -/
  la : Nat := 0
  /-- the lowest lane of which the access has failed so far, with the fault and its address, while lower lanes are still to be performed (R251) -/
  bad : Option (Nat × FaultCode × Nat) := Option.none
  /-- the clk from which an MCST tries a destination rank again after it had to wait there (R263) -/
  retry : Store Nat := []
  /-- the stamp slot of the tile that the group held at its issue (R395) -/
  tile : Option Nat := Option.none
  deriving DecidableEq, Repr

/-- Why a group waits (R36, R321). -/
inductive Wait where
  | none
  | barrier | cluster | sigwait | waitc (k n scope : Nat) | xacq | brp | regroupJoin
  /-- a stall at issue that counts for the watchdog alone: the stamp table (R394), a frame or a line that an access cannot reach yet (R321). -/
  | stall
  /-- a stall at issue on a lease, which is a wait under R36 too (R182) -/
  | lease
  /-- a stall at issue of a load on a line that a replicated commit has locked (R235, R237) -/
  | lock (line : Nat)
  /-- held at issue until operations of the group are done, by their issue numbers: an order that R225, R260 or R305 keeps, or a stop that ends their
  windows (R316). None are named where only a store in the core's path is waited for (R229). -/
  | order (ops : List Nat)
  /-- held at issue by a full counter or a full queue of an engine class or by array work under way (R106, R183, R288, R194), or, as class 4, by a
  fill that is pending (R213, R284). -/
  | full (cls : Nat)
  /-- its queued request was withdrawn by a save, and it issues its XACQ again (R97): the wait goes on -/
  | reacquire
  deriving DecidableEq, Repr

/-- A fault record (R314), the bytes that are not derived from the group. -/
structure FaultRecord where
  kind : Nat
  code : Nat
  team : Nat
  group : Nat
  slot : Nat
  cls : Nat
  mask : Mask
  pc : VA
  resume : VA
  aux1 : Word
  aux2 : Word
  addr : Nat
  time : Nat
  /-- the tick of the stop of a record that waits for room: waiting records enter in the order of their stops (R314) -/
  tick : Nat := 0
  deriving DecidableEq, Repr

/-- The stop state of a group (R311, R317): the fault record that stopped it and the index of its slot in the queue. -/
structure StopState where
  code : FaultCode
  record : Nat
  resume : VA
  slot : Nat
  deriving DecidableEq, Repr

/-- A group parked on a replayable fault (R21, R318): the unfinished lanes, and the serial of the operation, or none when an
instruction fetch or a precise access parked. -/
structure Parked where
  unfinished : Mask
  serial : Option Nat
  slot : Nat
  /-- the device's queue got no record: the second stage missed, or the frame has not been pulled (R336, R357) -/
  hyper : Bool := false
  /-- it has been answered, and the operations with these serials are performed again: it is parked until they are done (R21, R318) -/
  answered : Bool := false
  replaying : List Nat := []
  deriving DecidableEq, Repr

/-- How a group that has stopped for a save is kept (R108, R325). -/
inductive SaveAs where
  | rewound | whole
  deriving DecidableEq, Repr

/-- The stops of a group. -/
structure Stops where
  wait : Wait := .none
  waitUs : Nat := 0
  waitFrom : Nat := 0
  /-- the wait time is that of a wait which a rewind has cut short, and goes on with the group's next wait (R321) -/
  carried : Bool := false
  parked : Option Parked := Option.none
  stop : Option StopState := Option.none
  /-- records that wait for room in the fault queue (R314) -/
  pending : List FaultRecord := []
  /-- step by the debugger: stop after one instruction (R409) -/
  stepOne : Bool := false
  /-- a stop by the debugger that comes when what the group has open has completed: the PC slot that its record names (R316, R409) -/
  stopNext : Option Nat := Option.none
  /-- stopped for a save (R325): to be rewound to its point, or to be saved whole -/
  saving : Option SaveAs := Option.none
  deriving DecidableEq, Repr

/-- An operation of an engine class that a group counts (R106, R240): its class, the group's issue number of it, and whether it has
finished while an older one of its class has not. -/
structure EngineWork where
  cls : Nat
  serial : Nat
  finished : Bool := false
  /-- the stamp slot of the tile that the group held at its issue (R395) -/
  tile : Option Nat := Option.none
  /-- the engine fault record of an operation that has ended with a code: it is entered when the completion is reported (R240, R314, R319) -/
  record : Option FaultRecord := Option.none
  deriving DecidableEq, Repr

/-- The engine side of a group (R93, R106, R288, R388): the operations counted by c0..c3 in issue order, pending fault bits f0..f3 and
the status word of the oldest failing operation of each class, and the tile tag. -/
structure EngineSide where
  out : List EngineWork := []
  f : Store Word := []
  tag : Option Nat := Option.none
  tagSlot : Nat := 0
  deriving DecidableEq, Repr

/-- Issue timing of a group (R80 to R86, R284, R285): the scoreboard by resource, the clk from which it may issue, its age
and its guard count. -/
structure Timing where
  board : Store Nat := []
  nextClk : Nat := 0
  age : Nat := 0
  readySince : Nat := 0
  guarded : Bool := false
  deriving DecidableEq, Repr

/-- A resident group (R20, R21, R93). -/
structure Group where
  tid : Nat
  number : Nat
  regs : Regs := {}
  flow : Flow := {}
  ops : List LongOp := []
  stops : Stops := {}
  eng : EngineSide := {}
  time : Timing := {}
  issued : Nat := 0
  deriving DecidableEq, Repr

/-! ### Bench state -/

/-- A queued request for extended blocks (R98). -/
structure XacqRequest where
  gid : Nat
  n : Nat
  arrival : Nat
  deriving DecidableEq, Repr

/-- The execution units of a bench (R430). -/
inductive ExecUnit where
  | scalar | vecInt | float | special | lane | memory | engine | arrayPort | arrayControl
  deriving DecidableEq, Repr

/-- A bench (R93, R21, R430): pool free count, acquisition queue, unit occupancy, the clk of its last issue, and the unit that it took. Its
regroup map lies with the groups that it concerns (Flow.home). -/
structure Bench where
  poolFree : Nat := 32
  released : Nat := 0
  releasedAt : Nat := 0
  acq : List XacqRequest := []
  busy : Store Nat := []
  lastIssue : Option Nat := Option.none
  lastUnit : Nat := 0
  refreshed : Store Nat := []
  deriving DecidableEq, Repr

/-! ### Array, jig, record and algebra state -/

/-- A jig (R174), its fields as its 32 bytes hold them. -/
structure Jig where
  base : Nat
  stride : Nat
  kpl : Nat
  scaled : Bool
  compl : Bool
  planes : Nat
  fmt : Nat
  rows : Nat
  scaleBase : Nat
  deriving DecidableEq, Repr

/-- A tensor record (R176), its fields as its 64 bytes hold them. -/
structure TensorRecord where
  base : Nat
  sizes : List Nat
  strides : List Nat
  boxes : List Nat
  planes : Nat
  fmt : Nat
  rank : Nat
  noreplicate : Bool
  edge : Bool
  scales : Nat
  deriving DecidableEq, Repr

/-- A clamp descriptor (R173), its fields. -/
structure ClampDesc where
  side : Nat
  conj : Bool
  aslot : Nat
  dlog : Nat
  scaled : Bool
  compl : Bool
  planes : Nat
  role : Nat
  fmt : Nat
  deriving DecidableEq, Repr

/-- A clamp bank (R169, R172, R183, R187): latches by k * 128 + n, the marks of structural zeros, one scale byte per column, the
descriptor when valid, and the ready clk when set. -/
structure ClampBank where
  latch : Store (BitVec 16) := []
  zeroMark : Store Bool := []
  scale : Store Byte := []
  desc : Option ClampDesc := Option.none
  readyAt : Option Nat := Option.none
  /-- whether it holds an uncorrectable error (R217) -/
  upset : Bool := false
  deriving DecidableEq, Repr

/-- An algebra slot (R169, R179, R180): the 80 bytes of its image and the left bit, when valid. -/
structure AlgebraSlot where
  image : List Byte
  left : Bool
  deriving DecidableEq, Repr

/-- An entry of the lease table (R169, R182): issuing group, team slot, and the stash lines of the team that it covers. -/
structure Lease where
  serial : Nat
  gid : Nat
  tid : Nat
  lines : List Nat
  deriving DecidableEq, Repr

/-- An MMA or MMAR on its way through the array (R183, R190 to R192). -/
structure ArrayOp where
  serial : Nat
  opSerial : Nat
  gid : Nat
  tid : Nat
  left : Bool
  tile : Nat
  jig : Jig
  bank : Nat
  psel : Nat
  lanes : Mask
  pc : VA
  slot : Nat
  mask : Mask
  issueClk : Nat
  start : Option Nat := Option.none
  readDone : Bool := false
  /-- the A rows and, when the stream starts, the B banks as read -/
  rowBytes : List (List Byte) := []
  rowScales : List Nat := []
  banks : List ClampBank := []
  /-- whether the stash gave it an uncorrectable word (R218) -/
  spoiled : Bool := false
  deriving DecidableEq, Repr

/-- A clamp fill (R186 to R188): the banks it will hold, and the clk at which it started. -/
structure ClampFill where
  serial : Nat
  opSerial : Nat
  gid : Nat
  tid : Nat
  dest : Nat
  slotJig : Jig
  bank : Nat
  desc : ClampDesc
  algebra : Option AlgebraSlot
  pc : VA
  slot : Nat
  mask : Mask
  issueClk : Nat
  start : Option Nat := Option.none
  spoiled : Bool := false
  deriving DecidableEq, Repr

/-- An ALGLD in progress (R196). -/
structure AlgLoad where
  gid : Nat
  slot : Nat
  image : List Byte
  left : Bool
  dueClk : Nat
  deriving DecidableEq, Repr

/-- The copies of the streamer and RECLD (R288, R297 to R304). -/
inductive CopyKind where
  | recld | cpin | cpout | cpst | cpgath
  deriving DecidableEq, Repr

/-- An entry of the streamer queue (R288): the operation as read at issue, its progress and its outcome. -/
structure CopyOp where
  kind : CopyKind
  serial : Nat
  gid : Nat
  tid : Nat
  opSerial : Nat
  dest : Nat
  stream : Bool
  sig : Bool
  record : Option TensorRecord
  block : List Word
  issueClk : Nat
  start : Option Nat := Option.none
  /-- what has been processed, in the layout order of the packed tile: box elements, then scale bytes (R301, R302) -/
  done : Nat := 0
  code : Option FaultCode := Option.none
  failAddr : Nat := 0
  /-- suspended on a page that is not present, and the fault record that names it (R303) -/
  suspended : Bool := false
  recIdx : Option Nat := Option.none
  /-- the clk of the last destination write, or of the stop -/
  endClk : Option Nat := Option.none
  deriving DecidableEq, Repr

/-! ### Teams and clusters -/

/-- An instance of a team barrier (R288, R290). -/
structure Barrier where
  participants : Mask := 0
  arrived : Mask := 0
  deriving DecidableEq, Repr

/-- A bound stash window (R212), and the last value bound (R399). -/
structure Window where
  value : Word
  offset : Nat
  length : Nat
  va : Nat
  readOnly : Bool
  deriving DecidableEq, Repr

/-- A present line of a bound window (R200, R213): the physical line that it was filled from, its guest-physical address, and
the dirty bits of its two sectors. -/
structure WinLine where
  phys : Nat
  gpa : Nat := 0
  dirty0 : Bool := false
  dirty1 : Bool := false
  deriving DecidableEq, Repr

/-- The identity and the declared resources of a team (R20 to R22, R267). -/
structure TeamId where
  vdev : Nat
  part : Nat
  launch : Nat
  number : Nat
  cluster : Nat
  rank : Nat
  height : Nat := 1
  width : Nat := 1
  groups : Nat
  stashBytes : Nat := 0
  tiles : Nat := 0
  extCeil : Nat := 0
  entry : VA := 0
  deriving DecidableEq, Repr

/-- The team's memories (R200): stash bytes by offset, lane-store bytes by (group * 32 + lane) * 512 + offset, windows, and the
present window lines by stash line number. -/
structure TeamMem where
  stash : Store Byte := []
  lane : Store Byte := []
  windows : Store Window := []
  lines : Store WinLine := []
  jigs : Store Jig := []
  records : Store TensorRecord := []
  /-- the OMAPs and RECLDs of each slot of which what they loaded is not in use yet, oldest first, each with the clk from which instructions use
  it (R184, R297) -/
  jigNext : Store (List (Nat × Jig)) := []
  recordNext : Store (List (Nat × TensorRecord)) := []
  /-- the 32-bit words of the stash and of the lane store that hold an uncorrectable error (R217, R218) -/
  upset : List Nat := []
  laneUpset : List Nat := []
  /-- the 32-bit words of the spill areas that do, by group * 112 + word (R105, R217) -/
  spillUpset : List Nat := []
  deriving DecidableEq, Repr

/-- The team's synchronisation (R21, R93, R288, R311). -/
structure TeamSync where
  barriers : Store Barrier := []
  /-- bench slot as gid of the producer group (R288, R299) -/
  producer : Option Nat := Option.none
  /-- groups of the team that arrived at BRP, and its address (R32) -/
  brpArrived : Mask := 0
  brpPc : Option VA := Option.none
  deadlockTimer : Nat := 0
  /-- the tick from which the run-on timer of a slice end counts (R311) -/
  runOnFrom : Option Nat := Option.none
  /-- the last release at team exit; groups that exited -/
  exited : Mask := 0
  /-- the gang's groups do not issue before all teams are resident (R24), and the clk of the first issue (R273) -/
  startTick : Nat := 0
  /-- an OWNERSHIP event of a discarded write-back waits for the next instruction boundary (R214) -/
  ownershipEvent : Bool := false
  /-- the line of that write-back (R315) -/
  ownershipLine : Nat := 0
  aborted : Bool := false
  deriving DecidableEq, Repr

/-- A resident team (R21). -/
structure Team where
  id : TeamId
  mem : TeamMem := {}
  sync : TeamSync := {}
  deriving DecidableEq, Repr

/-- The barrier of a cluster (R288, R292): team arrived mask by rank, and the group arrived mask of each rank. -/
structure ClusterBarrier where
  teams : Nat := 0
  groups : Store Mask := []
  deriving DecidableEq, Repr

/-! ### Core -/

/-- A store that the core's ordered store path has accepted and not yet performed at device scope (R229, R232). -/
structure PathStore where
  gid : Nat
  tid : Nat
  pos : Nat
  addr : Nat
  data : List Byte
  /-- the device and the virtual page by which it was translated (R337) -/
  vdev : Nat := 0
  page : Nat := 0
  /-- its home slice has taken it (R205); one that a lease holds comes there when it is performed -/
  homed : Bool := true
  deriving DecidableEq, Repr

/-- An entry of the release log (R230). -/
structure ReleaseEntry where
  line : Nat
  tid : Nat
  pos : Nat
  deriving DecidableEq, Repr

/-- A combined translation (R336, R337, R339): the first virtual 4 KiB page that it covers and how many it covers, the physical and the
guest-physical page of the first, permissions, replication, and the pages of it that a write has marked dirty since it was filled. -/
structure Translation where
  vdev : Nat
  page : Nat
  phys : Nat
  gpa : Nat
  r : Bool
  w : Bool
  x : Bool
  repl : Bool
  span : Nat := 1
  wrote : List Nat := []
  deriving DecidableEq, Repr

/-- The core's memory side (R200, R210, R230, R333). -/
structure CoreMem where
  l1 : Store (List Byte) := []
  path : List PathStore := []
  pathPos : Nat := 0
  log : List ReleaseEntry := []
  tlb : List Translation := []
  walkTlb : List Translation := []
  deriving DecidableEq, Repr

/-- The core's matrix array (R169, R183). Accumulators by tile * 16384 + row * 128 + column. -/
structure CoreArray where
  /-- array holder: tid and tile count -/
  holder : Option (Nat × Nat) := Option.none
  acc : Store Word := []
  /-- the accumulators that hold an uncorrectable error (R217) -/
  accUpset : List Nat := []
  banks : Store ClampBank := []
  alg : Store AlgebraSlot := []
  leases : List Lease := []
  queue : List ArrayOp := []
  fills : List ClampFill := []
  algLoads : List AlgLoad := []
  /-- pending operations of a tile (R183) -/
  pending : Store Nat := []
  /-- the clk of the last row of the previous stream, and of the last fill -/
  lastRow : Nat := 0
  serial : Nat := 0
  deriving DecidableEq, Repr

/-- A slot of the stamp table (R388, R395). Points 1..7 as module time. -/
structure StampSlot where
  tid : Nat
  team : Nat
  tile : Word
  base : Nat
  joined : Mask
  closed : Mask
  points : Store Nat := []
  faulted : Bool := false
  preempt : Bool := false
  abort : Bool := false
  deriving DecidableEq, Repr

/-- A boost grant (R362, R380): the intervals that have not started, X, and the device. -/
structure Grant where
  remaining : Nat
  x : Int
  vdev : Nat
  deriving DecidableEq, Repr

/-- A logical core (R14, R200, R169, R288, R362, R388). -/
structure Core where
  clk : Nat := 0
  nextTick : Nat := 35
  vdev : Nat := 0
  stash : Nat := 0
  lane : Nat := 0
  mem : CoreMem := {}
  arr : CoreArray := {}
  copies : List CopyOp := []
  copySerial : Nat := 0
  /-- the clk from which the streamer's next copy is at the head (R304) -/
  copyFree : Nat := 0
  stamps : Store StampSlot := []
  grant : Option Grant := Option.none
  /-- the X that was prepaid for the present interval, when it started boosted (R375) -/
  paid : Option Int := Option.none
  /-- the core runs at 2.8 GHz (R15, R378) -/
  boost : Bool := false
  /-- the clk at the last interval boundary, and the clks of this interval with an issue (R368) -/
  clkFrom : Nat := 0
  /-- the clks of this interval before its count started anew (R83, R368) -/
  clkBase : Nat := 0
  activeClk : Nat := 0
  lastActive : Nat := 0
  arrayClk : Nat := 0
  deriving DecidableEq, Repr

/-! ### Quadrant -/

/-- A line of the LLC (R200, R205): its sectors' valid and dirty bits, its owner and its use order; and which of its sectors hold an
uncorrectable error (R217). -/
structure LlcLine where
  valid0 : Bool := false
  valid1 : Bool := false
  dirty0 : Bool := false
  dirty1 : Bool := false
  bad0 : Bool := false
  bad1 : Bool := false
  /-- its tag or its directory entry holds an uncorrectable error: neither sector can be served (R217) -/
  tagBad : Bool := false
  owner : Nat := 0
  used : Nat := 0
  deriving DecidableEq, Repr

/-- The LLC of a quadrant (R200): lines by line number, occupancy and quota by device. -/
structure Llc where
  lines : Store LlcLine := []
  occupancy : Store Nat := []
  quota : Store Nat := []
  clock : Nat := 0
  deriving DecidableEq, Repr

/-- A packet that waits in a launch queue (R266): its bytes and the tick at which it entered. -/
structure Packet where
  bytes : List Byte
  entered : Nat
  deriving DecidableEq, Repr

/-- A launch queue (R266). -/
structure LaunchQueue where
  owner : Nat := 255
  packets : List Packet := []
  drops : Nat := 0
  /-- the acceptance number of the launch that was accepted from it last (R273) -/
  last : Option Nat := Option.none
  deriving DecidableEq, Repr

/-- A collective in the queue (R288, R307). -/
structure Collective where
  gid : Nat
  tid : Nat
  opSerial : Nat
  dest : Nat
  op : CollOp
  src : Nat
  dst : Nat
  count : Nat
  comm : Nat
  root : Nat
  red : Nat
  etype : Nat
  core : Nat
  vdev : Nat
  deriving DecidableEq, Repr

/-- Power states of a quadrant (R414, R415). -/
inductive Power where
  | active | rest | deepIdle | exiting
  deriving DecidableEq, Repr

/-- A mailbox (R402, R405): the command block and the GO word. -/
structure Mailbox where
  block : Store Byte := []
  go : Bool := false
  /-- the command has been given, and firmware has not taken it -/
  fresh : Bool := false
  deriving DecidableEq, Repr

/-- The interrupt of a quadrant (R315). -/
structure Interrupt where
  addr : Nat := 0
  data : Word := 0
  deriving DecidableEq, Repr

/-- A quadrant. Counters by device * 2048 + selector; device 0 is the host total (R390, R402). -/
structure Quad where
  llc : Llc := {}
  queues : Store LaunchQueue := []
  colls : List Collective := []
  counters : Store Nat := []
  latch : Option (Nat × Word) := Option.none
  irq : Interrupt := {}
  mailbox : Mailbox := {}
  wearctl : BitVec 64 := 0
  power : Power := .active
  powerFrom : Nat := 0
  /-- packets of port writes that wait for the exit (R403): queue and bytes -/
  waiting : List (Nat × List Byte) := []
  deriving DecidableEq, Repr

/-! ### Partition -/

/-- The state of a launch in the launch table (R266). -/
inductive LaunchPhase where
  | running
  /-- a fatal fault has been reported, and the abort follows when the benches have issued what falls on the same instant (R42) -/
  | faulted
  | aborted
  /-- teams not yet dispatched are cancelled; the record will carry status 2 or 3 (R275) or 6 (R349) -/
  | cancelled (status : Nat)
  deriving DecidableEq, Repr

/-- What a completion record names of a fatal fault (R42, R276). -/
structure FatalSummary where
  code : Nat
  team : Nat
  group : Nat
  pc : VA
  mask : Mask
  time : Nat
  /-- the period of the partition's fault-order clock of 2.4 GHz in which it was reported (R42) -/
  period : Nat := 0
  deriving DecidableEq, Repr

/-- An entry of the launch table (R266). `nextCluster` is the first cluster not examined yet; `done` the clusters dispatched
out of order. -/
structure LaunchEntry where
  quad : Nat
  queue : Nat
  vdev : Nat
  packet : List Byte
  accepted : Nat
  dispatched : List Nat := []
  retired : Nat := 0
  phase : LaunchPhase := .running
  fatal : Option FatalSummary := Option.none
  /-- the tick since which required bits stay unset with no live owner (R275) -/
  depFrom : Option Nat := Option.none
  /-- its acceptance number in the partition, and that of the previous launch of its queue (R273) -/
  order : Nat := 0
  prev : Option Nat := Option.none
  queued : Bool := true
  deriving DecidableEq, Repr

/-- A saved team: its image as the device keeps it (R326), whole in this model's own data, waiting to be placed again. -/
structure SavedTeam where
  team : Team
  groups : List Group
  banks : Store ClampBank := []
  acc : Store Word := []
  reclusters : Option ClusterBarrier := Option.none
  restoredAt : Nat := 0
  deriving DecidableEq, Repr

/-- An entry of the gang table (R266): launch, cluster, die, the cores of its rectangle in rank order, the reserved ones, and
the wait start. -/
structure Gang where
  launch : Nat
  cluster : Nat
  die : Nat
  cores : List Nat
  reserved : List Nat
  since : Nat
  vdev : Nat
  restored : Bool := false
  deriving DecidableEq, Repr

/-- An entry of the communicator table (R288). -/
structure Communicator where
  id : Nat
  members : List Nat
  rank : Nat
  vdev : Nat
  deriving DecidableEq, Repr

/-- A fabric reduction group (R264, R408). -/
structure ReductionGroup where
  endpoint : Nat
  vdev : Nat
  elem : Nat
  red : Nat
  rank : Nat
  members : List Nat
  deriving DecidableEq, Repr

/-- An entry of the remote translation cache (R333), with the device whose accesses it permits (R204, DEDUCED, log 19). -/
structure RemoteEntry where
  vdev : Nat := 0
  endpoint : Nat
  frame : Nat
  r : Bool
  w : Bool
  deriving DecidableEq, Repr

/-- A replica: frame, quadrant, valid bit (R333). -/
structure Replica where
  frame : Nat
  quad : Nat
  valid : Bool
  deriving DecidableEq, Repr

/-- An entry of the replica table (R333). -/
structure ReplicaEntry where
  primary : Nat
  vdev : Nat
  replicas : List Replica
  deriving DecidableEq, Repr

/-- A replicated commit in progress (R235): the line, the device, the group and its operation that write it, the virtual address, the bytes, the tick at which it locked, and
the loads that have stalled on it, by group and issue number, with the tick from which they have (R237). -/
structure ReplicaLock where
  entry : Nat
  vdev : Nat
  gid : Nat
  serial : Nat := 0
  va : Nat := 0
  addr : Nat
  data : List Byte
  since : Nat
  stalled : List (Nat × Nat × Nat) := []
  deriving DecidableEq, Repr

/-- An entry of the forwarding table (R346, R358): the device that has left, its context, the destination, and the device's frames with the guest-physical
addresses at which it had them. -/
structure Forwarding where
  vdev : Nat
  ctxid : Nat := 0
  endpoint : Nat
  frames : List (Nat × Nat) := []
  acks : BitVec 64
  peers : BitVec 64
  expiry : Nat
  deriving DecidableEq, Repr

/-- An event-log record (R315). -/
structure EventRecord where
  type : Nat
  quad : Nat
  vdev : Nat := 0
  code : Nat := 0
  unit : Nat := 0xFFFFFFFF
  paddr : Nat := 0
  time : Nat := 0
  team : Nat := 0
  group : Nat := 0
  pc : VA := 0
  count : Nat := 1
  deriving DecidableEq, Repr

/-- The event log of a partition (R311, R315), with the records dropped and whether one entered since the last read. -/
structure EventLog where
  records : List EventRecord := []
  dropped : Nat := 0
  fresh : Bool := false
  deriving DecidableEq, Repr

/-- The sample control of a partition (R388, R409). -/
structure Sampling where
  vdev : Nat
  buffer : Nat
  length : Nat
  written : Nat := 0
  rate : Nat
  issues : Nat := 0
  team : Nat
  group : Nat
  low : Nat
  high : Nat
  /-- the issue that is sampled, of which the record is not written yet: its group and the record (R398) -/
  sampled : Option (Nat × FaultRecord) := Option.none
  deriving DecidableEq, Repr

/-- The registers and small tables of a partition that firmware writes (R207, R287, R346, R377). -/
structure PartRegs where
  members : List Nat := []
  endpoint : Nat := 0
  carvelim : BitVec 32 := 0
  placectl : BitVec 32 := 0
  boostctl : BitVec 32 := 0
  lastAdmitted : Nat := 0
  deriving DecidableEq, Repr

/-- Dispatch (R266, R346). -/
structure Dispatcher where
  launches : Store LaunchEntry := []
  gangs : List (Nat × Gang) := []
  fence : Option Nat := Option.none
  /-- resident devices with their core sets, logical numbers (R350) -/
  resident : Store (List Nat) := []
  acceptOrder : Nat := 0
  /-- a decision instant is due (R272) -/
  decide : Bool := false
  deriving DecidableEq, Repr

/-- The fabric side of a partition (R264, R288, R333, R345, R346). -/
structure Fabric where
  comms : Store Communicator := []
  groups : Store ReductionGroup := []
  remote : List RemoteEntry := []
  forwarding : Store Forwarding := []
  unreachable : List Nat := []
  /-- endpoints that a notice re-pointed: old and new (R358) -/
  moved : Store Nat := []
  /-- what firmware has decided on exports so far: a frame, a requesting device or 0 for the host, and whether it is exported (R204, R403) -/
  exports : List (Nat × Nat × Bool) := []
  /-- frames that a device which has migrated away held, until they pass to another (R358) -/
  departed : List Nat := []
  deriving DecidableEq, Repr

/-- A partition, by its lowest quadrant (R347). -/
structure Part where
  regs : PartRegs := {}
  disp : Dispatcher := {}
  fab : Fabric := {}
  replicas : Store ReplicaEntry := []
  locks : List ReplicaLock := []
  probes : List Nat := []
  log : EventLog := {}
  sampling : Option Sampling := Option.none
  deriving DecidableEq, Repr

/-! ### Virtual device -/

/-- A window grant (R333). -/
structure WindowGrant where
  window : Nat
  base : Nat
  length : Nat
  deriving DecidableEq, Repr

/-- The context of a device (R311, R312, R331). -/
structure Context where
  ctl : BitVec 64 := 0
  ctxid : Nat := 0
  saves : Nat := 0
  dumps : Nat := 0
  key : Option (BitVec 256) := Option.none
  keyErased : Bool := false
  /-- the tick from which the slice timer counts -/
  sliceFrom : Nat := 0
  halted : Bool := false
  haltFault : Option FatalSummary := Option.none
  /-- the dumps that left the device sealed, by dump counter: the number and the length of the body (R331) -/
  sealedDumps : Store (Nat × Nat) := []
  deriving DecidableEq, Repr

/-- The tables of a device (R333). -/
structure VdevTables where
  s1root : Option Nat := Option.none
  s2root : Option Nat := Option.none
  grants : Store WindowGrant := []
  dirtyBase : Nat := 0
  dirtyLen : Nat := 0
  deriving DecidableEq, Repr

/-- The fault queue of a device (R311, R431). -/
structure FaultQueue where
  base : Nat := 0
  head : BitVec 32 := 0
  tail : BitVec 32 := 0
  overflow : Nat := 0
  /-- engine records that wait for room when no group of their team is left (R314, R397) -/
  waiting : List FaultRecord := []
  deriving DecidableEq, Repr

/-- The stamp registers of a device (R388, R397), and the records dropped since the previous one written (R396). -/
structure StampRegs where
  lo : Word := 0
  hi : Word := 0
  n : Word := 0
  head : Word := 0
  tail : Word := 0
  ovf : Word := 0
  dropped : Nat := 0
  deriving DecidableEq, Repr

/-- A page record of a stream region (R355): its epoch, its guest-physical page address, and where it lies in the region. -/
structure PageRecord where
  epoch : Nat
  page : Nat
  offset : Nat
  deriving DecidableEq, Repr

/-- The checkpoint state of a device (R346, R353 to R355): CKCTL, the epoch, the stream region with its length and its write position, the
page records in it with the number of them in this epoch, the tick from which CKRATE lets the next page go, and whether an epoch is closing. -/
structure Checkpoint where
  ctl : BitVec 64 := 0
  epoch : Nat := 0
  position : Nat := 0
  length : Nat := 0
  pages : Nat := 0
  records : List PageRecord := []
  nextPage : Nat := 0
  closing : Bool := false
  /-- the tick since which the close of an epoch has waited for room in its region (R355) -/
  fullFrom : Option Nat := Option.none
  deriving DecidableEq, Repr

/-- The guest virtual address of the stream region (R355). -/
def Checkpoint.region (c : Checkpoint) : Nat := (c.ctl.extractLsb' 0 40).toNat * 4096

/-- The migration state of a device (R346, R356): the phase; the peer endpoint; whether the device comes in; the mailbox of a MIGRATE_OUT that
has not ended; the frames that are not pulled yet, at the destination; the frames that the source has sent; the pull rate. -/
structure Migration where
  phase : Nat := 0
  peer : Nat := 0
  incoming : Bool := false
  mailbox : Option Nat := Option.none
  unpulled : List Nat := []
  sent : List Nat := []
  sourceLost : Bool := false
  rate : Nat := 0
  /-- the tick from which the rate lets the next frame be pulled in the background (R356) -/
  nextPull : Nat := 0
  /-- frames for which an access waits: they are pulled before the others (R356, R357) -/
  touched : List Nat := []
  deriving DecidableEq, Repr

/-- A trigger stage (R409). -/
structure Trigger where
  kind : Nat
  selector : Nat
  value : Nat
  deriving DecidableEq, Repr

/-- A debugger attached to a device (R409): the stop policy, the kind of attach, the trigger stages, the stage that is armed, and,
once it has matched, the group at which it did. -/
structure Debugger where
  policy : Nat
  vendor : Bool
  triggers : List Trigger := []
  armed : Nat := 0
  hit : Option (Option Nat) := Option.none
  deriving DecidableEq, Repr

/-- What a save is for (R325, R327). -/
inductive SaveCause where
  | slice
  /-- SAVE: the mailbox that gave it, the buffer and its length -/
  | save (mailbox buffer length : Nat)
  /-- MIGRATE_OUT: the mailbox that gave it -/
  | migrate (mailbox : Nat)
  /-- the close of an epoch (R354) -/
  | epoch
  deriving DecidableEq, Repr

/-- Where a device stands between saves (R325 to R327, R350). -/
inductive SavePhase where
  | running
  /-- stopping for a save -/
  | stopping (cause : SaveCause)
  | saved
  deriving DecidableEq, Repr

/-- What an image that left the device holds (R326, R333), in the model's own data: the save counter, the number and the length of its
bytes, its teams, launch-table entries and queued packets, S1ROOT, the epoch that a checkpoint's image closes, and the shape of the device: member
count, NCORE0 to NCORE3, RH, RW and NQUEUE (R360). -/
structure Image where
  counter : Nat
  index : Nat
  length : Nat
  teams : List SavedTeam
  launches : List (Nat × LaunchEntry) := []
  packets : List (Nat × Nat × List Packet) := []
  s1root : Option Nat := Option.none
  epoch : Option Nat := Option.none
  shape : List Nat := []
  deriving DecidableEq, Repr, Inhabited

/-- The saves of a device: where it stands, the teams that wait to be placed again (R43), and the last image that left the device. -/
structure Saved where
  phase : SavePhase := .running
  teams : List SavedTeam := []
  image : Option Image := Option.none
  deriving DecidableEq, Repr

/-- A virtual device (R346): its 64-byte descriptor and all that belongs to it. -/
structure Vdev where
  desc : List Byte
  ctx : Context := {}
  tab : VdevTables := {}
  faults : FaultQueue := {}
  stamp : StampRegs := {}
  ckpt : Checkpoint := {}
  mig : Migration := {}
  debugger : Option Debugger := Option.none
  saved : Saved := {}
  vcarve : BitVec 32 := 0
  boosten : Bool := true
  deriving DecidableEq, Repr

/-! ### Module -/

/-- The rest of a unit (R362): its kind, the intervals left and the intervals completed. -/
structure Rest where
  poweredDown : Bool
  left : Nat
  completed : Nat
  deriving DecidableEq, Repr

/-- The wear record of a unit (R362, R382). -/
structure WearRecord where
  b : Nat := 0
  h : Nat := 0
  e : Nat := 0
  p : Nat := 0
  mon : Nat := 0
  rests : Nat := 0
  lastW : Nat := 0
  point : Nat := 0
  rest : Option Rest := Option.none
  deriving DecidableEq, Repr

/-- A bank of the wear store (R384), its records as written: interval count, and the records and LBUD by unit; `intact` tells
whether every record checks. -/
structure WearBank where
  intervals : Nat := 0
  records : Store WearRecord := []
  lbud : Store Int := []
  intact : Bool := true
  deriving DecidableEq, Repr

/-- The map of a die (R13): physical positions 0..25 of its logical cores, spares and retired cores; a core without backing is
unavailable. -/
structure DieMap where
  map : List (Option Nat)
  spares : List Nat
  retired : List Nat := []
  /-- called spares, each with the core of the die that it will back when that core is free (R373) -/
  pendingSwap : List (Nat × Nat) := []
  /-- cores retired since the last boundary, by logical position in the die (R373) -/
  retiredSince : List Nat := []
  deriving DecidableEq, Repr

/-- What the sensors read in the present interval (R366), inputs from outside: the highest supply of a physical core, or of the base die of
quadrant q as 500 + q; the highest temperature of a core, slice or link macro; the nominal base supply of a core, which firmware sets; and
the temperatures at the last boundary. What is not listed is 750 mV, 55 degrees. -/
structure Sensors where
  supply : Store Nat := []
  temp : Store Nat := []
  nominal : Store Nat := []
  lastTemp : Store Nat := []
  deriving DecidableEq, Repr

/-- Activity in the present interval (R368): active clks by unit, where a core that backs no logical core or a slice is concerned; masks
of the quarters in which something was powered, by the unit of an array, and by quadrant until it was last powered down; and the tick from which a
physical core that was swapped in has been powered. -/
structure Activity where
  active : Store Nat := []
  quarters : Store Nat := []
  since : Store Nat := []
  deriving DecidableEq, Repr

/-- The wear and life state of the module (R362). LBUD is by physical core unit. -/
structure Wear where
  records : Store WearRecord := []
  lbud : Store Int := []
  intervals : Nat := 0
  lifectl : Nat := 43800
  nextLifectl : Nat := 43800
  lbudcap : Int := 1605600000
  fv : List Nat := [5, 8, 12, 18, 27]
  ft : List Nat := [6, 8, 12, 18, 27]
  nextFv : List Nat := [5, 8, 12, 18, 27]
  nextFt : List Nat := [6, 8, 12, 18, 27]
  nextWearctl : Store (BitVec 64) := []
  bankA : WearBank := {}
  bankB : WearBank := {}
  /-- the records as they were at the most recent interval boundary (R277, R369, R382) -/
  boundary : Store WearRecord := []
  sensors : Sensors := {}
  activity : Activity := {}
  deriving DecidableEq, Repr

/-- Security (R413) and debug (R408, R414) states of the module. -/
inductive Security where
  | manufacturing | provisioned
  deriving DecidableEq, Repr

/-- The SPDM responder (R412): how far a requester has come, up to an open session. -/
inductive SpdmPhase where
  | idle | versioned | capable | negotiated | keyed | session
  deriving DecidableEq, Repr

/-- The algorithms of the responder (R412). -/
inductive SpdmAlgorithm where
  | mlDsa44 | sha3x256 | secp384r1 | aes256Gcm
  deriving DecidableEq, Repr

/-- The exchange of the responder with one requester (R412): how far it has come, and the algorithms that are agreed. -/
structure SpdmLink where
  phase : SpdmPhase := .idle
  algorithms : List SpdmAlgorithm := []
  deriving DecidableEq, Repr

/-- The identity and security side of the module (R410 to R414): the responder's exchanges by requester (a Holry Link 0 or 1, or the endpoint e of
the fabric as 2 + e), and the public key that boot derives. -/
structure Identity where
  mr : Store (BitVec 256) := []
  security : Security := .provisioned
  spdm : Store SpdmLink := []
  publicKey : List Byte := []
  response : List Byte := []
  ctxNext : Nat := 1
  deriving DecidableEq, Repr

/-- The frame ownership table and the retired frames (R333, R342), where a frame that is not listed is free; and the 64-byte sectors, by
number, of which the data is known to be uncorrectable (R218, R220). -/
structure Frames where
  owner : Store Nat := []
  retired : List Nat := []
  bad : List Nat := []
  /-- frames of which a sector could not be written back, until firmware retires them (R219) -/
  condemned : List Nat := []
  deriving DecidableEq, Repr

/-- An interrupt write that the device sent to the host (R315). -/
structure PostedWrite where
  addr : Nat
  data : Word
  deriving DecidableEq, Repr

/-- A pass of the patrol scrub (R220): the tick by which it has read everything, and the sectors of which it has found the error. -/
structure ScrubPass where
  due : Nat
  found : List Nat := []
  deriving DecidableEq, Repr

/-- A write at a home slice that waits: to a line that a stash holds under a lease, until the lease clears (R214), or to a set that holds no eligible
line, until one becomes eligible (R205). -/
structure HeldWrite where
  members : List Nat
  addr : Nat
  data : List Byte
  /-- it is the write-back of a sector, which every reader sees already -/
  back : Bool := false
  deriving DecidableEq, Repr

/-- The module (R13, R333, R346, R388, R345, R404). `tick` counts 1/84 ns. `outbox` holds what has left over the links. -/
structure Module where
  code : Nat := 0
  dies : Store DieMap := []
  frames : Frames := {}
  ident : Identity := {}
  tick : Nat := 0
  nextBoundary : Nat := 84000000
  hostReply : Option Word := Option.none
  outbox : List PostedWrite := []
  cxlDown : List Nat := []
  /-- the bytes that the HDM decoders of a CXL port map, from the start of its window, as boot programs them (R404) -/
  hdm : Store Nat := []
  /-- the firmware registers that MTSR has written, by selector (R399) -/
  fwRegs : Store Word := []
  heldWrites : List HeldWrite := []
  /-- the frames that RETIRE_PAGE commands are to retire when no lease holds a line of them, each with its command (R214, R343) -/
  retiring : List (CommandSource × Nat) := []
  /-- TABLES_INVALIDATE commands that wait for what has been translated to be performed, each with its device (R337) -/
  drains : List (CommandSource × Nat) := []
  /-- the quadrants in the order of the last GO writes of their mailboxes, oldest first (R406) -/
  goOrder : List Nat := []
  /-- the patrol scrub of DRAM and LPDDR6, once in 24 hours, and of the LLC, once in an hour (R220) -/
  dramScrub : ScrubPass := { due := 7257600000000000 }
  llcScrub : ScrubPass := { due := 302400000000000 }
  powered : Bool := true
  deriving DecidableEq, Repr

/-- The model's own fields: the events that happen next, the group and PC slot that issue, the index of the next free value
(DESIGN CHOICE, logs 1 and 8). -/
structure Sched where
  agenda : List Instr := []
  issuer : Option (Nat × Nat) := Option.none
  free : Nat := 0
  deriving DecidableEq, Repr

/-- The state of a module. -/
structure State where
  mem : List Host.Cell := []
  groups : Store Group := []
  benches : Store Bench := []
  teams : Store Team := []
  clusters : Store ClusterBarrier := []
  cores : Store Core := []
  quads : Store Quad := []
  parts : Store Part := []
  vdevs : Store Vdev := []
  wear : Wear := {}
  mod : Module := {}
  sched : Sched := {}
  deriving DecidableEq, Repr

/-! ### Reset -/

/-- CARVELIM at reset: STASHMAX 30, LANEMAX 30, L1MIN 2 (R200, R207). -/
def carvelimReset : BitVec 32 := 2 <<< 12 ||| 30 <<< 6 ||| 30

/-- WEARCTL from manufacture (R363, R376). -/
def wearctlReset : BitVec 64 := 0x100000 <<< 40 ||| 0x0800 <<< 24 ||| 4 <<< 18 ||| 16 <<< 13 ||| 250

/-- A partition as PARTITION forms it (R347, R287, R377), with the endpoint that boot assigns (DESIGN CHOICE, log 7). -/
def Part.formed (members : List Nat) (endpoint : Nat) : Part :=
  { regs := { members := members, endpoint := endpoint, carvelim := carvelimReset, placectl := 0x14, boostctl := 0x03E8550C } }

/-- The map of a die from manufacture (R12, DEDUCED, log 6): each logical (row, column) at the physical position of the same row and
column; the spares at (1, 6) and (2, 6). Physical positions are row-major with the bridges skipped (R364): rows of 6, 7, 7, 6. -/
def DieMap.initial : DieMap :=
  { map := [0, 1, 2, 3, 4, 5, 6, 7, 8, 9, 10, 11, 13, 14, 15, 16, 17, 18, 20, 21, 22, 23, 24, 25].map some,
    spares := [12, 19] }

/-- A quadrant at reset. -/
def Quad.initial : Quad := { wearctl := wearctlReset }

/-- The machine right after a module reset: boot is what happens next (R385, R411). -/
def State.reset : State :=
  { quads := [(0, Quad.initial), (1, Quad.initial), (2, Quad.initial), (3, Quad.initial)],
    parts := [(0, Part.formed [0] 0), (1, Part.formed [1] 1), (2, Part.formed [2] 2), (3, Part.formed [3] 3)],
    mod := { dies := [(0, DieMap.initial), (1, DieMap.initial), (2, DieMap.initial), (3, DieMap.initial),
                      (4, DieMap.initial), (5, DieMap.initial), (6, DieMap.initial), (7, DieMap.initial)] },
    sched := { agenda := [.boot] } }

end Sys2Proof.Machine
end

