-- ==== Sys2Proof/Machine/Access.lean ====
section
/-! DEFINITION. The named reads and writes of the state: lanes and registers, the stores of groups, teams and cores,
bytes of physical memory, counters, time, and the free values. -/

namespace Sys2Proof.Machine

/-! ### Small words -/

/-- Bits hi..lo of a number (R2). -/
def bits (x hi lo : Nat) : Nat := x / 2 ^ lo % 2 ^ (hi + 1 - lo)

/-- Whether bit i of a number is set. -/
def bit (x i : Nat) : Bool := x / 2 ^ i % 2 == 1

/-- Sign extension of a field into an integer (R92). -/
def sextInt {n : Nat} (x : BitVec n) : Int := x.toInt

/-- The word of an integer modulo 2^32 (R92). -/
def wordOfInt (x : Int) : Word := BitVec.ofInt 32 x

/-- The bytes of a number, lowest first (R3). -/
def bytesOf : Nat → Nat → List Byte
  | 0, _ => []
  | n + 1, x => BitVec.ofNat 8 x :: bytesOf n (x / 256)

/-- The number whose bytes, lowest first, are given (R3). -/
def numOf : List Byte → Nat
  | [] => 0
  | b :: rest => b.toNat + 256 * numOf rest

/-- The number in `n` bytes of a record from an offset on (R3). -/
def field (rec : List Byte) (off n : Nat) : Nat := numOf ((rec.drop off).take n)

/-- PART of a descriptor (R348). -/
def descPart (d : List Byte) : Nat := field d 1 1

/-- Whether `n` bytes of a record from an offset on are all 0 (R4). -/
def zeros (rec : List Byte) (off n : Nat) : Bool := ((rec.drop off).take n).all (· == 0)

/-- The numbers 0..n-1. -/
def upTo (n : Nat) : List Nat := List.range n

/-- The numbers of the bits that are set in a mask, ascending. -/
def lanesIn (m : Mask) : List Nat := (upTo 32).filter fun l => m.getLsbD l

/-- A mask from a predicate on lanes. -/
def maskOf (f : Nat → Bool) : Mask := BitVec.ofNat 32 ((upTo 32).foldl (fun acc l => if f l then acc + 2 ^ l else acc) 0)

/-- The least of a list of numbers. -/
def leastOf : List Nat → Option Nat
  | [] => none
  | x :: rest => match leastOf rest with
    | none => some x
    | some y => some (min x y)

/-- Insert by a key, keeping the order of equal keys. -/
def insertBy {α : Type} (key : α → List Int) (le : List Int → List Int → Bool) (x : α) : List α → List α
  | [] => [x]
  | y :: rest => if le (key y) (key x) then y :: insertBy key le x rest else x :: y :: rest

/-- Lexicographic order. -/
def lexLe : List Int → List Int → Bool
  | [], _ => true
  | _ :: _, [] => false
  | x :: xs, y :: ys => if x < y then true else if y < x then false else lexLe xs ys

/-- A list in ascending order of its keys. -/
def sortBy {α : Type} (key : α → List Int) : List α → List α
  | [] => []
  | x :: rest => insertBy key lexLe x (sortBy key rest)

/-- A list without repeats, first occurrences kept. -/
def distinct : List Nat → List Nat
  | [] => []
  | x :: rest => x :: (distinct rest).filter (· ≠ x)

/-! ### Lanes and registers -/

/-- The word of a lane. -/
def Lanes.at (x : Lanes) (l : Nat) : Word := if h : l < 32 then x[l] else 0

/-- A register from its lanes. -/
def lanesBy (f : Nat → Word) : Lanes := Vector.ofFn fun l : Fin 32 => f l.val

/-- The register that takes the lanes of a mask from one and the others from another (R27). -/
def Lanes.merge (old new : Lanes) (m : Mask) : Lanes := lanesBy fun l => if m.getLsbD l then new.at l else old.at l

/-- A V-class register: v0..v119, or e0..e7 at 120..127 (R71). -/
def Regs.vec (r : Regs) (n : Nat) : Lanes := if n < 120 then Store.get zeroLanes r.v n else Store.get zeroLanes r.e (n - 120)

/-- A write of some words of a group's registers: their errors are gone (R107). -/
def Regs.rewrite (r : Regs) (p : RegWord → Bool) : Regs := { r with upset := r.upset.filter fun b => !p b, soft := r.soft.filter fun b => !p b }

/-- Whether a word is a lane of a V-class register in a mask. -/
def RegWord.inVec (n : Nat) (m : Mask) : RegWord → Bool
  | .vec k l => k == n && m.getLsbD l
  | _ => false

/-- A write of a V-class register in the lanes of a mask: a brine register takes the clk w, its lanes in the mask become
valid and every other lane invalid (R101). The words written are good again (R107). -/
def Regs.setVec (r : Regs) (m : Mask) (w : Nat) (n : Nat) (x : Lanes) : Regs :=
  let u := r.rewrite (RegWord.inVec n m)
  if n < 120 then { u with v := Store.set zeroLanes r.v n ((Store.get zeroLanes r.v n).merge x m) }
  else
    { u with e := Store.set zeroLanes r.e (n - 120) ((Store.get zeroLanes r.e (n - 120)).merge x m),
             eValid := Store.set 0 r.eValid (n - 120) m, eClk := Store.set 0 r.eClk (n - 120) w }

/-- A scalar register (R93). -/
def Regs.sc (r : Regs) (n : Nat) : Word := Store.get 0 r.s n
/-- A write of a scalar register. -/
def Regs.setSc (r : Regs) (n : Nat) (x : Word) : Regs := { r.rewrite (· == .sc n) with s := Store.set 0 r.s n x }
/-- A predicate (R93). -/
def Regs.pred (r : Regs) (n : Nat) : Mask := Store.get 0 r.p n
/-- A write of a predicate in the lanes of a mask: other bits keep their values (R162). -/
def Regs.setPred (r : Regs) (m : Mask) (n : Nat) (x : Mask) : Regs :=
  { r.rewrite (fun b => m == BitVec.allOnes 32 && b == .pred n) with p := Store.set 0 r.p n ((r.pred n &&& ~~~m) ||| (x &&& m)) }
/-- The 64 bits of a scalar pair, low word first (R72). -/
def Regs.sc64 (r : Regs) (n : Nat) : BitVec 64 := r.sc (n + 1) ++ r.sc n
/-- A write of a scalar pair. -/
def Regs.setSc64 (r : Regs) (n : Nat) (x : BitVec 64) : Regs :=
  (r.setSc n (x.extractLsb' 0 32)).setSc (n + 1) (x.extractLsb' 32 32)
/-- The 64 bits of a lane of a vector pair. -/
def Regs.vec64 (r : Regs) (n l : Nat) : BitVec 64 := (r.vec (n + 1)).at l ++ (r.vec n).at l
/-- Every brine valid bit cleared (R103). -/
def Regs.dropBrine (r : Regs) : Regs := { r with eValid := [] }
/-- The address that a scalar pair forms (R138). -/
def Regs.scAddr (r : Regs) (n : Nat) : Nat := (r.sc (n + 1)).toNat % 2 ^ 24 * 2 ^ 32 + (r.sc n).toNat
/-- The address that a vector pair forms in a lane (R119, R247). -/
def Regs.vecAddr (r : Regs) (n l : Nat) : Nat := ((r.vec (n + 1)).at l).toNat % 2 ^ 24 * 2 ^ 32 + ((r.vec n).at l).toNat

/-! ### Slots -/

/-- A PC slot (R26). -/
def Flow.slot (f : Flow) (n : Nat) : PcSlot := if n = 0 then f.s0 else f.s1
/-- A write of a PC slot. -/
def Flow.setSlot (f : Flow) (n : Nat) (x : PcSlot) : Flow := if n = 0 then { f with s0 := x } else { f with s1 := x }
/-- Live when its mask is nonzero (R26). -/
def PcSlot.live (x : PcSlot) : Bool := x.mask != 0
/-- Whether the slot is held at a BRP, BAR or BARC. -/
def PcSlot.isHeld (x : PcSlot) : Bool := x.hold != .none
/-- The lanes of a group that have not exited: those of its slots, of its path entries and of its join entries (R26, R29). -/
def Flow.lanes (f : Flow) : Mask :=
  f.stack.foldl (fun acc e => match e with
    | .path _ m => acc ||| m
    | .join _ _ a => acc ||| a) (f.s0.mask ||| f.s1.mask)

/-! ### Stores of the state -/

/-- The core of a group slot, the bench and the bench slot (R21). -/
def coreOf (gid : Nat) : Nat := gid / 128
/-- The quadrant of a logical core (R11). -/
def quadOfCore (core : Nat) : Nat := core / 48
/-- The die of a logical core (R11). -/
def dieOfCore (core : Nat) : Nat := core / 24
/-- Hops between two logical cores of one die (R12, R253). -/
def hops (a b : Nat) : Nat :=
  let ra := a % 24 / 6; let rb := b % 24 / 6; let ca := a % 6; let cb := b % 6
  (max ra rb - min ra rb) + (max ca cb - min ca cb)

/-- Router hops between two physical positions of a die (R10, R12): rows of 6, 7, 7 and 6 cores, row-major. -/
def gridHops (a b : Nat) : Nat :=
  let row (p : Nat) : Nat := if p < 6 then 0 else if p < 13 then 1 else if p < 20 then 2 else 3
  let col (p : Nat) : Nat := if p < 6 then p else if p < 13 then p - 6 else if p < 20 then p - 13 else p - 20
  (max (row a) (row b) - min (row a) (row b)) + (max (col a) (col b) - min (col a) (col b))

def State.core (s : State) (c : Nat) : Core := Store.get {} s.cores c
def State.setCore (s : State) (c : Nat) (x : Core) : State := { s with cores := Store.put s.cores c x }
def State.modCore (s : State) (c : Nat) (f : Core → Core) : State := s.setCore c (f (s.core c))
def State.modMem (s : State) (c : Nat) (f : CoreMem → CoreMem) : State := s.modCore c fun x => { x with mem := f x.mem }
def State.modArr (s : State) (c : Nat) (f : CoreArray → CoreArray) : State := s.modCore c fun x => { x with arr := f x.arr }
def State.setGroup (s : State) (g : Nat) (x : Group) : State := { s with groups := Store.put s.groups g x }
def State.modGroup (s : State) (g : Nat) (f : Group → Group) : State :=
  match Store.find s.groups g with
  | some x => s.setGroup g (f x)
  | none => s
def State.modRegs (s : State) (g : Nat) (f : Regs → Regs) : State := s.modGroup g fun x => { x with regs := f x.regs }
def State.modFlow (s : State) (g : Nat) (f : Flow → Flow) : State := s.modGroup g fun x => { x with flow := f x.flow }
def State.modStops (s : State) (g : Nat) (f : Stops → Stops) : State := s.modGroup g fun x => { x with stops := f x.stops }
def State.modEng (s : State) (g : Nat) (f : EngineSide → EngineSide) : State := s.modGroup g fun x => { x with eng := f x.eng }
/-- Counter c_k: the operations of class k that a group has outstanding (R106). -/
def EngineSide.count (e : EngineSide) (k : Nat) : Nat := (e.out.filter fun w => w.cls == k).length
/-- The operations of a class of which the completion may be reported: those finished before which none of the class is unfinished
leave the list (R240). -/
def reportWork (k : Nat) : List EngineWork → List EngineWork
  | [] => []
  | w :: rest => if w.cls ≠ k then w :: reportWork k rest else if w.finished then reportWork k rest else w :: rest
/-- Those that leave it, in their order. -/
def reportedWork (k : Nat) : List EngineWork → List EngineWork
  | [] => []
  | w :: rest => if w.cls ≠ k then reportedWork k rest else if w.finished then w :: reportedWork k rest else []
/-- An operation of class k has finished. -/
def EngineSide.marked (e : EngineSide) (k serial : Nat) : List EngineWork :=
  e.out.map fun w => if w.cls = k ∧ w.serial = serial then { w with finished := true } else w
/-- An operation of class k has finished: its counter falls once every older one of its class has (R106, R240). -/
def EngineSide.finish (e : EngineSide) (k serial : Nat) : EngineSide := { e with out := reportWork k (e.marked k serial) }
/-- An operation of class k begins (R106). -/
def EngineSide.begin (e : EngineSide) (k serial : Nat) : EngineSide :=
  { e with out := e.out ++ [{ cls := k, serial := serial, tile := e.tag.map fun _ => e.tagSlot }] }
/-- An operation is dropped by an abort (R42): what finished behind it is reported now. -/
def EngineSide.drop (e : EngineSide) (k serial : Nat) : EngineSide :=
  { e with out := reportWork k (e.out.filter fun w => !(w.cls == k && w.serial == serial)) }
def State.modOps (s : State) (g : Nat) (f : List LongOp → List LongOp) : State := s.modGroup g fun x => { x with ops := f x.ops }
def State.modTeam (s : State) (t : Nat) (f : Team → Team) : State :=
  match Store.find s.teams t with
  | some x => { s with teams := Store.put s.teams t (f x) }
  | none => s
def State.modTeamMem (s : State) (t : Nat) (f : TeamMem → TeamMem) : State := s.modTeam t fun x => { x with mem := f x.mem }
/-- What a slot holds at a clk, when the loads of it that are not in use yet count only from a clk on. -/
def slotAt {α : Type} (old : Store α) (next : Store (List (Nat × α))) (clk n : Nat) : Option α :=
  match ((Store.get [] next n).filter fun x => decide (x.1 ≤ clk)).getLast? with
  | some (_, x) => some x
  | none => Store.find old n
/-- Load a slot at a clk: instructions use it from a later one on, and what an earlier load brings until then. -/
def slotLoad {α : Type} (next : Store (List (Nat × α))) (clk n since : Nat) (x : α) : Store (List (Nat × α)) :=
  Store.put next n ((Store.get [] next n).filter (fun y => decide (clk < y.1)) ++ [(since, x)])
/-- The jig in a slot at a clk (R184). -/
def TeamMem.jigAt (m : TeamMem) (clk n : Nat) : Option Jig := slotAt m.jigs m.jigNext clk n
/-- The tensor record in a slot at a clk (R297). -/
def TeamMem.recordAt (m : TeamMem) (clk n : Nat) : Option TensorRecord := slotAt m.records m.recordNext clk n
/-- Load a jig slot at a clk: instructions use it from a later one on. -/
def TeamMem.putJig (m : TeamMem) (clk n : Nat) (j : Jig) (since : Nat) : TeamMem :=
  { m with
    jigs := match m.jigAt clk n with
      | some o => Store.put m.jigs n o
      | none => m.jigs
    jigNext := slotLoad m.jigNext clk n since j }
/-- Load a record slot at a clk. -/
def TeamMem.putRecord (m : TeamMem) (clk n : Nat) (r : TensorRecord) (since : Nat) : TeamMem :=
  { m with
    records := match m.recordAt clk n with
      | some o => Store.put m.records n o
      | none => m.records
    recordNext := slotLoad m.recordNext clk n since r }
def State.modSync (s : State) (t : Nat) (f : TeamSync → TeamSync) : State := s.modTeam t fun x => { x with sync := f x.sync }
def State.bench (s : State) (b : Nat) : Bench := Store.get {} s.benches b
def State.modBench (s : State) (b : Nat) (f : Bench → Bench) : State := { s with benches := Store.put s.benches b (f (s.bench b)) }
def State.quad (s : State) (q : Nat) : Quad := Store.get {} s.quads q
def State.modQuad (s : State) (q : Nat) (f : Quad → Quad) : State := { s with quads := Store.put s.quads q (f (s.quad q)) }
def State.modLlc (s : State) (q : Nat) (f : Llc → Llc) : State := s.modQuad q fun x => { x with llc := f x.llc }
def State.part (s : State) (p : Nat) : Part := Store.get {} s.parts p
def State.modPart (s : State) (p : Nat) (f : Part → Part) : State :=
  match Store.find s.parts p with
  | some x => { s with parts := Store.put s.parts p (f x) }
  | none => s
def State.modDisp (s : State) (p : Nat) (f : Dispatcher → Dispatcher) : State := s.modPart p fun x => { x with disp := f x.disp }
def State.modFab (s : State) (p : Nat) (f : Fabric → Fabric) : State := s.modPart p fun x => { x with fab := f x.fab }
def State.modVdev (s : State) (v : Nat) (f : Vdev → Vdev) : State :=
  match Store.find s.vdevs v with
  | some x => { s with vdevs := Store.put s.vdevs v (f x) }
  | none => s
def State.modCtx (s : State) (v : Nat) (f : Context → Context) : State := s.modVdev v fun x => { x with ctx := f x.ctx }
def State.modWear (s : State) (f : Wear → Wear) : State := { s with wear := f s.wear }
def State.modMod (s : State) (f : Module → Module) : State := { s with mod := f s.mod }
def State.modIdent (s : State) (f : Identity → Identity) : State := s.modMod fun m => { m with ident := f m.ident }
def State.modDie (s : State) (d : Nat) (f : DieMap → DieMap) : State :=
  s.modMod fun m => { m with dies := Store.modify DieMap.initial m.dies d f }
def State.die (s : State) (d : Nat) : DieMap := Store.get DieMap.initial s.mod.dies d

/-- The physical unit that stands behind a logical core, when one does (R12, R13). -/
def State.unitOfCore (s : State) (core : Nat) : Option Nat :=
  ((s.die (dieOfCore core)).map.getD (core % 24) none).map fun p => dieOfCore core * 26 + p

/-- What the physical route between two logical cores of a die adds to the latency of an access after a spare has been called in: at most
6 clk, and nothing where the router hop count is that of the logical mesh (R12, DESIGN CHOICE, log 44). -/
def State.routeClks (s : State) (a b : Nat) : Nat :=
  let at' (c : Nat) : Nat := ((s.die (dieOfCore c)).map.getD (c % 24) none).getD 0
  if gridHops (at' a) (at' b) = hops a b then 0 else Config.routeExtra (at' a) (at' b) % 7

/-- The partition that a quadrant belongs to (R347). -/
def State.partOfQuad (s : State) (q : Nat) : Nat :=
  match s.parts.find? (fun kv => kv.2.regs.members.contains q) with
  | some kv => kv.1
  | none => q
/-- The partition of a core. -/
def State.partOfCore (s : State) (c : Nat) : Nat := s.partOfQuad (quadOfCore c)
/-- The groups of a team, by their slots. -/
def State.groupsOf (s : State) (tid : Nat) : List (Nat × Group) := s.groups.filter fun kv => kv.2.tid == tid
/-- The team of a cluster rank, seen from a team of that cluster (R24). -/
def State.peerTeam (s : State) (t : TeamId) (rank : Nat) : Option (Nat × Team) :=
  s.teams.find? fun kv =>
    kv.2.id.part == t.part && kv.2.id.launch == t.launch && kv.2.id.cluster == t.cluster && kv.2.id.rank == rank
/-- The key of a cluster's barrier. -/
def clusterKey (t : TeamId) : Nat := (t.part * 256 + t.launch) * 2 ^ 24 + t.cluster

/-- The group number that a lane position of a group belongs to: inside a regrouped region, that of its home (R33, R142, R216). -/
def State.homeGroup (s : State) (gid l : Nat) : Nat := match Store.find s.groups gid with
  | some g => Store.get g.number g.flow.home l
  | none => 0

/-! ### Time -/

/-- Module time in ns (R392). -/
def State.now (s : State) : Nat := s.mod.tick / 84
/-- The period of a core's clk in ticks of 1/84 ns: 2.8 GHz through a boosted interval, 2.4 GHz otherwise (R15, R378). -/
def Core.period (c : Core) : Nat :=
  if c.boost then 30 else 35

/-! ### Stamps (R395) -/

/-- Stamp a point of a slot of the stamp table: the first occurrence of points 1, 3, 4 and 6, the last of points 2, 5 and 7. -/
def State.stampPoint (s : State) (core slot point : Nat) : State :=
  let keep := point == 1 || point == 3 || point == 4 || point == 6
  s.modCore core fun c =>
    match Store.find c.stamps slot with
    | none => c
    | some x => if keep && Store.has x.points point then c
      else { c with stamps := Store.put c.stamps slot { x with points := Store.put x.points point s.now } }

/-- The stamp slot of an outstanding operation of a group. -/
def Group.tileOf (g : Group) (cls serial : Nat) : Option Nat :=
  (g.eng.out.find? fun w => w.cls == cls && w.serial == serial).bind (·.tile)

/-- Stamp a point for an operation of a group, when it is tagged. -/
def State.stampOp (s : State) (gid cls serial point : Nat) : State :=
  match (Store.find s.groups gid).bind fun g => g.tileOf cls serial with
  | none => s
  | some slot => s.stampPoint (coreOf gid) slot point

/-- A tagged operation of a group has completed with a code (R396). -/
def State.stampFault (s : State) (gid cls serial : Nat) : State :=
  match (Store.find s.groups gid).bind fun g => g.tileOf cls serial with
  | none => s
  | some slot => s.modCore (coreOf gid) fun c => { c with stamps := match Store.find c.stamps slot with
      | some x => Store.put c.stamps slot { x with faulted := true }
      | none => c.stamps }

/-! ### Free values -/

/-- The next free choice between two outcomes (DESIGN CHOICE, log 8). -/
def State.choose (s : State) : Bool × State := (Config.freeBool s.sched.free, { s with sched := { s.sched with free := s.sched.free + 1 } })
/-- The next free byte. -/
def State.anyByte (s : State) : Byte × State := (Config.freeByte s.sched.free, { s with sched := { s.sched with free := s.sched.free + 1 } })
/-- The next free number below a bound. -/
def State.anyNat (s : State) (bound : Nat) : Nat × State :=
  (Config.freeNat s.sched.free % bound, { s with sched := { s.sched with free := s.sched.free + 1 } })
/-- The next n free bytes. -/
def State.anyBytes (s : State) : Nat → List Byte × State
  | 0 => ([], s)
  | n + 1 => let (b, s1) := s.anyByte; let (bs, s2) := s1.anyBytes n; (b :: bs, s2)

/-! ### Counters (R388, R390) -/

/-- The key of a counter of a device; device 0 is the host total. -/
def counterKey (vdev sel : Nat) : Nat := vdev * 2048 + sel
/-- Raise a counter of a quadrant for a device, when there is one, and the host total, modulo 2^64. -/
def State.count (s : State) (q vdev sel n : Nat) : State :=
  s.modQuad q fun x =>
    let c1 := Store.modify 0 x.counters (counterKey 0 sel) fun v => (v + n) % 2 ^ 64
    { x with counters := if vdev = 0 then c1 else Store.modify 0 c1 (counterKey vdev sel) fun v => (v + n) % 2 ^ 64 }

/-- Raise a counter for the device of a team, in the quadrant of its core. -/
def State.countTeam (s : State) (tid sel n : Nat) : State :=
  match Store.find s.teams tid with
  | some t => s.count (quadOfCore (tid / 16)) t.id.vdev sel n
  | none => s

/-! ### Physical memory -/

/-- What a byte of physical memory that is not listed reads as (DESIGN CHOICE, log 3). -/
def unlistedByte : Byte := 0

/-- Read one byte of physical memory. -/
def memRead (m : List Host.Cell) (a : Nat) : Byte := Store.get unlistedByte m a
/-- Write one byte of physical memory, keeping the canonical form. -/
def memWrite (m : List Host.Cell) (a : Nat) (b : Byte) : List Host.Cell := Store.set unlistedByte m a b
/-- Read bytes from an address up. -/
def memReads (m : List Host.Cell) (a : Nat) : Nat → List Byte
  | 0 => []
  | n + 1 => memRead m a :: memReads m (a + 1) n
/-- Write bytes from an address up. -/
def memWrites (m : List Host.Cell) (a : Nat) : List Byte → List Host.Cell
  | [] => m
  | b :: rest => memWrites (memWrite m a b) (a + 1) rest

/-- The canonical form of memory: addresses strictly rising, and no entry that equals what an unlisted address reads as. -/
def Memory.wf (m : List Host.Cell) : Bool := Store.sorted m && m.all fun c => c.2 != unlistedByte

/-! ### Stash bytes (R200, R211) -/

/-- Some 32-bit words of a memory that hold an uncorrectable error (R217) after a write: those that it covers whole are good again. -/
def rewritten (bad : List Nat) (a n : Nat) : List Nat := bad.filter fun w => !(decide (a ≤ 4 * w) && decide (4 * w + 4 ≤ a + n))

/-- Whether some bytes lie in such words. -/
def upsetIn (bad : List Nat) (a n : Nat) : Bool := bad.any fun w => decide (a < 4 * w + 4) && decide (4 * w < a + n)

/-- Bytes of a team's stash. -/
def stashReads (m : Store Byte) (a n : Nat) : List Byte := (upTo n).map fun i => Store.get 0 m (a + i)
/-- A write of stash bytes. -/
def stashWrites (m : Store Byte) (a : Nat) : List Byte → Store Byte
  | [] => m
  | b :: rest => stashWrites (Store.set 0 m a b) (a + 1) rest

end Sys2Proof.Machine
end

