-- ==== Sys2Proof/Machine/Flags.lean ====
section
/-! DEFINITION. The mode register gmode, the guard and active(g), and the flags of scc (R73, R74, R94, R117, R136). -/

namespace Sys2Proof.Machine

/-! ### gmode (R73) -/

/-- gmode.GEN. -/
def guardOn (g : BitVec 32) : Bool := g.getLsbD 0
/-- gmode.GNEG. -/
def guardNeg (g : BitVec 32) : Bool := g.getLsbD 1
/-- gmode.GIDX. -/
def guardIdx (g : BitVec 32) : Nat := (g.extractLsb' 2 3).toNat
/-- gmode.TYPE; gmode never holds a reserved value (R73, R114). -/
def elemType (g : BitVec 32) : ElemType := (ElemType.ofCode (g.extractLsb' 5 4).toNat).getD .i32
/-- gmode.RND, SAT and FTZ. -/
def floatCtl (g : BitVec 32) : Num.Ctl := ⟨Num.Rnd.ofCode (g.extractLsb' 9 3).toNat, g.getLsbD 12, g.getLsbD 13⟩
/-- gmode.SAT. -/
def satOn (g : BitVec 32) : Bool := g.getLsbD 12
/-- gmode.FTZ. -/
def ftzOn (g : BitVec 32) : Bool := g.getLsbD 13
/-- gmode.ALG. -/
def algSlot (g : BitVec 32) : Nat := (g.extractLsb' 14 2).toNat
/-- gmode.MSCOPE: 0 group, 1 team, 2 cluster, 3 device, 4 system. -/
def memScope (g : BitVec 32) : Nat := (g.extractLsb' 16 3).toNat
/-- gmode.MORD: 0 relaxed, 1 acquire, 2 release, 3 acq_rel. -/
def memOrder (g : BitVec 32) : Nat := (g.extractLsb' 19 2).toNat
/-- Whether an ordering acquires (R222). -/
def acquires (ord : Nat) : Bool := ord == 1 || ord == 3
/-- Whether an ordering releases (R222). -/
def releases (ord : Nat) : Bool := ord == 2 || ord == 3

/-- The guard (R74). -/
def Regs.guard (r : Regs) : Mask :=
  if guardOn r.gmode then r.pred (guardIdx r.gmode) ^^^ (if guardNeg r.gmode then BitVec.allOnes 32 else 0)
  else BitVec.allOnes 32

/-- active(g): the slot mask and the guard (R74). -/
def Regs.active (r : Regs) (m : Mask) : Mask := m &&& r.guard

/-- Write the selected fields of gmode from a value laid out as IMM11 of SETMODE (R113). -/
def setModeFields (g : BitVec 32) (w : BitVec 5) (v : BitVec 11) : BitVec 32 :=
  let sel : BitVec 32 :=
    (if w.getLsbD 0 then 0x1E0 else 0) ||| (if w.getLsbD 1 then 0xE00 else 0) ||| (if w.getLsbD 2 then 0x1000 else 0) |||
    (if w.getLsbD 3 then 0x2000 else 0) ||| (if w.getLsbD 4 then 0xC000 else 0)
  let val : BitVec 32 := v.zeroExtend 32 <<< 5
  (g &&& ~~~sel) ||| (val &&& sel)

/-- Whether a selected field of SETMODE has a reserved value: TYPE 10..15, RND 5..7 (R114). -/
def modeReserved (w : BitVec 5) (v : BitVec 11) : Bool :=
  (w.getLsbD 0 && decide (9 < (v.extractLsb' 0 4).toNat)) || (w.getLsbD 1 && decide (4 < (v.extractLsb' 4 3).toNat))

/-- Write the guard fields of gmode (R113). -/
def setGuardFields (g : BitVec 32) (v : BitVec 5) : BitVec 32 := (g &&& ~~~0x1F#32) ||| v.zeroExtend 32

/-- Write the selected fields of gmode from a value laid out as IMM11 of SETMEM: bit 1 MORD, bit 0 MSCOPE (R113). -/
def setMemFields (g : BitVec 32) (w : BitVec 2) (v : BitVec 5) : BitVec 32 :=
  let sel : BitVec 32 := (if w.getLsbD 0 then 0x070000 else 0) ||| (if w.getLsbD 1 then 0x180000 else 0)
  (g &&& ~~~sel) ||| ((v.zeroExtend 32 <<< 16) &&& sel)

/-- Whether SETMEM selects a reserved MSCOPE, 5..7 (R114). -/
def memReserved (w : BitVec 2) (v : BitVec 5) : Bool := w.getLsbD 0 && decide (4 < (v.extractLsb' 0 3).toNat)

/-! ### scc (R94) -/

/-- The condition of SCMP (R136). -/
def scmpHolds (c : ScmpCond) (x y : Word) : Bool :=
  match c with
  | .eq => x == y
  | .ne => x != y
  | .lt => x.slt y
  | .ge => !x.slt y
  | .le => !y.slt x
  | .gt => y.slt x
  | .ltu => x.ult y
  | .geu => !x.ult y
  | .leu => !y.ult x
  | .gtu => y.ult x

/-- The scc that SCMP writes: SEL, EQ, LTS, LTU (R94, R136). -/
def sccOf (c : ScmpCond) (x y : Word) : BitVec 4 :=
  BitVec.ofBool (scmpHolds c x y) ++ BitVec.ofBool (x == y) ++ BitVec.ofBool (x.slt y) ++ BitVec.ofBool (x.ult y)

/-- scc.SEL. -/
def sccSel (f : BitVec 4) : Bool := f.getLsbD 3

/-- The condition of BRU on scc (R117). -/
def bruHolds (c : BruCond) (f : BitVec 4) : Bool :=
  match c with
  | .sel => f.getLsbD 3
  | .nsel => !f.getLsbD 3
  | .eq => f.getLsbD 2
  | .ne => !f.getLsbD 2
  | .lt => f.getLsbD 1
  | .ge => !f.getLsbD 1
  | .ltu => f.getLsbD 0
  | .geu => !f.getLsbD 0

end Sys2Proof.Machine
end

