-- ==== Sys2Proof/Machine/Operands.lean ====
section
/-! DEFINITION. Operands: the register operands of every instruction with their footprints (R71, R72), the TYPE values it
admits (R75), the other reserved operand values of row 3 of R78, its unit, latency and occupancy (R81, R430), and the bank
cost (R82, R83). -/

namespace Sys2Proof.Machine

/-- How an instruction reads a register operand, which decides the lanes whose brine valid bits it needs (R102): not at all;
in the active lanes; in the lanes of the slot mask (R119, R122); in all lanes (R199); or in lanes that its own entry names, so
that only its age is checked here (R164, R165). -/
inductive ReadKind where
  | none | active | slot | all | named
  deriving DecidableEq, Repr

/-- A register operand: class, first register, count, how it is read, and whether it is written. -/
structure Opnd where
  cls : RegClass
  first : Nat
  count : Nat
  read : ReadKind
  write : Bool
  deriving DecidableEq, Repr

/-- A vector source. -/
def vIn (n : BitVec 7) (c : Nat) : Opnd := ⟨.V, n.toNat, c, .active, false⟩
/-- A vector destination. -/
def vOut (n : BitVec 7) (c : Nat) : Opnd := ⟨.V, n.toNat, c, .none, true⟩
/-- A vector register that is source and destination. -/
def vBoth (n : BitVec 7) (c : Nat) : Opnd := ⟨.V, n.toNat, c, .active, true⟩
/-- A vector source read in other lanes than the active ones. -/
def vInAs (k : ReadKind) (n : BitVec 7) (c : Nat) : Opnd := ⟨.V, n.toNat, c, k, false⟩
/-- A scalar source. -/
def sIn (n : BitVec 7) (c : Nat) : Opnd := ⟨.S, n.toNat, c, .active, false⟩
/-- A scalar destination. -/
def sOut (n : BitVec 7) (c : Nat) : Opnd := ⟨.S, n.toNat, c, .none, true⟩
/-- A predicate source. -/
def pIn (n : BitVec 7) : Opnd := ⟨.P, n.toNat, 1, .active, false⟩
/-- A predicate destination. -/
def pOut (n : BitVec 7) : Opnd := ⟨.P, n.toNat, 1, .none, true⟩

/-- Registers per element operand: a pair under f64 (R72, R152). -/
def regsPer (t : ElemType) : Nat := if t = .f64 then 2 else 1

/-- Registers of a memory operand by SZ (R70, R72). -/
def sizeRegs (z : BitVec 3) : Nat := match z.toNat with
  | 5 => 2
  | 6 => 4
  | _ => 1

/-- Access size in bytes by SZ (R70, R138, R249). -/
def sizeBytes (z : BitVec 3) : Nat := match z.toNat with
  | 0 => 1
  | 1 => 1
  | 2 => 2
  | 3 => 2
  | 4 => 4
  | 5 => 8
  | _ => 16

/-- Elements of a type in a register, doubled so that f64 has one (R159). -/
def elemsTwice (t : ElemType) : Nat := match t with
  | .f64 => 1
  | .i32 | .n32 | .f32 => 2
  | .h16x2 | .b16x2 | .i16x2 | .n16x2 => 4
  | .i8x4 | .n8x4 => 8

/-- The number N of elements that FCVT converts per lane, and the registers of its source and destination (R159). -/
def cvtShape (src dst : ElemType) : Nat × Nat × Nat :=
  let n2 := max (max (elemsTwice src) (elemsTwice dst)) 2
  (n2 / 2, n2 / elemsTwice src, n2 / elemsTwice dst)

/-- Registers of the D field of ATOM and ATOMS (R256). -/
def atomRegs (z : BitVec 3) (o : AtomOp) : Nat := sizeRegs z * (if o = .cas then 2 else 1)

/-- The register operands of an instruction under a gmode; `dim` is the dimension of the algebra slot that it uses (R197). -/
def operands (g : BitVec 32) (dim : Nat) (i : Instr) : List Opnd :=
  let t := elemType g
  let f := regsPer t
  match i with
  | .setmode s _ a _ | .setgrd s a _ | .setmem s _ a _ => if s then [sIn a 1] else []
  | .brc p _ => [pIn (p.zeroExtend 7)]
  | .brp a _ => [vInAs .slot a 1]
  | .call _ => [vOut 30 2]
  | .ret a | .jmpr a => [vInAs .slot a 2]
  | .sadd d a b => [sOut d 1, sIn a 1, sIn b 1]
  | .ssub d a b => [sOut d 1, sIn a 1, sIn b 1]
  | .smul d a b => [sOut d 1, sIn a 1, sIn b 1]
  | .smulh d a b => [sOut d 1, sIn a 1, sIn b 1]
  | .sand d a b => [sOut d 1, sIn a 1, sIn b 1]
  | .sor d a b => [sOut d 1, sIn a 1, sIn b 1]
  | .sxor d a b => [sOut d 1, sIn a 1, sIn b 1]
  | .sshl d a b => [sOut d 1, sIn a 1, sIn b 1]
  | .sshr d a b => [sOut d 1, sIn a 1, sIn b 1]
  | .ssra d a b => [sOut d 1, sIn a 1, sIn b 1]
  | .smin d a b => [sOut d 1, sIn a 1, sIn b 1]
  | .smax d a b => [sOut d 1, sIn a 1, sIn b 1]
  | .sminn d a b => [sOut d 1, sIn a 1, sIn b 1]
  | .smaxn d a b => [sOut d 1, sIn a 1, sIn b 1]
  | .ssel d a b => [sOut d 1, sIn a 1, sIn b 1]
  | .saddi d a _ | .sandi d a _ | .sori d a _ => [sOut d 1, sIn a 1]
  | .lit d _ => [sOut d 1]
  | .scmp a b _ => [sIn a 1, sIn b 1]
  | .sld d a _ z _ => [sOut d (sizeRegs z), sIn a 2]
  | .sst d a _ z _ => [sIn d (sizeRegs z), sIn a 2]
  | .mfs d i => if i.toNat < 0x100 then [sOut d 1] else [vOut d 1]
  | .iadd d a b | .isub d a b | .imul d a b | .imulh d a b | .imin d a b | .imax d a b | .iand d a b | .ior d a b | .ixor d a b | .ishl d a b | .ishr d a b => [vOut d 1, vIn a 1, vIn b 1]
  | .iaddScalarB d a b | .isubScalarB d a b | .imulScalarB d a b | .imulhScalarB d a b | .iminScalarB d a b | .imaxScalarB d a b | .iandScalarB d a b | .iorScalarB d a b | .ixorScalarB d a b | .ishlScalarB d a b | .ishrScalarB d a b => [vOut d 1, vIn a 1, sIn b 1]
  | .iabs d a | .ineg d a | .inot d a | .popc d a | .clz d a | .ctz d a | .brev d a | .vmov d a => [vOut d 1, vIn a 1]
  | .imad d a b => [vBoth d 1, vIn a 1, vIn b 1]
  | .icmp d a b _ => [pOut d, vIn a 1, vIn b 1]
  | .isel d a b p => [vOut d 1, vIn a 1, vIn b 1, pIn (p.zeroExtend 7)]
  | .bfe d a b _ => [vOut d 1, vIn a 1, vIn b 1]
  | .bfi d a b => [vBoth d 1, vIn a 1, vIn b 1]
  | .lea d a b _ => [vOut d 1, vIn a 1, vIn b 1]
  | .iaddi d a _ | .ishli d a _ | .ishri d a _ => [vOut d 1, vIn a 1]
  | .vli d _ => [vOut d 1]
  | .fadd d a b | .fsub d a b | .fmul d a b | .fmin d a b | .fmax d a b | .fcopysign d a b => [vOut d f, vIn a f, vIn b f]
  | .faddScalarB d a b | .fsubScalarB d a b | .fmulScalarB d a b | .fminScalarB d a b | .fmaxScalarB d a b
  | .fcopysignScalarB d a b => [vOut d f, vIn a f, sIn b f]
  | .fabs d a | .fneg d a | .fround d a => [vOut d f, vIn a f]
  | .ffma d a b | .ffms d a b | .fnfma d a b => [vBoth d f, vIn a f, vIn b f]
  | .fcmp d a b _ => [pOut d, vIn a f, vIn b f]
  | .frcp d a | .frsq d a | .fsqrt d a | .fexp2 d a | .flog2 d a | .fsin d a | .fcos d a => [vOut d 1, vIn a 1]
  | .fdiv d a b => [vOut d 1, vIn a 1, vIn b 1]
  | .fcvt d a src => [vOut d (cvtShape src t).2.2, vIn a (cvtShape src t).2.1]
  | .fclass d a => [vOut d 1, vIn a f]
  | .pand d a b | .por d a b | .pxor d a b => [pOut d, pIn a, pIn b]
  | .pnot d a | .pmov d a => [pOut d, pIn a]
  | .ballot d a => [sOut d 1, pIn a]
  | .pfroms d a => [pOut d, sIn a 1]
  | .vote d a _ => [pOut d, pIn a]
  | .shfl d a b v => [vOut d 1, vInAs .named a 1, if v = .idx then vIn b 1 else sIn b 1]
  | .vtos d a _ _ => [sOut d 1, vInAs .named a 1]
  | .stov d a => [vOut d 1, sIn a 1]
  | .gred d a _ => [sOut d 1, vIn a 1]
  | .gscan d a _ _ => [vOut d 1, vIn a 1]
  | .hmul d a b => [vOut d (dim * f), vIn a (dim * f), vIn b (dim * f)]
  | .hfma d a b => [vBoth d (dim * f), vIn a (dim * f), vIn b (dim * f)]
  | .hconj d a => [vOut d (dim * f), vIn a (dim * f)]
  | .hnorm d a => [vOut d f, vIn a (dim * f)]
  | .pnpk d a | .pnunpk d a _ _ => [vOut d 1, vInAs .all a 1]
  | .pnexp d a b _ _ => [vOut d 4, vInAs .all a 1, sIn b 1]
  | .algld _ a => [sIn a 2]
  | .ld d a _ z _ | .acqrm d a _ z _ | .redld d a _ z _ => [vOut d (sizeRegs z), vIn a 2]
  | .st d a _ z _ => [vIn d (sizeRegs z), vIn a 2]
  | .lds d a z _ | .ldl d a z _ => [vOut d (sizeRegs z), vIn a 1]
  | .sts d a z _ | .stl d a z _ => [vIn d (sizeRegs z), vIn a 1]
  | .pref _ a _ _ _ => [vIn a 2]
  | .atom d a _ z o => [vBoth d (atomRegs z o), vIn a 2]
  | .atoms d a z o => [vBoth d (atomRegs z o), vIn a 1]
  | .mcst d a _ z _ => [vIn d (sizeRegs z), sIn a 2]
  | .bar m a _ => if m then [sIn a 1] else []
  | .sigwait d a _ _ => [⟨.S, d.toNat, 1, .active, true⟩, sIn a 1]
  | .sigadd a b => [sIn a 1, sIn b 1]
  | .xacq r a _ => if r then [sIn a 1] else []
  | .recld d a _ | .omap d a _ | .coll d a _ _ => [sOut d 1, sIn a 1]
  | .cpin d a _ _ _ _ | .cpout d a _ _ _ _ | .cpst d a _ _ _ _ | .cpgath d a _ _ _ _ => [sOut d 1, sIn a 8]
  | .clampld d _ _ _ _ _ => [sOut d 1]
  | .accld d _ _ _ => [vOut d 4]
  | .accst d _ _ _ => [vIn d 4]
  | .launch d a _ => [sOut d 1, sIn a 2]
  | .ckfold _ a _ => [vIn a f]
  | .cktest a x => if x then [] else [sIn a 2]
  | .boost d a => [sOut d 2, sIn a 1]
  | .rdwear d a k _ => if k.toNat < 2 then [sOut d 2] else [sOut d 2, sIn a 1]
  | .rdlife d _ | .rdcnt d _ | .rdtime d => [sOut d 2]
  | .tileb a => [sIn a 1]
  | .mfsr d _ => [sOut d 1]
  | .mtsr a _ => [sIn a 1]
  | .tlbi a _ => [sIn a 2]
  | _ => []

/-! ### Row 3 of R78 -/

/-- A footprint is in one class range and starts at a multiple of its size (R71, R72, R159, R197). -/
def Opnd.inRange (o : Opnd) : Bool :=
  match o.cls with
  | .V => decide (o.first % o.count = 0) && (decide (o.first + o.count ≤ 120) || (decide (120 ≤ o.first) && decide (o.first + o.count ≤ 128)))
  | .S => decide (o.first % o.count = 0) && decide (o.first + o.count ≤ 64)
  | .P => decide (o.first < 8)

/-- The six integer types (R132). -/
def isInt6 (t : ElemType) : Bool := match t with
  | .i32 | .n32 | .i16x2 | .n16x2 | .i8x4 | .n8x4 => true
  | _ => false
/-- The four floating types (R152). -/
def isFloat4 (t : ElemType) : Bool := match t with
  | .f32 | .f64 | .h16x2 | .b16x2 => true
  | _ => false

/-- Whether the TYPE of gmode is one that the instruction admits (R75). -/
def admits (t : ElemType) : Instr → Bool
  | .iadd _ _ _ | .iaddScalarB _ _ _ | .isub _ _ _ | .isubScalarB _ _ _ | .imul _ _ _ | .imulScalarB _ _ _ | .imulh _ _ _ | .imulhScalarB _ _ _ | .imin _ _ _ | .iminScalarB _ _ _ | .imax _ _ _ | .imaxScalarB _ _ _ | .iand _ _ _ | .iandScalarB _ _ _ | .ior _ _ _ | .iorScalarB _ _ _ | .ixor _ _ _ | .ixorScalarB _ _ _ | .ishl _ _ _ | .ishlScalarB _ _ _ | .ishr _ _ _ | .ishrScalarB _ _ _
  | .iabs _ _ | .ineg _ _ | .inot _ _ | .imad _ _ _ | .iaddi _ _ _ | .ishli _ _ _ | .ishri _ _ _ => isInt6 t
  | .icmp _ _ _ _ => t == .i32 || t == .n32
  | .fadd _ _ _ | .fsub _ _ _ | .fmul _ _ _ | .fmin _ _ _ | .fmax _ _ _ | .fcopysign _ _ _ | .fabs _ _ | .fneg _ _
  | .faddScalarB _ _ _ | .fsubScalarB _ _ _ | .fmulScalarB _ _ _ | .fminScalarB _ _ _ | .fmaxScalarB _ _ _
  | .fcopysignScalarB _ _ _ | .ffma _ _ _ | .ffms _ _ _ | .fnfma _ _ _ | .fround _ _ | .fclass _ _
  | .hmul _ _ _ | .hfma _ _ _ | .hconj _ _ | .hnorm _ _ => isFloat4 t
  | .fcmp _ _ _ _ => t == .f32 || t == .f64
  | .frcp _ _ | .frsq _ _ | .fsqrt _ _ | .fexp2 _ _ | .flog2 _ _ | .fsin _ _ | .fcos _ _ | .fdiv _ _ _ =>
    t == .f32 || t == .h16x2 || t == .b16x2
  | .gred _ _ o | .gscan _ _ _ o =>
    t == .i32 || t == .n32 || (t == .f32 && (o == .add || o == .min || o == .max))
  | .pnexp _ _ _ _ _ => t == .f32
  | .ckfold _ _ x => if x then t == .i32 || t == .n32 else t == .f32 || t == .f64
  | _ => true

/-- The counters of R390 that are assigned. -/
def counterAssigned (sel : Nat) : Bool :=
  decide (sel ≤ 9) || (decide (0x100 ≤ sel) && decide (sel ≤ 0x105)) || (decide (0x200 ≤ sel) && decide (sel ≤ 0x206))
/-- The special values of R142. -/
def mfsAssigned (sel : Nat) : Bool := decide (sel ≤ 0x12) || sel == 0x100 || sel == 0x101
/-- The window selectors of R399. -/
def isWindowSel (sel : Nat) : Bool := decide (0x40 ≤ sel) && decide (sel ≤ 0x47)
/-- The firmware selectors of R399. -/
def isFirmwareSel (sel : Nat) : Bool := decide (0x400 ≤ sel)
/-- The system registers that MFSR reads (R399). -/
def mfsrAssigned (sel : Nat) : Bool := (decide (0x10 ≤ sel) && decide (sel ≤ 0x15)) || isWindowSel sel || isFirmwareSel sel
/-- The system registers that MTSR writes (R399); stamphead is read-only. -/
def mtsrAssigned (sel : Nat) : Bool := mfsrAssigned sel && sel != 0x13

/-- Whether the operand values other than registers and TYPE are assigned: sizes, slots, tiles, banks, scopes and selectors
(R78 row 3). -/
def valuesAssigned : Instr → Bool
  | .setmode s w _ i => s || !modeReserved w i
  | .setmem s w _ i => s || !memReserved w i
  | .brp _ i => i != 0
  | .sld _ _ _ z _ | .sst _ _ _ z _ | .ld _ _ _ z _ | .st _ _ _ z _ | .lds _ _ z _ | .sts _ _ z _ | .ldl _ _ z _
  | .stl _ _ z _ | .mcst _ _ _ z _ => z != 7
  | .atom _ _ _ z _ | .atoms _ _ z _ | .acqrm _ _ _ z _ | .redld _ _ _ z _ => z == 4 || z == 5
  | .mfs _ i => mfsAssigned i.toNat
  | .fence f i => !f || decide ((i.extractLsb' 0 3).toNat ≤ 4)
  | .waitc _ s _ => decide (s.toNat ≤ 4)
  | .xacq r _ i => r || (decide (1 ≤ i.toNat) && decide (i.toNat ≤ 11))
  | .algld d _ => decide (d.toNat ≤ 3)
  | .clampld _ a s _ _ _ => decide (a.toNat ≤ 2) && decide (s.toNat ≤ 3)
  | .mma d a _ b | .mmar d a _ b => decide (d.toNat ≤ 11) && decide (a.toNat ≤ 3) && decide (b.toNat ≤ 2)
  | .accz a => decide (a.toNat ≤ 11)
  | .accld _ a _ _ | .accst _ a _ _ => decide (a.toNat ≤ 11)
  | .omap _ _ s => decide (s.toNat ≤ 3)
  | .ckfold d _ _ => decide (d.toNat ≤ 1)
  | .rdlife _ i => decide (i.toNat ≤ 6)
  | .rdcnt _ i => counterAssigned i.toNat
  | .mfsr _ i => mfsrAssigned i.toNat
  | .mtsr _ i => mtsrAssigned i.toNat
  | .fcvt _ _ _ => true
  | _ => true

/-- Row 2 of R78: the instruction is one that only firmware may issue. -/
def isPrivileged : Instr → Bool
  | .eret | .tlbi _ _ => true
  | .mfsr _ i | .mtsr _ i => isFirmwareSel i.toNat
  | _ => false

/-- Row 3 of R78 as a whole. FCVT footprints of more than 4 registers are refused (R159). -/
def row3 (g : BitVec 32) (dim : Nat) (i : Instr) : Bool :=
  valuesAssigned i && admits (elemType g) i && (operands g dim i).all Opnd.inRange &&
    (match i with
     | .fcvt _ _ _ => (operands g dim i).all fun o => decide (o.count ≤ 4)
     | _ => true)

/-- The instructions that recipe mode allows: classes 1 to 4 except SST, the loads, PREF, ACQRM, FENCE, RECLD, OMAP and ACCLD,
and FLASHPT (R323). -/
def recipeAllows : Instr → Bool
  | .sst _ _ _ _ _ => false
  | .flashpt _ | .ld _ _ _ _ _ | .lds _ _ _ _ | .ldl _ _ _ _ | .pref _ _ _ _ _ | .acqrm _ _ _ _ _ | .fence _ _
  | .recld _ _ _ | .omap _ _ _ | .accld _ _ _ _ => true
  | i => match encode i with
    | w :: _ => decide (0x10 ≤ (fOp w).toNat) && decide ((fOp w).toNat ≤ 0x4F)
    | [] => false

/-! ### Units, latency and occupancy -/

/-- The unit of an instruction (R430). -/
def unitOf (i : Instr) : ExecUnit :=
  match encode i with
  | [] => .scalar
  | w :: _ =>
    let op := (fOp w).toNat
    if op < 0x20 then (if op = 0x17 ∨ op = 0x18 then .memory else .scalar)
    else if op < 0x30 then .vecInt
    else if op < 0x40 then (if op = 0x34 then .special else .float)
    else if op < 0x42 then .scalar
    else if op = 0x45 then .vecInt
    else if op < 0x48 then .lane
    else if op < 0x4C then .float
    else if op < 0x4F then .vecInt
    else if op < 0x60 then .memory
    else if op < 0x62 then .scalar
    else if op < 0x64 then .memory
    else if op < 0x67 then .scalar
    else if op < 0x6C then .engine
    else if op < 0x6E then .arrayPort
    else if op < 0x70 then .arrayControl
    else if op < 0x72 then .engine
    else if op < 0x74 then .lane
    else .scalar

/-- What the latency of an instruction depends on beside its opcode (R81): whether a type is f64, the dimension of the
algebra, the stash conflict degree, and the rows of an MMA. -/
structure Shape where
  f64 : Bool := false
  dim : Nat := 1
  degree : Nat := 1
  rows : Nat := 1
  deriving DecidableEq, Repr

/-- Latency and occupancy (R81). An instruction that waits for a condition is counted from when the condition is met. R81 gives no occupancy
for BAR, BARC, WAITC, XACQ, XREL and FENCE, and neither figure for BRP and for the issue of a long-latency instruction, inside a regrouped
region or not: they take 2 and 1 (DESIGN CHOICE, log 45). -/
def latencyOf (h : Shape) (i : Instr) : Nat × Nat :=
  match i with
  | .nop | .flashpt _ | .yield _ => (1, 1)
  | .imul _ _ _ | .imulScalarB _ _ _ | .imulh _ _ _ | .imulhScalarB _ _ _ | .imad _ _ _ => (6, 1)
  | .shfl _ _ _ _ | .vtos _ _ _ _ => (6, 1)
  | .gred _ _ _ | .ckfold _ _ _ => (10, 1)
  | .gscan _ _ _ _ | .cktest _ _ => (12, 1)
  | .hconj _ _ => (4, 1)
  | .hmul _ _ _ | .hfma _ _ _ | .hnorm _ _ => (4 + 2 * h.dim, 1)
  | .pnpk _ _ | .pnunpk _ _ _ _ | .pnexp _ _ _ _ _ => (8, 1)
  | .ldl _ _ _ _ | .stl _ _ _ _ => (10, 1)
  | .lds _ _ _ _ | .sts _ _ _ _ | .sigadd _ _ => (20 + (h.degree - 1), h.degree)
  | .atoms _ _ _ _ => (24 + (h.degree - 1), h.degree)
  | .algld _ _ => (24, 1)
  | .omap _ _ _ | .recld _ _ _ => (12, 1)
  | .accz _ | .accld _ _ _ _ | .accst _ _ _ _ => (16, 1)
  | .clampld _ _ _ _ _ _ => (72, 1)
  | .mma _ _ _ _ | .mmar _ _ _ _ => (h.rows + 24, h.rows)
  | .rdcnt _ _ | .rdtime _ | .mfsr _ _ | .mtsr _ _ => (4, 1)
  | .rdwear _ _ _ _ | .rdlife _ _ => (16, 1)
  | .boost _ _ => (64, 1)
  | .ecall _ | .eret => (8, 1)
  | _ =>
    match unitOf i with
    | .vecInt => (4, 1)
    | .float => if h.f64 then (10, 4) else (5, 1)
    | .special => (18, 4)
    | .lane => (4, 1)
    | _ => (2, 1)

/-- The distinct main-file registers of the operands that satisfy a test. -/
def mainRegs (g : BitVec 32) (dim : Nat) (i : Instr) (counts : Opnd → Bool) : List Nat :=
  distinct ((operands g dim i).flatMap fun o =>
    if o.cls = .V && counts o then ((upTo o.count).map (o.first + ·)).filter (· < 120) else [])

/-- The distinct main-file registers that an instruction reads (R83). -/
def vectorReads (g : BitVec 32) (dim : Nat) (i : Instr) : List Nat := mainRegs g dim i fun o => o.read != .none

/-- The distinct main-file registers that count for bank conflicts (R82): those read, and both footprints of an FCVT (R159). -/
def bankRegs (g : BitVec 32) (dim : Nat) (i : Instr) : List Nat :=
  let cvt := match i with
    | .fcvt _ _ _ => true
    | _ => false
  mainRegs g dim i fun o => o.read != .none || cvt

/-- Whether the algebra instructions of R198, to which R82 adds nothing. -/
def isAlgebra : Instr → Bool
  | .hmul _ _ _ | .hfma _ _ _ | .hconj _ _ | .hnorm _ _ => true
  | _ => false

/-- The clks that bank conflicts add (R82). -/
def bankCost (g : BitVec 32) (dim : Nat) (i : Instr) : Nat :=
  if isAlgebra i then 0
  else
    let rs := bankRegs g dim i
    (upTo 4).foldl (fun acc b => acc + ((rs.filter fun n => n % 4 == b).length - 1)) 0

/-- The clk that a refresh adds (R83): `hot` when the die sensor reads above 75 degrees. Only registers read slip; the destination of an FCVT counts
for R82 alone (R159). -/
def refreshSlip (g : BitVec 32) (dim : Nat) (i : Instr) (clk : Nat) (hot : Bool) : Nat :=
  let bank := if hot then clk % 16 / 4 else clk % 32 / 8
  let due := if hot then decide (clk % 4 = 0) else decide (clk % 8 = 0)
  if due && (vectorReads g dim i).any (fun n => n % 4 == bank) then 1 else 0

/-! ### The scoreboard -/

/-- The resources of the scoreboard (R80): V 0..127, S 128.., P 192.., scc 200, gmode 201, k0 202, k1 203, the group's
stash reads and accesses under way 205 (R260), and the jig slots from 208. -/
def resourceOf (c : RegClass) (n : Nat) : Nat := match c with
  | .V => n
  | .S => 128 + n
  | .P => 192 + n

/-- Whether an instruction reads the guard through active(g) (R74): the scalar, control, engine and system instructions do not, nor do those
whose entries say so (R131, R165, R184, R188, R196, R260, R293, R294). -/
def readsGuard (i : Instr) : Bool :=
  match i with
  | .pand _ _ _ | .por _ _ _ | .pxor _ _ _ | .pnot _ _ | .pmov _ _ | .ballot _ _ | .pfroms _ _ => true
  | .mfs _ n => decide (0x100 ≤ n.toNat)
  | .sld _ _ _ _ _ | .sst _ _ _ _ _ | .sigadd _ _ | .sigwait _ _ _ _ | .fence _ _ | .algld _ _ | .omap _ _ _ | .clampld _ _ _ _ _ _
  | .cktest _ _ => false
  | .vtos _ _ low _ => low
  | _ => match unitOf i with
    | .scalar | .engine => false
    | _ => true

/-- Whether an instruction reads gmode: for the guard, for the scope and order of an access, or for the algebra slot (R74, R111, R115). -/
def readsGmode (i : Instr) : Bool :=
  readsGuard i || (match i with
  | .sld _ _ _ _ _ | .sst _ _ _ _ _ | .sigadd _ _ | .sigwait _ _ _ _ | .algld _ _ => true
  | .fence f _ => !f
  | .clampld _ _ _ e _ _ => e
  | _ => false)

/-- The ordering of a FENCE: of its own field, or of gmode.MORD (R259). -/
def fenceOrder (g : BitVec 32) (f : Bool) (i : BitVec 5) : Nat := if f then (i.extractLsb' 3 2).toNat else memOrder g

/-- The resources that an instruction reads (R80). A relaxed FENCE has no effect and waits for nothing (R260). -/
def readsOf (g : BitVec 32) (dim : Nat) (i : Instr) : List Nat :=
  ((operands g dim i).flatMap fun o => if o.read != .none then (upTo o.count).map fun k => resourceOf o.cls (o.first + k) else []) ++
  (if readsGmode i then [201] else []) ++ (if readsGuard i && guardOn g then [resourceOf .P (guardIdx g)] else []) ++
  (match i with
   | .bru _ _ | .ssel _ _ _ => [200]
   | .ckfold d _ _ => [202 + d.toNat]
   | .cktest _ _ => [202, 203]
   | .fence f i => if fenceOrder g f i = 0 then [] else [205]
   | .bar _ _ _ | .barc => [205]
   | .mma _ a _ _ | .mmar _ a _ _ => [208 + a.toNat]
   | .clampld _ _ m _ _ _ => [208 + m.toNat]
   | _ => [])

/-- The resources that an instruction writes (R80). -/
def writesOf (g : BitVec 32) (dim : Nat) (i : Instr) : List Nat :=
  ((operands g dim i).flatMap fun o => if o.write then (upTo o.count).map fun k => resourceOf o.cls (o.first + k) else []) ++
  (match i with
   | .scmp _ _ _ => [200]
   | .setmode _ _ _ _ | .setgrd _ _ _ | .setmem _ _ _ _ => [201]
   | .ckfold d _ _ => [202 + d.toNat]
   | .ckclr => [202, 203]
   | .lds _ _ _ _ | .sts _ _ _ _ | .atoms _ _ _ _ | .sigadd _ _ | .algld _ _ => [205]
   | .omap _ _ m => [205, 208 + m.toNat]
   | _ => [])

/-- The spans of an instruction's register fields, for the lookahead check (R86). An XREL names no register, so what it takes away is none of them
(DESIGN CHOICE, log 45). -/
def spansOf (g : BitVec 32) (dim : Nat) (i : Instr) : List Span := (operands g dim i).map fun o => ⟨o.cls, o.first, o.count⟩

/-- Whether two footprints of one class overlap (R86). -/
def Span.overlaps (a b : Span) : Bool :=
  a.cls == b.cls && decide (a.first < b.first + b.count) && decide (b.first < a.first + a.count)

end Sys2Proof.Machine
end

