-- ==== Sys2Proof/Machine/Cache.lean ====
section
/-! DEFINITION. Physical addresses and their homes (R201 to R203), the last-level cache (R205, R206), frame owners (R342,
R344), the dirty shadow bitmap (R339), and the directory actions on lines that a stash window holds (R213 to R215). The
bytes that the model keeps for an address are the coherent ones; the cache holds tags and counts. -/

namespace Sys2Proof.Machine

/-- The windows of the physical address space (R201). -/
inductive Region where
  | near | far | device | host (link : Nat) | cxl (port : Nat) | fabric | reserved
  deriving DecidableEq, Repr

/-- The window of a physical address (R201). -/
def regionOf (a : Nat) : Region :=
  if a < 0x4000000000 then .near
  else if 0x10000000000 ≤ a ∧ a < 0x1C000000000 then .far
  else if 0x20000000000 ≤ a ∧ a < 0x20100000000 then .device
  else if 0x1000000000000 ≤ a ∧ a < 0x2000000000000 then .host (a / 4096 % 2)
  else if 0x2000000000000 ≤ a ∧ a < 0x2800000000000 then .cxl 0
  else if 0x2800000000000 ≤ a ∧ a < 0x3000000000000 then .cxl 1
  else if 0x8000000000000 ≤ a ∧ a < 0x10000000000000 then .fabric
  else .reserved

/-- Whether an address lies in device memory, which has frames with owners (R333). -/
def isDeviceMemory (a : Nat) : Bool := match regionOf a with
  | .near | .far => true
  | _ => false

/-- The link that carries a host-window address in a partition: with one Holry Link in the partition, that one (R203). -/
def hostLink (members : List Nat) (a : Nat) : Option Nat :=
  match members.contains 0, members.contains 2 with
  | true, true => some (a / 4096 % 2)
  | true, false => some 0
  | false, true => some 1
  | false, false => none

/-- Whether a host or CXL window is empty for a partition (R203). -/
def windowEmpty (members : List Nat) (a : Nat) : Bool := match regionOf a with
  | .host _ => (hostLink members a).isNone
  | .cxl p => !members.contains (2 * p + 1)
  | _ => false

/-- The home quadrant of an address (R202); fabric lines have none. -/
def homeQuad (members : List Nat) (a : Nat) : Option Nat := match regionOf a with
  | .near => some (a / 2 ^ 35 / 2)
  | .far => some ((a - 0x10000000000) / (192 * 2 ^ 30))
  | .host _ => (hostLink members a).map (2 * ·)
  | .cxl p => some (2 * p + 1)
  | _ => none

/-- The frame of an address (R342). -/
def frameOf (a : Nat) : Nat := a / 65536
/-- The line of an address (R205). -/
def lineOf (a : Nat) : Nat := a / 128 * 128

/-- The owner byte of a frame (R342): 255 when it is free or retired. -/
def State.ownerOf (s : State) (a : Nat) : Nat := Store.get 255 s.mod.frames.owner (frameOf a)

/-- Whether a window grant of a device covers an address (R344). -/
def grantCovers (v : Vdev) (a : Nat) : Bool :=
  let base := match regionOf a with
    | .host _ => 0x1000000000000
    | .cxl 0 => 0x2000000000000
    | _ => 0x2800000000000
  let code := match regionOf a with
    | .host _ => 1
    | .cxl 0 => 2
    | _ => 3
  v.tab.grants.any fun kv => kv.2.window == code && decide (base + kv.2.base ≤ a) && decide (a < base + kv.2.base + kv.2.length)

/-- Where an error that cannot be corrected lies (R217): in the sector of an address as its LLC serves it, in the memory behind that, or in a memory
of a core. -/
inductive ErrorSite where
  | sector (a : Nat)
  | memory (a : Nat)
  | core (c : Nat)
  deriving DecidableEq, Repr

/-! ### The event log (R315) -/

/-- A record enters the event log of a partition, or merges into one of the same TYPE, UNIT and PADDR within 1.000 ms when it is a
corrected error; a full log drops it. The interrupt write follows R315. -/
def State.logEvent (s : State) (part : Nat) (e : EventRecord) : State :=
  let old := (s.part part).log
  let merges (r : EventRecord) : Bool :=
    e.type == 1 && r.type == 1 && r.unit == e.unit && r.paddr == e.paddr && decide (e.time < r.time + 1000000)
  if old.records.any merges then
    s.modPart part fun p => { p with log := { p.log with records := p.log.records.map fun r => if merges r then { r with count := r.count + 1 } else r } }
  else if 1024 ≤ old.records.length then s.modPart part fun p => { p with log := { p.log with dropped := p.log.dropped + 1 } }
  else
    let s1 := s.modPart part fun p => { p with log := { p.log with records := p.log.records ++ [e], fresh := true } }
    let irq := (s.quad e.quad).irq
    if irq.addr ≠ 0 ∧ (e.type = 2 ∨ old.fresh = false ∨ old.records.length = 768) then
      s1.modMod fun m => { m with outbox := m.outbox ++ [⟨irq.addr, irq.data⟩] }
    else s1

/-! ### The last-level cache

A line of the LLC holds tags, dirty bits and errors; the bytes of an address are kept once, in the state's memory, as the LLC serves them. -/

/-- The set of an LLC, numbered through its 16 slices of 12,288 sets, in which the lines of a frame lie (R200, R202, log 11). -/
def llcSet (q a : Nat) : Nat := Config.llcHash q (frameOf a) % 196608
/-- The slice in which it lies (R202). -/
def llcSlice (q a : Nat) : Nat := llcSet q a / 12288

def LlcLine.valid (l : LlcLine) (hi : Bool) : Bool := if hi then l.valid1 else l.valid0
def LlcLine.dirty (l : LlcLine) (hi : Bool) : Bool := if hi then l.dirty1 else l.dirty0
def LlcLine.bad (l : LlcLine) (hi : Bool) : Bool := l.tagBad || (if hi then l.bad1 else l.bad0)
/-- An access to a sector: it is valid, dirty after a write, and good again after a write of all of it, which leaves what the other sector held lost
when the tag was bad. -/
def LlcLine.touch (l : LlcLine) (hi write full : Bool) (now : Nat) : LlcLine :=
  let l := if l.tagBad && full then { l with tagBad := false, bad0 := l.valid0, bad1 := l.valid1 } else l
  if hi then { l with valid1 := true, dirty1 := l.dirty1 || write, bad1 := l.bad1 && !full, used := now }
  else { l with valid0 := true, dirty0 := l.dirty0 || write, bad0 := l.bad0 && !full, used := now }

/-- Sector k of memory, by its number, holds an uncorrectable error as the LLC would serve it: in its copy of the sector, else in memory (R217). -/
def State.sectorBad (s : State) (k : Nat) : Bool :=
  let hi := k % 2 == 1
  match s.quads.findSome? fun kv => (Store.find kv.2.llc.lines (k / 2 * 128)).bind fun l => if l.valid hi then some (l.bad hi) else none with
  | some b => b
  | none => s.mod.frames.bad.contains k

/-- The sectors that some bytes lie in. -/
def sectorsOf (a n : Nat) : List Nat := if n = 0 then [] else (upTo ((a + n - 1) / 64 - a / 64 + 1)).map (a / 64 + ·)

/-- The core of which a stash holds sector k dirty, which is what a reader gets, and whether an error that cannot be corrected has taken it
(R214, R217 to R219). -/
def State.stashSector (s : State) (k : Nat) : Option (Nat × Bool) :=
  s.teams.findSome? fun kv => (kv.2.mem.lines.find? fun l => l.2.phys == k / 2 * 128 && (if k % 2 = 1 then l.2.dirty1 else l.2.dirty0)).map fun l =>
    (kv.1 / 16, upsetIn kv.2.mem.upset (l.1 * 128 + k % 2 * 64) 64)

/-- Where the data of sector k is uncorrectable for whoever reads it (R218): in a stash that holds it dirty, else as the LLC serves it, which has a sector
that is on its way to it. -/
def State.lostAt (s : State) (k : Nat) : Option ErrorSite := match s.stashSector k with
  | some (c, lost) => if lost then some (.core c) else none
  | none => if s.sectorBad k && !s.mod.heldWrites.any fun h => h.back && h.addr == 64 * k then some (.sector (64 * k)) else none

/-- Where the first sector lies, of those that some bytes need, of which the data is uncorrectable (R218). -/
def State.badSite (s : State) (a n : Nat) : Option ErrorSite := (sectorsOf a n).findSome? s.lostAt
/-- Whether there is one. -/
def State.badAt (s : State) (a n : Nat) : Bool := (s.badSite a n).isSome

/-- A corrected error is counted and enters the event log (R107, R217, R352, R390). -/
def State.corrected (s : State) (quad vdev code unit paddr : Nat) : State :=
  (s.count quad vdev code 1).logEvent (s.partOfQuad quad)
    { type := 1, quad := quad, vdev := vdev, code := code, unit := unit, paddr := paddr, time := s.now }

/-- The device that an error in a frame counts for, by the owner of the frame; none for firmware and for a free frame (R352). -/
def State.frameVdev (s : State) (a : Nat) : Nat := let o := s.ownerOf a; if 1 ≤ o ∧ o ≤ 64 then o else 0

/-- The device that an error in a core counts for (R352). -/
def State.coreVdev (s : State) (core : Nat) : Nat := if s.teams.any fun t => t.1 / 16 == core then (s.core core).vdev else 0

/-- An uncorrectable error is detected (R218, R315, R352, R390): it is counted, and enters the event log with its interrupt. An error of a memory of
a core or in the LLC's copy of a sector lies in that unit; one of DRAM in none. -/
def State.detect (s : State) (site : ErrorSite) : State :=
  let e : EventRecord := match site with
    | .sector a =>
      let q := (homeQuad [0, 1, 2, 3] a).getD 0
      let line := Store.find (s.quad q).llc.lines (lineOf a)
      let cached := line.any fun l => l.valid (decide (64 ≤ a % 128))
      { type := 2, quad := q, vdev := if line.any (·.tagBad) then 0 else s.frameVdev a, code := 0x204, unit := if cached then 416 + 16 * q + llcSlice q a else 0xFFFFFFFF, paddr := a / 64 * 64,
        time := s.now }
    | .memory a => { type := 2, quad := (homeQuad [0, 1, 2, 3] a).getD 0, vdev := s.frameVdev a, code := 0x204, unit := 0xFFFFFFFF, paddr := a / 64 * 64, time := s.now }
    | .core c => { type := 2, quad := quadOfCore c, vdev := s.coreVdev c, code := 0x204, unit := (s.unitOfCore c).getD 0xFFFFFFFF, time := s.now }
  (s.count e.quad e.vdev 0x204 1).logEvent (s.partOfQuad e.quad) e

/-- The addresses at which the valid replicas of an address lie, the primary first (R235). -/
def ReplicaEntry.homes (e : ReplicaEntry) (a : Nat) : List Nat :=
  a :: (e.replicas.filter (·.valid)).map fun r => r.frame * 65536 + a % 65536

/-- The addresses that a replicated write locks (R235). -/
def Part.lockHomes (p : Part) (l : ReplicaLock) : List Nat := match Store.find p.replicas l.entry with
  | some e => e.homes l.addr
  | none => [l.addr]

/-- The addresses that a write of an agent of the device to an address updates: all of its valid replicas when its frame is the primary of a replicated
page, the primary first (R235, R236). -/
def State.homesOf (s : State) (members : List Nat) (a : Nat) : List Nat :=
  match (s.part (members.headD 0)).replicas.find? fun kv => kv.2.primary == frameOf a with
  | some e => e.2.homes a
  | none => [a]

/-- Where a core reads a replicated address: the replica of its quadrant when there is one, else the primary (R235). -/
def ReplicaEntry.nearest (e : ReplicaEntry) (core a : Nat) : Nat := match e.replicas.find? fun r => r.valid && r.quad == quadOfCore core with
  | some r => r.frame * 65536 + a % 65536
  | none => a

/-- The lock of a partition on the line of an address (R235). -/
def State.lockAt (s : State) (part a : Nat) : Option ReplicaLock := (s.part part).locks.find? fun l => lineOf l.addr == lineOf a

/-- Whether a stash window holds a line dirty. -/
def State.stashDirty (s : State) (line : Nat) : Bool :=
  s.teams.any fun kv => kv.2.mem.lines.any fun l => l.2.phys == line && (l.2.dirty0 || l.2.dirty1)
/-- Whether a line is under a replicated-page lock, in any of its replicas. -/
def State.replicaLocked (s : State) (line : Nat) : Bool :=
  s.parts.any fun kv => kv.2.locks.any fun l => (kv.2.lockHomes l).any fun a => lineOf a == line
/-- Lines of a set that could be evicted (R205). -/
def State.evictable (s : State) (line : Nat) : Bool := !s.stashDirty line && !s.replicaLocked line

/-- The least recently used of some lines. -/
def lruOf : List (Nat × LlcLine) → Option (Nat × LlcLine)
  | [] => none
  | x :: rest => match lruOf rest with
    | none => some x
    | some y => if y.2.used < x.2.used then some y else some x

/-- The victim of a fill for a requester (R206): the least recently used eligible line of owners over quota, else of the
requester, else any. Firmware-owned lines are not bound by a quota. -/
def victimOf (l : Llc) (requester : Nat) (set : List (Nat × LlcLine)) : Option (Nat × LlcLine) :=
  let excess := set.filter fun kv => kv.2.owner != 0 &&
    decide (Store.get 0x100000 l.quota kv.2.owner < Store.get 0 l.occupancy kv.2.owner)
  match lruOf excess with
  | some v => some v
  | none => match lruOf (set.filter fun kv => kv.2.owner == requester) with
    | some v => some v
    | none => lruOf set

/-- Write back a dirty sector to memory (R205): memory has the data again. One with an uncorrectable error is not written and condemns
its frame (R219); what memory then holds there is an older value, which is free. -/
def State.evictSector (s : State) (a : Nat) (bad : Bool) : State :=
  if !bad then s.modMod fun m => { m with frames := { m.frames with bad := m.frames.bad.filter (· != a / 64) } }
  else
    let s1 := if isDeviceMemory a && !s.mod.frames.condemned.contains (frameOf a) then
      s.modMod fun m => { m with frames := { m.frames with condemned := m.frames.condemned ++ [frameOf a] } } else s
    let (old, s2) := s1.anyBytes 64
    { s2 with mem := memWrites s2.mem a old }

/-- Remove a line, writing back its dirty sectors (R205): the occupancy of its owner falls. -/
def State.dropLine (s : State) (q line vdev : Nat) : State :=
  match Store.find (s.quad q).llc.lines line with
  | none => s
  | some l =>
    let wb := (if l.dirty0 && !l.bad false then 1 else 0) + (if l.dirty1 && !l.bad true then 1 else 0)
    let s1 := s.modLlc q fun c =>
      { c with
        lines := Store.erase c.lines line
        occupancy := if l.owner = 0 then c.occupancy else Store.modify 0 c.occupancy l.owner (· - 1) }
    let s2 := if l.dirty0 then s1.evictSector line (l.bad false) else s1
    let s3 := if l.dirty1 then s2.evictSector (line + 64) (l.bad true) else s2
    if wb = 0 then s3 else s3.count q vdev 0x102 wb

/-- An access to one sector at its home slice (R205, R206): `none` when the set holds no eligible victim. -/
def State.llcPut (s : State) (q a vdev : Nat) (write full : Bool) : Option State :=
  let line := lineOf a
  let hi := decide (64 ≤ a % 128)
  let c := (s.quad q).llc
  match Store.find c.lines line with
  | some l =>
    let s1 := s.modLlc q fun c => { c with lines := Store.put c.lines line (l.touch hi write full (c.clock + 1)), clock := c.clock + 1 }
    some (if l.valid hi then s1.count q vdev 0x100 1 else if full then s1 else s1.count q vdev 0x101 1)
  | none =>
    let owner := if isDeviceMemory a then s.ownerOf a else vdev
    let same := c.lines.filter fun kv => llcSet q kv.1 == llcSet q line
    let room : Option State :=
      if same.length < 16 then some s
      else (victimOf c owner (same.filter fun kv => s.evictable kv.1)).map fun v => s.dropLine q v.1 vdev
    room.map fun s1 =>
      let s2 := s1.modLlc q fun c =>
        { c with lines := Store.put c.lines line (({ owner := owner } : LlcLine).touch hi write full (c.clock + 1)), clock := c.clock + 1,
                 occupancy := if owner = 0 then c.occupancy else Store.modify 0 c.occupancy owner (· + 1) }
      if full then s2 else s2.count q vdev 0x101 1

/-- A write-back of a whole sector to its home slice; while its set holds no eligible line it waits there, and readers see its bytes (R205). -/
def State.llcStore (s : State) (members : List Nat) (a vdev : Nat) (data : List Byte) : State :=
  match homeQuad members a with
  | none => { s with mem := memWrites s.mem a data }
  | some q => match s.llcPut q a vdev true true with
    | some s1 => { s1 with mem := memWrites s1.mem a data }
    | none => s.modMod fun m => { m with heldWrites := m.heldWrites ++ [{ members := members, addr := a, data := data, back := true }] }

/-! ### The dirty shadow bitmap (R339) -/

/-- Where the byte of a guest-physical page lies in the bitmap of a device, when the bitmap reaches it. -/
def Vdev.dirtyByte (v : Vdev) (page : Nat) : Option Nat :=
  if page / 8 < v.tab.dirtyLen then some ((v.tab.dirtyBase + page / 8) % 2 ^ 52) else none

/-- Set the dirty bit of a guest-physical page: an atomic OR at the LLC (R339). The bitmap lies where DIRTYBASE says, which CREATE_VDEV takes at its word:
no owner byte is checked (DESIGN CHOICE, log 46); the OR does not wait for a place in its set (DESIGN CHOICE, log 11). -/
def State.markDirty (s : State) (vdev gpa : Nat) : State :=
  match (Store.find s.vdevs vdev).bind fun v => v.dirtyByte (gpa / 4096) with
  | none => s
  | some a =>
    let s1 := ((homeQuad [] a).bind fun q => s.llcPut q a 0 true false).getD s
    { s1 with mem := memWrite s1.mem a (memRead s1.mem a ||| BitVec.ofNat 8 (2 ^ (gpa / 4096 % 8))) }

/-- Clear the dirty bit of a guest-physical page, by an atomic exchange (R340). -/
def State.clearDirty (s : State) (vdev page : Nat) : State :=
  match (Store.find s.vdevs vdev).bind fun v => v.dirtyByte page with
  | none => s
  | some a =>
    let s1 := ((homeQuad [] a).bind fun q => s.llcPut q a 0 true false).getD s
    { s1 with mem := memWrite s1.mem a (memRead s1.mem a &&& ~~~BitVec.ofNat 8 (2 ^ (page % 8))) }

/-- The guest-physical pages of which the dirty bit is set, ascending. -/
def State.dirtyPages (s : State) (vdev : Nat) : List Nat :=
  match Store.find s.vdevs vdev with
  | none => []
  | some v =>
    let base := v.tab.dirtyBase % 2 ^ 52
    (s.mem.filter fun c => decide (base ≤ c.1) && decide (c.1 < base + v.tab.dirtyLen)).flatMap fun c =>
      ((upTo 8).filter fun b => c.2.getLsbD b).map fun b => (c.1 - base) * 8 + b

/-! ### Stash-held lines -/

/-- Write back the dirty sectors of one window line of a team (R214, R215): to the frame recorded at its fill, through the LLC (R205), at every replica of
a replicated page in one step (R235, R236), or discarded with an OWNERSHIP event when the owner of a frame of it has changed. The line stays present and
clean. A sector with an uncorrectable error is not written, and condemns its frame (R219). -/
def State.writeBackLine (s : State) (tid lineNo : Nat) : State :=
  match Store.find s.teams tid with
  | none => s
  | some t =>
    match Store.find t.mem.lines lineNo with
    | none => s
    | some w =>
      if !w.dirty0 && !w.dirty1 then s
      else
        let clean := s.modTeamMem tid fun m => { m with lines := Store.put m.lines lineNo { w with dirty0 := false, dirty1 := false } }
        let members := (s.part t.id.part).regs.members
        if isDeviceMemory w.phys && (s.homesOf members w.phys).any fun a => s.ownerOf a != t.id.vdev then
          clean.modSync tid fun y => { y with ownershipEvent := true, ownershipLine := w.phys }
        else
          let lost (off : Nat) : Bool := upsetIn t.mem.upset (lineNo * 128 + off) 64
          let frame := frameOf w.phys
          let condemned := (w.dirty0 && lost 0 || w.dirty1 && lost 64) && isDeviceMemory w.phys && !clean.mod.frames.condemned.contains frame
          let s1 := if condemned then clean.modMod fun m => { m with frames := { m.frames with condemned := m.frames.condemned ++ [frame] } } else clean
          let put (s : State) (on : Bool) (off : Nat) : State :=
            if on && !lost off then
              (s.homesOf members (w.phys + off)).foldl (fun s a => s.llcStore members a t.id.vdev (stashReads t.mem.stash (lineNo * 128 + off) 64)) s
            else s
          (put (put s1 w.dirty0 0) w.dirty1 64).markDirty t.id.vdev w.gpa

/-- Make a window line absent after its write-back (R214). -/
def State.recallLine (s : State) (tid lineNo : Nat) : State :=
  (s.writeBackLine tid lineNo).modTeamMem tid fun m => { m with lines := Store.erase m.lines lineNo }

/-- The window lines of all teams that were filled from a physical line. -/
def State.holders (s : State) (line : Nat) : List (Nat × Nat) :=
  s.teams.flatMap fun kv => (kv.2.mem.lines.filter fun l => l.2.phys == line).map fun l => (kv.1, l.1)

/-- Whether what lies behind a CXL address answers: its port is linked, and the HDM decoders of the port map the address (R404); one that they do not map
is answered as by a port that is down (DESIGN CHOICE, log 33). Any other address answers. -/
def State.cxlAnswers (s : State) (a : Nat) : Bool := match regionOf a with
  | .cxl p => !s.mod.cxlDown.contains p && decide (a - (if p = 0 then 0x2000000000000 else 0x2800000000000) < Store.get 0 s.mod.hdm p)
  | _ => true

/-- Whether an entry of the lease table of a team's core covers a line of its stash (R182). -/
def State.leased (s : State) (tid lineNo : Nat) : Bool :=
  (s.core (tid / 16)).arr.leases.any fun l => l.tid == tid && l.lines.contains lineNo

/-- Whether a lease covers a stash-held copy of a physical line: what another party's write does to the copy is deferred (R182, R214). -/
def State.lineLeased (s : State) (line : Nat) : Bool := (s.holders line).any fun h => s.leased h.1 h.2

/-- Whether the write-back of a line waits at its home slice. -/
def State.backHeld (s : State) (line : Nat) : Bool := s.mod.heldWrites.any fun h => h.back && lineOf h.addr == line

/-- Act on every stash-held copy of a physical line (R214): a read cleans it, a write makes it absent; `none` while a lease
covers a copy that is to change, or while its write-back waits. -/
def State.directory (s : State) (line : Nat) (write : Bool) : Option State :=
  if s.backHeld line || s.lineLeased line && (write || s.stashDirty line) then none
  else some ((s.holders line).foldl (fun s h => if write then s.recallLine h.1 h.2 else s.writeBackLine h.1 h.2) s)

/-! ### Accesses at the home slices -/

/-- The home slice recalls, for capacity, a stash-held dirty line of a set in which no line is eligible (R205, R214, DESIGN CHOICE, log 11). -/
def State.recallSet (s : State) (q a : Nat) : State :=
  match ((s.quad q).llc.lines.filter fun kv => llcSet q kv.1 == llcSet q a).find? fun kv => s.stashDirty kv.1 && !s.replicaLocked kv.1 && !s.lineLeased kv.1 with
  | some kv => (s.directory kv.1 true).getD s
  | none => s

/-- An access to one sector at its home slice (R205): `none` when the set holds no line that could make room and the request waits. -/
def State.llcSector (s : State) (q a vdev : Nat) (write full : Bool) : Option State :=
  match s.llcPut q a vdev write full with
  | some s1 => some s1
  | none => (s.recallSet q a).llcPut q a vdev write full

/-- An access of `n` bytes inside one line at the home slice. `covers` tells of a sector whether the whole instruction writes all of it.
A sector of which the data is uncorrectable is not filled (R218). -/
def State.llcAccess (s : State) (members : List Nat) (a n vdev : Nat) (write : Bool) (covers : Nat → Bool := fun _ => false) : Option State :=
  match homeQuad members a with
  | none => some s
  | some q =>
    let s0 := s.modWear fun w => { w with activity := { w.activity with active := Store.modify 0 w.activity.active (416 + 16 * q + llcSlice q a) (· + 1) } }
    (sectorsOf a n).foldl (fun (acc : Option State) k => acc.bind fun s =>
      let full := write && (covers k || (decide (a ≤ 64 * k) && decide (64 * k + 64 ≤ a + n)))
      if s.sectorBad k && !full then some s else s.llcSector q (64 * k) vdev write full) (some s0)

/-- Some bytes, as the parts of them that lie in one line each. -/
def splitLines : Nat → Nat → List Byte → List (Nat × List Byte)
  | 0, _, _ => []
  | fuel + 1, a, data => if data.isEmpty then [] else (a, data.take (128 - a % 128)) :: splitLines fuel (a / 128 * 128 + 128) (data.drop (128 - a % 128))

/-- Write bytes of one line at a home, by an agent of the device (R214): the directory acts first, then the LLC takes them; `none` while its set holds no
eligible line (R205). A write of a part of a sector of which the data is uncorrectable only raises the interrupt (R218). -/
def State.applyAt (s : State) (members : List Nat) (a : Nat) (data : List Byte) : Option State :=
  let s1 := (s.directory (lineOf a) true).getD s
  (s1.llcAccess members a data.length (s.frameVdev a) true).map fun s2 =>
    let lost := (sectorsOf a data.length).filter fun k => s1.sectorBad k && s2.sectorBad k
    let s3 := lost.foldl (fun s k => s.detect (.sector (64 * k))) s2
    { s3 with mem := memWrites s3.mem a data }

/-- Write bytes of one line at every replica of it, in one step (R236). -/
def State.applyWrite (s : State) (members : List Nat) (a : Nat) (data : List Byte) : Option State :=
  (s.homesOf members a).foldl (fun acc h => acc.bind fun s => s.applyAt members h data) (some s)

/-- Whether a write to a line waits behind a lease that covers a copy of it, or behind an older write to it (R182, R205, R214). -/
def State.lineHeld (s : State) (line : Nat) : Bool := s.lineLeased line || s.mod.heldWrites.any fun h => lineOf h.addr == line
/-- Whether a write to a line must wait: it is held so, or a replicated commit has locked the line (R235). -/
def State.writeHeld (s : State) (line : Nat) : Bool := s.lineHeld line || s.replicaLocked line

/-- A write of physical bytes by the device's own agents, line by line: what cannot be applied now is kept until it can (R205, R214, R235), and what goes
to a CXL port that does not answer is aborted there (R404). -/
def State.coherentWrite (s : State) (members : List Nat) (a : Nat) (data : List Byte) : State :=
  (splitLines (data.length / 128 + 2) a data).foldl (fun s x =>
    if !s.cxlAnswers x.1 then s
    else match if (s.homesOf members x.1).any fun h => s.writeHeld (lineOf h) then none else s.applyWrite members x.1 x.2 with
    | some s1 => s1
    | none => s.modMod fun m => { m with heldWrites := m.heldWrites ++ [{ members := members, addr := x.1, data := x.2 }] }) s

/-- A write that was kept is applied, when nothing holds it and it is the first that waits for its line; a write-back, of which the data is older than
that of any write to the line, comes before those and waits for its place alone. -/
def State.applyHeld (s : State) (h : HeldWrite) : Option State :=
  let first := s.mod.heldWrites.find? fun k => lineOf k.addr == lineOf h.addr && (k.back || !h.back)
  if first != some h || !h.back && (s.lineLeased (lineOf h.addr) || s.replicaLocked (lineOf h.addr)) then none
  else
    let s1 := s.modMod fun m => { m with heldWrites := m.heldWrites.erase h }
    if h.back then (s1.llcAccess h.members h.addr h.data.length (s1.frameVdev h.addr) true).map fun s2 => { s2 with mem := memWrites s2.mem h.addr h.data }
    else s1.applyWrite h.members h.addr h.data

/-- The first write that was kept and can be applied now. -/
def State.heldApplies (s : State) : Option State := s.mod.heldWrites.findSome? s.applyHeld

/-- A byte of physical memory as the coherent device sees it: a dirty sector of a window line, one of which the write-back waits, else memory. -/
def State.seenByte (s : State) (a : Nat) : Byte :=
  let below := s.mod.heldWrites.foldl (fun b (h : HeldWrite) => if h.back ∧ h.addr ≤ a ∧ a < h.addr + h.data.length then h.data.getD (a - h.addr) b else b) (memRead s.mem a)
  s.teams.foldl (fun acc kv => kv.2.mem.lines.foldl (fun acc (l : Nat × WinLine) =>
    if l.2.phys = lineOf a ∧ (if a % 128 < 64 then l.2.dirty0 else l.2.dirty1) then Store.get 0 kv.2.mem.stash (l.1 * 128 + a % 128) else acc) acc)
    below

/-- Bytes of physical memory as the coherent device sees them. -/
def State.seen (s : State) (a n : Nat) : List Byte := (upTo n).map fun k => s.seenByte (a + k)

/-- A read of physical bytes by a party that keeps no copy (R214, R218): the directory acts and the LLC serves them; `none` while it must wait. -/
def State.coherentRead (s : State) (members : List Nat) (a n vdev : Nat) : Option State :=
  (distinct ((sectorsOf a n).map fun k => k / 2 * 128)).foldl (fun (acc : Option State) line => acc.bind fun s =>
    (s.directory line false).bind fun s1 =>
      let lo := max a line
      s1.llcAccess members lo (min (a + n) (line + 128) - lo) vdev false) (some s)

/-- Write back every bound window of a team (R215). -/
def State.writeBackTeam (s : State) (tid : Nat) : State :=
  match Store.find s.teams tid with
  | none => s
  | some t => t.mem.lines.foldl (fun s l => s.writeBackLine tid l.1) s

/-! ### The core's ordered store path and L1 -/

/-- Invalidate a line in a core's L1 (R210, R240, R257). -/
def State.l1Drop (s : State) (core line : Nat) : State := s.modMem core fun m => { m with l1 := Store.erase m.l1 line }
/-- Invalidate a core's L1 (R208, R229, R260). -/
def State.l1Clear (s : State) (core : Nat) : State := s.modMem core fun m => { m with l1 := [] }

/-- Bytes of a line with some of them replaced. -/
def patch : List Byte → Nat → List Byte → List Byte
  | line, _, [] => line
  | line, off, b :: rest => patch (line.set off b) (off + 1) rest

/-- Whether a store of a path cannot be performed yet: a lease covers a copy of its line, which the array reads as it is (R182, R214), a replicated commit
has locked it, or the set of its home slice holds no eligible line (R205). -/
def State.storeWaits (s : State) (p : PathStore) : Bool :=
  s.writeHeld (lineOf p.addr) || !p.homed && (s.llcAccess (s.part (s.partOfCore (p.tid / 16))).regs.members p.addr p.data.length p.vdev true).isNone

/-- Perform one store at device scope (R214, R232): every stash copy of its line becomes absent, memory takes the bytes, and a
present line of the core's L1 is updated (R210). -/
def State.performStore (s : State) (core : Nat) (p : PathStore) : State :=
  let s0 := (s.holders (lineOf p.addr)).foldl (fun s h => s.recallLine h.1 h.2) s
  let s1 := if p.homed then s0 else (s0.llcAccess (s0.part (s0.partOfCore core)).regs.members p.addr p.data.length p.vdev true).getD s0
  ({ s1 with mem := memWrites s1.mem p.addr p.data }).modMem core fun m =>
    match Store.find m.l1 (lineOf p.addr) with
    | some l => { m with l1 := Store.put m.l1 (lineOf p.addr) (patch l (p.addr % 128) p.data) }
    | none => m

/-- Perform the stores of a path in order, up to a position, all when it is none; the first that must wait keeps those behind it. Answers
what is left. -/
def State.drainStores (s : State) (core : Nat) (last : Option Nat) : List PathStore → State × List PathStore
  | [] => (s, [])
  | p :: rest =>
    if (match last with
        | none => false
        | some n => decide (n < p.pos)) || s.storeWaits p then (s, p :: rest)
    else (s.performStore core p).drainStores core last rest

/-- Perform the stores of a core's path at device scope, up to a position (R232); all when it is none. -/
def State.drainPath (s : State) (core : Nat) (last : Option Nat) : State :=
  let (s1, left) := s.drainStores core last (s.core core).mem.path
  s1.modMem core fun m => { m with path := left }

/-- Whether a core's path holds, up to a position, a store that cannot be performed yet: what needs the path drained waits (R229, R232). -/
def State.pathWaits (s : State) (core : Nat) (last : Option Nat := none) : Bool :=
  (s.core core).mem.path.any fun p => (match last with
    | none => true
    | some n => decide (p.pos ≤ n)) && s.storeWaits p

/-- A byte as a core's own accesses see it: the youngest store of its path, else what is below (R223). -/
def State.pathByte (s : State) (core a : Nat) (below : Byte) : Byte :=
  (s.core core).mem.path.foldl (fun acc (p : PathStore) => if p.addr ≤ a ∧ a < p.addr + p.data.length then p.data.getD (a - p.addr) acc else acc) below

end Sys2Proof.Machine
end

