-- ==== Sys2Proof/Machine/Translate.lean ====
section
/-! DEFINITION. Translation and ownership (R334 to R339, R344): the two-stage walk, its checks in the order of R336, the
core TLB, and the access checks of a guest access. -/

namespace Sys2Proof.Machine

/-- Why an access cannot be made now: a page that is not present (delivered to the hypervisor when the second stage misses), an
unpulled frame of a migrating device (R357), a fault, data that an error has spoilt (R218), or a wait for a lock, a lease or a set of the LLC. -/
inductive AccessFail where
  | page (hyper : Bool)
  | unpulled (frame : Nat)
  | fault (c : FaultCode)
  | lost (site : ErrorSite)
  | wait
  deriving DecidableEq, Repr

/-- Whether an access that fails so is made again later with no fault: it waits, or its frame has not been pulled (R357). -/
def AccessFail.waits : AccessFail → Bool
  | .wait | .unpulled _ => true
  | _ => false

/-- What an access needs: a read-modify-write, and a fill of a window that may be written, need both permissions (R213, R251). -/
inductive Need where
  | read | write | update | exec
  deriving DecidableEq, Repr

/-- Whether it is made for a write (R339). -/
def Need.writes : Need → Bool
  | .write | .update => true
  | _ => false

/-- A leaf of a walk: the address that it maps, the 4 KiB pages of its page, and its permissions. -/
structure Leaf where
  addr : Nat
  span : Nat
  repl : Bool
  r : Bool
  w : Bool
  x : Bool
  deriving DecidableEq, Repr

/-- Whether permissions give what an access needs (R336 row 4). -/
def allowed (r w x : Bool) : Need → Bool
  | .read => r
  | .write => w
  | .update => r && w
  | .exec => x

/-- A table entry (R335), as the LLC serves it (R334). -/
def State.readEntry (s : State) (a : Nat) : BitVec 64 := BitVec.ofNat 64 (numOf (s.seen a 8))

/-- V of a table entry. -/
def entryV (e : BitVec 64) : Bool := e.getLsbD 0
/-- LEAF of a table entry. -/
def entryLeaf (e : BitVec 64) : Bool := e.getLsbD 2
/-- CONTIG of a table entry. -/
def entryContig (e : BitVec 64) : Bool := e.getLsbD 59
/-- ADDR of a table entry, as an address. -/
def entryAddr (e : BitVec 64) : Nat := (e.extractLsb' 12 44).toNat * 4096

/-- Whether a reserved bit of an entry is set (R335): REPL is reserved in the first stage and in non-leaf entries, CONTIG outside
level 0, and ADDR[55:52] in the second stage. -/
def entryReserved (e : BitVec 64) (second : Bool) (level : Nat) : Bool :=
  (e.extractLsb' 61 3) != 0 || (e.extractLsb' 56 3) != 0 || (e.extractLsb' 7 5) != 0 || e.getLsbD 3 || e.getLsbD 1 ||
  (e.getLsbD 60 && (!second || !entryLeaf e)) || (entryContig e && level != 0) ||
  (second && (e.extractLsb' 52 4) != 0)

/-- Whether LEAF is against R334 at a level: 1 at L0, 0 at L4 and L3. -/
def entryMisleaf (e : BitVec 64) (level : Nat) : Bool :=
  (level == 0 && !entryLeaf e) || (decide (3 ≤ level) && entryLeaf e)

/-- The page size of a leaf at a level (R334). -/
def pageSize (level : Nat) : Nat := 4096 * 512 ^ level

/-- Whether a CONTIG group of 16 aligned entries is identical apart from ADDR[15:12] = 0..15 (R336). -/
def State.contigGood (s : State) (entryAt : Nat) : Bool :=
  let base := entryAt / 128 * 128
  let first := s.readEntry base
  (upTo 16).all fun i => s.readEntry (base + 8 * i) == (first &&& ~~~(0xF000#64)) ||| BitVec.ofNat 64 (4096 * i)

/-- The index of an address at a level (R334). -/
def tableIndex (addr level : Nat) : Nat :=
  if level = 4 then addr / 2 ^ 48 else addr / 2 ^ (12 + 9 * level) % 512

/-- A walk: its outcome, and what it has read, each piece with its address and its length, the last first (R334). -/
abbrev Walk (α : Type) := Except AccessFail α × List (Nat × Nat)

/-- What an entry of level `level`, read at `entryAt`, gives for an address: the leaf, the next table, or a failure
(R336 rows 1 and 2). A CONTIG entry is read with the group of 16 that it belongs to. -/
def State.stepWalk (s : State) (second : Bool) (level entryAt addr : Nat) (reads : List (Nat × Nat)) : Walk (Leaf ⊕ Nat) :=
  let e := s.readEntry entryAt
  let base := entryAt / 128 * 128
  let leaf : Leaf := ⟨entryAddr e + addr % pageSize level, if entryContig e then 16 else 512 ^ level, e.getLsbD 60, e.getLsbD 4, e.getLsbD 5, e.getLsbD 6⟩
  let read := (entryAt, 8) :: reads
  match s.badSite entryAt 8 with
  | some site => (.error (.lost site), read)
  | none =>
    if !entryV e then (.error (.page second), read)
    else if entryReserved e second level || entryMisleaf e level then (.error (.fault .permission), read)
    else if !entryLeaf e then (.ok (.inr (entryAddr e)), read)
    else if entryAddr e % pageSize level != 0 then (.error (.fault .permission), read)
    else if !entryContig e then (.ok (.inl leaf), read)
    else match s.badSite base 128 with
      | some site => (.error (.lost site), (base, 128) :: read)
      | none => (if s.contigGood entryAt then .ok (.inl leaf) else .error (.fault .permission), (base, 128) :: read)

/-- The replica-table entry of a primary frame of a device (R341). -/
def State.replicaEntry (s : State) (part vdev frame : Nat) : Option (Nat × ReplicaEntry) :=
  (s.part part).replicas.find? fun kv => kv.2.primary == frame && kv.2.vdev == vdev

/-- Row 3 of R336 on a leaf of the second stage: REPL on a page that is not of 64 KiB, or that names no entry of the replica table. -/
def State.replBroken (s : State) (part vdev : Nat) (l : Leaf) : Bool :=
  l.repl && (l.span != 16 || (s.replicaEntry part vdev (frameOf l.addr)).isNone)

/-- Row 5 of R336 on a final address: its window (R201, R203). -/
def State.windowRefuses (s : State) (part a : Nat) : Bool := match regionOf a with
  | .reserved | .device => true
  | .host _ | .cxl _ => windowEmpty (s.part part).regs.members a
  | _ => false

/-- The second-stage walk of a guest-physical address (R334, R336); its tables lie in frames of owner 0 (R344). `need` is what the access needs
of the page, where the page is that of the access. -/
def State.walkSecond (s : State) (part vdev : Nat) (need : Option Need) (addr : Nat) : List Nat → Nat → List (Nat × Nat) → Walk Leaf
  | [], _, reads => (.error (.fault .permission), reads)
  | level :: below, table, reads =>
    let owned : Bool := s.ownerOf table == 0
    match s.stepWalk true level (table + 8 * tableIndex addr level) addr reads with
    | (.error f, reads) => (.error f, reads)
    | (.ok (.inl l), reads) =>
      if s.replBroken part vdev l then (.error (.fault .permission), reads)
      else if !((need.map (allowed l.r l.w l.x)).getD true) then (.error (.fault .permission), reads)
      else if need.isSome && s.windowRefuses part l.addr then (.error (.fault .permission), reads)
      else if !owned then (.error (.fault .ownership), reads)
      else (.ok l, reads)
    | (.ok (.inr next), reads) =>
      if !owned then (.error (.fault .ownership), reads) else s.walkSecond part vdev need addr below next reads

/-- Whether a leaf that maps a guest-physical address reaches beyond what the dirty bitmap of its device covers (R339). -/
def Vdev.beyond (v : Vdev) (gpa span : Nat) : Bool := decide (8 * v.tab.dirtyLen < gpa / 4096 - gpa / 4096 % span + span)

/-- A guest-physical address translated by the second stage. Firmware maps no leaf beyond the dirty bitmap, nor one to a retired frame, so that none is
found there (R333, R339, R360, DEDUCED, log 23). -/
def State.secondStage (s : State) (part vdev : Nat) (v : Vdev) (need : Option Need) (gpa : Nat) (reads : List (Nat × Nat)) : Walk Leaf :=
  match v.tab.s2root with
  | none => (.error (.page true), reads)
  | some root =>
    if 2 ^ 52 ≤ gpa then (.error (.page true), reads)
    else match s.walkSecond part vdev need gpa [4, 3, 2, 1, 0] root reads with
      | (.ok l, reads) => (if v.beyond gpa l.span || s.mod.frames.retired.contains (frameOf l.addr) then .error (.page true) else .ok l, reads)
      | r => r

/-- The leaves of the second-stage tables from one of a level down, for firmware: each with the address of its entry, its level and the first
guest-physical address of its page. -/
def State.tableLeaves (s : State) : List Nat → Nat → Nat → List (Nat × Nat × Nat)
  | [], _, _ => []
  | level :: below, table, gpa => (upTo (if level = 4 then 16 else 512)).flatMap fun i =>
    let e := s.readEntry (table + 8 * i)
    let first := gpa + i * pageSize level
    if !entryV e then [] else if entryLeaf e then [(table + 8 * i, level, first)] else s.tableLeaves below (entryAddr e) first

/-- The leaves of the second stage of a device. -/
def State.deviceLeaves (s : State) (v : Vdev) : List (Nat × Nat × Nat) := match v.tab.s2root with
  | some root => s.tableLeaves [4, 3, 2, 1, 0] root 0
  | none => []

/-- Whether the page of a leaf holds a physical address. -/
def State.leafCovers (s : State) (l : Nat × Nat × Nat) (a : Nat) : Bool :=
  let base := entryAddr (s.readEntry l.1)
  decide (base ≤ a) && decide (a < base + pageSize l.2.1)

/-- The guest-physical address at which a device has a physical one. -/
def State.gpaOf (s : State) (v : Vdev) (a : Nat) : Option Nat :=
  ((s.deviceLeaves v).find? fun l => s.leafCovers l a).map fun l => l.2.2 + (a - entryAddr (s.readEntry l.1))

/-- Whether a frame of a migrating device has not been pulled (R357, R361). -/
def pullCheck (v : Vdev) (a : Nat) : Except AccessFail Unit :=
  if isDeviceMemory a && v.mig.unpulled.contains (frameOf a) then
    (if v.mig.sourceLost then .error (.fault .postcopySourceLost) else .error (.unpulled (frameOf a)))
  else .ok ()

/-- The first-stage walk of a virtual address (R334, R336): each table is guest-physical, is translated by the second stage, and lies in a
frame of the device (R344). A table in a frame that has not been pulled is waited for as the page is (R357). -/
def State.walkFirst (s : State) (part vdev : Nat) (v : Vdev) (need : Need) (va : Nat) : List Nat → Nat → List (Nat × Nat) → Walk Leaf
  | [], _, reads => (.error (.fault .permission), reads)
  | level :: below, table, reads =>
    match s.secondStage part vdev v none (table + 8 * tableIndex va level) reads with
    | (.error f, reads) => (.error f, reads)
    | (.ok at2, reads) => match pullCheck v at2.addr with
      | .error f => (.error f, reads)
      | .ok () =>
        let owned : Bool := s.ownerOf at2.addr == vdev
        match s.stepWalk false level at2.addr va reads with
        | (.error f, reads) => (.error f, reads)
        | (.ok (.inl leaf), reads) =>
          if !allowed leaf.r leaf.w leaf.x need then (.error (.fault .permission), reads)
          else if !owned then (.error (.fault .ownership), reads)
          else (.ok leaf, reads)
        | (.ok (.inr next), reads) =>
          if !owned then (.error (.fault .ownership), reads) else s.walkFirst part vdev v need va below next reads

/-- Row 6 of R336 on a final address that has passed row 5: its owner, those of its replicas, or its grant (R341, R344). A CXL port whose link
is down answers with an abort (R345). -/
def State.ownerCheck (s : State) (part : Nat) (v : Vdev) (vdev a : Nat) (repl : Bool) : Except AccessFail Unit :=
  match regionOf a with
  | .near | .far =>
    if s.ownerOf a != vdev then .error (.fault .ownership)
    else if repl && (match s.replicaEntry part vdev (frameOf a) with
        | some e => e.2.replicas.any fun r => Store.get 255 s.mod.frames.owner r.frame != vdev
        | none => false) then .error (.fault .ownership)
    else .ok ()
  | .host _ => if !grantCovers v a then .error (.fault .ownership) else .ok ()
  | .cxl _ =>
    if !grantCovers v a then .error (.fault .ownership)
    else if !s.cxlAnswers a then .error (.fault .remoteUnreachable) else .ok ()
  | _ => .ok ()

/-- The last checks of an access, on its physical address. -/
def State.finalCheck (s : State) (part : Nat) (v : Vdev) (vdev a : Nat) (repl : Bool) : Except AccessFail Unit :=
  match s.ownerCheck part v vdev a repl with
  | .error f => .error f
  | .ok () => pullCheck v a

/-- The physical address of a translated virtual address. -/
def Translation.physAddr (t : Translation) (va : Nat) : Nat := (t.phys + (va / 4096 - t.page)) * 4096 + va % 4096
/-- The guest-physical page of a translated virtual address. -/
def Translation.gpaPage (t : Translation) (va : Nat) : Nat := t.gpa + (va / 4096 - t.page)

/-- The combined walk of both stages, with all the checks of R336: the permission is the AND of both, and the page the smaller of the two. -/
def State.walkBoth (s : State) (part : Nat) (v : Vdev) (vdev va : Nat) (need : Need) : Walk Translation :=
  match v.tab.s1root with
  | none => (.error (.page false), [])
  | some root =>
    match s.walkFirst part vdev v need va [4, 3, 2, 1, 0] root [] with
    | (.error f, reads) => (.error f, reads)
    | (.ok l1, reads) =>
      match s.secondStage part vdev v (some need) l1.addr reads with
      | (.error f, reads) => (.error f, reads)
      | (.ok l2, reads) =>
        match s.ownerCheck part v vdev l2.addr l2.repl with
        | .error f => (.error f, reads)
        | .ok () =>
          let span := min l1.span l2.span
          let off := va / 4096 % span
          (.ok { vdev := vdev, page := va / 4096 - off, phys := l2.addr / 4096 - off, gpa := l1.addr / 4096 - off, span := span,
                 r := l1.r && l2.r, w := l1.w && l2.w, x := l1.x && l2.x, repl := l2.repl }, reads)

/-- The reads of a walk at the LLC, as relaxed loads at device scope (R334); `none` while one must wait. -/
def State.walkReads (s : State) (part vdev : Nat) (reads : List (Nat × Nat)) : Option State :=
  reads.reverse.foldl (fun (acc : Option State) a => acc.bind fun s => s.coherentRead (s.part part).regs.members a.1 a.2 vdev) (some s)

/-- Whether two translations cover a common page of a device. -/
def Translation.overlaps (a b : Translation) : Bool :=
  a.vdev == b.vdev && decide (a.page < b.page + b.span) && decide (b.page < a.page + a.span)

/-- Keep a translation in a TLB of a number of entries, the oldest leaving first (R333). -/
def tlbAdd (size : Nat) (t : Translation) (l : List Translation) : List Translation := (t :: l.filter fun x => !x.overlaps t).take size

/-- The entry of a TLB for a page. -/
def tlbFind (l : List Translation) (vdev page : Nat) : Option Translation :=
  l.find? fun t => t.vdev == vdev && decide (t.page ≤ page) && decide (page < t.page + t.span)

/-- The translation of an access: a cached entry as it stands, which is checked again, or a walk, which reads its entries at the LLC (R336, R337). -/
def State.lookup (s : State) (part vdev : Nat) (v : Vdev) (tlb : List Translation) (va : Nat) (need : Need) : Except AccessFail (Translation × State) :=
  match tlbFind tlb vdev (va / 4096) with
  | some t =>
    if !allowed t.r t.w t.x need || s.windowRefuses part (t.physAddr va) then .error (.fault .permission)
    else match s.ownerCheck part v vdev (t.physAddr va) t.repl with
      | .error f => .error f
      | .ok () => .ok (t, s)
  | none =>
    let (r, reads) := s.walkBoth part v vdev va need
    match s.walkReads part vdev reads, r with
    | none, _ => .error .wait
    | some _, .error f => .error f
    | some s1, .ok t => .ok (t, s1)

/-- Translate and check one access of a device on a core (R336, R337): the TLB keeps what a walk finds, and a translation that grants a write
sets the dirty bit of its 4 KiB page, the first time after the entry was filled (R339). `walkAhead` names the streamer's TLB. -/
def State.translate (s : State) (core vdev va : Nat) (need : Need) (walkAhead : Bool := false) :
    Except AccessFail (Translation × State) :=
  match Store.find s.vdevs vdev with
  | none => .error (.page false)
  | some v =>
    let part := s.partOfCore core
    match s.lookup part vdev v (if walkAhead then (s.core core).mem.walkTlb else (s.core core).mem.tlb) va need with
    | .error f => .error f
    | .ok (t, s1) =>
      match pullCheck v (t.physAddr va) with
      | .error f => .error f
      | .ok () =>
        let off := va / 4096 - t.page
        let marks := need.writes && !t.wrote.contains off
        let t' := if marks then { t with wrote := off :: t.wrote } else t
        let s2 := s1.modMem core fun m =>
          if walkAhead then { m with walkTlb := tlbAdd 64 t' m.walkTlb } else { m with tlb := tlbAdd 1024 t' m.tlb }
        .ok (t', if marks then s2.markDirty vdev (t.gpaPage va * 4096) else s2)

/-- What a walk that fails has read at the LLC all the same (R334). -/
def State.walked (s : State) (core vdev va : Nat) (need : Need) : State :=
  match Store.find s.vdevs vdev with
  | none => s
  | some v =>
    if (tlbFind (s.core core).mem.tlb vdev (va / 4096)).isSome then s
    else (s.walkReads (s.partOfCore core) vdev (s.walkBoth (s.partOfCore core) v vdev va need).2).getD s

/-! ### Accesses that the device or its firmware makes for a guest -/

/-- What the launch unit or firmware reads for a device, at the LLC (R205, R214, R221): a read that would have to wait there is served at once
(DESIGN CHOICE, log 11). -/
def State.servedReads (s : State) (part vdev : Nat) (reads : List (Nat × Nat)) : State :=
  reads.reverse.foldl (fun s a => (s.coherentRead (s.part part).regs.members a.1 a.2 vdev).getD s) s

/-- Where a guest virtual address of a device lies, for a read or a write that no group makes; nothing is cached. Answers the state after the walk's
reads, and the physical and the guest-physical address. -/
def State.locate (s : State) (part vdev va : Nat) (need : Need) : State × Except AccessFail (Nat × Nat) :=
  match Store.find s.vdevs vdev with
  | none => (s, .error (.page false))
  | some v =>
    let (r, reads) := s.walkBoth part v vdev va need
    (s.servedReads part vdev reads, match r with
      | .error f => .error f
      | .ok t => match pullCheck v (t.physAddr va) with
        | .error f => .error f
        | .ok () => .ok (t.physAddr va, t.gpaPage va * 4096))

/-- Where a guest-physical address of a device lies, with the checks of R336 and R344 on its page. -/
def State.guestPage (s : State) (part vdev gpa : Nat) : State × Except AccessFail Nat :=
  match Store.find s.vdevs vdev with
  | none => (s, .error (.page true))
  | some v =>
    let (r, reads) := s.secondStage part vdev v none gpa []
    (s.servedReads part vdev reads, match r with
      | .error f => .error f
      | .ok l => match s.finalCheck part v vdev l.addr l.repl with
        | .error f => .error f
        | .ok () => .ok l.addr)

/-- Bytes of one page that the launch unit or firmware reads at a physical address: data that an error has spoilt is withheld, with the interrupt
(R218). -/
def State.servedBytes (s : State) (part vdev a n : Nat) : State × Except AccessFail (List Byte) :=
  match s.badSite a n with
  | some site => (s.detect site, .error (.lost site))
  | none => (s.servedReads part vdev [(a, n)], .ok (s.seen a n))

/-- Write bytes at a guest virtual address, page by page; the first page that fails ends the write. Answers the number of bytes
written and the failure. -/
def State.guestWriteAux (s : State) (part vdev : Nat) : Nat → Nat → List Byte → Nat → State × Nat × Option AccessFail
  | 0, _, _, done => (s, done, none)
  | fuel + 1, va, data, done =>
    if data.isEmpty then (s, done, none)
    else
      let n := min data.length (4096 - va % 4096)
      match s.locate part vdev (va % 2 ^ 56) .write with
      | (s0, .error f) => (s0, done, some f)
      | (s0, .ok (a, gpa)) =>
        let s1 := (s0.markDirty vdev gpa).coherentWrite (s.part part).regs.members a (data.take n)
        s1.guestWriteAux part vdev fuel (va + n) (data.drop n) (done + n)

/-- Write bytes at a guest virtual address of a device. -/
def State.guestWrite (s : State) (part vdev va : Nat) (data : List Byte) : State × Nat × Option AccessFail :=
  s.guestWriteAux part vdev (data.length / 4096 + 2) va data 0

/-- Read bytes at a guest virtual address, page by page. -/
def State.guestReadAux (s : State) (part vdev : Nat) : Nat → Nat → Nat → State × Except AccessFail (List Byte)
  | 0, _, _ => (s, .ok [])
  | fuel + 1, va, n =>
    if n = 0 then (s, .ok [])
    else
      let k := min n (4096 - va % 4096)
      match s.locate part vdev (va % 2 ^ 56) .read with
      | (s0, .error f) => (s0, .error f)
      | (s0, .ok (a, _)) => match s0.servedBytes part vdev a k with
        | (s1, .error f) => (s1, .error f)
        | (s1, .ok b) => match s1.guestReadAux part vdev fuel (va + k) (n - k) with
          | (s2, .error f) => (s2, .error f)
          | (s2, .ok rest) => (s2, .ok (b ++ rest))

/-- Read bytes at a guest virtual address of a device. -/
def State.guestRead (s : State) (part vdev va n : Nat) : State × Except AccessFail (List Byte) :=
  s.guestReadAux part vdev (n / 4096 + 2) va n

/-- What such a read finds, by a test that reads nothing. -/
def State.guestPeek (s : State) (part vdev va n : Nat) : Except AccessFail (List Byte) := (s.guestRead part vdev va n).2

/-! ### Invalidation (R337) -/

/-- Drop the translations that satisfy a test, on every core (R337). -/
def State.dropTranslations (s : State) (p : Translation → Bool) : State :=
  { s with cores := s.cores.map fun c => (c.1, { c.2 with mem := { c.2.mem with tlb := c.2.mem.tlb.filter fun t => !p t, walkTlb := c.2.mem.walkTlb.filter fun t => !p t } }) }

end Sys2Proof.Machine
end

