-- ==== Sys2Proof/Machine/Ops.lean ====
section
/-! DEFINITION. The shared operations of every meaning: the event log (R315), the fault queue (R314, R431), the abort of a
launch (R42, R275), the completion record (R276), taking a fault (R313 to R320), and the issue of an instruction (R26, R78,
R80 to R86). -/

namespace Sys2Proof.Machine

/-! ### Packets (R267) -/

/-- CODE of a packet. -/
def pkCode (p : List Byte) : Nat := bits (field p 0 8) 55 0
/-- GRIDX, GRIDY, GRIDZ of a packet. -/
def pkGrid (p : List Byte) (k : Nat) : Nat := bits (field p (8 + 4 * k) 4) 24 0
/-- Cluster height h and width w of a packet. -/
def pkHeight (p : List Byte) : Nat := bits (field p 20 4) 6 5 + 1
def pkWidth (p : List Byte) : Nat := bits (field p 20 4) 9 7 + 1
/-- Groups per team G of a packet. -/
def pkGroups (p : List Byte) : Nat := bits (field p 20 4) 4 0 + 1
/-- EXTCEIL and BASECEIL of a packet. -/
def pkExtCeil (p : List Byte) : Nat := bits (field p 24 4) 6 0
def pkBaseCeil (p : List Byte) : Nat := bits (field p 24 4) 12 7
/-- STASHB of a packet. -/
def pkStash (p : List Byte) : Nat := bits (field p 28 4) 20 0
/-- ACCT, PRODUCER, PRODV, PRIO and SERIAL of a packet. -/
def pkTiles (p : List Byte) : Nat := bits (field p 32 4) 3 0
def pkProducer (p : List Byte) : Nat := bits (field p 32 4) 8 4
def pkProdV (p : List Byte) : Bool := bit (field p 32 4) 9
def pkPrio (p : List Byte) : Nat := bits (field p 32 4) 12 10
def pkSerial (p : List Byte) : Bool := bit (field p 32 4) 13
/-- COMPBMP, COMPREC and DEPBMP of a packet. -/
def pkCompBmp (p : List Byte) : Nat := bits (field p 40 8) 55 0
def pkCompRec (p : List Byte) : Nat := bits (field p 48 8) 55 0
def pkDepBmp (p : List Byte) : Nat := bits (field p 56 8) 55 0
/-- DEPMAP, DEPTEAMS, DEPK and DEPROW of a packet. -/
def pkDepMap (p : List Byte) : Nat := bits (field p 64 4) 30 28
def pkDepTeams (p : List Byte) : Nat := bits (field p 64 4) 27 0
def pkDepK (p : List Byte) : Nat := bits (field p 68 4) 31 16
def pkDepRow (p : List Byte) : Nat := bits (field p 68 4) 15 0
/-- HMODE, HDIE, HROW and HCOL of a packet. -/
def pkHmode (p : List Byte) : Nat := bits (field p 72 4) 2 0
def pkHdie (p : List Byte) : Nat := bits (field p 72 4) 5 3
def pkHrow (p : List Byte) : Nat := bits (field p 72 4) 7 6
def pkHcol (p : List Byte) : Nat := bits (field p 72 4) 10 8
/-- TAG of a packet. -/
def pkTag (p : List Byte) : Nat := field p 80 8
/-- The clusters and the teams of a launch (R268). -/
def pkClusters (p : List Byte) : Nat := pkGrid p 0 * pkGrid p 1 * pkGrid p 2
def pkTeams (p : List Byte) : Nat := pkClusters p * (pkHeight p * pkWidth p)

/-! ### CTXCTL (R312) -/

/-- WATCHDOG in microseconds. -/
def Context.watchdog (c : Context) : Nat := (c.ctl.extractLsb' 32 27).toNat
/-- SLICE in units of 100 microseconds. -/
def Context.sliceLen (c : Context) : Nat := (c.ctl.extractLsb' 20 12).toNat
/-- UNRWLIM in microseconds. -/
def Context.unrwlim (c : Context) : Nat := (c.ctl.extractLsb' 10 10).toNat
/-- PROT. -/
def Context.prot (c : Context) : Bool := c.ctl.getLsbD 2
/-- DUMPHOLD. -/
def Context.dumphold (c : Context) : Bool := c.ctl.getLsbD 1
/-- TRAPSVC. -/
def Context.trapsvc (c : Context) : Bool := c.ctl.getLsbD 0

/-! ### Fault records (R314, R431) -/

/-- The code of a fault (R313). -/
def FaultCode.code : FaultCode → Nat
  | .illegalOpcode => 0x01 | .illegalOperand => 0x02 | .privileged => 0x03 | .misaligned => 0x04 | .pageFault => 0x05
  | .permission => 0x06 | .ownership => 0x07 | .uncorrectable => 0x08 | .remoteUnreachable => 0x09
  | .postcopySourceLost => 0x0A | .lookaheadHazard => 0x0B | .ephemeralExpired => 0x0C | .registerWaitDeadlock => 0x0D
  | .extensionFault => 0x0E | .streamerRights => 0x0F | .leaseConflict => 0x10 | .algebraTableInvalid => 0x11
  | .recordInvalid => 0x12 | .mapInvalid => 0x13 | .accumRange => 0x14 | .joinStackOverflow => 0x15 | .checkFail => 0x16
  | .engineFault => 0x17 | .mcastMaskInvalid => 0x18 | .waitTimeout => 0x19 | .softwareTrap => 0x1A | .breakpoint => 0x1B

/-- The kinds of R313. -/
inductive FaultKind where
  | fatal | replayable | serviced | engine | debugger
  deriving DecidableEq, Repr

/-- The KIND field of a record (R314). -/
def FaultKind.code : FaultKind → Nat
  | .fatal => 0 | .replayable => 1 | .serviced => 2 | .engine => 3 | .debugger => 4

/-- How a fault of an instruction is handled: serviced faults are fatal under TRAPSVC = 0 (R313). -/
def kindOf (trapsvc : Bool) : FaultCode → FaultKind
  | .pageFault => .replayable
  | .checkFail | .engineFault | .softwareTrap => if trapsvc then .serviced else .fatal
  | .breakpoint => .debugger
  | _ => .fatal

/-- The 64 bytes of a fault record (R314). -/
def FaultRecord.bytes (r : FaultRecord) : List Byte :=
  bytesOf 4 (r.kind * 2 ^ 24 + r.code) ++ bytesOf 4 r.team ++ bytesOf 4 (r.slot * 2 ^ 12 + r.cls * 2 ^ 10 + r.group) ++
  bytesOf 4 r.mask.toNat ++ bytesOf 8 r.pc.toNat ++ bytesOf 8 r.resume.toNat ++ bytesOf 4 r.aux1.toNat ++ bytesOf 4 r.aux2.toNat ++
  bytesOf 8 r.addr ++ bytesOf 8 r.time ++ bytesOf 8 0

/-- The records that a fault queue holds (R431). -/
def FaultQueue.held (q : FaultQueue) : Nat := (q.head - q.tail).toNat
/-- A fault queue of 256 records is full (R431). -/
def FaultQueue.full (q : FaultQueue) : Bool := q.held == 256

/-- Write a record at FQBASE + 64 * (head mod 256) and raise the head (R431). The bytes go through the device's tables; where
they do not map the queue, only the count changes (DEDUCED, log 16). -/
def State.writeRecord (s : State) (part vdev : Nat) (r : FaultRecord) : State :=
  match Store.find s.vdevs vdev with
  | none => s
  | some v =>
    let s1 := (s.guestWrite part vdev (v.faults.base + 64 * (v.faults.head.toNat % 256)) r.bytes).1
    s1.modVdev vdev fun v => { v with faults := { v.faults with head := v.faults.head + 1 } }

/-- The device of a group. -/
def State.vdevOf (s : State) (g : Group) : Nat := ((Store.find s.teams g.tid).map (·.id.vdev)).getD 0

/-- The record of a device that has waited longest (R314), with its group; an engine record of a team of which no group is left waits at the queue. -/
def State.oldestPending (s : State) (vdev : Nat) : Option (Option Nat × FaultRecord) :=
  let own : List (Option Nat × FaultRecord) := s.groups.filterMap fun kv => match kv.2.stops.pending with
    | [] => none
    | r :: _ => if s.vdevOf kv.2 != vdev then none else some (some kv.1, r)
  let loose := ((((Store.find s.vdevs vdev).map fun v => v.faults.waiting).getD []).take 1).map fun r => ((none : Option Nat), r)
  (own ++ loose).foldl (fun acc x => match acc with
    | some a => if a.2.tick ≤ x.2.tick then some a else some x
    | none => some x) none

/-- The oldest waiting record of a device enters its fault queue, when that has room: a stop that the record names finds its slot (R314). -/
def State.enterPending (s : State) (part vdev : Nat) : Option State :=
  match s.oldestPending vdev, Store.find s.vdevs vdev with
  | some (who, r), some v =>
    if v.faults.full then none
    else
      let fix (x : StopState) : StopState := if r.kind = 2 ∨ r.kind = 4 then { x with record := v.faults.head.toNat % 256 } else x
      let s1 := s.writeRecord part vdev r
      some (match who with
        | some gid => s1.modStops gid fun x => { x with pending := x.pending.drop 1, stop := x.stop.map fix }
        | none => s1.modVdev vdev fun v => { v with faults := { v.faults with waiting := v.faults.waiting.drop 1 } })
  | _, _ => none

/-- Every waiting record for which there is room enters first. -/
def State.flushPending (s : State) (part vdev : Nat) : Nat → State
  | 0 => s
  | n + 1 => match s.enterPending part vdev with
    | some s1 => s1.flushPending part vdev n
    | none => s

/-- A record enters the fault queue, behind those that wait. On a full queue a fatal record is dropped and counted, and a record of any other kind
waits with its group, or at the queue when its group is gone (R314). Answers the state and the index of the record's slot. -/
def State.enterRecord (s : State) (part vdev gid : Nat) (r : FaultRecord) : State × Nat :=
  let s0 := s.flushPending part vdev 256
  match Store.find s0.vdevs vdev with
  | none => (s0, 0)
  | some v =>
    let idx := v.faults.head.toNat % 256
    if v.faults.full then
      if r.kind = 0 then (s0.modVdev vdev fun v => { v with faults := { v.faults with overflow := min (v.faults.overflow + 1) 65535 } }, idx)
      else if (Store.find s0.groups gid).any fun g => s0.vdevOf g == vdev then
        (s0.modStops gid fun t => { t with pending := t.pending ++ [{ r with tick := s.mod.tick }] }, idx)
      else (s0.modVdev vdev fun v => { v with faults := { v.faults with waiting := v.faults.waiting ++ [{ r with tick := s.mod.tick }] } }, idx)
    else (s0.writeRecord part vdev r, idx)

/-- The armed trigger stage of a device's debugger matches (R409): at a group, with a PC or a fault code as its kind asks. -/
def State.hitTrigger (s : State) (vdev gid kind value : Nat) : State :=
  match (Store.find s.vdevs vdev).bind (·.debugger) with
  | none => s
  | some d => match d.triggers[d.armed]? with
    | none => s
    | some tr =>
      if tr.kind = kind ∧ tr.value = value ∧ d.hit.isNone then
        let s1 := s.modVdev vdev fun v => { v with debugger := some { d with hit := some (some gid) } }
        { s1 with sched := { s1.sched with agenda := s1.sched.agenda ++ [.triggerStage vdev] } }
      else s

/-! ### Engine work that ends with a code (R240, R289, R319) -/

/-- The completion of an operation that has ended with a code is reported: its record enters the fault queue, at its turn and with the PC at which its
slot now stands, and f_k takes its status word when no older operation of the class has set it. Of a team that aborts it has no record (R42). -/
def State.engineReport (s : State) (gid : Nat) (w : EngineWork) : State :=
  match w.record, Store.find s.groups gid with
  | some r, some g => match Store.find s.teams g.tid with
    | none => s
    | some tm =>
      let r1 : FaultRecord := { r with resume := (g.flow.slot r.slot).pc, time := s.now }
      let s1 := if tm.sync.aborted then s else (s.enterRecord tm.id.part tm.id.vdev gid r1).1.hitTrigger tm.id.vdev gid 1 r.code
      s1.modEng gid fun e => if Store.has e.f w.cls then e else { e with f := Store.put e.f w.cls r.aux1 }
  | _, _ => s

/-- An operation of class k of a group has finished: those whose completion is reported by it leave c_k, in the order of their issue (R240). -/
def State.finishWork (s : State) (gid k serial : Nat) : State :=
  match Store.find s.groups gid with
  | none => s
  | some g =>
    (reportedWork k (g.eng.marked k serial)).foldl (fun s w => s.engineReport gid w) (s.modEng gid fun e => e.finish k serial)

/-! ### Completion records (R276) -/

/-- The 64 bytes of a completion record. -/
def completionBytes (status reason tag now : Nat) (f : Option FatalSummary) : List Byte :=
  let g := f.getD ⟨0, 0, 0, 0, 0, 0, 0⟩
  bytesOf 4 (reason * 256 + status) ++ bytesOf 4 g.code ++ bytesOf 4 g.team ++ bytesOf 4 g.group ++ bytesOf 8 g.pc.toNat ++
  bytesOf 4 g.mask.toNat ++ bytesOf 4 0 ++ bytesOf 8 tag ++ bytesOf 8 now ++ bytesOf 16 0

/-- Write the completion record of a packet, when it names one (R276). -/
def State.writeCompletion (s : State) (part vdev : Nat) (p : List Byte) (status reason : Nat) (f : Option FatalSummary) : State :=
  if pkCompRec p = 0 then s
  else (s.guestWrite part vdev (pkCompRec p) (completionBytes status reason (pkTag p) s.now f)).1

/-! ### The abort of a launch (R42) -/

/-- A launch slot of the launch table loses its gangs, and the fence if one of them held it (R283, R266). -/
def Dispatcher.dropGangs (d : Dispatcher) (gone : Gang → Bool) : Dispatcher :=
  let idx := (d.gangs.filter fun g => gone g.2).map (·.1)
  { d with gangs := d.gangs.filter (fun g => !gone g.2),
           fence := match d.fence with
             | some i => if idx.contains i then none else some i
             | none => none,
           decide := true }

/-- Cancel the launches that depend on a producer that aborted or was refused (R275): entries of the launch table keep their
dispatched teams, but not what their clusters have reserved, and packets still in a queue of the device leave it with status 2. A decision follows,
which writes the record of a launch with no team left. -/
def State.cancelDependents (s : State) (part vdev bmp : Nat) : State :=
  if bmp = 0 then s
  else
    let depends (p : List Byte) : Bool := pkDepMap p != 0 && pkDepBmp p == bmp
    let cancel (_ : Nat) (e : LaunchEntry) : LaunchEntry :=
      if e.vdev == vdev && depends e.packet && e.phase == .running then { e with phase := .cancelled 2 } else e
    let lost (n : Nat) : Bool := match Store.find (s.part part).disp.launches n with
      | some e => e.vdev == vdev && depends e.packet && e.phase == .running
      | none => false
    let s1 := s.modDisp part fun d => { (d.dropGangs fun g => lost g.launch && !g.restored) with launches := Store.mapVals d.launches cancel }
    (s.part part).regs.members.foldl (fun s q =>
      (s.quad q).queues.foldl (fun s kv =>
        if kv.2.owner != vdev then s
        else
          let tabled (k : Nat) : Bool := k == 0 && (s.part part).disp.launches.any fun e => e.2.quad == q && e.2.queue == kv.1 && e.2.queued
          let gone := ((upTo kv.2.packets.length).zip kv.2.packets).filter fun x => depends x.2.bytes && !tabled x.1
          let kept := ((upTo kv.2.packets.length).zip kv.2.packets).filter fun x => !(depends x.2.bytes && !tabled x.1)
          let s2 := gone.foldl (fun s x => s.writeCompletion part vdev x.2.bytes 2 0 none) s
          s2.modQuad q fun z => { z with queues := Store.modify {} z.queues kv.1 fun w => { w with packets := kept.map (·.2) } }) s) s1

/-- What an abort leaves of a group: it stops and issues nothing more; its stack, point, holds, waits, brine values and tag are
gone, and an answer to an earlier stop is no longer accepted (R42, R110, R320). -/
def Group.aborted (g : Group) : Group :=
  { g with
    regs := g.regs.dropBrine
    flow := { s0 := {}, s1 := {}, exited := true }
    stops := {}
    eng := { out := g.eng.out } }

/-- Drop one operation of an aborted group. -/
def State.dropOp (s : State) (gid : Nat) (o : LongOp) : State :=
  let core := coreOf gid
  let s1 := s.modGroup gid fun g =>
    { g with
      ops := g.ops.filter fun x => x.serial != o.serial
      eng := ((g.eng.drop 0 o.serial).drop 2 o.serial).drop 3 o.serial }
  let s2 := (s1.modCore core fun k => { k with copies := k.copies.filter fun x => !(x.gid == gid && x.opSerial == o.serial) }).modPart (s1.partOfCore core) fun p =>
    match o.kind, o.probing with
    | .acqrm, some line => { p with probes := p.probes.erase line }
    | _, _ => p
  s2.modQuad (quadOfCore core) fun z => { z with colls := z.colls.filter fun x => !(x.gid == gid && x.opSerial == o.serial) }

/-- At an abort, each operation of a group completes or is dropped, on its own, by a free choice (R42, R310); those of the array are
dropped with its queue, and what only waits is dropped: a SIGWAIT, a LAUNCH of which the packet has not entered, and what a replayable
fault has parked or suspended (R320). -/
def State.dropOps (s : State) (gid : Nat) : State :=
  match Store.find s.groups gid with
  | none => s
  | some g =>
    let s1 := g.ops.foldl (fun (s : State) (o : LongOp) =>
      let (drop, s') := s.choose
      let suspended := (s.core (coreOf gid)).copies.any fun c => c.gid == gid && c.opSerial == o.serial && c.suspended
      if drop || o.reported || o.kind == .sigwait || o.kind == .launch || suspended then s'.dropOp gid o else s') s
    s1.modEng gid fun e => { e with out := e.out.filter fun w => w.cls != 1 }

/-- Abort the resident teams of a launch (R42): groups stop, the array state of the team is emptied (R169, R183), barriers are
emptied (R288), its release-log entries leave (R234), its stamp slots close (R396). Each copy and collective in a queue is
dropped or left to complete, on its own, by a free choice; the rest is freed by the team's retirement. -/
def State.abortTeam (s : State) (tid : Nat) : State :=
  let core := tid / 16
  let gs := (s.groupsOf tid).map (·.1)
  let s1 := gs.foldl (fun s g => s.modGroup g Group.aborted) s
  let s2 := s1.modSync tid fun y => { y with barriers := [], brpArrived := 0, brpPc := none, deadlockTimer := 0, aborted := true, exited := BitVec.allOnes 32, runOnFrom := none }
  let holds := match (s.core core).arr.holder with
    | some h => h.1 == tid
    | none => false
  let s3 := if holds then
      s2.modArr core fun a => { a with leases := [], queue := [], fills := [], pending := [],
                                       banks := Store.mapVals a.banks fun _ _ => {} }
    else s2
  let s4 := s3.modMem core fun m => { m with log := m.log.filter fun e => e.tid != tid }
  let s6 := gs.foldl (fun s g => s.dropOps g) s4
  let s7 := gs.foldl (fun s g => s.modBench (g / 8) fun b =>
    { b with acq := b.acq.filter (fun r => r.gid != g) }) s6
  s7.modCore core fun k => { k with stamps := Store.mapVals k.stamps fun _ x =>
    if x.tid == tid then { x with closed := x.joined, abort := true } else x }

/-- The first of two fatal faults of a launch (R42): by the period in which it was reported, then by team and group number. -/
def FatalSummary.firstOf (a : FatalSummary) : Option FatalSummary → FatalSummary
  | none => a
  | some b => if lexLe [Int.ofNat a.period, Int.ofNat a.team, Int.ofNat a.group] [Int.ofNat b.period, Int.ofNat b.team, Int.ofNat b.group] then a else b

/-- Abort a launch (R42): its teams stop, none of the others is placed, nor one that a save has taken from its core (R283), dependents are cancelled
(R275). -/
def State.abortLaunch (s : State) (part launch : Nat) (f : FatalSummary) : State :=
  match Store.find (s.part part).disp.launches launch with
  | none => s
  | some e =>
    if e.phase = .aborted then s
    else
      let s1 := s.modDisp part fun d =>
        { (d.dropGangs fun g => g.launch == launch) with launches := Store.put d.launches launch { e with phase := .aborted, fatal := some (f.firstOf e.fatal) } }
      let tids := (s.teams.filter fun kv => kv.2.id.part == part && kv.2.id.launch == launch).map (·.1)
      let s2 := tids.foldl (fun s t => s.abortTeam t) s1
      let s3 := { s2 with clusters := s2.clusters.filter fun kv => kv.1 / 2 ^ 24 != part * 256 + launch }.modVdev e.vdev fun v =>
        { v with saved := { v.saved with teams := v.saved.teams.filter fun t => t.team.id.launch != launch } }
      s3.cancelDependents part e.vdev (pkCompBmp e.packet)

/-- A fatal fault of a launch is reported (R42): the launch aborts when the period of 2.4 GHz is over, so that the faults of it are compared. -/
def State.reportFatal (s : State) (part launch : Nat) (f : FatalSummary) : State :=
  s.modDisp part fun d => match Store.find d.launches launch with
    | none => d
    | some e => if e.phase = .aborted then d
      else { d with launches := Store.put d.launches launch { e with phase := .faulted, fatal := some (f.firstOf e.fatal) } }

/-- The launches of a device that a fatal fault has stopped and that have not aborted, with the first fault of each (R42). -/
def State.faultedLaunches (s : State) (part vdev : Nat) : List (Nat × FatalSummary) :=
  (s.part part).disp.launches.filterMap fun e => match e.2.phase, e.2.fatal with
    | .faulted, some f => if e.2.vdev = vdev then some (e.1, f) else none
    | _, _ => none

/-- A group withdraws the request that it has queued for extended blocks (R93, R97). -/
def State.withdrawXacq (s : State) (gid : Nat) : State :=
  s.modBench (gid / 8) fun b => { b with acq := b.acq.filter fun r => r.gid != gid }

/-! ### Taking a fault (R313 to R320) -/

/-- A fault that a group takes: what its record holds beside the group's own identity. `serial` names the long-latency operation
whose lanes a park leaves unfinished (R87); `hyper` keeps a second-stage miss out of the device's fault queue (R336). -/
structure Trap where
  code : FaultCode
  pc : VA
  resume : VA
  slot : Nat
  mask : Mask
  aux1 : Word := 0
  aux2 : Word := 0
  addr : Nat := 0
  hyper : Bool := false
  quiet : Bool := false
  serial : Option Nat := none
  /-- the class of which the fault clears f_k (R295) -/
  clears : Option Nat := none
  /-- the debugger's stop policy says what else stops (R129, R409) -/
  spread : Bool := false
  /-- where the error of an UNCORRECTABLE lies, the issuing core when it names none; and whether it was detected before it is reported (R218) -/
  sites : List ErrorSite := []
  noted : Bool := false
  deriving DecidableEq, Repr

/-- What holds an instruction of an engine class at issue: a full counter or queue, else the order of the group's accesses. -/
def waitFor (full : Bool) (cls : Nat) (ops : List Nat) : Wait := if full then .full cls else .order ops

/-- The operations of a group that have neither completed nor reported: a stop of the group comes when they have (R314, R316). -/
def Group.openOps (g : Group) : List Nat := (g.ops.filter fun o => !o.done && !o.reported).map (·.serial)

/-- A stop ends the open windows of its group: the instruction after it waits for their operations (R316). -/
def Group.closeWindows (g : Group) : Group := { g with ops := g.ops.map fun o => { o with window := 0 } }

/-- A stall at issue: the instruction is offered again from the next clk, and the group waits no longer when it can issue (R284). -/
def Wait.atIssue : Wait → Bool
  | .stall | .lease | .lock _ | .order _ | .full _ => true
  | _ => false

/-- The wait of a group that parks (R36, R38): what it waits for beside the replay stays, and a stall at issue is tried again after it. -/
def Wait.parked (w : Wait) : Wait := match w with
  | .waitc _ _ _ => .none
  | w => if w.atIssue then .none else w

/-- Stop a group (R316, R317): its stop state names the fault record. -/
def State.stopGroup (s : State) (gid : Nat) (t : Trap) (idx : Nat) : State :=
  (s.modGroup gid Group.closeWindows).modStops gid fun x => { x with stop := some ⟨t.code, idx, t.resume, t.slot⟩, wait := .none, stepOne := false }

/-- A group that waits at an XACQ gives up its request, and will issue the XACQ again (R97, R409). -/
def State.leaveXacq (s : State) (gid : Nat) : State :=
  match Store.find s.groups gid with
  | none => s
  | some g => if g.stops.wait = .xacq then (s.withdrawXacq gid).modStops gid fun x => { x with wait := .reacquire } else s

/-- Whether an operation that is not done has a fault to report, or may still find one. -/
def LongOp.faultable (o : LongOp) : Bool := o.failure.isSome || (match o.kind with
  | .mcst | .copy | .coll | .launch | .pref _ | .sigwait => false
  | _ => true)

/-- Whether a group has an access open of which the fault would still be reported: its records are in its program order (R314). A SIGWAIT that has not
been satisfied is not waited for (DEDUCED, log 25). -/
def Group.settling (g : Group) : Bool := g.ops.any fun o => !o.done && !o.reported && o.faultable

/-- The debugger stops a group (R316, R409): its record names the PC at which a slot will go on, and what it waits for stays; a queued request for
extended blocks is withdrawn, since the group goes on at its XACQ (DEDUCED, log 30). -/
def State.debugStopAt (s : State) (gid n : Nat) : State :=
  match Store.find s.groups gid with
  | none => s
  | some g =>
    match Store.find s.teams g.tid with
    | none => s
    | some tm =>
      let sl := g.flow.slot n
      let r : FaultRecord :=
        { kind := 4, code := FaultCode.breakpoint.code, team := tm.id.number, group := g.number, slot := n, cls := 0, mask := sl.mask,
          pc := sl.pc, resume := sl.pc, aux1 := 0, aux2 := 0, addr := 0, time := s.now }
      let (s1, idx) := s.enterRecord tm.id.part tm.id.vdev gid r
      (((s1.leaveXacq gid).modGroup gid Group.closeWindows).modStops gid fun x =>
        { x with stop := some ⟨.breakpoint, idx, sl.pc, n⟩, stepOne := false, stopNext := none }).hitTrigger tm.id.vdev gid 1 FaultCode.breakpoint.code

/-- The debugger stops a group where it stands (R409), when what it has open has completed. -/
def State.debugStop (s : State) (gid : Nat) : State :=
  match Store.find s.groups gid with
  | none => s
  | some g =>
    let n := if (g.flow.slot (1 - g.flow.last)).live then 1 - g.flow.last else g.flow.last
    if g.flow.exited || g.stops.stop.isSome then s
    else if g.settling then s.modStops gid fun x => { x with stopNext := some n }
    else s.debugStopAt gid n

/-- Stop what a stop policy names (R409): 0 a group, 1 its team, 2 the device, by its halt flag (R311). -/
def State.stopUnder (s : State) (policy vdev tid : Nat) (gid : Option Nat) : State :=
  match policy with
  | 0 => match gid with
    | some g => s.debugStop g
    | none => s
  | 1 => (s.groupsOf tid).foldl (fun (s : State) (kv : Nat × Group) => s.debugStop kv.1) s
  | _ => s.modCtx vdev fun c => { c with halted := true }

/-- An access has parked at a frame that has not been pulled: it is pulled before the others (R356, R357). -/
def State.touchPull (s : State) (part vdev va : Nat) : State :=
  match (s.locate part vdev (va % 2 ^ 56) .read).2 with
  | .error (.unpulled f) => s.modVdev vdev fun v => { v with mig := { v.mig with touched := v.mig.touched ++ [f] } }
  | _ => s

/-- Take a fault at a group: the one way in which every fault of an instruction is reported. The record enters the fault queue
(R314); a fatal fault writes a summary to the event log and is reported for its launch, which aborts, or under DUMPHOLD halts the device (R42, R311);
a page fault parks the group with its unfinished lanes (R318); a serviced or a debugger stop holds it (R317). -/
def State.takeFault (s : State) (gid : Nat) (t : Trap) : State :=
  match Store.find s.groups gid with
  | none => s
  | some g =>
    match Store.find s.teams g.tid with
    | none => s
    | some tm =>
      let vdev := tm.id.vdev
      let part := tm.id.part
      let ctx := ((Store.find s.vdevs vdev).map (·.ctx)).getD {}
      let kind := kindOf ctx.trapsvc t.code
      let rec' : FaultRecord :=
        { kind := kind.code, code := t.code.code, team := tm.id.number, group := g.number, slot := t.slot, cls := 0, mask := t.mask,
          pc := t.pc, resume := t.resume, aux1 := t.aux1, aux2 := t.aux2, addr := t.addr, time := s.now }
      let s0 := match t.clears with
        | some k => s.modEng gid fun e => { e with f := Store.erase e.f k }
        | none => s
      let (s1', idx) := if t.hyper || t.quiet then (s0, 0) else s0.enterRecord part vdev gid rec'
      let sites := if t.code ≠ .uncorrectable || t.noted then [] else if t.sites.isEmpty then [.core (coreOf gid)] else t.sites
      let s1 := (sites.foldl (fun s x => s.detect x) s1').hitTrigger vdev gid 1 t.code.code
      match kind with
      | .replayable => (if t.hyper then s1.touchPull part vdev t.addr else s1).modStops gid fun x =>
        { x with
          parked := some (match x.parked with
            | some p => { p with unfinished := if p.answered then t.aux1 else p.unfinished ||| t.aux1, answered := false, hyper := p.hyper || t.hyper }
            | none => { unfinished := t.aux1, serial := t.serial, slot := t.slot, hyper := t.hyper })
          wait := x.wait.parked }
      | .serviced | .engine => s1.stopGroup gid t idx
      | .debugger =>
        let s2 := s1.stopGroup gid t idx
        match t.spread, (Store.find s.vdevs vdev).bind (·.debugger) with
        | true, some d => s2.stopUnder d.policy vdev g.tid none
        | _, _ => s2
      | .fatal =>
        let sum : FatalSummary := ⟨t.code.code, tm.id.number, g.number, t.pc, t.mask, s.now, s.mod.tick / 35⟩
        let quad := quadOfCore (coreOf gid)
        let ev (ty : Nat) : EventRecord :=
          { type := ty, quad := quad, vdev := vdev, code := t.code.code, time := s.now, team := tm.id.number, group := g.number, pc := t.pc }
        let s2 := s1.logEvent part (ev 6)
        let s3 := if t.code = .waitTimeout then s2.logEvent part (ev 7) else s2
        ((s3.stopGroup gid t idx).withdrawXacq gid).reportFatal part tm.id.launch sum

/-! ### Wait times (R311, R321) -/

/-- A wait begins at a tick: its time is 0, but that of a wait which a save has cut short goes on (R97, R321). -/
def Stops.waitBegins (x : Stops) (w : Wait) (tick : Nat) : Stops :=
  if x.wait = .reacquire ∨ x.carried then { x with wait := w } else { x with wait := w, waitUs := 0, waitFrom := tick }

/-- A wait ends; a stall at issue that is none of R36 or R321 leaves the time of a carried wait. -/
def Stops.waitOver (x : Stops) : Stops := { x with wait := .none, waitUs := if x.carried then x.waitUs else 0 }

/-! ### The issue of an instruction -/

/-- What an instruction knows of its issue: the group, its team and core, the slot with its PC and mask, active(g) (R74), the clk,
and the clk at which its result is available (R80, R101). -/
structure Issue where
  gid : Nat
  tid : Nat
  core : Nat
  slot : Nat
  pc : VA
  mask : Mask
  act : Mask
  clk : Nat
  ready : Nat
  deriving DecidableEq, Repr

/-- What a meaning answers: the next state, a fault at this instruction, or a wait at issue with no effect. -/
inductive Res where
  | done (s : State)
  | trap (t : Trap)
  /-- it issues, and stops its group (R128, R129) -/
  | stop (s : State) (t : Trap)
  | wait (w : Wait)
  /-- a wait at issue of an instruction that has had a part of its effect (R394) -/
  | hold (f : State → State) (w : Wait)

/-- The trap of a precise fault at the issuing instruction (R316): it resumes there, or after it where R317 says so. -/
def Issue.trap (x : Issue) (c : FaultCode) : Trap :=
  { code := c, pc := x.pc, resume := match c with
      | .checkFail | .softwareTrap | .breakpoint => x.pc + 4
      | _ => x.pc, slot := x.slot, mask := x.mask }

/-- The trap of a precise access of an instruction that fails (R213, R218, R314, R318), at a virtual address; none while it must wait. -/
def Issue.failTrap (x : Issue) (addr : Nat) : AccessFail → Option Trap
  | .page h => some { x.trap .pageFault with aux1 := x.mask, addr := addr, hyper := h }
  | .unpulled _ => some { x.trap .pageFault with aux1 := x.mask, addr := addr, hyper := true }
  | .fault c => some { x.trap c with addr := addr }
  | .lost site => some { x.trap .uncorrectable with addr := addr, sites := [site] }
  | .wait => none

/-- What an instruction answers when a precise access of it fails: the trap, or a stall, on a locked line where the access waits for one (R235). -/
def Issue.failed (x : Issue) (addr : Nat) (f : AccessFail) (locked : Option Nat := none) (w : Wait := .stall) : Res := match x.failTrap addr f with
  | some t => .trap t
  | none => .wait ((locked.map Wait.lock).getD w)

/-- The algebra slot that gmode.ALG names on a core (R197). -/
def Core.algebra (c : Core) (n : Nat) : Option AlgebraSlot := Store.find c.arr.alg n
/-- The dimension of an algebra image (R179). -/
def AlgebraSlot.dim (a : AlgebraSlot) : Nat := (a.image.getD 0 0).toNat
/-- The dimension that an instruction's footprints use; a slot that is invalid is taken as one component, so that its own fault is
reported (R180, DEDUCED, log 17). -/
def dimOf (c : Core) (g : BitVec 32) : Nat := ((c.algebra (algSlot g)).map (·.dim)).getD 1

/-- The conflict degree of some byte accesses (R84): words by bank. -/
def degreeOf (words : List Nat) : Nat :=
  let ws := distinct words
  max 1 ((upTo 32).foldl (fun acc b => max acc (ws.filter fun w => w % 32 == b).length) 0)

/-- The stash a stash offset word names, as PEER, and its effective offset (R248). -/
def offsetWord (w : Word) (off : Int) : Nat × Int := ((w.extractLsb' 28 4).toNat, ((w.extractLsb' 0 21).toNat : Int) + off)

/-- The offset words of the active lanes of a stash access, with its access size. -/
def stashWords (r : Regs) (act : Mask) (a z : Nat) (off : Int) : List (Nat × Nat) :=
  (lanesIn act).flatMap fun l =>
    let (p, e) := offsetWord ((r.vec a).at l) off
    (upTo ((z + 3) / 4)).map fun k => (p, e.toNat / 4 + k)

/-- The conflict degree over several stashes: the largest in one of them (R253). -/
def degreePeers (ws : List (Nat × Nat)) : Nat :=
  ((distinct (ws.map (·.1))).map fun p => degreeOf ((ws.filter fun w => w.1 == p).map (·.2))).foldl max 1

/-- Signed access offset in bytes (R70). -/
def offBytes (f : BitVec 4) (n : Nat) : Int := f.toInt * (n : Int)

/-- The words that a short-latency stash access touches, by PEER (R84). -/
def stashTouches (r : Regs) (act : Mask) : Instr → List (Nat × Nat)
  | .lds _ a z f | .sts _ a z f => stashWords r act a.toNat (sizeBytes z) (offBytes f (sizeBytes z))
  | .atoms _ a z _ => stashWords r act a.toNat (sizeBytes z) 0
  | .sigadd a _ => let (p, e) := offsetWord (r.sc a.toNat) 0; [(p, e.toNat / 4)]
  | _ => []

/-- The words that an instruction of a team touches, each stash under one number: the team's own is named by PEER 0 and by its rank (R248). -/
def State.touches (s : State) (tid : Nat) (r : Regs) (act : Mask) (i : Instr) : List (Nat × Nat) :=
  let own := ((Store.find s.teams tid).map (·.id.rank)).getD 0 + 1
  (stashTouches r act i).map fun w => (if w.1 = own then 0 else w.1, w.2)

/-- The clks that an access to the stash of a team adds: 4 for each hop, and what a spare adds to the route (R12, R253, R293). -/
def State.farClks (s : State) (tid dest : Nat) : Nat := 4 * hops (tid / 16) (dest / 16) + s.routeClks (tid / 16) (dest / 16)

/-- The clks that peers add, 4 for each hop to the farthest (R253, R294). -/
def State.peerClks (s : State) (tid : Nat) (ws : List (Nat × Nat)) : Nat :=
  match Store.find s.teams tid with
  | none => 0
  | some t => (ws.map fun w =>
      if w.1 = 0 then 0 else match s.peerTeam t.id (w.1 - 1) with
        | some u => s.farClks tid u.1
        | none => 0).foldl max 0

/-- Array clks of a stream (R192): the format, the plane count and the rows of a jig. -/
def Jig.rowsBusy (j : Jig) : Nat :=
  let n := j.rows + 1
  if j.fmt = 3 then 6 * n
  else if j.fmt = 2 then (if 5 ≤ j.planes then 2 * n else if 3 ≤ j.planes then n else (n + 1) / 2)
  else n

/-- The rows of R81 for an MMA or MMAR. -/
def mmaRows (t : Option Team) (clk : Nat) : Instr → Nat
  | .mma _ a _ _ | .mmar _ a _ _ => match t with
    | some t => ((t.mem.jigAt clk a.toNat).map Jig.rowsBusy).getD 1
    | none => 1
  | _ => 1

/-- Whether the die sensor of a core reads above 75 degrees (R83). -/
def State.hot (s : State) (core : Nat) : Bool :=
  let pos := ((s.die (dieOfCore core)).map.getD (core % 24) none).getD 0
  decide (75 < Store.get 55 s.wear.sensors.temp (dieOfCore core * 26 + pos))

/-- Latency and occupancy of an instruction at its issue, with the bank and refresh clks (R81 to R84), and those clks alone. An FCVT takes the
figures of f64 when either of its types is f64 (R159). -/
def State.costOf (s : State) (core : Nat) (g : Group) (act : Mask) (i : Instr) : Nat × Nat × Nat :=
  let c := s.core core
  let t := elemType g.regs.gmode
  let dim := dimOf c g.regs.gmode
  let ws := s.touches g.tid g.regs act i
  let f64 := t == .f64 || (match i with
    | .fcvt _ _ u => u == .f64
    | _ => false)
  let (lat, occ) := latencyOf { f64 := f64, dim := dim, degree := degreePeers ws, rows := mmaRows (Store.find s.teams g.tid) c.clk i } i
  let add := bankCost g.regs.gmode dim i + refreshSlip g.regs.gmode dim i c.clk (s.hot core)
  (lat + add + s.peerClks g.tid ws, occ + add, add)

/-- The group and slot that issue, with what the instruction knows (R26). -/
def State.issuing (s : State) (i : Instr) : Option (Issue × Group) :=
  match s.sched.issuer with
  | none => none
  | some (gid, slot) =>
    match Store.find s.groups gid with
    | none => none
    | some g =>
      let sl := g.flow.slot slot
      let core := coreOf gid
      let act := g.regs.active sl.mask
      let clk := (s.core core).clk
      some ({ gid := gid, tid := g.tid, core := core, slot := slot, pc := sl.pc, mask := sl.mask, act := act, clk := clk,
              ready := clk + (s.costOf core g act i).1 }, g)

/-- A vector operand names an extended register that the group does not hold (R96). -/
def beyondHeld (ext : Nat) (o : Opnd) : Bool :=
  o.cls == .V && decide (o.first < 120) && decide (32 + 8 * ext < o.first + o.count)

/-- A brine operand cannot be read at a clk (R102, R119, R199): it is 48 clk old, or a lane that is read is not valid. The clk is the one at which the
instruction issues; the clks that R82 and R83 add come after it, in its occupancy and latency (DEDUCED, log 45). -/
def brineStale (r : Regs) (mask act : Mask) (clk : Nat) (o : Opnd) : Bool :=
  o.cls == .V && o.read != .none && decide (120 ≤ o.first) &&
  (upTo o.count).any fun k =>
    let n := o.first + k - 120
    let need : Mask := match o.read with
      | .active => act
      | .slot => mask
      | .all => BitVec.allOnes 32
      | .named | .none => 0
    decide (Store.get 0 r.eClk n + 48 ≤ clk) || (need &&& ~~~Store.get 0 r.eValid n) != 0

/-- Whether an instruction that reads some resources reads a word of the register files (R107): every issue reads the control state, and a
read of a V-class register reads all its lanes (DESIGN CHOICE, log 43). -/
def RegWord.readBy (reads : List Nat) : RegWord → Bool
  | .vec n _ => reads.contains (resourceOf .V n)
  | .sc n => reads.contains (resourceOf .S n)
  | .pred n => reads.contains (resourceOf .P n)
  | .control => true

/-- Rows 2 to 5 of R78 that every instruction shares, after recipe mode's own check (R323); last, the double-bit error of a register that
it reads (R107). -/
def precheck (s : State) (x : Issue) (g : Group) (i : Instr) : Option FaultCode :=
  let dim := dimOf (s.core x.core) g.regs.gmode
  let os := operands g.regs.gmode dim i
  if g.flow.recipe.isSome && !recipeAllows i then some .illegalOpcode
  else if isPrivileged i && g.flow.fw.isNone then some .privileged
  else if !row3 g.regs.gmode dim i then some .illegalOperand
  else if g.ops.any fun l => decide (0 < l.window) && l.regs.any fun a => (spansOf g.regs.gmode dim i).any a.overlaps then some .lookaheadHazard
  else if os.any (beyondHeld g.regs.ext) then some .extensionFault
  else if os.any (brineStale g.regs x.mask x.act x.clk) then some .ephemeralExpired
  else if g.regs.upset.any (RegWord.readBy (readsOf g.regs.gmode dim i)) then some .uncorrectable
  else none

/-- An operation that the group's fences and releases wait for: an access of its own, not one of an engine (R239). -/
def LongOp.isAccess (o : LongOp) : Bool := match o.kind with
  | .mcst | .copy | .coll | .launch | .pref _ => false
  | _ => true

/-- An operation of which nothing is left: it is done, its window has ended, and a multicast has reached every destination. -/
def LongOp.over (o : LongOp) : Bool := o.done && o.window == 0 && !(o.kind == .mcst && o.destMask != 0)

/-- The windows that are open count the instruction (R85); an operation that is over is forgotten. -/
def State.openIssue (s : State) (x : Issue) : State :=
  s.modOps x.gid fun l => (l.map fun o => { o with window := o.window - 1 }).filter fun o => !o.over

/-- Put the ready clk of several resources on a scoreboard (R80): a later write of a register is the one that stays, and of stash accesses
under way the last to complete. -/
def boardPut (b : Store Nat) (rs : List Nat) (clk : Nat) : Store Nat :=
  rs.foldl (fun b r => Store.put b r (if r = 205 then max clk (Store.get 0 b r) else clk)) b

/-- The number of a unit of a bench. -/
def unitNo (i : Instr) : Nat := match unitOf i with
  | .scalar => 0 | .vecInt => 1 | .float => 2 | .special => 3 | .lane => 4 | .memory => 5 | .engine => 6 | .arrayPort => 7 | .arrayControl => 8

/-- The bench and the group after an issue: the unit is busy, the scoreboard holds the results, the group's alternation, guard and
waits are those of a group that has just issued (R26, R80, R285, R430). -/
def State.commitTiming (s : State) (x : Issue) (g : Group) (i : Instr) : State :=
  let (_, occ, _) := s.costOf x.core g x.act i
  let s1 := s.modGroup x.gid fun y =>
    { y with
      time := { y.time with board := boardPut y.time.board (writesOf g.regs.gmode (dimOf (s.core x.core) g.regs.gmode) i) x.ready,
                            nextClk := max y.time.nextClk (x.clk + 1), guarded := false, readySince := x.clk + 1 }
      flow := { y.flow with last := x.slot }
      stops := match y.stops.wait with
        | .waitc _ _ _ | .reacquire => y.stops.waitOver
        | w => if w.atIssue then y.stops.waitOver else y.stops
      issued := y.issued + 1 }
  let s2 := s1.modBench (x.gid / 8) fun b =>
    { b with busy := Store.put b.busy (unitNo i) (x.clk + occ), lastIssue := some x.clk, lastUnit := unitNo i }
  s2.modCore x.core fun c => if c.lastActive = x.clk + 1 then c else { c with lastActive := x.clk + 1, activeClk := c.activeClk + 1 }

/-- The counters of an issue (R390), the sample count (R409) and a PC trigger (R409). -/
def State.commitCounters (s : State) (x : Issue) (g : Group) (i : Instr) : State :=
  match Store.find s.teams x.tid with
  | none => s
  | some t =>
    let q := quadOfCore x.core
    let (_, _, add) := s.costOf x.core g x.act i
    let s1 := s.count q t.id.vdev 0x000 1
    let s2 := if (s.core x.core).lastActive = x.clk + 1 then s1 else s1.count q t.id.vdev 0x001 1
    let s3 := if add = 0 then s2 else s2.count q t.id.vdev 0x003 add
    let deg := degreePeers (s.touches x.tid g.regs x.act i)
    let s4 := if deg ≤ 1 then s3 else s3.count q t.id.vdev 0x004 (deg - 1)
    let s5 := match (s4.part t.id.part).sampling with
      | none => s4
      | some sm =>
        if sm.vdev = t.id.vdev ∧ (sm.team = 0xFFFFFFFF ∨ sm.team = t.id.number) ∧ (sm.group = 0xFF ∨ sm.group = g.number) ∧
            sm.low ≤ x.pc.toNat ∧ x.pc.toNat ≤ sm.high then
          let due := (sm.issues + 1) % 2 ^ sm.rate = 0
          let r : FaultRecord :=
            { kind := 0, code := 0, team := t.id.number, group := g.number, slot := x.slot, cls := 0, mask := x.mask, pc := x.pc, resume := x.pc,
              aux1 := 0, aux2 := 0, addr := 0, time := s.now }
          let s5 := s4.modPart t.id.part fun p => { p with sampling := some { sm with issues := sm.issues + 1, sampled := if due then some (x.gid, r) else sm.sampled } }
          if due then { s5 with sched := { s5.sched with agenda := s5.sched.agenda ++ [Instr.sample x.gid] } } else s5
        else s4
    s5.hitTrigger t.id.vdev x.gid 0 x.pc.toNat

/-- Move the issuing slot past an instruction that does not branch (R68). -/
def State.advance (s : State) (x : Issue) (i : Instr) : State :=
  s.modFlow x.gid fun f =>
    let sl := f.slot x.slot
    f.setSlot x.slot { sl with pc := sl.pc + BitVec.ofNat 56 i.size, readyAt := x.clk + 1 }

/-- A debugger's step is over after one instruction (R409): the group stops with BREAKPOINT at its next PC, when that instruction has completed; that
of an XACQ is over with its grant. -/
def State.endStep (s : State) (x : Issue) (g : Group) : State :=
  if !g.stops.stepOne then s
  else match Store.find s.groups x.gid with
    | none => s
    | some h =>
      let n := if (h.flow.slot x.slot).live then x.slot else 1 - x.slot
      if h.flow.exited then s
      else if h.settling || h.stops.wait == .xacq then s.modStops x.gid fun y => { y with stepOne := false, stopNext := some n }
      else s.debugStopAt x.gid n

/-- A register word that an instruction reads has an error in a single bit, which the read corrects and counts (R107); the word is good
again (DESIGN CHOICE, log 43). -/
def State.correctReads (s : State) (x : Issue) (g : Group) (i : Instr) : State :=
  let reads := RegWord.readBy (readsOf g.regs.gmode (dimOf (s.core x.core) g.regs.gmode) i)
  let found := (g.regs.soft.filter reads).length
  if found = 0 then s
  else
    let vdev := ((Store.find s.teams x.tid).map (·.id.vdev)).getD 0
    let s1 := s.modRegs x.gid fun r => { r with soft := r.soft.filter fun b => !reads b }
    (upTo found).foldl (fun s _ => s.corrected (quadOfCore x.core) vdev 0x202 ((s.unitOfCore x.core).getD 0xFFFFFFFF) 0) s1

/-- What every instruction that issues leaves: it is counted, its bench and scoreboard hold its time, and what it read is corrected. -/
def State.commitIssue (s : State) (x : Issue) (g : Group) (i : Instr) : State :=
  ((s.correctReads x g i).commitCounters x g i).commitTiming x g i

/-- What every instruction that completes at its issue leaves beside its own effect. -/
def State.commit (s : State) (x : Issue) (g : Group) (i : Instr) : State := (s.commitIssue x g i).endStep x g

/-- A wait at issue: the instruction has no effect and is offered again from the next clk (R36, R284). -/
def State.stall (s : State) (x : Issue) (w : Wait) : State :=
  s.modGroup x.gid fun y =>
    { y with
      time := { y.time with nextClk := x.clk + 1, guarded := false, readySince := x.clk + 1 }
      stops := if y.stops.wait = w then y.stops else y.stops.waitBegins w s.mod.tick }

/-- A stop at an instruction (R316): it comes when every operation of the group has completed or has reported a fault of its own, so that the records
of the group enter in its program order (R314); until then the instruction waits (DEDUCED, log 25). -/
def State.stopWhenDone (s : State) (x : Issue) (g : Group) (stop : State) : State :=
  match g.openOps with
  | [] => stop
  | os => s.stall x (.order os)

/-- Issue an instruction of which the meaning moves the slots itself. -/
def issueFlow (s : State) (i : Instr) (body : State → Issue → Group → Res) : Host.Outcome State Fault Refusal :=
  match s.issuing i with
  | none => .fault .noIssuer
  | some (x, g) =>
    match precheck s x g i with
    | some c => .next (s.stopWhenDone x g (s.takeFault x.gid (x.trap c)))
    | none =>
      match body (s.openIssue x) x g with
      | .trap t => .next (s.stopWhenDone x g (s.takeFault x.gid t))
      | .stop s' t => .next (s.stopWhenDone x g ((s'.commitIssue x g i).takeFault x.gid t))
      | .wait w => .next (s.stall x w)
      | .hold f w => .next ((f s).stall x w)
      | .done s' => .next (s'.commit x g i)

/-- Issue an instruction that does not branch: the slot moves to the next instruction (R68). -/
def issue (s : State) (i : Instr) (body : State → Issue → Group → Res) : Host.Outcome State Fault Refusal :=
  issueFlow s i fun s x g => match body s x g with
    | .done s' => .done (s'.advance x i)
    | r => r

/-- Issue an instruction whose whole effect is on its group's registers. -/
def issueRegs (s : State) (i : Instr) (f : Issue → Regs → Except FaultCode Regs) : Host.Outcome State Fault Refusal :=
  issue s i fun s x g => match f x g.regs with
    | .ok r => .done (s.modRegs x.gid fun _ => r)
    | .error c => .trap (x.trap c)

end Sys2Proof.Machine
end

