-- ==== Sys2Proof/Machine/VecInt.lean ====
section
/-! DEFINITION. The vector integer instructions (R132, R143 to R151). -/

namespace Sys2Proof.Machine

/-- How an element type is read: its width and its sign (R44, R132). -/
structure IntShape where
  width : Nat
  sgn : Bool
  deriving DecidableEq, Repr

/-- The shape of an integer element type; the floating types have the shape of their words. -/
def intShape : ElemType → IntShape
  | .i32 => ⟨32, true⟩
  | .n32 | .f32 | .f64 => ⟨32, false⟩
  | .i16x2 => ⟨16, true⟩
  | .n16x2 | .h16x2 | .b16x2 => ⟨16, false⟩
  | .i8x4 => ⟨8, true⟩
  | .n8x4 => ⟨8, false⟩

/-- Element k of a word, as its unsigned pattern (R45). -/
def elemAt (w : Nat) (x : Word) (k : Nat) : Nat := x.toNat / 2 ^ (w * k) % 2 ^ w

/-- The word of some elements of `w` bits, the lowest first (R45). -/
def packElems (w : Nat) : List Nat → Nat
  | [] => 0
  | e :: rest => e % 2 ^ w + 2 ^ w * packElems w rest

/-- A word whose elements are computed one by one. -/
def elemsBy (w : Nat) (f : Nat → Nat) : Word := BitVec.ofNat 32 (packElems w ((upTo (32 / w)).map f))

/-- The exact result of an operation on two elements, and whether it saturates under SAT (R132). -/
structure OpResult where
  z : Int
  saturates : Bool

/-- The result element: saturated or wrapped (R46, R132). -/
def OpResult.narrow (h : IntShape) (sat : Bool) (o : OpResult) : Nat :=
  if sat && o.saturates then Num.wrapNat h.width (Num.satInt h.sgn h.width o.z) else Num.wrapNat h.width o.z

/-- An operation on the elements of two words under TYPE and SAT (R132). -/
def onElems (t : ElemType) (sat : Bool) (f : IntShape → Int → Int → OpResult) (a b : Word) : Word :=
  let h := intShape t
  elemsBy h.width fun k =>
    (f h (Num.readInt h.sgn h.width (elemAt h.width a k)) (Num.readInt h.sgn h.width (elemAt h.width b k))).narrow h sat

/-- x + y. -/
def opAdd (_ : IntShape) (x y : Int) : OpResult := ⟨x + y, true⟩
/-- x - y. -/
def opSub (_ : IntShape) (x y : Int) : OpResult := ⟨x - y, true⟩
/-- x * y. -/
def opMul (_ : IntShape) (x y : Int) : OpResult := ⟨x * y, true⟩
/-- floor(x * y / 2^w). -/
def opMulh (h : IntShape) (x y : Int) : OpResult := ⟨x * y / 2 ^ h.width, false⟩
/-- The minimum. -/
def opMin (_ : IntShape) (x y : Int) : OpResult := ⟨min x y, false⟩
/-- The maximum. -/
def opMax (_ : IntShape) (x y : Int) : OpResult := ⟨max x y, false⟩
/-- |x|. -/
def opAbs (_ : IntShape) (x : Int) : OpResult := ⟨x.natAbs, true⟩
/-- -x. -/
def opNeg (_ : IntShape) (x : Int) : OpResult := ⟨-x, true⟩
/-- A bitwise operation on the patterns of two elements. -/
def opBits (f : Nat → Nat → Nat) (h : IntShape) (x y : Int) : OpResult := ⟨f (Num.wrapNat h.width x) (Num.wrapNat h.width y), false⟩
/-- x AND y. -/
def opAnd : IntShape → Int → Int → OpResult := opBits (· &&& ·)
/-- x OR y. -/
def opOr : IntShape → Int → Int → OpResult := opBits (· ||| ·)
/-- x XOR y. -/
def opXor : IntShape → Int → Int → OpResult := opBits (· ^^^ ·)
/-- NOT x. -/
def opNot (h : IntShape) (x : Int) : OpResult := ⟨2 ^ h.width - 1 - Num.wrapNat h.width x, false⟩
/-- x * 2^c. A count of w or more acts as w: the low w bits of the product are 0, and a nonzero x is out of range. -/
def shlBy (h : IntShape) (x : Int) (c : Nat) : OpResult := ⟨x * 2 ^ min c h.width, true⟩
/-- floor(x / 2^c); a count of w or more acts as w. -/
def shrBy (h : IntShape) (x : Int) (c : Nat) : OpResult := ⟨x / 2 ^ min c h.width, false⟩
/-- ISHL: the count is y read as an unsigned w-bit value. -/
def opShl (h : IntShape) (x y : Int) : OpResult := shlBy h x (Num.wrapNat h.width y)
/-- ISHR: the count is y read as an unsigned w-bit value. -/
def opShr (h : IntShape) (x y : Int) : OpResult := shrBy h x (Num.wrapNat h.width y)

/-- A word in every lane. -/
def broadcast (w : Word) : Lanes := lanesBy fun _ => w

/-- Write a V-class register in the active lanes (R27, R132). -/
def Regs.putVec (r : Regs) (x : Issue) (d : BitVec 7) (f : Nat → Word) : Regs := r.setVec x.act x.ready d.toNat (lanesBy f)

/-- A vector ALU operation under the TYPE and SAT of gmode (R132, R143). -/
def Regs.vecAlu (r : Regs) (x : Issue) (f : IntShape → Int → Int → OpResult) (d : BitVec 7) (a b : Lanes) : Regs :=
  r.putVec x d fun l => onElems (elemType r.gmode) (satOn r.gmode) f (a.at l) (b.at l)

/-- IADD (R143) with vector B. -/
def execIadd (d : BitVec 7) (a : BitVec 7) (b : BitVec 7) (s : State) : Host.Outcome State Fault Refusal :=
  issueRegs s (.iadd d a b) fun x r => .ok (r.vecAlu x opAdd d (r.vec a.toNat) (r.vec b.toNat))

/-- ISUB (R143) with vector B. -/
def execIsub (d : BitVec 7) (a : BitVec 7) (b : BitVec 7) (s : State) : Host.Outcome State Fault Refusal :=
  issueRegs s (.isub d a b) fun x r => .ok (r.vecAlu x opSub d (r.vec a.toNat) (r.vec b.toNat))

/-- IMUL (R143) with vector B. -/
def execImul (d : BitVec 7) (a : BitVec 7) (b : BitVec 7) (s : State) : Host.Outcome State Fault Refusal :=
  issueRegs s (.imul d a b) fun x r => .ok (r.vecAlu x opMul d (r.vec a.toNat) (r.vec b.toNat))

/-- IMULH (R143) with vector B. -/
def execImulh (d : BitVec 7) (a : BitVec 7) (b : BitVec 7) (s : State) : Host.Outcome State Fault Refusal :=
  issueRegs s (.imulh d a b) fun x r => .ok (r.vecAlu x opMulh d (r.vec a.toNat) (r.vec b.toNat))

/-- IMIN (R143) with vector B. -/
def execImin (d : BitVec 7) (a : BitVec 7) (b : BitVec 7) (s : State) : Host.Outcome State Fault Refusal :=
  issueRegs s (.imin d a b) fun x r => .ok (r.vecAlu x opMin d (r.vec a.toNat) (r.vec b.toNat))

/-- IMAX (R143) with vector B. -/
def execImax (d : BitVec 7) (a : BitVec 7) (b : BitVec 7) (s : State) : Host.Outcome State Fault Refusal :=
  issueRegs s (.imax d a b) fun x r => .ok (r.vecAlu x opMax d (r.vec a.toNat) (r.vec b.toNat))

/-- IAND (R143) with vector B. -/
def execIand (d : BitVec 7) (a : BitVec 7) (b : BitVec 7) (s : State) : Host.Outcome State Fault Refusal :=
  issueRegs s (.iand d a b) fun x r => .ok (r.vecAlu x opAnd d (r.vec a.toNat) (r.vec b.toNat))

/-- IOR (R143) with vector B. -/
def execIor (d : BitVec 7) (a : BitVec 7) (b : BitVec 7) (s : State) : Host.Outcome State Fault Refusal :=
  issueRegs s (.ior d a b) fun x r => .ok (r.vecAlu x opOr d (r.vec a.toNat) (r.vec b.toNat))

/-- IXOR (R143) with vector B. -/
def execIxor (d : BitVec 7) (a : BitVec 7) (b : BitVec 7) (s : State) : Host.Outcome State Fault Refusal :=
  issueRegs s (.ixor d a b) fun x r => .ok (r.vecAlu x opXor d (r.vec a.toNat) (r.vec b.toNat))

/-- ISHL (R143) with vector B. -/
def execIshl (d : BitVec 7) (a : BitVec 7) (b : BitVec 7) (s : State) : Host.Outcome State Fault Refusal :=
  issueRegs s (.ishl d a b) fun x r => .ok (r.vecAlu x opShl d (r.vec a.toNat) (r.vec b.toNat))

/-- ISHR (R143) with vector B. -/
def execIshr (d : BitVec 7) (a : BitVec 7) (b : BitVec 7) (s : State) : Host.Outcome State Fault Refusal :=
  issueRegs s (.ishr d a b) fun x r => .ok (r.vecAlu x opShr d (r.vec a.toNat) (r.vec b.toNat))

/-- IABS (R143). -/
def execIabs (d : BitVec 7) (a : BitVec 7) (s : State) : Host.Outcome State Fault Refusal :=
  issueRegs s (.iabs d a) fun x r => .ok (r.vecAlu x (fun h x _ => opAbs h x) d (r.vec a.toNat) zeroLanes)

/-- INEG (R143). -/
def execIneg (d : BitVec 7) (a : BitVec 7) (s : State) : Host.Outcome State Fault Refusal :=
  issueRegs s (.ineg d a) fun x r => .ok (r.vecAlu x (fun h x _ => opNeg h x) d (r.vec a.toNat) zeroLanes)

/-- INOT (R143). -/
def execInot (d : BitVec 7) (a : BitVec 7) (s : State) : Host.Outcome State Fault Refusal :=
  issueRegs s (.inot d a) fun x r => .ok (r.vecAlu x (fun h x _ => opNot h x) d (r.vec a.toNat) zeroLanes)

/-- IADD (R143) with scalar B, the same in every lane. -/
def execIaddScalarB (d : BitVec 7) (a : BitVec 7) (b : BitVec 7) (s : State) : Host.Outcome State Fault Refusal :=
  issueRegs s (.iaddScalarB d a b) fun x r => .ok (r.vecAlu x opAdd d (r.vec a.toNat) (broadcast (r.sc b.toNat)))

/-- ISUB (R143) with scalar B, the same in every lane. -/
def execIsubScalarB (d : BitVec 7) (a : BitVec 7) (b : BitVec 7) (s : State) : Host.Outcome State Fault Refusal :=
  issueRegs s (.isubScalarB d a b) fun x r => .ok (r.vecAlu x opSub d (r.vec a.toNat) (broadcast (r.sc b.toNat)))

/-- IMUL (R143) with scalar B, the same in every lane. -/
def execImulScalarB (d : BitVec 7) (a : BitVec 7) (b : BitVec 7) (s : State) : Host.Outcome State Fault Refusal :=
  issueRegs s (.imulScalarB d a b) fun x r => .ok (r.vecAlu x opMul d (r.vec a.toNat) (broadcast (r.sc b.toNat)))

/-- IMULH (R143) with scalar B, the same in every lane. -/
def execImulhScalarB (d : BitVec 7) (a : BitVec 7) (b : BitVec 7) (s : State) : Host.Outcome State Fault Refusal :=
  issueRegs s (.imulhScalarB d a b) fun x r => .ok (r.vecAlu x opMulh d (r.vec a.toNat) (broadcast (r.sc b.toNat)))

/-- IMIN (R143) with scalar B, the same in every lane. -/
def execIminScalarB (d : BitVec 7) (a : BitVec 7) (b : BitVec 7) (s : State) : Host.Outcome State Fault Refusal :=
  issueRegs s (.iminScalarB d a b) fun x r => .ok (r.vecAlu x opMin d (r.vec a.toNat) (broadcast (r.sc b.toNat)))

/-- IMAX (R143) with scalar B, the same in every lane. -/
def execImaxScalarB (d : BitVec 7) (a : BitVec 7) (b : BitVec 7) (s : State) : Host.Outcome State Fault Refusal :=
  issueRegs s (.imaxScalarB d a b) fun x r => .ok (r.vecAlu x opMax d (r.vec a.toNat) (broadcast (r.sc b.toNat)))

/-- IAND (R143) with scalar B, the same in every lane. -/
def execIandScalarB (d : BitVec 7) (a : BitVec 7) (b : BitVec 7) (s : State) : Host.Outcome State Fault Refusal :=
  issueRegs s (.iandScalarB d a b) fun x r => .ok (r.vecAlu x opAnd d (r.vec a.toNat) (broadcast (r.sc b.toNat)))

/-- IOR (R143) with scalar B, the same in every lane. -/
def execIorScalarB (d : BitVec 7) (a : BitVec 7) (b : BitVec 7) (s : State) : Host.Outcome State Fault Refusal :=
  issueRegs s (.iorScalarB d a b) fun x r => .ok (r.vecAlu x opOr d (r.vec a.toNat) (broadcast (r.sc b.toNat)))

/-- IXOR (R143) with scalar B, the same in every lane. -/
def execIxorScalarB (d : BitVec 7) (a : BitVec 7) (b : BitVec 7) (s : State) : Host.Outcome State Fault Refusal :=
  issueRegs s (.ixorScalarB d a b) fun x r => .ok (r.vecAlu x opXor d (r.vec a.toNat) (broadcast (r.sc b.toNat)))

/-- ISHL (R143) with scalar B, the same in every lane. -/
def execIshlScalarB (d : BitVec 7) (a : BitVec 7) (b : BitVec 7) (s : State) : Host.Outcome State Fault Refusal :=
  issueRegs s (.ishlScalarB d a b) fun x r => .ok (r.vecAlu x opShl d (r.vec a.toNat) (broadcast (r.sc b.toNat)))

/-- ISHR (R143) with scalar B, the same in every lane. -/
def execIshrScalarB (d : BitVec 7) (a : BitVec 7) (b : BitVec 7) (s : State) : Host.Outcome State Fault Refusal :=
  issueRegs s (.ishrScalarB d a b) fun x r => .ok (r.vecAlu x opShr d (r.vec a.toNat) (broadcast (r.sc b.toNat)))

/-- An element of x * y + d, saturated or wrapped once (R145). -/
def madElems (t : ElemType) (sat : Bool) (a b d : Word) : Word :=
  let h := intShape t
  let e (x : Word) (k : Nat) : Int := Num.readInt h.sgn h.width (elemAt h.width x k)
  elemsBy h.width fun k => OpResult.narrow h sat ⟨e a k * e b k + e d k, true⟩

/-- IMAD (R145). -/
def execImad (d a b : BitVec 7) (s : State) : Host.Outcome State Fault Refusal :=
  issueRegs s (.imad d a b) fun x r => .ok (r.putVec x d fun l =>
    madElems (elemType r.gmode) (satOn r.gmode) ((r.vec a.toNat).at l) ((r.vec b.toNat).at l) ((r.vec d.toNat).at l))

/-- The condition of ICMP on two values (R147). -/
def icmpHolds (c : IcmpCond) (x y : Int) : Bool :=
  match c with
  | .eq => decide (x = y)
  | .ne => decide (x ≠ y)
  | .lt => decide (x < y)
  | .le => decide (x ≤ y)
  | .gt => decide (y < x)
  | .ge => decide (y ≤ x)

/-- ICMP (R147): signedness from TYPE. -/
def execIcmp (d a b : BitVec 7) (c : IcmpCond) (s : State) : Host.Outcome State Fault Refusal :=
  issueRegs s (.icmp d a b c) fun x r =>
    let sgn := (intShape (elemType r.gmode)).sgn
    .ok (r.setPred x.act d.toNat (maskOf fun l =>
      icmpHolds c (Num.readInt sgn 32 ((r.vec a.toNat).at l).toNat) (Num.readInt sgn 32 ((r.vec b.toNat).at l).toNat)))

/-- ISEL (R148). -/
def execIsel (d a b : BitVec 7) (p : BitVec 3) (s : State) : Host.Outcome State Fault Refusal :=
  issueRegs s (.isel d a b p) fun x r => .ok (r.putVec x d fun l =>
    if (r.pred p.toNat).getLsbD l then (r.vec a.toNat).at l else (r.vec b.toNat).at l)

/-- The number of 1 bits of a word. -/
def popCount (x : Word) : Nat := ((upTo 32).filter fun i => x.getLsbD i).length
/-- The number of 0 bits above the highest 1 bit. -/
def clzCount (x : Word) : Nat := if x = 0 then 32 else 31 - Nat.log2 x.toNat
/-- The number of 0 bits below the lowest 1 bit. -/
def ctzCount (x : Word) : Nat := (leastOf ((upTo 32).filter fun i => x.getLsbD i)).getD 32
/-- The bits of a word in reverse. -/
def bitReverse (x : Word) : Word := maskOf fun i => x.getLsbD (31 - i)

/-- POPC (R149). -/
def execPopc (d a : BitVec 7) (s : State) : Host.Outcome State Fault Refusal :=
  issueRegs s (.popc d a) fun x r => .ok (r.putVec x d fun l => BitVec.ofNat 32 (popCount ((r.vec a.toNat).at l)))

/-- CLZ (R149). -/
def execClz (d a : BitVec 7) (s : State) : Host.Outcome State Fault Refusal :=
  issueRegs s (.clz d a) fun x r => .ok (r.putVec x d fun l => BitVec.ofNat 32 (clzCount ((r.vec a.toNat).at l)))

/-- CTZ (R149). -/
def execCtz (d a : BitVec 7) (s : State) : Host.Outcome State Fault Refusal :=
  issueRegs s (.ctz d a) fun x r => .ok (r.putVec x d fun l => BitVec.ofNat 32 (ctzCount ((r.vec a.toNat).at l)))

/-- BREV (R149). -/
def execBrev (d a : BitVec 7) (s : State) : Host.Outcome State Fault Refusal :=
  issueRegs s (.brev d a) fun x r => .ok (r.putVec x d fun l => bitReverse ((r.vec a.toNat).at l))

/-- The position and the length of a bit field (R150). -/
def fieldOf (b : Word) : Nat × Nat :=
  let pos := min (b.extractLsb' 0 8).toNat 32
  (pos, min (b.extractLsb' 8 8).toNat (32 - pos))

/-- The field that BFE extracts (R150). -/
def bitFieldExtract (sgn : Bool) (a b : Word) : Word :=
  let (pos, len) := fieldOf b
  let f := a.toNat / 2 ^ pos % 2 ^ len
  if len = 0 then 0 else BitVec.ofInt 32 (Num.readInt sgn len f)

/-- The word into which BFI inserts a field (R150). -/
def bitFieldInsert (d a b : Word) : Word :=
  let (pos, len) := fieldOf b
  let m : Word := BitVec.ofNat 32 ((2 ^ len - 1) * 2 ^ pos)
  (d &&& ~~~m) ||| ((a <<< pos) &&& m)

/-- BFE (R150). -/
def execBfe (d a b : BitVec 7) (sg : Bool) (s : State) : Host.Outcome State Fault Refusal :=
  issueRegs s (.bfe d a b sg) fun x r => .ok (r.putVec x d fun l => bitFieldExtract sg ((r.vec a.toNat).at l) ((r.vec b.toNat).at l))

/-- BFI (R150). -/
def execBfi (d a b : BitVec 7) (s : State) : Host.Outcome State Fault Refusal :=
  issueRegs s (.bfi d a b) fun x r => .ok (r.putVec x d fun l =>
    bitFieldInsert ((r.vec d.toNat).at l) ((r.vec a.toNat).at l) ((r.vec b.toNat).at l))

/-- LEA (R151): a + b * 2^X, wrapped. -/
def execLea (d a b : BitVec 7) (sh : BitVec 4) (s : State) : Host.Outcome State Fault Refusal :=
  issueRegs s (.lea d a b sh) fun x r => .ok (r.putVec x d fun l => (r.vec a.toNat).at l + (r.vec b.toNat).at l <<< sh.toNat)

/-- IADDI (R146): the immediate is not narrowed to the element. -/
def execIaddi (d a : BitVec 7) (i : BitVec 11) (s : State) : Host.Outcome State Fault Refusal :=
  issueRegs s (.iaddi d a i) fun x r => .ok (r.vecAlu x (fun _ e _ => ⟨e + i.toInt, true⟩) d (r.vec a.toNat) zeroLanes)

/-- ISHLI (R146). -/
def execIshli (d a : BitVec 7) (i : BitVec 11) (s : State) : Host.Outcome State Fault Refusal :=
  issueRegs s (.ishli d a i) fun x r => .ok (r.vecAlu x (fun h e _ => shlBy h e i.toNat) d (r.vec a.toNat) zeroLanes)

/-- ISHRI (R146). -/
def execIshri (d a : BitVec 7) (i : BitVec 11) (s : State) : Host.Outcome State Fault Refusal :=
  issueRegs s (.ishri d a i) fun x r => .ok (r.vecAlu x (fun h e _ => shrBy h e i.toNat) d (r.vec a.toNat) zeroLanes)

/-- VMOV (R151). -/
def execVmov (d a : BitVec 7) (s : State) : Host.Outcome State Fault Refusal :=
  issueRegs s (.vmov d a) fun x r => .ok (r.putVec x d fun l => (r.vec a.toNat).at l)

/-- VLI (R151). -/
def execVli (d : BitVec 7) (i : BitVec 18) (s : State) : Host.Outcome State Fault Refusal :=
  issueRegs s (.vli d i) fun x r => .ok (r.putVec x d fun _ => i.signExtend 32)

end Sys2Proof.Machine
end

