-- ==== Sys2Proof/Machine/VecFloat.lean ====
section
/-! DEFINITION. The vector float instructions (R152 to R161). -/

namespace Sys2Proof.Machine

open Sys2Proof

/-- The format of a floating element type; the integer types, which no floating instruction admits, have binary32. -/
def fmtOf : ElemType → Num.Fmt
  | .f64 => Num.b64
  | .h16x2 => Num.b16
  | .b16x2 => Num.bf16
  | _ => Num.b32

/-- The number of elements of a floating operand in a lane (R152). -/
def floatElems (t : ElemType) : Nat := if t = .h16x2 || t = .b16x2 then 2 else 1

/-- Element k of a V-class operand in a lane, under the TYPE of gmode (R44, R152). -/
def Regs.elemV (r : Regs) (n l k : Nat) : Nat :=
  match elemType r.gmode with
  | .f64 => (r.vec64 n l).toNat
  | .h16x2 | .b16x2 => elemAt 16 ((r.vec n).at l) k
  | _ => ((r.vec n).at l).toNat

/-- Element k of an S-class operand, the same in every lane (R152). -/
def Regs.elemS (r : Regs) (n _l k : Nat) : Nat :=
  match elemType r.gmode with
  | .f64 => (r.sc64 n).toNat
  | .h16x2 | .b16x2 => elemAt 16 (r.sc n) k
  | _ => (r.sc n).toNat

/-- Write the elements of a V-class operand in the active lanes (R152): a pair under f64. -/
def Regs.putElems (r : Regs) (x : Issue) (d : BitVec 7) (f : Nat → Nat → Nat) : Regs :=
  match elemType r.gmode with
  | .f64 => (r.setVec x.act x.ready d.toNat (lanesBy fun l => BitVec.ofNat 32 (f l 0))).setVec x.act x.ready (d.toNat + 1)
      (lanesBy fun l => BitVec.ofNat 32 (f l 0 / 2 ^ 32))
  | .h16x2 | .b16x2 => r.putVec x d fun l => elemsBy 16 (f l)
  | _ => r.putVec x d fun l => BitVec.ofNat 32 (f l 0)

/-- An operation on each element of A (R152). -/
def Regs.floatUn (r : Regs) (x : Issue) (f : Num.Fmt → Num.Ctl → Nat → Nat) (d a : BitVec 7) : Regs :=
  r.putElems x d fun l k => f (fmtOf (elemType r.gmode)) (floatCtl r.gmode) (r.elemV a.toNat l k)

/-- An operation on each element of A and of B (R152). -/
def Regs.floatBin (r : Regs) (x : Issue) (f : Num.Fmt → Num.Ctl → Nat → Nat → Nat) (d a : BitVec 7) (b : Nat → Nat → Nat) : Regs :=
  r.putElems x d fun l k => f (fmtOf (elemType r.gmode)) (floatCtl r.gmode) (r.elemV a.toNat l k) (b l k)

/-- The fused forms (R155). -/
def Regs.floatFma (r : Regs) (x : Issue) (negProd negAdd : Bool) (d a b : BitVec 7) : Regs :=
  r.putElems x d fun l k => Num.ffma (fmtOf (elemType r.gmode)) (floatCtl r.gmode) negProd negAdd
    (r.elemV a.toNat l k) (r.elemV b.toNat l k) (r.elemV d.toNat l k)

/-- x with the sign bit of y (R153). -/
def copySign (f : Num.Fmt) (_ : Num.Ctl) (x y : Nat) : Nat := x % f.signBit + y / f.signBit % 2 * f.signBit

/-- FADD (R154) with vector B. -/
def execFadd (d : BitVec 7) (a : BitVec 7) (b : BitVec 7) (s : State) : Host.Outcome State Fault Refusal :=
  issueRegs s (.fadd d a b) fun x r => .ok (r.floatBin x Num.fadd d a (r.elemV b.toNat))

/-- FSUB (R154) with vector B. -/
def execFsub (d : BitVec 7) (a : BitVec 7) (b : BitVec 7) (s : State) : Host.Outcome State Fault Refusal :=
  issueRegs s (.fsub d a b) fun x r => .ok (r.floatBin x Num.fsub d a (r.elemV b.toNat))

/-- FMUL (R154) with vector B. -/
def execFmul (d : BitVec 7) (a : BitVec 7) (b : BitVec 7) (s : State) : Host.Outcome State Fault Refusal :=
  issueRegs s (.fmul d a b) fun x r => .ok (r.floatBin x Num.fmul d a (r.elemV b.toNat))

/-- FMIN (R154) with vector B. -/
def execFmin (d : BitVec 7) (a : BitVec 7) (b : BitVec 7) (s : State) : Host.Outcome State Fault Refusal :=
  issueRegs s (.fmin d a b) fun x r => .ok (r.floatBin x Num.fmin d a (r.elemV b.toNat))

/-- FMAX (R154) with vector B. -/
def execFmax (d : BitVec 7) (a : BitVec 7) (b : BitVec 7) (s : State) : Host.Outcome State Fault Refusal :=
  issueRegs s (.fmax d a b) fun x r => .ok (r.floatBin x Num.fmax d a (r.elemV b.toNat))

/-- FABS (R153, R154): the sign bit cleared, nothing else changed. -/
def execFabs (d : BitVec 7) (a : BitVec 7) (s : State) : Host.Outcome State Fault Refusal :=
  issueRegs s (.fabs d a) fun x r => .ok (r.floatUn x (fun f _ e => e % f.signBit) d a)

/-- FNEG (R153, R154): the sign bit inverted, nothing else changed. -/
def execFneg (d : BitVec 7) (a : BitVec 7) (s : State) : Host.Outcome State Fault Refusal :=
  issueRegs s (.fneg d a) fun x r => .ok (r.floatUn x (fun f _ e => (e + f.signBit) % (2 * f.signBit)) d a)

/-- FCOPYSIGN (R153, R154): the sign bit of vector B. -/
def execFcopysign (d : BitVec 7) (a : BitVec 7) (b : BitVec 7) (s : State) : Host.Outcome State Fault Refusal :=
  issueRegs s (.fcopysign d a b) fun x r => .ok (r.floatBin x copySign d a (r.elemV b.toNat))

/-- FADD (R154) with scalar B, the same in every lane. -/
def execFaddScalarB (d : BitVec 7) (a : BitVec 7) (b : BitVec 7) (s : State) : Host.Outcome State Fault Refusal :=
  issueRegs s (.faddScalarB d a b) fun x r => .ok (r.floatBin x Num.fadd d a (r.elemS b.toNat))

/-- FSUB (R154) with scalar B, the same in every lane. -/
def execFsubScalarB (d : BitVec 7) (a : BitVec 7) (b : BitVec 7) (s : State) : Host.Outcome State Fault Refusal :=
  issueRegs s (.fsubScalarB d a b) fun x r => .ok (r.floatBin x Num.fsub d a (r.elemS b.toNat))

/-- FMUL (R154) with scalar B, the same in every lane. -/
def execFmulScalarB (d : BitVec 7) (a : BitVec 7) (b : BitVec 7) (s : State) : Host.Outcome State Fault Refusal :=
  issueRegs s (.fmulScalarB d a b) fun x r => .ok (r.floatBin x Num.fmul d a (r.elemS b.toNat))

/-- FMIN (R154) with scalar B, the same in every lane. -/
def execFminScalarB (d : BitVec 7) (a : BitVec 7) (b : BitVec 7) (s : State) : Host.Outcome State Fault Refusal :=
  issueRegs s (.fminScalarB d a b) fun x r => .ok (r.floatBin x Num.fmin d a (r.elemS b.toNat))

/-- FMAX (R154) with scalar B, the same in every lane. -/
def execFmaxScalarB (d : BitVec 7) (a : BitVec 7) (b : BitVec 7) (s : State) : Host.Outcome State Fault Refusal :=
  issueRegs s (.fmaxScalarB d a b) fun x r => .ok (r.floatBin x Num.fmax d a (r.elemS b.toNat))

/-- FCOPYSIGN (R153, R154): the sign bit of scalar B. -/
def execFcopysignScalarB (d : BitVec 7) (a : BitVec 7) (b : BitVec 7) (s : State) : Host.Outcome State Fault Refusal :=
  issueRegs s (.fcopysignScalarB d a b) fun x r => .ok (r.floatBin x copySign d a (r.elemS b.toNat))

/-- FFMA (R155): x * y + d, rounded once. -/
def execFfma (d : BitVec 7) (a : BitVec 7) (b : BitVec 7) (s : State) : Host.Outcome State Fault Refusal :=
  issueRegs s (.ffma d a b) fun x r => .ok (r.floatFma x false false d a b)

/-- FFMS (R155): x * y - d, rounded once. -/
def execFfms (d : BitVec 7) (a : BitVec 7) (b : BitVec 7) (s : State) : Host.Outcome State Fault Refusal :=
  issueRegs s (.ffms d a b) fun x r => .ok (r.floatFma x false true d a b)

/-- FNFMA (R155): -(x * y) + d, rounded once. -/
def execFnfma (d : BitVec 7) (a : BitVec 7) (b : BitVec 7) (s : State) : Host.Outcome State Fault Refusal :=
  issueRegs s (.fnfma d a b) fun x r => .ok (r.floatFma x true false d a b)

/-- FRCP (R157, R158). -/
def execFrcp (d : BitVec 7) (a : BitVec 7) (s : State) : Host.Outcome State Fault Refusal :=
  issueRegs s (.frcp d a) fun x r => .ok (r.floatUn x (Special.onElem .frcp) d a)

/-- FRSQ (R157, R158). -/
def execFrsq (d : BitVec 7) (a : BitVec 7) (s : State) : Host.Outcome State Fault Refusal :=
  issueRegs s (.frsq d a) fun x r => .ok (r.floatUn x (Special.onElem .frsq) d a)

/-- FEXP2 (R157, R158). -/
def execFexp2 (d : BitVec 7) (a : BitVec 7) (s : State) : Host.Outcome State Fault Refusal :=
  issueRegs s (.fexp2 d a) fun x r => .ok (r.floatUn x (Special.onElem .fexp2) d a)

/-- FLOG2 (R157, R158). -/
def execFlog2 (d : BitVec 7) (a : BitVec 7) (s : State) : Host.Outcome State Fault Refusal :=
  issueRegs s (.flog2 d a) fun x r => .ok (r.floatUn x (Special.onElem .flog2) d a)

/-- FSIN (R157, R158). -/
def execFsin (d : BitVec 7) (a : BitVec 7) (s : State) : Host.Outcome State Fault Refusal :=
  issueRegs s (.fsin d a) fun x r => .ok (r.floatUn x (Special.onElem .fsin) d a)

/-- FCOS (R157, R158). -/
def execFcos (d : BitVec 7) (a : BitVec 7) (s : State) : Host.Outcome State Fault Refusal :=
  issueRegs s (.fcos d a) fun x r => .ok (r.floatUn x (Special.onElem .fcos) d a)

/-- FSQRT (R157, R158): the exact root rounded once to the element format. -/
def execFsqrt (d : BitVec 7) (a : BitVec 7) (s : State) : Host.Outcome State Fault Refusal :=
  issueRegs s (.fsqrt d a) fun x r => .ok (r.floatUn x (fun f => Num.fsqrt f f) d a)

/-- FDIV (R157, R158): the exact quotient rounded once to the element format. -/
def execFdiv (d : BitVec 7) (a : BitVec 7) (b : BitVec 7) (s : State) : Host.Outcome State Fault Refusal :=
  issueRegs s (.fdiv d a b) fun x r => .ok (r.floatBin x (fun f => Num.fdiv f f) d a (r.elemV b.toNat))

/-- FROUND (R160). -/
def execFround (d : BitVec 7) (a : BitVec 7) (s : State) : Host.Outcome State Fault Refusal :=
  issueRegs s (.fround d a) fun x r => .ok (r.floatUn x Num.fround d a)

/-- FCMP (R156). -/
def execFcmp (d a b : BitVec 7) (c : FcmpCond) (s : State) : Host.Outcome State Fault Refusal :=
  issueRegs s (.fcmp d a b c) fun x r =>
    .ok (r.setPred x.act d.toNat (maskOf fun l =>
      Num.fcmp (fmtOf (elemType r.gmode)) (ftzOn r.gmode) c (r.elemV a.toNat l 0) (r.elemV b.toNat l 0)))

/-! ### FCVT (R159) -/

/-- Whether a type is a floating one. -/
def isFloatType (t : ElemType) : Bool := isFloat4 t

/-- The width of an element. -/
def elemWidth (t : ElemType) : Nat := if t = .f64 then 64 else (intShape t).width

/-- One element converted from a type to another (R56, R159). -/
def convertElem (src dst : ElemType) (c : Num.Ctl) (x : Nat) : Nat :=
  let h := intShape src
  let g := intShape dst
  match isFloatType src, isFloatType dst with
  | true, true => Num.convert (fmtOf src) (fmtOf dst) c x
  | true, false => Num.toInt (fmtOf src) c g.sgn g.width x
  | false, true => Num.fromInt (fmtOf dst) c (Num.readInt h.sgn h.width x)
  | false, false => Num.wrapNat g.width (if c.sat then Num.satInt g.sgn g.width (Num.readInt h.sgn h.width x) else Num.readInt h.sgn h.width x)

/-- Element j of a footprint that starts at a register, in a lane (R159): its bit position counts from the first register. -/
def Regs.footElem (r : Regs) (t : ElemType) (n l j : Nat) : Nat :=
  let w := elemWidth t
  if w = 64 then (r.vec64 (n + 2 * j) l).toNat else elemAt w ((r.vec (n + j * w / 32)).at l) (j % (32 / w))

/-- Register i of a destination footprint in a lane, from its elements (R159). -/
def footWord (t : ElemType) (elem : Nat → Nat) (i : Nat) : Word :=
  let w := elemWidth t
  if w = 64 then BitVec.ofNat 32 (elem (i / 2) / 2 ^ (32 * (i % 2))) else elemsBy w fun k => elem (i * (32 / w) + k)

/-- FCVT (R159): every element is read before any register is written. -/
def execFcvt (d a : BitVec 7) (t : ElemType) (s : State) : Host.Outcome State Fault Refusal :=
  issueRegs s (.fcvt d a t) fun x r =>
    let dst := elemType r.gmode
    let c := floatCtl r.gmode
    let n := (cvtShape t dst).2.2
    let word (i l : Nat) : Word := footWord dst (fun j => convertElem t dst c (r.footElem t a.toNat l j)) i
    .ok ((upTo n).foldl (fun q i => q.setVec x.act x.ready (d.toNat + i) (lanesBy (word i))) r)

/-- FCLASS (R161): under f64 the mask of the pair goes to one register. -/
def execFclass (d a : BitVec 7) (s : State) : Host.Outcome State Fault Refusal :=
  issueRegs s (.fclass d a) fun x r =>
    let t := elemType r.gmode
    .ok (r.putVec x d fun l =>
      if floatElems t = 2 then elemsBy 16 fun k => Num.fclass (fmtOf t) (r.elemV a.toNat l k)
      else BitVec.ofNat 32 (Num.fclass (fmtOf t) (r.elemV a.toNat l 0)))

end Sys2Proof.Machine
end

