-- ==== Sys2Proof/Machine/Lane.lean ====
section
/-! DEFINITION. Predicates, and the exchange of values between lanes (R162 to R168). -/

namespace Sys2Proof.Machine

/-- PAND (R162). -/
def execPand (d a b : BitVec 7) (s : State) : Host.Outcome State Fault Refusal :=
  issueRegs s (.pand d a b) fun x r => .ok (r.setPred x.act d.toNat (r.pred a.toNat &&& r.pred b.toNat))

/-- POR (R162). -/
def execPor (d a b : BitVec 7) (s : State) : Host.Outcome State Fault Refusal :=
  issueRegs s (.por d a b) fun x r => .ok (r.setPred x.act d.toNat (r.pred a.toNat ||| r.pred b.toNat))

/-- PXOR (R162). -/
def execPxor (d a b : BitVec 7) (s : State) : Host.Outcome State Fault Refusal :=
  issueRegs s (.pxor d a b) fun x r => .ok (r.setPred x.act d.toNat (r.pred a.toNat ^^^ r.pred b.toNat))

/-- PNOT (R162). -/
def execPnot (d a : BitVec 7) (s : State) : Host.Outcome State Fault Refusal :=
  issueRegs s (.pnot d a) fun x r => .ok (r.setPred x.act d.toNat (~~~(r.pred a.toNat)))

/-- PMOV (R162). -/
def execPmov (d a : BitVec 7) (s : State) : Host.Outcome State Fault Refusal :=
  issueRegs s (.pmov d a) fun x r => .ok (r.setPred x.act d.toNat (r.pred a.toNat))

/-- BALLOT (R162): s[D] whole, 0 for the lanes that are not active. -/
def execBallot (d a : BitVec 7) (s : State) : Host.Outcome State Fault Refusal :=
  issueRegs s (.ballot d a) fun x r => .ok (r.setSc d.toNat (r.pred a.toNat &&& x.act))

/-- PFROMS (R162). -/
def execPfroms (d a : BitVec 7) (s : State) : Host.Outcome State Fault Refusal :=
  issueRegs s (.pfroms d a) fun x r => .ok (r.setPred x.act d.toNat (r.sc a.toNat))

/-- The value of a vote over the active bits of a predicate (R163). -/
def voteOf (v : VoteMode) (act p : Mask) : Bool :=
  match v with
  | .all => p &&& act == act
  | .any => p &&& act != 0
  | .uni => p &&& act == act || p &&& act == 0

/-- VOTE (R163). -/
def execVote (d a : BitVec 7) (v : VoteMode) (s : State) : Host.Outcome State Fault Refusal :=
  issueRegs s (.vote d a v) fun x r =>
    .ok (r.setPred x.act d.toNat (if voteOf v x.act (r.pred a.toNat) then BitVec.allOnes 32 else 0))

/-- The source lane of SHFL (R164). -/
def shflSource (v : ShflMode) (l : Nat) (idx c : Word) : Nat :=
  match v with
  | .idx => (idx.extractLsb' 0 5).toNat
  | .up => if l < c.toNat then l else l - c.toNat
  | .down => if 31 < l + c.toNat then l else l + c.toNat
  | .xor => l ^^^ (c.extractLsb' 0 5).toNat

/-- Whether a V-class register can be read in a lane: a brine register needs the lane's valid bit (R102). -/
def Regs.laneValid (r : Regs) (n l : Nat) : Bool := decide (n < 120) || (Store.get 0 r.eValid (n - 120)).getLsbD l

/-- SHFL (R164): all sources are read before any lane is written; a brine source needs its valid bit. -/
def execShfl (d a b : BitVec 7) (v : ShflMode) (s : State) : Host.Outcome State Fault Refusal :=
  issueRegs s (.shfl d a b v) fun x r =>
    let src (l : Nat) : Nat := shflSource v l ((r.vec b.toNat).at l) (r.sc b.toNat)
    if (lanesIn x.act).all fun l => r.laneValid a.toNat (src l) then .ok (r.putVec x d fun l => (r.vec a.toNat).at (src l))
    else .error .ephemeralExpired

/-- VTOS (R165): the named lane, or the first active one; with none active the result is 0. -/
def execVtos (d a : BitVec 7) (f : Bool) (n : BitVec 5) (s : State) : Host.Outcome State Fault Refusal :=
  issueRegs s (.vtos d a f n) fun x r =>
    match (if f then (lanesIn x.act).head? else some n.toNat) with
    | none => .ok (r.setSc d.toNat 0)
    | some j => if r.laneValid a.toNat j then .ok (r.setSc d.toNat ((r.vec a.toNat).at j)) else .error .ephemeralExpired

/-- STOV (R165). -/
def execStov (d a : BitVec 7) (s : State) : Host.Outcome State Fault Refusal :=
  issueRegs s (.stov d a) fun x r => .ok (r.putVec x d fun _ => r.sc a.toNat)

/-! ### GRED and GSCAN (R166, R167) -/

/-- The identity of an operation (R166). -/
def redIdentity (t : ElemType) (o : RedOp) : Word :=
  let h := intShape t
  match o with
  | .add | .or | .xor => 0
  | .and => BitVec.allOnes 32
  | .min => if t = .f32 then BitVec.ofNat 32 Num.b32.infCode else wordOfInt (Num.hiEnd h.sgn 32)
  | .max => if t = .f32 then BitVec.ofNat 32 (Num.b32.signed true Num.b32.infCode) else wordOfInt (Num.loEnd h.sgn 32)

/-- One step of an integer reduction on exact values; bitwise operations act on patterns (R166). -/
def redInt (sgn : Bool) (o : RedOp) (x y : Int) : Int :=
  let b (f : Nat → Nat → Nat) : Int := Num.readInt sgn 32 (f (Num.wrapNat 32 x) (Num.wrapNat 32 y))
  match o with
  | .add => x + y
  | .min => min x y
  | .max => max x y
  | .and => b (· &&& ·)
  | .or => b (· ||| ·)
  | .xor => b (· ^^^ ·)

/-- An exact integer total, narrowed once (R132, R166). -/
def redNarrow (t : ElemType) (sat : Bool) (o : RedOp) (z : Int) : Word :=
  let h := intShape t
  BitVec.ofNat 32 (OpResult.narrow h sat ⟨z, o == .add⟩)

/-- One step of a float reduction on binary32 codes (R154, R166). -/
def redFloat (c : Num.Ctl) (o : RedOp) (x y : Nat) : Nat :=
  match o with
  | .min => Num.fmin Num.b32 c x y
  | .max => Num.fmax Num.b32 c x y
  | _ => Num.fadd Num.b32 c x y

/-- A node of the tree of R167 over the lanes lo..lo + 2^k - 1. -/
def treeNode (c : Num.Ctl) (o : RedOp) (leaf : Nat → Option Nat) : Nat → Nat → Option Nat
  | 0, lo => leaf lo
  | k + 1, lo =>
    match treeNode c o leaf k lo, treeNode c o leaf k (lo + 2 ^ k) with
    | some x, some y => some (redFloat c o x y)
    | some x, none => some x
    | none, y => y

/-- A value on its own: it is read under FTZ and a NaN becomes the default NaN (R166). A sum of one value is not rounded, so SAT does
not act on it (R167); as a minimum or maximum it is a result like any other. -/
def redSingle (c : Num.Ctl) (o : RedOp) (x : Nat) : Nat :=
  Num.b32.encode (if o = .add then { c with sat := false } else c) (Num.b32.input c.ftz x)

/-- The reduction of the active lanes (R166, R167). -/
def reduceLanes (t : ElemType) (c : Num.Ctl) (o : RedOp) (act : Mask) (a : Lanes) : Word :=
  if t = .f32 then
    match treeNode c o (fun l => if act.getLsbD l then some (redSingle c o (a.at l).toNat) else none) 5 0 with
    | some x => BitVec.ofNat 32 x
    | none => redIdentity t o
  else
    let h := intShape t
    match (lanesIn act).map fun l => Num.readInt h.sgn 32 (a.at l).toNat with
    | [] => redIdentity t o
    | x :: rest => redNarrow t c.sat o (rest.foldl (redInt h.sgn o) x)

/-- The running results over some active lanes in ascending order: lane, and the value before narrowing. -/
def scanInt (sgn : Bool) (o : RedOp) (a : Lanes) : Option Int → List Nat → List (Nat × Int)
  | _, [] => []
  | acc, l :: rest =>
    let x := Num.readInt sgn 32 (a.at l).toNat
    let z := match acc with
      | none => x
      | some y => redInt sgn o y x
    (l, z) :: scanInt sgn o a (some z) rest

/-- The running float results over some active lanes in ascending order (R167). -/
def scanFloat (c : Num.Ctl) (o : RedOp) (a : Lanes) : Option Nat → List Nat → List (Nat × Nat)
  | _, [] => []
  | acc, l :: rest =>
    let x := (a.at l).toNat
    let z := match acc with
      | none => redSingle c o x
      | some y => redFloat c o y x
    (l, z) :: scanFloat c o a (some z) rest

/-- The inclusive results by lane (R167). -/
def scanLanes (t : ElemType) (c : Num.Ctl) (o : RedOp) (act : Mask) (a : Lanes) : List (Nat × Word) :=
  if t = .f32 then (scanFloat c o a none (lanesIn act)).map fun p => (p.1, BitVec.ofNat 32 p.2)
  else (scanInt (intShape t).sgn o a none (lanesIn act)).map fun p => (p.1, redNarrow t c.sat o p.2)

/-- The exclusive results: each active lane takes the inclusive result of the one before it (R167). -/
def shiftScan (first : Word) : List (Nat × Word) → List (Nat × Word)
  | [] => []
  | (l, z) :: rest => (l, first) :: shiftScan z rest

/-- GRED (R166 to R168): s[D] whole. -/
def execGred (d a : BitVec 7) (o : RedOp) (s : State) : Host.Outcome State Fault Refusal :=
  issueRegs s (.gred d a o) fun x r =>
    .ok (r.setSc d.toNat (reduceLanes (elemType r.gmode) (floatCtl r.gmode) o x.act (r.vec a.toNat)))

/-- GSCAN (R166 to R168). What the first active lane of an exclusive scan takes is the identity as it is, an infinity under SAT too (DESIGN CHOICE,
log 38). -/
def execGscan (d a : BitVec 7) (e : Bool) (o : RedOp) (s : State) : Host.Outcome State Fault Refusal :=
  issueRegs s (.gscan d a e o) fun x r =>
    let t := elemType r.gmode
    let incl := scanLanes t (floatCtl r.gmode) o x.act (r.vec a.toNat)
    let res := if e then shiftScan (redIdentity t o) incl else incl
    .ok (r.putVec x d fun l => Store.get 0 res l)

end Sys2Proof.Machine
end

