-- ==== Sys2Proof/Machine/Algebra.lean ====
section
/-! DEFINITION. The vector algebra instructions and the plane instructions (R57 to R62, R197 to R199). -/

namespace Sys2Proof.Machine

/-! ### Structure tables (R61, R179, R180) -/

/-- Byte T(i, j) of an image. -/
def AlgebraSlot.entry (a : AlgebraSlot) (i j : Nat) : Byte := a.image.getD (16 + 8 * i + j) 0
/-- The target component of a table byte. -/
def entryTarget (b : Byte) : Nat := (b.extractLsb' 0 3).toNat
/-- Whether a table byte names a product. -/
def entryUsed (b : Byte) : Bool := b.getLsbD 3
/-- Whether the product of a table byte is negated. -/
def entryNeg (b : Byte) : Bool := b.getLsbD 4
/-- Whether component i is negated by conjugation. -/
def AlgebraSlot.conj (a : AlgebraSlot) (i : Nat) : Bool := (a.image.getD 1 0).getLsbD i
/-- Whether the square of component i is subtracted in the norm. -/
def AlgebraSlot.normNeg (a : AlgebraSlot) (i : Nat) : Bool := (a.image.getD 2 0).getLsbD i

/-- The pairs (i, j) of components of an algebra. -/
def pairsBelow (d : Nat) : List (Nat × Nat) := (upTo d).flatMap fun i => (upTo d).map fun j => (i, j)

/-- Whether each pair (fixed, k) names at most one entry (R180): by rows for the validity of an image, by columns for its left bit. -/
def uniqueTargets (a : AlgebraSlot) (d : Nat) (byRows : Bool) : Bool :=
  (upTo d).all fun p => (upTo d).all fun k =>
    decide (((upTo d).filter fun q =>
      let b := if byRows then a.entry p q else a.entry q p
      entryUsed b && entryTarget b == k).length ≤ 1)

/-- Whether an image is valid (R180). -/
def validImage (img : List Byte) : Bool :=
  let a : AlgebraSlot := ⟨img, false⟩
  let d := a.dim
  let high (b : Byte) : Bool := decide (b.toNat / 2 ^ d = 0)
  (d == 1 || d == 2 || d == 4 || d == 8) && zeros img 3 13 && high (img.getD 1 0) && high (img.getD 2 0) &&
  (pairsBelow 8).all (fun p =>
    let b := a.entry p.1 p.2
    decide (b.toNat < 32) && !(entryNeg b && !entryUsed b) &&
    (if d ≤ p.1 ∨ d ≤ p.2 then b == 0 else if entryUsed b then decide (entryTarget b < d) else entryTarget b == 0)) &&
  uniqueTargets a d true

/-- The left bit of a valid image (R180). -/
def leftBit (img : List Byte) : Bool := let a : AlgebraSlot := ⟨img, false⟩; uniqueTargets a a.dim false

/-! ### HMUL, HFMA, HCONJ, HNORM (R197, R198) -/

/-- Component i of an algebra operand, element k of a lane, read under FTZ (R197). -/
def Regs.component (r : Regs) (n i l k : Nat) : Num.FVal :=
  (fmtOf (elemType r.gmode)).input (ftzOn r.gmode) (r.elemV (n + i * regsPer (elemType r.gmode)) l k)

/-- A value with its sign inverted on request. -/
def signedVal (neg : Bool) (v : Num.FVal) : Num.FVal := if neg then Num.negVal v else v

/-- The products that add up to component k of a·b (R61, R198). -/
def productTerms (al : AlgebraSlot) (a b : Nat → Num.FVal) (k : Nat) : List Num.FVal :=
  (pairsBelow al.dim).filterMap fun p =>
    let t := al.entry p.1 p.2
    if entryUsed t && entryTarget t == k then some (signedVal (entryNeg t) (Num.mulVal (a p.1) (b p.2))) else none

/-- The squares that add up to the norm (R61, R198). -/
def normTerms (al : AlgebraSlot) (a : Nat → Num.FVal) : List Num.FVal :=
  (upTo al.dim).map fun i => signedVal (al.normNeg i) (Num.mulVal (a i) (a i))

/-- Write some components of an algebra destination, each from its terms, rounded once (R198). -/
def Regs.putComponents (r : Regs) (x : Issue) (d : BitVec 7) (n : Nat) (terms : Nat → Nat → Nat → List Num.FVal) : Regs :=
  let f := fmtOf (elemType r.gmode)
  let c := floatCtl r.gmode
  (upTo n).foldl (fun q i => q.putElems x (BitVec.ofNat 7 (d.toNat + i * regsPer (elemType r.gmode)))
    (fun l k => f.encode c (Num.sumVals c.rnd (terms i l k)))) r

/-- Issue an instruction that uses the algebra slot of gmode.ALG; an invalid slot faults (R180, R198). -/
def issueAlgebra (s : State) (i : Instr) (f : AlgebraSlot → Issue → Regs → Regs) : Host.Outcome State Fault Refusal :=
  issue s i fun s x g => match (s.core x.core).algebra (algSlot g.regs.gmode) with
    | none => .trap (x.trap .algebraTableInvalid)
    | some al => .done (s.modRegs x.gid (f al x))

/-- HMUL (R198). -/
def execHmul (d a b : BitVec 7) (s : State) : Host.Outcome State Fault Refusal :=
  issueAlgebra s (.hmul d a b) fun al x r => r.putComponents x d al.dim fun i l k =>
    productTerms al (fun n => r.component a.toNat n l k) (fun n => r.component b.toNat n l k) i

/-- HFMA (R198): the addend is one more term. -/
def execHfma (d a b : BitVec 7) (s : State) : Host.Outcome State Fault Refusal :=
  issueAlgebra s (.hfma d a b) fun al x r => r.putComponents x d al.dim fun i l k =>
    productTerms al (fun n => r.component a.toNat n l k) (fun n => r.component b.toNat n l k) i ++ [r.component d.toNat i l k]

/-- HCONJ (R198). -/
def execHconj (d a : BitVec 7) (s : State) : Host.Outcome State Fault Refusal :=
  issueAlgebra s (.hconj d a) fun al x r => r.putComponents x d al.dim fun i l k => [signedVal (al.conj i) (r.component a.toNat i l k)]

/-- HNORM (R198): one component. -/
def execHnorm (d a : BitVec 7) (s : State) : Host.Outcome State Fault Refusal :=
  issueAlgebra s (.hnorm d a) fun al x r => r.putComponents x d 1 fun _ l k => normTerms al fun n => r.component a.toNat n l k

/-! ### Planks (R57 to R59, R199) -/

/-- Byte 4l + k of a register that holds a plank or its unpacked form (R199). -/
def plankByte (a : Lanes) (n : Nat) : Byte := (a.at (n / 4)).extractLsb' (8 * (n % 4)) 8

/-- A byte from its bits. -/
def byteOfBits (f : Nat → Bool) : Byte := BitVec.ofNat 8 ((upTo 8).foldl (fun acc i => if f i then acc + 2 ^ i else acc) 0)

/-- Byte n of the packed line of 128 elements (R57). -/
def packByte (elem : Nat → Byte) (n : Nat) : Byte := byteOfBits fun i => (elem (8 * (n % 16) + i)).getLsbD (7 - n / 16)

/-- The stored byte of element e of a plank line (R57). -/
def unpackByte (line : Nat → Byte) (e : Nat) : Byte := byteOfBits fun i => (line (16 * (7 - i) + e / 8)).getLsbD (e % 8)

/-- The integer form of element e of a plank line read at p planes (R58). -/
def plankElem (line : Nat → Byte) (p : Nat) (half : Bool) (e : Nat) : Int := Num.planeInt p half (unpackByte line e)

/-- A lane word from the four bytes of its positions. -/
def wordOfPositions (f : Nat → Byte) (l : Nat) : Word := wordOfBytes (f (4 * l)) (f (4 * l + 1)) (f (4 * l + 2)) (f (4 * l + 3))

/-- PNPK (R199). -/
def execPnpk (d a : BitVec 7) (s : State) : Host.Outcome State Fault Refusal :=
  issueRegs s (.pnpk d a) fun x r => .ok (r.putVec x d (wordOfPositions (packByte (plankByte (r.vec a.toNat)))))

/-- PNUNPK (R199). -/
def execPnunpk (d a : BitVec 7) (c : Bool) (p : BitVec 3) (s : State) : Host.Outcome State Fault Refusal :=
  issueRegs s (.pnunpk d a c p) fun x r =>
    .ok (r.putVec x d (wordOfPositions fun e => BitVec.ofInt 8 (plankElem (plankByte (r.vec a.toNat)) (p.toNat + 1) c e)))

/-- The scaled value of an element (R59, R199): a scale byte 0 makes +0, and 255 the default NaN. An element 0 is an exact zero, minus under RDN, and no
product (DESIGN CHOICE, log 45). -/
def scaledElem (c : Num.Ctl) (z : Int) (e : Nat) : Nat :=
  if e = 0 then 0
  else if e = 255 then Num.b32.nanCode
  else if z = 0 then Num.b32.signed (c.rnd == .rdn) 0
  else Num.b32.encode c (Num.ofInt z ((e : Int) - 127))

/-- PNEXP (R199): element 4l + k goes to lane l of register D + k. -/
def execPnexp (d a b : BitVec 7) (c : Bool) (p : BitVec 3) (s : State) : Host.Outcome State Fault Refusal :=
  issueRegs s (.pnexp d a b c p) fun x r =>
    let e := ((r.sc b.toNat).extractLsb' 0 8).toNat
    let word (k l : Nat) : Word :=
      BitVec.ofNat 32 (scaledElem (floatCtl r.gmode) (plankElem (plankByte (r.vec a.toNat)) (p.toNat + 1) c (4 * l + k)) e)
    .ok ((upTo 4).foldl (fun q k => q.setVec x.act x.ready (d.toNat + k) (lanesBy (word k))) r)

end Sys2Proof.Machine
end

