-- ==== Sys2Proof/Machine/Arrive.lean ====
section
/-! DEFINITION. What follows a move of a group's slots: the pops of R30, the arrival at a barrier or a BRP (R123, R290 to R292), the
exit of a group (R40), and the fences that arrivals carry (R227, R229). -/

namespace Sys2Proof.Machine

/-! ### The ordering effects of a scope (R225, R229) -/

/-- A release by a group of a core: at cluster scope or wider the earlier stores of the core's path are performed (R229). Bound
windows of the team are written back at device or system scope (R215). -/
def State.releaseAt (s : State) (core tid scope : Nat) : State :=
  let s1 := if 2 ≤ scope then s.drainPath core none else s
  if 3 ≤ scope then s1.writeBackTeam tid else s1

/-- An acquire on a core: at cluster scope or wider the core's L1 is invalidated (R229). -/
def State.acquireAt (s : State) (core scope : Nat) : State := if 2 ≤ scope then s.l1Clear core else s

/-! ### Pops (R30) -/

/-- The top entry of the stack is a path entry. -/
def Flow.topPath (f : Flow) : Option (VA × Mask × List StackEntry) :=
  match f.stack with
  | .path pc m :: rest => some (pc, m, rest)
  | _ => none

/-- The entries of the stack that lie below a regrouped region, which its new groups do not use up (R35). -/
def Flow.floor (f : Flow) : Nat := if f.region then f.regionDepth else 0

/-- Pop a path entry into a slot when it is free (R30): the slot issues 2 clk after the instruction that freed it (R121, DEDUCED, log 22), or when that
instruction has paid for what it rewrote (R105), and 20 clk later when the pop refills (R105). -/
def Flow.popInto (f : Flow) (n clk : Nat) : Flow :=
  if (f.slot n).live || f.stack.length ≤ f.floor then f
  else match f.topPath with
    | none => f
    | some (pc, m, rest) =>
      { f with stack := rest }.setSlot n { pc := pc, mask := m, hold := .none, readyAt := max (clk + 2) (f.slot n).readyAt + (if 4 ≤ rest.length then 20 else 0) }

/-- Both free slots are refilled, S0 first (R30). -/
def Flow.settle (f : Flow) (clk : Nat) : Flow := (f.popInto 0 clk).popInto 1 clk

/-- Every lane of the group has exited: both slots are free and the stack holds no path entry (R120), in a regrouped region above the entries
that it found (R35). -/
def Flow.done (f : Flow) : Bool :=
  !f.s0.live && !f.s1.live && (f.stack.take (f.stack.length - f.floor)).all fun e => match e with
    | .path _ _ => false
    | .join _ _ _ => true

/-! ### The spill area (R104, R105) -/

/-- The 16 bytes of an entry of the join stack (R104). -/
def StackEntry.bytes : StackEntry → List Byte
  | .join rejoin member arrived => bytesOf 8 (1 * 2 ^ 62 + rejoin.toNat) ++ bytesOf 4 member.toNat ++ bytesOf 4 arrived.toNat
  | .path pc mask => bytesOf 8 (2 * 2 ^ 62 + pc.toNat) ++ bytesOf 4 mask.toNat ++ bytesOf 4 0

/-- The entry that 16 bytes hold (R104). -/
def StackEntry.ofBytes (b : List Byte) : Option StackEntry :=
  let w := field b 0 8
  let addr := BitVec.ofNat 56 w
  if bits w 63 62 = 1 then some (.join addr (BitVec.ofNat 32 (field b 8 4)) (BitVec.ofNat 32 (field b 12 4)))
  else if bits w 63 62 = 2 then some (.path addr (BitVec.ofNat 32 (field b 8 4)))
  else none

/-- The entries of a stack that lie in the spill area, entry 0 first (R105). -/
def spilled (st : List StackEntry) : List StackEntry := (st.drop 4).reverse

/-- What a group's spill area holds: entry k at offset 16k (R105). -/
def Flow.spillArea (f : Flow) : List Byte := (spilled f.stack).flatMap StackEntry.bytes

/-- The entries of the spill area that a change of the stack reads: those that it refills and those that it rewrites in place (R105). -/
def spillReads (old new : List StackEntry) : List Nat :=
  (upTo (spilled old).length).filter fun k => (spilled old)[k]? != (spilled new)[k]?

/-- The entries that it writes. -/
def spillWrites (old new : List StackEntry) : List Nat :=
  (upTo (spilled new).length).filter fun k => (spilled old)[k]? != (spilled new)[k]?

/-- Whether a word of a group's spill area belongs to one of some entries. -/
def inSpill (number : Nat) (ks : List Nat) (w : Nat) : Bool := w / 112 == number && ks.contains (w % 112 / 4)

/-- Whether a change of a group's stack reads an entry of the spill area that holds an uncorrectable error (R105, R217). -/
def State.spillBad (s : State) (gid : Nat) (new : List StackEntry) : Bool :=
  match Store.find s.groups gid with
  | none => false
  | some g => match Store.find s.teams g.tid with
    | none => false
    | some t => t.mem.spillUpset.any (inSpill g.number (spillReads g.flow.stack new))

/-- A group writes some entries of its spill area, which clears an error in one of their words (R105, R217). -/
def State.writeSpill (s : State) (g : Group) (ks : List Nat) : State :=
  match Store.find s.teams g.tid with
  | none => s
  | some t =>
    if t.mem.spillUpset.any (inSpill g.number ks) then
      s.modTeamMem g.tid fun m => { m with spillUpset := m.spillUpset.filter fun w => !inSpill g.number ks w }
    else s

/-- The slots and the stack of a group change: the entries that are spilled are written (R105). -/
def State.setFlow (s : State) (gid : Nat) (f : Flow) : State :=
  match Store.find s.groups gid with
  | none => s
  | some g => (s.writeSpill g (spillWrites g.flow.stack f.stack)).modFlow gid fun _ => f

/-- A change of the slots and the stack that no instruction makes (R30, R33, R35): an error in an entry that it reads is the group's fault (R218). -/
def State.moveFlow (s : State) (gid : Nat) (f : Flow) : State :=
  let s1 := s.setFlow gid f
  if s.spillBad gid f.stack then
    let n := if f.s0.live then 0 else 1
    let sl := f.slot n
    s1.takeFault gid { code := .uncorrectable, pc := sl.pc, resume := sl.pc, slot := n, mask := sl.mask }
  else s1

/-- Every live slot of the group is held, and by a hold of a kind. -/
def Flow.allHeld (f : Flow) (p : Hold → Bool) : Bool :=
  (f.s0.live || f.s1.live) && (!f.s0.live || p f.s0.hold) && (!f.s1.live || p f.s1.hold)

/-! ### Barriers -/

/-- The bit of a group number. -/
def groupBit (n : Nat) : Mask := BitVec.ofNat 32 (2 ^ n)

/-- The mask of all groups of a team. -/
def allGroups (n : Nat) : Mask := BitVec.ofNat 32 (2 ^ n - 1)

/-- A group starts to wait (R36, R321); a wait at an XACQ that a save withdrew goes on (R97). -/
def State.startWait (s : State) (gid : Nat) (w : Wait) : State :=
  s.modStops gid fun y => y.waitBegins w s.mod.tick

/-- The slots that a hold kept go on at the next instruction, from a clk on. -/
def PcSlot.depart (x : PcSlot) (p : Hold → Bool) (clk : Nat) : PcSlot :=
  if x.live && p x.hold then { x with pc := x.pc + 4, hold := .none, readyAt := clk } else x

/-- The groups of a team that wait at a hold of a kind depart at a clk (R290, R292). -/
def State.departTeam (s : State) (tid : Nat) (p : Hold → Bool) (delay : Nat) : State :=
  let clk := (s.core (tid / 16)).clk + delay
  (s.groupsOf tid).foldl (fun s kv =>
    if kv.2.flow.exited || !kv.2.flow.allHeld p then s
    else s.modGroup kv.1 fun g =>
      { g with
        flow := { g.flow with s0 := g.flow.s0.depart p clk, s1 := g.flow.s1.depart p clk }
        stops := { g.stops with wait := .none, waitUs := 0 } }) s

/-- A hold at a team barrier of an id. -/
def atBar (id : Nat) : Hold → Bool
  | .bar n _ => n == id
  | _ => false
/-- A hold at the cluster barrier. -/
def atBarc : Hold → Bool
  | .barc => true
  | _ => false

/-- A write of a group that is still to be performed, or an access of it of which the fault is still to be reported. -/
def Group.unwritten (g : Group) : Bool := g.ops.any fun o => !o.done && (o.failure.isSome || (match o.kind with
  | .st | .sst | .sts | .atom _ | .atoms _ => true
  | _ => false))

/-- What the exited groups of a team have still to write: an exit counts as an arrival at once (R40), and is a release at team scope, so that no party
departs before it is done (R227). -/
def State.exitsWrite (s : State) (tid : Nat) : Bool := (s.groupsOf tid).any fun kv => kv.2.flow.exited && kv.2.unwritten

/-- Whether an instance of a team barrier completes: every participant has arrived or exited (R290). -/
def State.barrierFull (s : State) (tid id : Nat) : Bool :=
  match Store.find s.teams tid with
  | none => false
  | some t =>
    let b := Store.get {} t.sync.barriers id
    b.arrived != 0 && b.participants &&& ~~~(b.arrived ||| t.sync.exited) == 0 && !s.exitsWrite tid

/-- An instance of a team barrier completes when every participant has arrived or exited (R290): it is emptied, and the arrived
groups depart 2 clk later. -/
def State.tryBarrier (s : State) (tid id : Nat) : State :=
  if s.barrierFull tid id then (s.modSync tid fun y => { y with barriers := Store.erase y.barriers id }).departTeam tid (atBar id) 2 else s

/-- Each team barrier of a team is examined. -/
def State.tryBarriers (s : State) (tid : Nat) : State := (upTo 4).foldl (fun s id => s.tryBarrier tid id) s

/-- The teams of a cluster that are resident. -/
def State.clusterTeams (s : State) (t : TeamId) : List (Nat × Team) :=
  s.teams.filter fun kv => kv.2.id.part == t.part && kv.2.id.launch == t.launch && kv.2.id.cluster == t.cluster

/-- Every group of a team has exited. -/
def Team.allExited (t : Team) : Bool := allGroups t.id.groups &&& ~~~t.sync.exited == 0

/-- A team has arrived at its cluster's barrier: each of its groups has arrived or exited (R292). -/
def ClusterBarrier.has (b : ClusterBarrier) (t : Team) : Bool := allGroups t.id.groups &&& ~~~(Store.get 0 b.groups t.id.rank ||| t.sync.exited) == 0

/-- Whether a lease holds a store that a team has made, in the path of its core (R182, R229). -/
def State.teamPathWaits (s : State) (tid : Nat) : Bool := (s.core (tid / 16)).mem.path.any fun p => p.tid == tid && s.storeWaits p

/-- Whether the barrier of a team's cluster completes: every team has arrived (R292), and what their exits release is performed (R227). -/
def State.clusterFull (s : State) (tid : Nat) : Bool :=
  match Store.find s.teams tid with
  | none => false
  | some t => match Store.find s.clusters (clusterKey t.id) with
    | none => false
    | some b => (s.clusterTeams t.id).all fun u => b.has u.2 && !s.exitsWrite u.1 && !(u.2.allExited && s.teamPathWaits u.1)

/-- The cluster barrier completes when every team has arrived (R292): the groups of each team depart 2 clk later, and 4 clk for
each hop from the core of the last arrival. A team that is no longer resident has exited, and counts as arrived (R38). The last exit of a team is a
release at cluster scope (R227). -/
def State.tryCluster (s : State) (tid : Nat) : State :=
  match Store.find s.teams tid with
  | none => s
  | some t =>
    let key := clusterKey t.id
    match Store.find s.clusters key with
    | none => s
    | some b =>
      let ts := s.clusterTeams t.id
      let mask := ts.foldl (fun acc u => if b.has u.2 then acc ||| 2 ^ u.2.id.rank else acc) 0
      if s.clusterFull tid then
        let s1 := ts.foldl (fun s u => if u.2.allExited then s.releaseAt (u.1 / 16) u.1 2 else s) { s with clusters := Store.erase s.clusters key }
        ts.foldl (fun s u => (s.acquireAt (u.1 / 16) 2).departTeam u.1 atBarc (2 + 4 * hops (tid / 16) (u.1 / 16))) s1
      else { s with clusters := Store.put s.clusters key { b with teams := mask } }

/-- Whether an access of a group is still to be performed; a SIGWAIT, which writes nothing, is not counted. -/
def Group.accessing (g : Group) : Bool := g.ops.any fun o => o.isAccess && !o.done && o.kind != .sigwait

/-- A group arrives, when its slots allow it, at the barrier or the BRP at which they are held (R32, R123, R291, R292): at a
barrier when its accesses are done, which the arrival releases (R227). -/
def State.arrive (s : State) (gid : Nat) : State :=
  match Store.find s.groups gid with
  | none => s
  | some g =>
    match Store.find s.teams g.tid with
    | none => s
    | some t =>
      let f := g.flow
      let holds := (if f.s0.live then [f.s0.hold] else []) ++ (if f.s1.live then [f.s1.hold] else [])
      match holds with
      | [.brp pc _ _] =>
        if g.stops.wait = .brp || f.topPath.isSome then s
        else (s.modSync g.tid fun y => { y with brpArrived := y.brpArrived ||| groupBit g.number, brpPc := some (y.brpPc.getD pc) }).startWait gid .brp
      | .bar id _ :: _ =>
        if !f.allHeld (atBar id) || g.stops.wait = .barrier || g.accessing then s
        else
          let shown := holds.foldl (fun acc h => match h with
            | .bar _ m => acc ||| m
            | _ => acc) (0 : Mask)
          let s1 := s.modSync g.tid fun y => { y with barriers := Store.modify {} y.barriers id fun b =>
            { participants := b.participants ||| shown, arrived := b.arrived ||| groupBit g.number } }
          (s1.startWait gid .barrier).tryBarrier g.tid id
      | .barc :: _ =>
        if !f.allHeld atBarc || g.stops.wait = .cluster || g.accessing || s.pathWaits (coreOf gid) then s
        else
          let s1 := (s.releaseAt (coreOf gid) g.tid 2).startWait gid .cluster
          let add (b : ClusterBarrier) : ClusterBarrier := { b with groups := Store.modify 0 b.groups t.id.rank (· ||| groupBit g.number) }
          ({ s1 with clusters := Store.modify {} s1.clusters (clusterKey t.id) add }).tryCluster g.tid
      | _ => s

/-- TILEE of a group (R394): its tag is cleared and its participation closed; with no tag held it does nothing. -/
def State.closeTile (s : State) (gid : Nat) : State :=
  match Store.find s.groups gid with
  | none => s
  | some g => match g.eng.tag with
    | none => s
    | some _ => (s.modEng gid fun e => { e with tag := none }).modCore (coreOf gid) fun c => { c with
        stamps := match Store.find c.stamps g.eng.tagSlot with
          | some x => Store.put c.stamps g.eng.tagSlot { x with closed := x.closed ||| groupBit g.number }
          | none => c.stamps }

/-- The exit of a group takes effect for its team (R38, R40): the group counts as arrived from now on. The team's last exit is a release at cluster
scope (R227). -/
def State.exitArrives (s : State) (gid : Nat) : State :=
  match Store.find s.groups gid with
  | none => s
  | some g =>
    let s2 := s.modSync g.tid fun y => { y with exited := y.exited ||| groupBit g.number }
    let last := ((Store.find s2.teams g.tid).map Team.allExited).getD false
    let s3 := if last then s2.releaseAt (coreOf gid) g.tid 2 else s2
    (s3.tryBarriers g.tid).tryCluster g.tid

/-- A barrier of a team completes now: what an exited group had still to write is performed (R227). -/
def State.barrierDue (s : State) (tid : Nat) : Bool := ((upTo 4).any fun id => s.barrierFull tid id) || s.clusterFull tid

/-- Whether a group that is held at a barrier arrives now, its accesses being done. -/
def State.arrivesNow (s : State) (gid : Nat) (g : Group) : Bool :=
  !g.flow.exited && !g.accessing && g.stops.stop.isNone && g.stops.parked.isNone &&
  (((upTo 4).any fun id => g.flow.allHeld (atBar id) && g.stops.wait == .none) || (g.flow.allHeld atBarc && g.stops.wait == .none && !s.pathWaits (coreOf gid)))

/-- A group has exited (R40): it counts as arrived, open windows lapse (R85), and what it still has to access is performed now, or as soon as it can be
(R227, DEDUCED, log 22). -/
def State.exitGroup (s : State) (gid : Nat) : State :=
  match Store.find s.groups gid with
  | none => s
  | some g =>
    let clk := (s.core (coreOf gid)).clk
    let s1 := s.modGroup gid fun g =>
      { g with
        flow := { g.flow with exited := true }
        ops := g.ops.map fun o => { o with window := 0, dueClk := min o.dueClk clk } }
    let s2 := if g.flow.region then s1 else s1.closeTile gid
    s2.exitArrives gid

/-- What follows every move of a group's slots: free slots are refilled, and the group exits or arrives. -/
def State.afterFlow (s : State) (gid : Nat) : State :=
  let clk := (s.core (coreOf gid)).clk
  let s1 := match Store.find s.groups gid with
    | none => s
    | some g => s.moveFlow gid (g.flow.settle clk)
  match Store.find s1.groups gid with
  | none => s1
  | some g => if g.flow.done && !g.flow.exited then s1.exitGroup gid else s1.arrive gid

end Sys2Proof.Machine
end

