-- ==== Sys2Proof/Machine/Stash.lean ====
section
/-! DEFINITION. The stash as a memory: the offset words that name a place in a stash (R248), the touch of a bound line and its fill
(R212 to R214), leases (R182), and the reads and writes of stash bytes. -/

namespace Sys2Proof.Machine

/-! ### Places -/

/-- The team whose stash an offset word names, and the effective offset, for an access of some bytes by a team (R248). -/
def State.stashTarget (s : State) (tid : Nat) (w : Word) (off : Int) (n : Nat) : Except FaultCode (Nat × Nat) :=
  match Store.find s.teams tid with
  | none => .error .permission
  | some t =>
    let (p, e) := offsetWord w off
    if (w.extractLsb' 21 7) != 0 || decide (t.id.height * t.id.width < p) then .error .permission
    else
      let u : Option (Nat × Team) := if p = 0 then some (tid, t) else s.peerTeam t.id (p - 1)
      match u with
      | none => .error .permission
      | some (tid', t') => if e < 0 ∨ (t'.id.stashBytes : Int) < e + n then .error .permission else .ok (tid', e.toNat)

/-- The window of a team that holds a byte of its stash (R212). -/
def Team.windowAt (t : Team) (off : Nat) : Option Window :=
  (t.mem.windows.find? fun kv => decide (kv.2.offset ≤ off) && decide (off < kv.2.offset + kv.2.length)).map (·.2)

/-- The global virtual address that a byte of a bound window stands for, 0 for an unbound byte (R212, R314). -/
def State.stashVa (s : State) (tid off : Nat) : Nat := match (Store.find s.teams tid).bind (·.windowAt off) with
  | some w => (w.va + (off - w.offset)) % 2 ^ 56
  | none => 0

/-- The lines of a stash that some bytes touch. -/
def linesOf (off n : Nat) : List Nat := if n = 0 then [] else (upTo ((off + n - 1) / 128 - off / 128 + 1)).map (off / 128 + ·)

/-- The bytes of a team's stash. -/
def State.stashBytes (s : State) (tid off n : Nat) : List Byte := match Store.find s.teams tid with
  | some t => stashReads t.mem.stash off n
  | none => List.replicate n 0

/-- Whether some bytes of a team's stash hold an uncorrectable error (R217, R218). -/
def State.stashUpset (s : State) (tid off n : Nat) : Bool := match Store.find s.teams tid with
  | some t => upsetIn t.mem.upset off n
  | none => false

/-! ### Bound lines -/

/-- No L1 keeps a line that a stash window holds (R210). -/
def State.l1DropAll (s : State) (line : Nat) : State :=
  { s with cores := Store.mapVals s.cores fun _ c => { c with mem := { c.mem with l1 := Store.erase c.mem.l1 line } } }

/-- The other stash copies of a line become absent (R214); `none` while a lease defers it. -/
def State.recallOthers (s : State) (tid lineNo phys : Nat) : Option State :=
  let hs := (s.holders phys).filter fun h => !(h.1 == tid && h.2 == lineNo)
  if hs.any fun h => s.leased h.1 h.2 then none else some (hs.foldl (fun s h => s.recallLine h.1 h.2) s)

/-- The translation that binds a line of a window: it needs the read permission, and the write permission when the window is not
read-only (R213). A fabric line is never cached, so it cannot be bound (R205, DEDUCED, log 18). -/
def State.bindLine (s : State) (tid vdev : Nat) (w : Window) (lineNo : Nat) : Except AccessFail (Translation × Nat × State) :=
  let va := (w.va + (lineNo * 128 - w.offset)) % 2 ^ 56
  match s.translate (tid / 16) vdev va (if w.readOnly then .read else .update) with
  | .error f => .error f
  | .ok (t, s1) => match regionOf (t.physAddr va) with
    | .fabric => .error (.fault .permission)
    | _ => .ok (t, t.physAddr va, s1)

/-- The locked line of a replicated page from which some bytes of a stash would be filled (R213, R235). -/
def State.lockedAt (s : State) (tid off n : Nat) : Option Nat :=
  match Store.find s.teams tid with
  | none => none
  | some t => (linesOf off n).findSome? fun l => match t.windowAt (l * 128) with
    | none => none
    | some w =>
      if Store.has t.mem.lines l then none
      else match s.bindLine tid t.id.vdev w l with
        | .ok (tr, a, _) => if tr.repl then (s.lockAt t.id.part a).map fun k => lineOf k.addr else none
        | .error _ => none

/-- The words of a stash line that a fill brings from sectors of which the data is uncorrectable (R218). -/
def State.withheld (s : State) (lineNo phys : Nat) : List Nat := (upTo 32).map (lineNo * 32 + ·) |>.filter fun w => s.badAt (phys + 4 * (w % 32)) 4

/-- Fill an absent line of a window (R213): the whole line comes from the LLC, of a replicated page from the replica that the core reads, once no commit
has locked it (R235). A lease on the line defers it (R182). Data of an uncorrectable sector is withheld: the interrupt is raised, and a lane that needs it
will fault (R218). -/
def State.fillLine (s : State) (tid vdev : Nat) (w : Window) (lineNo : Nat) : Except AccessFail State :=
  let core := tid / 16
  if s.leased tid lineNo || s.pathWaits core then .error .wait
  else match s.bindLine tid vdev w lineNo with
    | .error f => .error f
    | .ok (t, a, s1) =>
      let line := lineOf a
      let part := s1.partOfCore core
      let src := if t.repl then ((s1.replicaEntry part vdev (frameOf a)).map fun e => e.2.nearest core line).getD line else line
      if t.repl && (s1.lockAt part line).isSome then .error .wait
      else match (s1.drainPath core none).directory line false with
        | none => .error .wait
        | some s1 => match s1.coherentRead (s1.part part).regs.members src 128 vdev with
          | none => .error .wait
          | some s2 =>
            let s3 := ((sectorsOf src 128).filter s2.sectorBad).foldl (fun s k => s.detect (.sector (64 * k))) s2
            .ok ((s3.l1DropAll line).modTeamMem tid fun m =>
              { m with
                upset := rewritten m.upset (lineNo * 128) 128 ++ s2.withheld lineNo src
                stash := stashWrites m.stash (lineNo * 128) (memReads s3.mem src 128)
                lines := Store.put m.lines lineNo { phys := line, gpa := t.gpaPage ((w.va + (lineNo * 128 - w.offset)) % 2 ^ 56) * 4096 + line % 4096 } })

/-- What an access to a line of a stash must do first (R213): an absent line of a window is filled, or made present when the access
writes the whole of it; a write takes the line from every other stash (R214), and none may reach a read-only window. -/
def State.touchLine (s : State) (tid lineNo : Nat) (write whole : Bool) : Except AccessFail State :=
  match Store.find s.teams tid with
  | none => .error (.fault .permission)
  | some t =>
    match t.windowAt (lineNo * 128) with
    | none => .ok s
    | some w =>
      if write && w.readOnly then .error (.fault .permission)
      else
        let present : Except AccessFail State :=
          if Store.has t.mem.lines lineNo then .ok s
          else if write && whole then
            if s.pathWaits (tid / 16) then .error .wait
            else match s.bindLine tid t.id.vdev w lineNo with
            | .error f => .error f
            | .ok (tr, a, s1) =>
              let gpa := tr.gpaPage ((w.va + (lineNo * 128 - w.offset)) % 2 ^ 56) * 4096 + lineOf a % 4096
              if tr.repl && (s1.lockAt t.id.part a).isSome then .error .wait
              else .ok (((s1.drainPath (tid / 16) none).l1DropAll (lineOf a)).modTeamMem tid fun m =>
                { m with lines := Store.put m.lines lineNo { phys := lineOf a, gpa := gpa, dirty0 := true, dirty1 := true } })
          else s.fillLine tid t.id.vdev w lineNo
        match present with
        | .error f => .error f
        | .ok s1 =>
          if !write then .ok s1
          else match Store.find (((Store.find s1.teams tid).map (·.mem.lines)).getD []) lineNo with
            | none => .ok s1
            | some l => match s1.recallOthers tid lineNo l.phys with
              | none => .error .wait
              | some s2 => .ok s2

/-- Touch some lines of a stash; the first that fails ends it, with what was filled kept. `covers` tells of a line whether the whole access
writes all of it. -/
def State.touchLines (s : State) (tid : Nat) (write : Bool) (covers : Nat → Bool) : List Nat → State × Option AccessFail
  | [] => (s, none)
  | l :: rest =>
    match s.touchLine tid l write (covers l) with
    | .error f => (s, some f)
    | .ok s1 => s1.touchLines tid write covers rest

/-- Where an uncorrectable word of some bytes of a stash lies (R218, R315): in a sector that a present line has been filled from, else in the stash
itself. -/
def State.upsetSite (s : State) (tid off n : Nat) : ErrorSite :=
  let lines := ((Store.find s.teams tid).map (·.mem.lines)).getD []
  let here := (linesOf off n).filterMap fun l => if s.stashUpset tid (l * 128) 128 then Store.find lines l else none
  match (here.flatMap fun w => sectorsOf w.phys 128).find? s.sectorBad with
  | some k => .sector (64 * k)
  | none => .core (tid / 16)

/-- Touch some bytes of a stash: a read of a word with an uncorrectable error fails (R218). -/
def State.touch (s : State) (tid off n : Nat) (write : Bool) (covers : Nat → Bool := fun _ => false) : State × Option AccessFail :=
  match s.touchLines tid write (fun l => covers l || (decide (off ≤ l * 128) && decide (l * 128 + 128 ≤ off + n))) (linesOf off n) with
  | (s1, none) => (s1, if write || !s1.stashUpset tid off n then none else some (.lost (s1.upsetSite tid off n)))
  | r => r

/-- Touch some pieces of a stash that one instruction reads; the first that fails ends it, and its offset is answered. -/
def State.touchPieces (s : State) (tid : Nat) : List (Nat × Nat) → State × Option (AccessFail × Nat)
  | [] => (s, none)
  | p :: rest =>
    match s.touch tid p.1 p.2 false with
    | (s1, some f) => (s1, some (f, p.1))
    | (s1, none) => s1.touchPieces tid rest

/-- Write bytes of a stash: the sectors of the present lines of windows that they touch become dirty (R213). -/
def State.stashPut (s : State) (tid off : Nat) (data : List Byte) : State :=
  s.modTeamMem tid fun m =>
    { m with
      stash := stashWrites m.stash off data
      upset := rewritten m.upset off data.length
      lines := (linesOf off data.length).foldl (fun ls l => match Store.find ls l with
        | none => ls
        | some w =>
          let lo := decide (off < l * 128 + 64)
          let hi := decide (l * 128 + 64 < off + data.length)
          Store.put ls l { w with dirty0 := w.dirty0 || lo, dirty1 := w.dirty1 || hi }) m.lines }

/-- Whether a lease covers some bytes of a stash (R182). -/
def State.leasedBytes (s : State) (tid off n : Nat) : Bool := (linesOf off n).any fun l => s.leased tid l

/-- Whether some bytes of a stash lie outside every window (R211). -/
def State.unbound (s : State) (tid off n : Nat) : Bool := match Store.find s.teams tid with
  | some t => (linesOf off n).all fun l => (t.windowAt (l * 128)).isNone
  | none => true

/-- STASH_LINE_FILL (R213): a touched line of a window that is still absent lands. -/
def execStashLineFill (tid : Nat) (line : Nat) (s : State) : Host.Outcome State Fault Refusal :=
  match s.touchLine tid line false false with
  | .error _ => .next s
  | .ok s1 => .next s1

/-- DIRECTORY_RECALL (R214): the home slice recalls a line from every stash that holds it, unless a lease defers it. -/
def execDirectoryRecall (line : Nat) (s : State) : Host.Outcome State Fault Refusal := .next ((s.directory (lineOf line) true).getD s)

end Sys2Proof.Machine
end

