-- ==== Sys2Proof/Machine/Tensor.lean ====
section
/-! DEFINITION. Tensor records and the elements of a copy (R176 to R178, R298, R301), and the lines that an outstanding copy or
collective of a group still has to touch (R305). -/

namespace Sys2Proof.Machine

/-! ### Records -/

/-- The element size s of a record. -/
def TensorRecord.elemSize (r : TensorRecord) : Nat := if r.fmt = 4 then 128 else 2 ^ r.fmt
/-- The box of a dimension in elements. -/
def TensorRecord.box (r : TensorRecord) (d : Nat) : Nat := r.boxes.getD d 0 + 1
/-- The elements of the box of the dimensions below one. -/
def TensorRecord.below (r : TensorRecord) (d : Nat) : Nat := (upTo d).foldl (fun acc k => acc * r.box k) 1
/-- The elements of the box. -/
def TensorRecord.count (r : TensorRecord) : Nat := r.below 5
/-- The box bytes. -/
def TensorRecord.boxBytes (r : TensorRecord) : Nat := r.elemSize * r.count
/-- The bytes of a tile: the box, and one scale byte for each plank when the record has scales (R301). -/
def TensorRecord.tileBytes (r : TensorRecord) : Nat := r.boxBytes + (if r.fmt = 4 ∧ r.scales ≠ 0 then r.count else 0)

/-- The fields of a tensor record in its 64 bytes. -/
def recordOf (b : List Byte) : TensorRecord :=
  { base := bits (field b 0 8) 55 0
    sizes := (upTo 5).map fun d => field b (8 + 4 * d) 4
    strides := (upTo 4).map fun d => field b (28 + 5 * d) 5
    boxes := (upTo 5).map fun d => field b (48 + d) 1
    planes := bits (field b 53 1) 7 4
    fmt := bits (field b 53 1) 3 0
    rank := bits (field b 54 1) 6 4
    noreplicate := bit (field b 54 1) 1
    edge := bit (field b 54 1) 0
    scales := bits (field b 56 8) 55 0 }

/-- Whether 64 bytes are a valid tensor record (R178). -/
def validRecord (b : List Byte) : Bool :=
  let r := recordOf b
  let s := r.elemSize
  field b 7 1 == 0 && field b 63 1 == 0 && field b 55 1 == 0 && bits (field b 54 1) 7 7 == 0 && bits (field b 54 1) 3 2 == 0 &&
  decide (r.fmt ≤ 4) && decide (1 ≤ r.rank) && decide (r.rank ≤ 5) &&
  ((upTo 5).all fun d =>
    if d < r.rank then r.sizes.getD d 0 != 0
    else r.sizes.getD d 0 == 1 && r.boxes.getD d 0 == 0 && (d == 0 || r.strides.getD (d - 1) 0 == 0)) &&
  r.base % s == 0 && ((upTo 4).all fun d => decide (r.rank ≤ d + 1) || r.strides.getD d 0 % s == 0) &&
  (if r.fmt = 4 then decide (2 ≤ r.planes) && decide (r.planes ≤ 8) else r.planes == 0 && r.scales == 0) &&
  decide (r.boxBytes ≤ 65536)

/-- The position of box element e in a dimension: dimension 0 is fastest (R301). -/
def TensorRecord.pos (r : TensorRecord) (e d : Nat) : Nat := e / r.below d % r.box d

/-- The address of the element at an index (R176). -/
def TensorRecord.addr (r : TensorRecord) (i : Nat → Nat) : Nat :=
  (r.base + r.elemSize * i 0 + (upTo 4).foldl (fun acc d => acc + r.strides.getD d 0 * i (d + 1)) 0) % 2 ^ 56

/-! ### Elements of a copy -/

/-- Where a copy's element lies in global memory: at an address, or outside the tensor. -/
inductive ElemPlace where
  | inside (va : Nat)
  | outside
  deriving DecidableEq, Repr

/-- The coordinate of element e in a dimension (R177, R301): the origin plus the box offset; under CPGATH dimension 1 takes it from
the index list; 0 at and above the rank. -/
def elemCoord (r : TensorRecord) (block : List Word) (index : Option (Nat → Int)) (e d : Nat) : Int :=
  if r.rank ≤ d then 0
  else match index, d with
    | some f, 1 => f (r.pos e 1)
    | _, _ => (block.getD (3 + d) 0).toInt + r.pos e d

/-- The element of the tensor that box element e names: outside coordinates are mirrored, or left out (R177, R301). -/
def elemPlace (r : TensorRecord) (block : List Word) (index : Option (Nat → Int)) (mirrors : Bool) (e : Nat) : ElemPlace :=
  let c (d : Nat) : Int := elemCoord r block index e d
  let within := (upTo r.rank).all fun d => decide (0 ≤ c d) && decide (c d < (r.sizes.getD d 1 : Nat))
  if within then .inside (r.addr fun d => (c d).toNat)
  else if mirrors then .inside (r.addr fun d => if d < r.rank then Num.mirror (c d) (r.sizes.getD d 1) r.noreplicate else 0)
  else .outside

/-- The index list of a CPGATH, in the own stash of its team (R298). -/
def State.indexList (s : State) (c : CopyOp) : Option (Nat → Int) :=
  if c.kind = .cpgath then
    some fun j => (BitVec.ofNat 32 (numOf (s.stashBytes c.tid ((c.block.getD 1 0).toNat % 2 ^ 21 + 4 * j) 4))).toInt
  else none

/-- Where element e of a copy lies in global memory. -/
def State.copyPlace (s : State) (c : CopyOp) (r : TensorRecord) (e : Nat) : ElemPlace :=
  elemPlace r c.block (s.indexList c) (c.kind != .cpout && !r.edge) e

/-- The tile of a copy: team and offset of its stash side; for CPST the source. -/
def State.copyTile (s : State) (c : CopyOp) (r : TensorRecord) : Except FaultCode (Nat × Nat) :=
  s.stashTarget c.tid (c.block.getD 0 0) 0 r.tileBytes
/-- The destination of a CPST. -/
def State.copyDest (s : State) (c : CopyOp) (r : TensorRecord) : Except FaultCode (Nat × Nat) :=
  s.stashTarget c.tid (c.block.getD 1 0) 0 r.tileBytes

/-! ### Lines of outstanding engine operations (R305) -/

/-- The location of a byte of global memory (R221): its physical address; one that no translation reaches keeps its virtual address apart. -/
def State.placeVa (s : State) (core vdev va : Nat) : Nat :=
  match tlbFind (s.core core).mem.tlb vdev (va / 4096), Store.find s.vdevs vdev with
  | some t, _ => t.physAddr va
  | none, some v => match (s.walkBoth (s.partOfCore core) v vdev va .read).1, (s.walkBoth (s.partOfCore core) v vdev va .write).1 with
    | .ok t, _ => t.physAddr va
    | _, .ok t => t.physAddr va
    | _, _ => 2 ^ 60 + va
  | none, none => 2 ^ 60 + va

/-- The location of a byte of a stash (R221): a byte of a bound window is the global byte that it stands for. -/
def State.placeStash (s : State) (tid off : Nat) : Nat :=
  match Store.find s.teams tid with
  | none => 2 ^ 61 + tid * 2 ^ 32 + off
  | some t => match t.windowAt off, Store.find t.mem.lines (off / 128) with
    | none, _ => 2 ^ 61 + tid * 2 ^ 32 + off
    | some _, some l => l.phys + off % 128
    | some _, none => s.placeVa (tid / 16) t.id.vdev (s.stashVa tid off)

/-- The lines that some bytes of a stash touch, by their locations. -/
def State.stashLines (s : State) (tid off n : Nat) : List Nat := (linesOf off n).map fun l => s.placeStash tid (l * 128) / 128
/-- The lines that some bytes of global memory touch, by their locations. -/
def State.globalLines (s : State) (core vdev va n : Nat) : List Nat := (linesOf va n).map fun l => s.placeVa core vdev (l * 128 % 2 ^ 56) / 128

/-- The scale bytes that a tile holds after its box (R301). -/
def TensorRecord.scaleCount (r : TensorRecord) : Nat := if r.fmt = 4 ∧ r.scales ≠ 0 then r.count else 0
/-- The items of a tile in layout order: box elements, then scale bytes. -/
def TensorRecord.items (r : TensorRecord) : Nat := r.count + r.scaleCount
/-- The offset of an item in the tile, and its bytes. -/
def TensorRecord.itemAt (r : TensorRecord) (i : Nat) : Nat × Nat :=
  if i < r.count then (r.elemSize * i, r.elemSize) else (r.boxBytes + (i - r.count), 1)
/-- Where an item of a copy lies in global memory: an element, or the scale byte of a plank (R176). -/
def State.itemPlace (s : State) (c : CopyOp) (r : TensorRecord) (i : Nat) : ElemPlace :=
  if i < r.count then s.copyPlace c r i
  else match s.copyPlace c r (i - r.count) with
    | .inside va => .inside ((r.scales + (va + 2 ^ 56 - r.base) % 2 ^ 56 / 128) % 2 ^ 56)
    | .outside => .outside

/-- What is still to be read and to be written by a copy: the lines of its items that are not done. -/
def State.copyLines (s : State) (c : CopyOp) : List Nat × List Nat :=
  match c.record with
  | none => ([], [])
  | some r =>
    let core := c.tid / 16
    let vdev := ((Store.find s.teams c.tid).map (·.id.vdev)).getD 0
    let left := (upTo (r.items - c.done)).map (· + c.done)
    let inside (e : Nat) : List (Nat × Nat) := match s.itemPlace c r e with
      | .inside va => [(va, (r.itemAt e).2)]
      | .outside => []
    let global (es : List Nat) : List Nat :=
      (distinct ((es.flatMap inside).flatMap fun x => linesOf x.1 x.2)).map fun l => s.placeVa core vdev (l * 128 % 2 ^ 56) / 128
    let tile (p : Except FaultCode (Nat × Nat)) (es : List Nat) : List Nat := match p with
      | .ok (t, o) => (distinct (es.flatMap fun e => linesOf (o + (r.itemAt e).1) (r.itemAt e).2)).map fun l => s.placeStash t (l * 128) / 128
      | .error _ => []
    let moved := left.filter fun e => !(inside e).isEmpty
    match c.kind with
    | .recld => ([], [])
    | .cpin => (global left, tile (s.copyTile c r) moved)
    | .cpgath =>
      let entry (e : Nat) : Nat := (c.block.getD 1 0).toNat % 2 ^ 21 + 4 * r.pos (if e < r.count then e else e - r.count) 1
      (global left ++ distinct ((distinct (left.map entry)).flatMap fun o => s.stashLines c.tid o 4), tile (s.copyTile c r) moved)
    | .cpout => (tile (s.copyTile c r) moved, global left)
    | .cpst => (tile (s.copyTile c r) left, tile (s.copyDest c r) left)

/-- The bytes of an element of a collective (R307). -/
def collElemSize (etype : Nat) : Nat := match etype with
  | 0 | 1 | 2 => 4
  | 3 => 8
  | _ => 2

/-- The number of members of a communicator of a partition. -/
def State.collMembers (s : State) (c : Collective) : Nat :=
  (((s.part (s.partOfCore c.core)).fab.comms.find? fun kv => kv.2.id == c.comm && kv.2.vdev == c.vdev).map (·.2.members.length)).getD 0

/-- The byte lengths of the SRC and DST ranges of a collective. -/
def State.collLengths (s : State) (c : Collective) : Nat × Nat :=
  let n := c.count * collElemSize c.etype
  let m := s.collMembers c
  match c.op with
  | .allGather => (n, m * n)
  | .reduceScatter => (m * n, n)
  | .allReduce | .broadcast => (n, n)

/-- Whether a line, by its location, lies in a range of virtual addresses of a device. -/
def State.rangeHas (s : State) (core vdev va n line : Nat) : Bool :=
  n != 0 && (upTo ((va + n - 1) / 4096 - va / 4096 + 1)).any fun k =>
    let lo := max va ((va / 4096 + k) * 4096)
    let hi := min (va + n) ((va / 4096 + k + 1) * 4096)
    let at' := s.placeVa core vdev (lo % 2 ^ 56)
    decide (at' / 128 ≤ line) && decide (line * 128 < at' + (hi - lo))

/-- The multicasts of a group that have still to write some lines: the group's accesses to one location keep program order (R223). -/
def State.mcstHolders (s : State) (gid : Nat) (lines : List Nat) : List Nat :=
  match Store.find s.groups gid with
  | none => []
  | some g => (g.ops.filter fun o => o.kind == .mcst && o.destMask != 0 &&
      (let tids := (lanesIn o.destMask).filterMap fun r => ((Store.find s.teams g.tid).bind fun t => s.peerTeam t.id r).map (·.1)
       tids.any fun tid => o.accesses.any fun a => (s.stashLines tid a.addr (sizeBytes (BitVec.ofNat 3 o.sz))).any lines.contains)).map (·.serial)

/-- The outstanding copies, collectives and multicasts of a group for which an access of it to some lines must wait, by their issue numbers (R305). -/
def State.engineHolders (s : State) (gid : Nat) (lines : List Nat) (store : Bool) : List Nat :=
  if lines.isEmpty then []
  else
    s.mcstHolders gid lines ++
    (((s.core (coreOf gid)).copies.filter fun c =>
      c.gid == gid && c.endClk.isNone &&
      (let (rd, wr) := s.copyLines c
       lines.any fun t => wr.contains t || (store && rd.contains t))).map (·.opSerial)) ++
    (((s.quad (quadOfCore (coreOf gid))).colls.filter fun c =>
      c.gid == gid && (let (n, m) := s.collLengths c
        lines.any fun t => s.rangeHas c.core c.vdev c.dst m t || (store && s.rangeHas c.core c.vdev c.src n t))).map (·.opSerial))

/-- Whether there is one. -/
def State.engineHolds (s : State) (gid : Nat) (lines : List Nat) (store : Bool) : Bool := !(s.engineHolders gid lines store).isEmpty

end Sys2Proof.Machine
end

