-- ==== Sys2Proof/Machine/Global.lean ====
section
/-! DEFINITION. Single accesses to global memory on behalf of a group or an engine: the fabric (R204, R345), replicated pages (R235),
the L1 and the core's ordered store path (R210, R229), the release log (R230 to R234), and the read-modify-writes (R256). -/

namespace Sys2Proof.Machine

/-- On whose behalf an access is made: the core, the team and group, the device and its partition, and the group's issue number of the operation. -/
structure Party where
  core : Nat
  tid : Nat
  gid : Nat
  vdev : Nat
  part : Nat
  serial : Nat := 0
  deriving DecidableEq, Repr

/-- The party of a group of a team. -/
def State.party (s : State) (tid gid : Nat) : Party :=
  match Store.find s.teams tid with
  | some t => ⟨tid / 16, tid, gid, t.id.vdev, t.id.part, 0⟩
  | none => ⟨tid / 16, tid, gid, 0, 0, 0⟩

/-- The quadrants of the partition of a party. -/
def State.membersOf (s : State) (p : Party) : List Nat := (s.part p.part).regs.members

/-! ### The fabric window (R204, R345) -/

/-- The endpoint of a fabric address, and the offset at it. -/
def fabricSplit (a : Nat) : Nat × Nat := (a / 2 ^ 40 % 2048, a % 2 ^ 40)

/-- Where an offset at an endpoint lies in that endpoint's physical memory. -/
def fabricHome (o : Nat) : Nat := if o < 0x4000000000 then o else 0x10000000000 + (o - 0x4000000000)

/-- The partition of this module that has an endpoint number. -/
def State.endpointPart (s : State) (e : Nat) : Option Nat := (s.parts.find? fun kv => kv.2.regs.endpoint == e && !kv.2.regs.members.isEmpty).map (·.1)

/-- Whether firmware of a partition has exported one of its frames to a device, or to the host as 0: no command states it, so it is a free
choice, made once (DESIGN CHOICE, log 19). -/
def State.exported (s : State) (part frame vdev : Nat) : Bool × State :=
  match (s.part part).fab.exports.find? fun e => e.1 == frame && e.2.1 == vdev with
  | some e => (e.2.2, s)
  | none =>
    let (b, s1) := s.choose
    (b, s1.modFab part fun f => { f with exports := (frame, vdev, b) :: f.exports })

/-- Whether a frame belongs to a device, and its home to a partition. -/
def State.frameHere (s : State) (part a : Nat) : Bool :=
  isDeviceMemory a && decide (1 ≤ s.ownerOf a) && decide (s.ownerOf a ≤ 64) && (match homeQuad (s.part part).regs.members a with
    | some q => (s.part part).regs.members.contains q
    | none => false)

/-- Whether a quadrant serves its memory: in a rest it does not (R415). -/
def State.quadServes (s : State) (q : Nat) : Bool := (s.quad q).power == .active

/-- Where a forwarded access lands (R358): at the destination of a device that has left, when this module holds it, or elsewhere. With no entry any more
the access completes with an abort. -/
def State.forwarded (s : State) (q phys : Nat) : Except AccessFail (Option (Nat × Nat)) × State :=
  match (s.part q).fab.forwarding.findSome? fun f => (f.2.frames.find? fun x => x.1 == frameOf phys).map fun x => (f.2, x.2) with
  | none => (.error (.fault .remoteUnreachable), s)
  | some (f, gpa) => match s.endpointPart f.endpoint with
    | none => (.ok none, s)
    | some d => match s.vdevs.find? fun kv => kv.2.ctx.ctxid == f.ctxid && descPart kv.2.desc == d with
      | none => (.error (.fault .remoteUnreachable), s)
      | some kv => match s.guestPage d kv.1 (gpa + phys % 65536) with
        | (s1, .error (.unpulled _)) => (.error .wait, s1)
        | (s1, .error f) => (.error f, s1)
        | (s1, .ok a) => (.ok (some (d, a)), s1)

/-- How the endpoint of a partition of this module serves an access to a frame of it that it has exported (R204, R345, R356 to R358, R415): where the access
is performed. While the frame is on its way the access waits. -/
def State.fabricServe (s : State) (q phys : Nat) : Except AccessFail (Option (Nat × Nat)) × State :=
  if !((homeQuad (s.part q).regs.members phys).any s.quadServes) then (.error (.fault .remoteUnreachable), s)
  else match Store.find s.vdevs (s.ownerOf phys) with
    | none => if (s.part q).fab.departed.contains (frameOf phys) then s.forwarded q phys else (.error (.fault .ownership), s)
    | some v =>
      if v.mig.incoming then match pullCheck v phys with
        | .ok () => (.ok (some (q, phys)), s)
        | .error (.unpulled _) => (.error .wait, s)
        | .error f => (.error f, s)
      else if v.mig.phase ≤ 1 then (.ok (some (q, phys)), s)
      else if v.mig.phase ≤ 3 then (.error .wait, s)
      else s.forwarded q phys

/-- The permissions of a device's access to a frame of an endpoint (R204, R333, R337): of the remote cache, which keeps what the target has granted, and
never a refusal; else as the target answers. What another module's firmware has exported is a free choice (DESIGN CHOICE, log 19). -/
def State.fabricEntry (s : State) (p : Party) (e frame : Nat) : Option RemoteEntry × State :=
  match (s.part p.part).fab.remote.find? fun r => r.endpoint == e && r.frame == frame && r.vdev == p.vdev with
  | some r => (some r, s)
  | none =>
    let (r, w, s1) : Bool × Bool × State := match s.endpointPart e with
      | some q =>
        let f := frameOf (fabricHome (frame * 65536))
        if !s.frameHere q (f * 65536) && !(s.part q).fab.departed.contains f then (false, false, s)
        else
          let (yes, s1) := s.exported q f p.vdev
          (yes, yes, s1)
      | none =>
        let (r, s1) := s.choose
        let (w, s2) := s1.choose
        (r, w, s2)
    if !r && !w then (none, s1)
    else
      let entry : RemoteEntry := { vdev := p.vdev, endpoint := e, frame := frame, r := r, w := w }
      (some entry, s1.modFab p.part fun f => { f with remote := (entry :: f.remote).take 256 })

/-- Reach a fabric address (R204, R333, R345): the partition and the physical address when the access is performed in this module, none when another module
performs it. An endpoint that refuses answers with an abort, and so does one that has been reset, powered down or unlinked; whether another module has is
a free choice (DESIGN CHOICE, log 19). -/
def State.fabricReach (s : State) (p : Party) (a : Nat) (write : Bool) : Except AccessFail (Option (Nat × Nat) × State) :=
  let (e0, o) := fabricSplit a
  let fab := (s.part p.part).fab
  let e := Store.get e0 fab.moved e0
  if fab.unreachable.contains e then .error (.fault .remoteUnreachable)
  else match s.fabricEntry p e (o / 65536) with
    | (none, _) => .error (.fault .ownership)
    | (some r, s1) =>
      if !(if write then r.w else r.r) then .error (.fault .ownership)
      else match s1.endpointPart e with
        | some q => match s1.fabricServe q (fabricHome o) with
          | (.ok x, s2) => .ok (x, s2)
          | (.error f, _) => .error f
        | none =>
          let (down, s2) := s1.choose
          if down then .error (.fault .remoteUnreachable) else .ok (none, s2)

/-- An access to another endpoint raises the flit counters of the partition's lowest quadrant, by numbers that are free (R390, DESIGN CHOICE, log 19). -/
def State.countFlits (s : State) (p : Party) : State :=
  let (tx, s1) := s.anyNat (2 ^ 16)
  let (rx, s2) := s1.anyNat (2 ^ 16)
  (s2.count p.part p.vdev 0x103 tx).count p.part p.vdev 0x104 rx

/-- A read through the fabric window, served by the target's LLC (R204, R214, R218); a line that a replicated commit has locked stalls it (R235). The bytes
of another module are free. -/
def State.fabricRead (s : State) (p : Party) (a n : Nat) : Except AccessFail (List Byte × State) :=
  match s.countFlits p |>.fabricReach p a false with
  | .error f => .error f
  | .ok (some (q, phys), s1) =>
    if (s1.lockAt q phys).isSome then .error .wait
    else match s1.badSite phys n with
      | some site => .error (.lost site)
      | none => match s1.coherentRead (s1.part q).regs.members phys n (s1.frameVdev phys) with
        | none => .error .wait
        | some s2 => .ok (memReads s2.mem phys n, s2)
  | .ok (none, s1) => .ok (s1.anyBytes n)

/-- A write through the fabric window; one to a line that a lease covers waits (R214). -/
def State.fabricWrite (s : State) (p : Party) (a : Nat) (data : List Byte) : Except AccessFail State :=
  match s.countFlits p |>.fabricReach p a true with
  | .error f => .error f
  | .ok (some (q, phys), s1) => if s1.writeHeld (lineOf phys) then .error .wait else .ok (s1.coherentWrite (s1.part q).regs.members phys data)
  | .ok (none, s1) => .ok s1

/-! ### Replicated pages (R235) -/

/-- The replica table entry of a physical address. -/
def State.replicaOf (s : State) (p : Party) (a : Nat) : Option (Nat × ReplicaEntry) := s.replicaEntry p.part p.vdev (frameOf a)

/-- The lock on the line of an address (R235). -/
def State.lockOn (s : State) (p : Party) (a : Nat) : Option ReplicaLock := s.lockAt p.part a

/-- The operations of a group that a code ends (R237, R344): the fault is reported where a fault of such an operation is (R87). -/
def State.loseOps (s : State) (gid : Nat) (c : FaultCode) (addr : Nat) (which : LongOp → Bool) : State :=
  s.modOps gid fun l => l.map fun o =>
    if which o && !o.done then { o with failure := some (c, addr), accesses := [], unfinished := 0, hyper := false } else o

/-- Write every replica of a locked line, in one step (R235 step 2, R236); `none` while a lease on a copy of it holds the update (R214), or a set of an
LLC has no place (R205). -/
def State.lockUpdate (s : State) (part : Nat) (l : ReplicaLock) : Option State :=
  let homes := (s.part part).lockHomes l
  if homes.any fun a => s.lineLeased (lineOf a) || s.backHeld (lineOf a) then none
  else homes.foldl (fun acc a => acc.bind fun s => s.applyAt (s.part part).regs.members a l.data) (some s)

/-- Whether the update of a lock must wait. -/
def State.lockWaits (s : State) (part : Nat) (l : ReplicaLock) : Bool := (s.lockUpdate part l).isNone

/-- The second step of a commit (R235): every replica is updated and the lock released. When the owner of a frame of the page has changed, the commit
fails with OWNERSHIP and writes nothing (R344). -/
def State.commitLock (s : State) (part : Nat) (l : ReplicaLock) : State :=
  let free (s : State) : State := s.modPart part fun p => { p with locks := p.locks.filter (· != l) }
  if ((s.part part).lockHomes l).any fun a => s.ownerOf a != l.vdev then (free s).loseOps l.gid .ownership l.va fun o => o.serial == l.serial
  else free ((s.lockUpdate part l).getD s)

/-- Commit the locks that a group holds, as far as nothing holds their updates. -/
def State.commitLocks (s : State) (p : Party) : State :=
  ((s.part p.part).locks.filter fun l => l.gid == p.gid).foldl (fun s l => if s.lockWaits p.part l then s else s.commitLock p.part l) s

/-- The bytes of a replicated address as a core reads them: a locked line stalls, and a dirty copy that a stash holds of the line, which the primary's
directory knows, is written back first (R214, R235). -/
def State.replicaRead (s : State) (p : Party) (e : ReplicaEntry) (a n : Nat) : Except AccessFail (List Byte × State) :=
  let home := e.nearest p.core a
  if (s.lockOn p a).isSome then .error .wait
  else match s.directory (lineOf a) false with
    | none => .error .wait
    | some s0 => match s0.badSite home n with
      | some site => .error (.lost site)
      | none => match s0.coherentRead (s0.membersOf p) home n p.vdev with
        | none => .error .wait
        | some s1 => .ok (memReads s1.mem home n, s1)

/-- Step 1 of a commit (R235): the line is locked in every replica, with the bytes that step 2 will write. -/
def State.replicaLock (s : State) (p : Party) (t : Translation) (idx a : Nat) (data : List Byte) : Except AccessFail State :=
  match s.lockOn p a with
  | some _ => .error .wait
  | none => .ok (s.modPart p.part fun q => { q with locks := q.locks ++ [{ entry := idx, vdev := p.vdev, gid := p.gid, serial := p.serial, va := t.page * 4096 + (a - t.phys * 4096), addr := a, data := data, since := s.mod.tick }] })

/-- A load of a group stalls on a line: the locks on it know from when (R237). -/
def State.noteStall (s : State) (p : Party) (serial line : Nat) : State :=
  let note (l : ReplicaLock) : ReplicaLock :=
    if lineOf l.addr == line && !(l.stalled.any fun x => x.1 == p.gid && x.2.1 == serial) then { l with stalled := l.stalled ++ [(p.gid, serial, s.mod.tick)] } else l
  s.modPart p.part fun q => { q with locks := q.locks.map note }

/-! ### Plain lines -/

/-- A line of the L1 may have been replaced since it was filled: the capacity and associativity of the L1 are not given (R210, DEDUCED, log 9). -/
def State.l1Replace (s : State) (core line : Nat) : State :=
  if Store.has (s.core core).mem.l1 line then
    let (gone, s1) := s.choose
    if gone then s1.l1Drop core line else s1
  else s

/-- Read bytes of one line that is not replicated (R210, R223, R252): a fresh read goes to the home slice, any other may hit the L1. Data
of a sector that is uncorrectable is withheld (R218). -/
def State.plainRead (s : State) (p : Party) (a n : Nat) (fresh : Bool) : Except AccessFail (List Byte × State) :=
  match s.directory (lineOf a) false with
  | none => .error .wait
  | some s1 =>
    let own (s : State) (line : List Byte) : List Byte := (upTo n).map fun k => s.pathByte p.core (a + k) (line.getD (a % 128 + k) 0)
    match (if fresh then none else Store.find (s1.core p.core).mem.l1 (lineOf a)) with
    | some line => .ok (own s1 line, s1)
    | none => match s1.badSite a n with
      | some site => .error (.lost site)
      | none => match s1.llcAccess (s1.membersOf p) a n p.vdev false with
        | none => .error .wait
        | some s2 =>
          let line := memReads s2.mem (lineOf a) 128
          let s3 := if fresh || s2.badAt (lineOf a) 128 || !(s2.holders (lineOf a)).isEmpty then s2
            else s2.modMem p.core fun m => { m with l1 := Store.put m.l1 (lineOf a) line }
          .ok (own s3 line, s3)

/-- Put a store into the core's ordered store path (R140, R229), with the page by which it was translated; it may be performed at once. -/
def State.pathPut (s : State) (p : Party) (page a : Nat) (data : List Byte) (homed : Bool) : State :=
  let s1 := s.modMem p.core fun m =>
    { m with path := m.path ++ [{ gid := p.gid, tid := p.tid, pos := m.pathPos, addr := a, data := data, vdev := p.vdev, page := page, homed := homed }], pathPos := m.pathPos + 1 }
  let (now, s2) := s1.choose
  if now then s2.drainPath p.core none else s2

/-! ### The release log (R230 to R234) -/

/-- Promote an entry of a core's release log (R232). -/
def State.promote (s : State) (core : Nat) (e : ReleaseEntry) : State := (s.drainPath core (some e.pos)).writeBackTeam e.tid

/-- Promote and remove the entries of a core's log for a line (R233). -/
def State.probeCore (s : State) (core line : Nat) : State :=
  let hits := (s.core core).mem.log.filter fun e => e.line == line
  (hits.foldl (fun s e => s.promote core e) s).modMem core fun m => { m with log := m.log.filter fun e => e.line != line }

/-- Whether a promotion that a probe for a line asks of a core must wait for a lease (R214, R232). -/
def State.probeWaits (s : State) (core line : Nat) : Bool := (s.core core).mem.log.any fun e => e.line == line && s.pathWaits core (some e.pos)

/-- The cores of a partition. -/
def State.coresOfPart (s : State) (part : Nat) : List Nat := (s.part part).regs.members.flatMap fun q => (upTo 48).map (48 * q + ·)

/-- The entry that a core must promote before its log takes a line (R231). -/
def CoreMem.logVictim (m : CoreMem) (line : Nat) : Option ReleaseEntry :=
  if m.log.length < 16 || (m.log.any fun x => x.line == line) then none else m.log.head?

/-- Whether a team-scope release to a line must wait: for the promotion that makes room in the log, or, while the line is in the probe set, for
the path (R231, R233). -/
def State.logWaits (s : State) (p : Party) (line : Nat) : Bool :=
  if (s.part p.part).probes.contains line then s.pathWaits p.core
  else match (s.core p.core).mem.logVictim line with
    | some e => s.pathWaits p.core (some e.pos)
    | none => false

/-- Make room in a core's log for a line before a team-scope release to it takes effect (R231). -/
def State.logRoom (s : State) (core line : Nat) : State :=
  match (s.core core).mem.logVictim line with
  | none => s
  | some e => (s.promote core e).modMem core fun m => { m with log := m.log.drop 1 }

/-- Log a team-scope release to a line (R231); while the line is in the probe set it is performed at device scope (R233). -/
def State.logRelease (s : State) (p : Party) (line : Nat) : State :=
  if (s.part p.part).probes.contains line then (s.drainPath p.core none).writeBackTeam p.tid
  else s.modMem p.core fun m => { m with log := (m.log.filter fun e => e.line != line) ++ [⟨line, p.tid, m.pathPos - 1⟩] }

/-- RELEASE_LOG_PROBE (R233). -/
def execReleaseLogProbe (core : Nat) (line : Nat) (s : State) : Host.Outcome State Fault Refusal :=
  if s.probeWaits core (lineOf line) then .next s else .next (s.probeCore core (lineOf line))

/-- A lock on which a load has been stalled for 2 µs (R237): an operation that is open, or an instruction that waits at its issue. -/
def State.lockOverdue (s : State) (l : ReplicaLock) : Bool :=
  (l.stalled.any fun x => decide (x.2.2 + 168000 ≤ s.mod.tick) && (match Store.find s.groups x.1 with
    | some g => g.ops.any fun o => o.serial == x.2.1 && !o.done && o.failure.isNone
    | none => false)) ||
  s.groups.any fun kv => kv.2.stops.wait == .lock (lineOf l.addr) && decide (kv.2.stops.waitFrom + 168000 ≤ s.mod.tick)

/-- Firmware completes a broken commit (R237): it marks the replicas that it cannot reach, which are free, as invalid, and updates the others. -/
def State.breakLock (s : State) (part : Nat) (l : ReplicaLock) : State :=
  let s1 := match Store.find (s.part part).replicas l.entry with
    | none => s
    | some e =>
      let (rs, s1) := e.replicas.foldl (fun (acc : List Replica × State) (r : Replica) =>
        let (gone, s') := acc.2.choose
        (acc.1 ++ [if gone then { r with valid := false } else r], s')) ([], s)
      s1.modPart part fun p => { p with replicas := Store.put p.replicas l.entry { e with replicas := rs } }
  if s1.lockWaits part l then s1 else s1.commitLock part l

/-! ### Read-modify-writes (R256) -/

/-- A floating format by the size of an atomic. -/
def atomFmt (n : Nat) : Num.Fmt := if n = 8 then Num.b64 else Num.b32

/-- The new value of a location of n bytes (R256): from the old one, the operand, and for CAS the comparand. -/
def atomNew (op : AtomOp) (g : BitVec 32) (n old x cmp : Nat) : Nat :=
  let m := 2 ^ (8 * n)
  let sg (v : Nat) : Int := if 2 * v < m then v else (v : Int) - m
  match op with
  | .add => (old + x) % m
  | .min => if sg x < sg old then x else old
  | .max => if sg old < sg x then x else old
  | .minu => min old x
  | .maxu => max old x
  | .and => old &&& x
  | .or => old ||| x
  | .xor => old ^^^ x
  | .exch => x
  | .cas => if old = cmp then x else old
  | .fadd => Num.fadd (atomFmt n) (floatCtl g) old x
  | .fmin => Num.fmin (atomFmt n) (floatCtl g) old x
  | .fmax => Num.fmax (atomFmt n) (floatCtl g) old x

/-- The operand and the comparand of a read-modify-write, from the bytes that its lane presents (R256). -/
def atomOperands (op : AtomOp) (n : Nat) (data : List Byte) : Nat × Nat :=
  if op = .cas then (numOf ((data.drop n).take n), numOf (data.take n)) else (numOf (data.take n), 0)

/-- Read, modify and write some bytes at the home of a translated address (R229, R257): the old bytes and the state. Under a
replicated page the write commits in two steps, and the old bytes are those at the lock (R235). -/
def State.rmwAt (s : State) (p : Party) (t : Translation) (a n : Nat) (new : Nat → Nat) : Except AccessFail (List Byte × State) :=
  match regionOf a with
  | .fabric =>
    match s.countFlits p |>.fabricReach p a true with
    | .error f => .error f
    | .ok (some (q, phys), s1) => match s1.badSite phys n with
      | some site => .error (.lost site)
      | none =>
        if s1.writeHeld (lineOf phys) then .error .wait
        else
          let old := s1.seen phys n
          .ok (old, s1.coherentWrite (s1.part q).regs.members phys (bytesOf n (new (numOf old))))
    | .ok (none, s1) => .ok (s1.anyBytes n)
  | _ =>
    match s.badSite a n with
    | some site => .error (.lost site)
    | none =>
      if t.repl then
        let s0 := s.commitLocks p
        match s0.replicaOf p a with
        | none => .error (.fault .permission)
        | some (idx, _) => match s0.coherentRead (s0.membersOf p) a n p.vdev with
          | none => .error .wait
          | some s1 =>
            let old := s1.seen a n
            match s1.replicaLock p t idx a (bytesOf n (new (numOf old))) with
            | .error f => .error f
            | .ok s2 => .ok (old, s2)
      else if s.pathWaits p.core || s.writeHeld (lineOf a) then .error .wait
      else
        match s.directory (lineOf a) true with
        | none => .error .wait
        | some s1 => match s1.llcAccess (s1.membersOf p) a n p.vdev true with
          | none => .error .wait
          | some s2 =>
            let s3 := (s2.drainPath p.core none).l1Drop p.core (lineOf a)
            let old := memReads s3.mem a n
            .ok (old, { s3 with mem := memWrites s3.mem a (bytesOf n (new (numOf old))) })

/-- Read bytes of a translated address (R252). A load that is not fresh looks its line up in the L1 (R390). -/
def State.readAt (s : State) (p : Party) (t : Translation) (a n : Nat) (fresh : Bool) : Except AccessFail (List Byte × State) :=
  match regionOf a with
  | .fabric => s.fabricRead p a n
  | _ =>
    if t.repl then
      match (s.commitLocks p).replicaOf p a with
      | none => .error (.fault .permission)
      | some (_, e) => (s.commitLocks p).replicaRead p e a n
    else
      if fresh then s.plainRead p a n true
      else
        let s1 := s.l1Replace p.core (lineOf a)
        let lookup := if Store.has (s1.core p.core).mem.l1 (lineOf a) then 0x007 else 0x008
        (s1.count (quadOfCore p.core) p.vdev lookup 1).plainRead p a n false

/-- Write bytes at a translated address (R252): into the ordered store path, over the fabric, or under a replicated commit. A write of a part of a
sector of which the data is uncorrectable only raises the interrupt (R205, R218). `page` is its virtual page, `covers` tells of a sector whether the
whole instruction writes all of it, and `first` whether this write is the first of its instruction in its sector. -/
def State.writeAt (s : State) (p : Party) (t : Translation) (page : Nat) (covers : Nat → Bool) (first : Bool) (a : Nat) (data : List Byte) : Except AccessFail State :=
  match regionOf a with
  | .fabric => s.fabricWrite p a data
  | _ =>
    if t.repl then
      let s0 := s.commitLocks p
      match s0.replicaOf p a with
      | none => .error (.fault .permission)
      | some (idx, _) => s0.replicaLock p t idx a data
    else if s.lineLeased (lineOf a) then
      -- the path keeps it until the lease clears; nothing of the line changes before (R182, R214)
      .ok (s.pathPut p page a data false)
    else match s.directory (lineOf a) true with
      | none => .error .wait
      | some s1 => match s1.llcAccess (s1.membersOf p) a data.length p.vdev true covers with
        | none => .error .wait
        | some s2 =>
          let lost := if first then (sectorsOf a data.length).filter fun k => s1.sectorBad k && s2.sectorBad k else []
          .ok ((lost.foldl (fun s k => s.detect (.sector (64 * k))) s2).pathPut p page a data true)

end Sys2Proof.Machine
end

