-- ==== Sys2Proof/Machine/Memory.lean ====
section
/-! DEFINITION. The global accesses of a group (R138 to R141, R247 to R261, R264, R265): their issue, which opens a lookahead window
(R85), and the event in which they are performed, complete, or report a fault (R87, R251). -/

namespace Sys2Proof.Machine

/-! ### Transfers (R249) -/

/-- The words that a load writes, from the bytes that it reads (R138, R249). -/
def loadWords (z : Nat) (b : List Byte) : List Word :=
  if z = 1 then [(BitVec.ofNat 8 (numOf b)).signExtend 32]
  else if z = 3 then [(BitVec.ofNat 16 (numOf b)).signExtend 32]
  else (upTo ((b.length + 3) / 4)).map fun k => BitVec.ofNat 32 (numOf ((b.drop (4 * k)).take 4))

/-- The bytes that a store takes from words (R138, R249). -/
def storeBytes (n : Nat) (ws : List Word) : List Byte := (ws.flatMap fun w => bytesOf 4 w.toNat).take n

/-- The words of consecutive vector registers in a lane. -/
def Regs.laneWords (r : Regs) (d k l : Nat) : List Word := (upTo k).map fun i => (r.vec (d + i)).at l

/-- The words of consecutive scalar registers. -/
def Regs.scWords (r : Regs) (d k : Nat) : List Word := (upTo k).map fun i => r.sc (d + i)

/-- Write words into consecutive scalar registers. -/
def Regs.putScWords (r : Regs) (d : Nat) : List Word → Regs
  | [] => r
  | w :: rest => (r.setSc d w).putScWords (d + 1) rest

/-- Write lane results into consecutive vector registers: word i of a lane goes to register d + i. The lanes of `all` are those that the
instruction has written so far, whose brine lanes are valid (R101). -/
def Regs.putLanes (r : Regs) (d k : Nat) (all : Mask) (clk : Nat) (res : List (Nat × List Word)) : Regs :=
  (upTo k).foldl (fun r i =>
    r.setVec all clk (d + i) (lanesBy fun l => match res.find? fun x => x.1 == l with
      | some x => x.2.getD i 0
      | none => (r.vec (d + i)).at l)) r

/-! ### Issue (R85, R86) -/

/-- The virtual address of a lane (R247). -/
def Regs.laneVa (r : Regs) (a : BitVec 7) (off : Int) (l : Nat) : Nat := (((r.vecAddr a.toNat l : Int) + off) % 2 ^ 56).toNat

/-- The virtual address of a scalar access (R138). -/
def Regs.scVa (r : Regs) (a : BitVec 7) (off : Int) : Nat := (((r.scAddr a.toNat : Int) + off) % 2 ^ 56).toNat

/-- A long-latency operation at its issue, with a window of LA instructions. -/
def newOp (x : Issue) (g : Group) (kind : LongKind) (la : BitVec 4) (regs : List Span) : LongOp :=
  { kind := kind, serial := g.issued, pc := x.pc, slot := x.slot, mask := x.mask, issueClk := x.clk, window := la.toNat, regs := regs,
    gmode := g.regs.gmode, la := la.toNat, tile := g.eng.tag.map fun _ => g.eng.tagSlot }

/-- The operation opens its window. When it will be performed is free (R87, DESIGN CHOICE, log 8); one without an access completes 1 clk after issue
(R249). -/
def State.openOp (s : State) (x : Issue) (o : LongOp) : State :=
  let (k, s1) := if o.accesses.isEmpty then (0, s) else s.anyNat (2 ^ 32)
  s1.modOps x.gid fun l => l ++ [{ o with dueClk := x.clk + 1 + k }]

/-- Alignment (R141, R251): when the address of any lane is not a multiple of the size, no lane makes an access. -/
def LongOp.aligned (o : LongOp) (n : Nat) : LongOp :=
  match o.accesses.find? fun a => a.addr % n != 0 with
  | some a => { o with accesses := [], failure := some (.misaligned, a.addr) }
  | none => o

/-- Set the unrewindable flag (R110). -/
def State.setUnrew (s : State) (gid : Nat) : State := s.modFlow gid fun f => { f with unrew := true }

/-- Issue a global access of n bytes for each of its lanes, unless an engine operation of the group holds a line of it (R305). -/
def openAccess (s : State) (x : Issue) (o : LongOp) (n : Nat) (store : Bool) : Res :=
  match s.engineHolders x.gid (o.accesses.flatMap fun a => s.globalLines x.core (s.party x.tid x.gid).vdev a.addr n) store with
  | h :: hs => .wait (.order (h :: hs))
  | [] => .done ((if store then s.setUnrew x.gid else s).openOp x (o.aligned n))

/-- The accesses of the active lanes of an instruction. -/
def laneAccesses (r : Regs) (x : Issue) (a : BitVec 7) (off : Int) (data : Nat → List Byte) : List LaneAccess :=
  (lanesIn x.act).map fun l => { lane := l, addr := r.laneVa a off l, data := data l }

/-- LD (R252). -/
def execLd (d : BitVec 7) (a : BitVec 7) (l : BitVec 4) (z : BitVec 3) (f : BitVec 4) (s : State) : Host.Outcome State Fault Refusal :=
  issue s (.ld d a l z f) fun s x g =>
    let n := sizeBytes z
    openAccess s x { newOp x g .ld l [⟨.V, d.toNat, sizeRegs z⟩] with
      sz := z.toNat, dest := d.toNat, destMask := x.act, accesses := laneAccesses g.regs x a (offBytes f n) fun _ => [] } n false

/-- ST (R252). -/
def execSt (d : BitVec 7) (a : BitVec 7) (l : BitVec 4) (z : BitVec 3) (f : BitVec 4) (s : State) : Host.Outcome State Fault Refusal :=
  issue s (.st d a l z f) fun s x g =>
    let n := sizeBytes z
    openAccess s x { newOp x g .st l [⟨.V, d.toNat, sizeRegs z⟩] with
      sz := z.toNat, dest := d.toNat, destMask := x.act,
      accesses := laneAccesses g.regs x a (offBytes f n) fun k => storeBytes n (g.regs.laneWords d.toNat (sizeRegs z) k) } n true

/-- SLD (R138, R139): one access for the whole group. -/
def execSld (d : BitVec 7) (a : BitVec 7) (l : BitVec 4) (z : BitVec 3) (f : BitVec 4) (s : State) : Host.Outcome State Fault Refusal :=
  issue s (.sld d a l z f) fun s x g =>
    let n := sizeBytes z
    openAccess s x { newOp x g .sld l [⟨.S, d.toNat, sizeRegs z⟩] with
      sz := z.toNat, dest := d.toNat, destMask := x.mask,
      accesses := [{ lane := 0, addr := g.regs.scVa a (offBytes f n) }] } n false

/-- SST (R138, R139). -/
def execSst (d : BitVec 7) (a : BitVec 7) (l : BitVec 4) (z : BitVec 3) (f : BitVec 4) (s : State) : Host.Outcome State Fault Refusal :=
  issue s (.sst d a l z f) fun s x g =>
    let n := sizeBytes z
    openAccess s x { newOp x g .sst l [⟨.S, d.toNat, sizeRegs z⟩] with
      sz := z.toNat, dest := d.toNat, destMask := x.mask,
      accesses := [{ lane := 0, addr := g.regs.scVa a (offBytes f n), data := storeBytes n (g.regs.scWords d.toNat (sizeRegs z)) }] } n true

/-- ATOM (R256 to R258). -/
def execAtom (d : BitVec 7) (a : BitVec 7) (l : BitVec 4) (z : BitVec 3) (o : AtomOp) (s : State) : Host.Outcome State Fault Refusal :=
  issue s (.atom d a l z o) fun s x g =>
    let n := sizeBytes z
    openAccess s x { newOp x g (.atom o) l [⟨.V, d.toNat, atomRegs z o⟩] with
      sz := z.toNat, dest := d.toNat, destMask := x.act,
      accesses := laneAccesses g.regs x a 0 fun k => storeBytes (4 * atomRegs z o) (g.regs.laneWords d.toNat (atomRegs z o) k) } n true

/-- ACQRM (R261). -/
def execAcqrm (d : BitVec 7) (a : BitVec 7) (l : BitVec 4) (z : BitVec 3) (f : BitVec 4) (s : State) : Host.Outcome State Fault Refusal :=
  issue s (.acqrm d a l z f) fun s x g =>
    let n := sizeBytes z
    openAccess s x { newOp x g .acqrm l [⟨.V, d.toNat, sizeRegs z⟩] with
      sz := z.toNat, dest := d.toNat, destMask := x.act, accesses := laneAccesses g.regs x a (offBytes f n) fun _ => [] } n false

/-- REDLD (R264, R265): it counts in c2. -/
def execRedld (d : BitVec 7) (a : BitVec 7) (l : BitVec 4) (z : BitVec 3) (f : BitVec 4) (s : State) : Host.Outcome State Fault Refusal :=
  issue s (.redld d a l z f) fun s x g =>
    let n := sizeBytes z
    if 255 ≤ g.eng.count 2 then .wait (.full 2)
    else openAccess (s.modEng x.gid fun e => e.begin 2 g.issued) x { newOp x g .redld l [⟨.V, d.toNat, sizeRegs z⟩] with
      sz := z.toNat, dest := d.toNat, destMask := x.act, accesses := laneAccesses g.regs x a (offBytes f n) fun _ => [] } n false

/-- PREF (R255): the line of each lane and the lines after it; a misaligned address drops its request (DEDUCED, log 20). -/
def execPref (h : BitVec 7) (a : BitVec 7) (l : BitVec 4) (z : BitVec 3) (f : BitVec 4) (s : State) : Host.Outcome State Fault Refusal :=
  issue s (.pref h a l z f) fun s x g =>
    let lines (n : Nat) : List LaneAccess := (upTo (2 ^ z.toNat)).map fun k =>
      { lane := n, addr := (g.regs.laneVa a (f.toInt * 128) n + 128 * k) % 2 ^ 56 }
    let aligned (n : Nat) : Bool := g.regs.laneVa a (f.toInt * 128) n % 128 == 0
    .done (s.openOp x { newOp x g (.pref h.toNat) l [] with accesses := ((lanesIn x.act).filter aligned).flatMap lines })

/-! ### Ordering (R222, R225, R250) -/

/-- The scope of an operation (R222). -/
def LongOp.scope (o : LongOp) : Nat := match o.kind with
  | .acqrm => max 3 (memScope o.gmode)
  | .redld => 4
  | .sigwait => max 2 (memScope o.gmode)
  | _ => memScope o.gmode

/-- Whether an operation acquires (R222). -/
def LongOp.acquires (o : LongOp) : Bool := match o.kind with
  | .acqrm | .sigwait => true
  | .ld | .sld | .redld | .lds | .atom _ | .atoms _ => Sys2Proof.Machine.acquires (memOrder o.gmode)
  | _ => false

/-- Whether an operation releases (R222). -/
def LongOp.releases (o : LongOp) : Bool := match o.kind with
  | .st | .sst | .sts | .atom _ | .atoms _ => Sys2Proof.Machine.releases (memOrder o.gmode)
  | _ => false

/-- Whether an operation writes memory. -/
def LongOp.writes (o : LongOp) : Bool := match o.kind with
  | .st | .sst | .sts | .atom _ | .atoms _ => true
  | _ => false

/-- Whether an operation reads memory. -/
def LongOp.reads (o : LongOp) : Bool := match o.kind with
  | .ld | .sld | .lds | .atom _ | .atoms _ | .acqrm | .redld | .sigwait => true
  | _ => false

/-- An access instruction that was issued with an empty active(g): it makes no access and takes no part in R225 and R226 (R249). -/
def LongOp.idle (o : LongOp) : Bool := o.destMask == 0 && (match o.kind with
  | .ld | .st | .atom _ | .acqrm | .redld | .lds | .sts | .atoms _ => true
  | _ => false)

/-- The size of an operation's accesses. -/
def LongOp.bytes (o : LongOp) : Nat := sizeBytes (BitVec.ofNat 3 o.sz)

/-- The locations that an operation still has to access, with their numbers of bytes (R221). -/
def State.opPlaces (s : State) (g : Group) (gid : Nat) (o : LongOp) : List (Nat × Nat) :=
  o.accesses.map fun a => match o.kind with
    | .lds | .sts | .atoms _ | .sigwait => (s.placeStash (a.addr / 2 ^ 32) (a.addr % 2 ^ 32), o.bytes)
    | _ => (s.placeVa (coreOf gid) (s.vdevOf g) a.addr, o.bytes)

/-- Whether two lists of locations have a byte in common (R223). -/
def placesMeet (p q : List (Nat × Nat)) : Bool := p.any fun x => q.any fun y => decide (x.1 < y.1 + y.2) && decide (y.1 < x.1 + x.2)

/-- Some bytes of a stash, and some bytes of global memory, as locations: a line at a time (R221). -/
def State.stashPlaces (s : State) (tid off n : Nat) : List (Nat × Nat) :=
  (linesOf off n).map fun l => (s.placeStash tid (max off (128 * l)), min (off + n) (128 * (l + 1)) - max off (128 * l))
def State.globalPlaces (s : State) (core vdev va n : Nat) : List (Nat × Nat) :=
  (linesOf va n).map fun l => (s.placeVa core vdev (max va (128 * l) % 2 ^ 56), min (va + n) (128 * (l + 1)) - max va (128 * l))

/-- What the order of a group's accesses knows of one of them (R223, R225): the group's issue number of it, whether it reads, writes and releases, and
its locations. -/
structure Ordered where
  serial : Nat
  reads : Bool := false
  writes : Bool := false
  releases : Bool := false
  places : List (Nat × Nat) := []

/-- Whether an access must wait for an earlier operation of its group that is not done (R223, R225, R250): an acquire; any when it releases; one that
accesses a common location, except that a load and a store of one location are not ordered inside the window of the first (R86). -/
def State.orders (s : State) (g : Group) (gid : Nat) (a : Ordered) (e : LongOp) : Bool :=
  decide (e.serial < a.serial) && !e.done && e.isAccess && !e.idle &&
  (e.acquires || a.releases ||
   ((e.reads && a.reads || e.writes && a.writes || decide (e.serial + e.la < a.serial)) && placesMeet (s.opPlaces g gid e) a.places))

/-- The operations of a group for which an access of it that issues now must wait. -/
def State.before (s : State) (gid : Nat) (g : Group) (a : Ordered) : List Nat := (g.ops.filter (s.orders g gid a)).map (·.serial)

/-- Whether an operation must wait for an earlier one of its group. -/
def State.follows (s : State) (g : Group) (gid : Nat) (o e : LongOp) : Bool :=
  !o.idle && (match o.kind with
   | .pref _ => false
   | _ => true) && s.orders g gid { serial := o.serial, reads := o.reads, writes := o.writes, releases := o.releases, places := s.opPlaces g gid o } e

/-- Whether an operation must wait for some earlier one of its group. -/
def State.held (s : State) (g : Group) (gid : Nat) (o : LongOp) : Bool := g.ops.any fun e => s.follows g gid o e

/-- The operations for which an instruction with no locations must wait: open acquires, and every open access when it releases (R225, R250). -/
def Group.before (g : Group) (releasing : Bool) : List Nat := (g.ops.filter fun e => !e.done && e.isAccess && !e.idle && (e.acquires || releasing)).map (·.serial)

/-- Whether it must wait. -/
def Group.mustWait (g : Group) (releasing : Bool) : Bool := !(g.before releasing).isEmpty

/-! ### Performing an access -/

/-- A lane's access to a stash, where its place was found at issue: team slot and offset in one address. -/
def stashAddr (tid off : Nat) : Nat := tid * 2 ^ 32 + off

/-- Whether a core's path holds a store to some locations. -/
def State.pathTouches (s : State) (core : Nat) (places : List (Nat × Nat)) : Bool :=
  (s.core core).mem.path.any fun p => placesMeet [(p.addr, p.data.length)] places

/-- The stores of a core's path to some locations are performed before a stash access of the core to them, as far as no lease holds them (R223). -/
def State.settlePath (s : State) (core : Nat) (places : List (Nat × Nat)) : State := if s.pathTouches core places then s.drainPath core none else s

/-- What a load of a core from a stash finds: a store of its path that a lease still holds comes before the bytes of the line (R182, R223). -/
def State.stashSeen (s : State) (core tid off : Nat) (b : List Byte) : List Byte :=
  let at' := s.placeStash tid off
  ((upTo b.length).zip b).map fun x => s.pathByte core (at' + x.1) x.2

/-- Read, write or modify n bytes of a stash (R253, R256): its lines are touched first, and a lease holds a write. `covers` tells of a line whether
the whole instruction writes all of it (R213). -/
def State.stashAccess (s : State) (kind : LongKind) (g : BitVec 32) (tid off n : Nat) (data : List Byte) (covers : Nat → Bool := fun _ => false) :
    Except AccessFail (List Byte × State) :=
  match kind with
  | .lds =>
    match s.touch tid off n false with
    | (_, some f) => .error f
    | (s1, none) => .ok (s1.stashBytes tid off n, s1)
  | .atoms op =>
    if s.leasedBytes tid off n then .error .wait
    else match s.touch tid off n false with
      | (_, some f) => .error f
      | (s0, none) => match s0.touch tid off n true with
        | (_, some f) => .error f
        | (s1, none) =>
          let old := s1.stashBytes tid off n
          let (v, c) := atomOperands op n data
          .ok (old, s1.stashPut tid off (bytesOf n (atomNew op g n (numOf old) v c)))
  | _ =>
    if s.leasedBytes tid off n then .error .wait
    else match s.touch tid off n true covers with
      | (_, some f) => .error f
      | (s1, none) => .ok ([], s1.stashPut tid off data)

/-- Whether an address names a fabric reduction group of a device (R264). -/
def State.reductionGroup (s : State) (p : Party) (a : Nat) : Option ReductionGroup :=
  let e := (fabricSplit a).1
  match regionOf a with
  | .fabric => if 0x780 ≤ e then ((s.part p.part).fab.groups.find? fun kv => kv.2.endpoint == e && kv.2.vdev == p.vdev).map (·.2) else none
  | _ => none

/-- Whether the accesses of an operation together cover `len` bytes from an address that is a multiple of it. -/
def LongOp.covers (o : LongOp) (start len : Nat) : Bool :=
  let n := o.bytes
  decide (len ≤ o.accesses.length * n) && (upTo (len / n)).all fun j => o.accesses.any fun a => a.addr == start + n * j

/-- Perform the access of one lane: the bytes that it reads, or the failure. -/
def State.laneAccess (s : State) (p : Party) (o : LongOp) (a : LaneAccess) : Except AccessFail (List Byte × State) :=
  let n := o.bytes
  let logged := o.releases && o.scope == 1
  match o.kind with
  | .lds => (s.stashAccess .lds o.gmode (a.addr / 2 ^ 32) (a.addr % 2 ^ 32) n []).map fun r =>
    (r.2.stashSeen p.core (a.addr / 2 ^ 32) (a.addr % 2 ^ 32) r.1, r.2)
  | .sts | .atoms _ =>
    s.stashAccess o.kind o.gmode (a.addr / 2 ^ 32) (a.addr % 2 ^ 32) n a.data fun l => o.covers (a.addr / 2 ^ 32 * 2 ^ 32 + 128 * l) 128
  | .st | .sst =>
    match s.translate p.core p.vdev a.addr .write with
    | .error f => .error f
    | .ok (t, s1) =>
      let at' := t.physAddr a.addr
      let first := ((o.accesses.find? fun b => b.addr / 64 == a.addr / 64).map (·.lane)) == some a.lane
      if logged && s1.logWaits p (lineOf at') then .error .wait
      else match (if logged then s1.logRoom p.core (lineOf at') else s1).writeAt p t (a.addr / 4096) (fun _ => o.covers (a.addr / 64 * 64) 64) first at' a.data with
        | .error f => .error f
        | .ok s2 => .ok ([], if logged then s2.logRelease p (lineOf at') else s2)
  | .atom op =>
    match s.translate p.core p.vdev a.addr .update with
    | .error f => .error f
    | .ok (t, s1) =>
      let at' := t.physAddr a.addr
      let (v, c) := atomOperands op n a.data
      if logged && s1.logWaits p (lineOf at') then .error .wait
      else match (if logged then s1.logRoom p.core (lineOf at') else s1).rmwAt p t at' n (fun old => atomNew op o.gmode n old v c) with
        | .error f => .error f
        | .ok (b, s2) => .ok (b, if logged then s2.logRelease p (lineOf at') else s2)
  | .redld =>
    match s.translate p.core p.vdev a.addr .read with
    | .error f => .error f
    | .ok (t, s1) => match s1.reductionGroup p (t.physAddr a.addr) with
      | none => .error (.fault .permission)
      | some _ =>
        let (ok, s2) := s1.choose
        if ok then .ok (s2.anyBytes n) else .error (.fault .remoteUnreachable)
  | _ =>
    match s.translate p.core p.vdev a.addr .read with
    | .error f => .error f
    | .ok (t, s1) => s1.readAt p t (t.physAddr a.addr) n (o.acquires && decide (2 ≤ o.scope))

/-- A request of a PREF for one line; whatever cannot be served is dropped (R255), as are requests to replicated pages and to lines of bound windows. An
uncorrectable error raises the interrupt and faults nothing (R218). -/
def State.prefLine (s : State) (p : Party) (hint va : Nat) : State :=
  match s.translate p.core p.vdev va .read with
  | .error (.lost site) => s.detect site
  | .error _ => s
  | .ok (t, s1) =>
    let a := t.physAddr va
    let bound := s1.teams.any fun kv => kv.2.mem.windows.any fun w => s1.rangeHas (kv.1 / 16) kv.2.id.vdev w.2.va w.2.length (a / 128)
    if t.repl || regionOf a == .fabric || bound || !(s1.holders a).isEmpty then s
    else match s1.badSite a 128 with
      | some site => s.detect site
      | none =>
        if hint = 0 then (match s1.plainRead p a 128 false with
          | .ok (_, s2) => s2
          | .error _ => s)
        else (s1.llcAccess (s1.membersOf p) a 128 p.vdev false).getD s

/-- What a pass over the lanes of an operation has found. -/
structure Pass where
  s : State
  got : List (Nat × List Byte) := []
  left : List LaneAccess := []
  pages : List LaneAccess := []
  hyper : Bool := false
  /-- the lowest lane that has a fault other than a page fault, and where the data that is lost was (R218, R251) -/
  fault : Option (Nat × FaultCode × Nat) := none
  sites : List ErrorSite := []

/-- The fault of the lower lane (R251). -/
def lowestFault : Option (Nat × FaultCode × Nat) → Option (Nat × FaultCode × Nat) → Option (Nat × FaultCode × Nat)
  | none, b => b
  | a, none => a
  | some a, some b => if b.1 < a.1 then some b else some a

/-- The virtual address of a lane's access, for a record (R314): that of a stash access on a bound line, 0 on an unbound one. -/
def State.accessVa (s : State) (o : LongOp) (a : LaneAccess) : Nat := match o.kind with
  | .lds | .sts | .atoms _ | .sigwait => s.stashVa (a.addr / 2 ^ 32) (a.addr % 2 ^ 32)
  | _ => a.addr

/-- What a lane's access reads at the LLC by a walk that fails (R334). -/
def State.accessWalked (s : State) (p : Party) (o : LongOp) (a : LaneAccess) : State := match o.kind with
  | .lds | .sts | .atoms _ | .sigwait => s
  | .st | .sst => s.walked p.core p.vdev a.addr .write
  | .atom _ => s.walked p.core p.vdev a.addr .update
  | _ => s.walked p.core p.vdev a.addr .read

/-- Perform the accesses of some lanes, in ascending order (R221). -/
def Pass.run (p : Party) (o : LongOp) : List LaneAccess → Pass → Pass
  | [], r => r
  | a :: rest, r =>
    let r1 : Pass := match r.s.laneAccess p o a with
      | .ok (b, s1) => { r with s := s1, got := r.got ++ [(a.lane, b)] }
      | .error .wait => { r with left := r.left ++ [a] }
      | .error (.page h) => { r with s := r.s.accessWalked p o a, pages := r.pages ++ [a], hyper := r.hyper || h }
      | .error (.unpulled _) => { r with pages := r.pages ++ [a], hyper := true }
      | .error (.fault c) => { r with s := r.s.accessWalked p o a, fault := lowestFault r.fault (some (a.lane, c, r.s.accessVa o a)) }
      | .error (.lost x) => { r with fault := lowestFault r.fault (some (a.lane, .uncorrectable, r.s.accessVa o a)),
                                     sites := if r.sites.contains x then r.sites else r.sites ++ [x] }
    Pass.run p o rest r1

/-- Change one operation of a group. -/
def State.modOp (s : State) (gid serial : Nat) (f : LongOp → LongOp) : State :=
  s.modOps gid fun l => l.map fun o => if o.serial = serial then f o else o

/-- The lanes of some accesses, as the unfinished mask (R87): the whole slot for a scalar access. -/
def LongOp.lanesOf (o : LongOp) (l : List LaneAccess) : Mask := match o.kind with
  | .sld | .sst => if l.isEmpty then 0 else o.mask
  | _ => maskOf fun n => l.any fun a => a.lane == n

/-- The clks from the landing of a line to the results of a stash access that has waited for its page: the latency of the LDS or the ATOMS, with its
conflicts and hops (R253, R258). -/
def State.landingClks (s : State) (g : Group) (o : LongOp) : Nat :=
  let words := o.accesses.flatMap fun a => (upTo ((o.bytes + 3) / 4)).map fun k => (a.addr / 2 ^ 32, a.addr % 2 ^ 32 / 4 + k)
  let far := (o.accesses.map fun a => if a.addr / 2 ^ 32 = g.tid then 0 else s.farClks g.tid (a.addr / 2 ^ 32)).foldl max 0
  match o.kind with
  | .lds => 20 + (degreePeers words - 1) + far
  | .atoms _ => 24 + (degreePeers words - 1) + far
  | _ => 0

/-- An operation that writes vector registers has completed: a brine register takes the clk of the completion, and its lanes that the operation does
not write become invalid, if it wrote none at all too (R101). -/
def State.stampBack (s : State) (gid : Nat) (o : LongOp) : State :=
  let clk := (s.core (coreOf gid)).clk + ((Store.find s.groups gid).map fun g => s.landingClks g o).getD 0
  match o.kind with
  | .ld | .acqrm | .redld | .atom _ | .lds | .atoms _ =>
    if o.dest < 120 then s
    else s.modRegs gid fun r => (upTo (sizeRegs (BitVec.ofNat 3 o.sz))).foldl (fun r i => r.setVec o.destMask clk (o.dest + i) (r.vec (o.dest + i))) r
  | _ => s

/-- Write what an operation has read into the registers that it names (R249, R256). A regrouping in the meantime does not move the place of a result: it
goes to the positions of the bench slot that issued the operation (R34, DESIGN CHOICE, log 45). -/
def State.writeBack (s : State) (gid : Nat) (o : LongOp) (unfinished : Mask) (got : List (Nat × List Byte)) : State :=
  let late := ((Store.find s.groups gid).map fun g => s.landingClks g o).getD 0
  let clk := (s.core (coreOf gid)).clk + late
  let res := got.map fun x => (x.1, loadWords o.sz x.2)
  let n := sizeRegs (BitVec.ofNat 3 o.sz)
  match o.kind with
  | .sld => s.modRegs gid fun r => r.putScWords o.dest ((res.flatMap (·.2)).take n)
  | .ld | .acqrm | .redld | .atom _ | .lds | .atoms _ =>
    if res.isEmpty then s
    else
      let s1 := s.modRegs gid fun r => r.putLanes o.dest n (o.destMask &&& ~~~unfinished) clk res
      if late = 0 then s1 else s1.modGroup gid fun g => { g with time := { g.time with board := boardPut g.time.board ((upTo n).map (o.dest + ·)) clk } }
  | _ => s

/-- The order in which an ACQRM takes its lanes (R261): the lowest line that a lane reaches, the lanes of it, those of other lines, and those that reach
none. -/
def State.acqrmLine (s : State) (p : Party) (o : LongOp) : Option Nat × List LaneAccess × List LaneAccess × List LaneAccess :=
  let line (a : LaneAccess) : Option Nat := match s.translate p.core p.vdev a.addr .read with
    | .ok (t, _) => some (lineOf (t.physAddr a.addr))
    | .error _ => none
  match leastOf (o.accesses.filterMap line) with
  | none => (none, [], [], o.accesses)
  | some l => (some l, o.accesses.filter (fun a => line a == some l), o.accesses.filter (fun a => (line a).isSome && line a != some l),
      o.accesses.filter fun a => (line a).isNone)

/-- A lane of an operation that still has to be served: the lock on the line that it reads knows from when (R237). -/
def State.noteLane (s : State) (p : Party) (o : LongOp) (a : LaneAccess) : State :=
  let line : Option Nat := match o.kind with
    | .lds | .sts | .atoms _ | .sigwait => s.lockedAt (a.addr / 2 ^ 32) (a.addr % 2 ^ 32) o.bytes
    | _ => some (lineOf (s.placeVa p.core p.vdev a.addr))
  match line with
  | some l => s.noteStall p o.serial l
  | none => s

/-- What follows a pass: lanes that must try again, a fault or a page to report at the end of the window, or completion. The fault is that of the
lowest lane that has one, so the lanes below it are still performed, and no other (R251, R252, R258). A load that acquires at cluster scope or
wider invalidates the core's L1 (R229). -/
def State.endPass (s : State) (p : Party) (o : LongOp) (r : Pass) (later : List LaneAccess) : State :=
  let clk := (s.core p.core).clk
  let s0 := r.sites.foldl (fun s x => s.detect x) (r.s.writeBack p.gid o (o.lanesOf (r.pages ++ r.left ++ later)) r.got)
  let s1 := if !o.reads then s0 else r.left.foldl (fun s a => s.noteLane p o a) s0
  match lowestFault o.bad r.fault with
  | some b =>
    let rest := (r.left ++ later).filter fun a => a.lane < b.1
    if rest.isEmpty then s1.modOp p.gid o.serial fun o => { o with failure := some b.2, accesses := [], unfinished := 0, probing := none }
    else s1.modOp p.gid o.serial fun o => { o with accesses := rest, dueClk := clk + 1, probing := none, bad := some b }
  | none =>
    if !(r.left ++ later).isEmpty then
      s1.modOp p.gid o.serial fun o => { o with accesses := r.left ++ r.pages ++ later, dueClk := clk + 1, probing := none }
    else if (s1.part p.part).locks.any fun l => l.gid == p.gid then
      let (k, s2) := s1.anyNat (2 ^ 32)
      s2.modOp p.gid o.serial fun o => { o with accesses := r.pages, dueClk := clk + 1 + k }
    else match r.pages with
      | a :: _ => s1.modOp p.gid o.serial fun o =>
        { o with failure := some (.pageFault, s1.accessVa o a), accesses := r.pages, unfinished := o.lanesOf r.pages, hyper := r.hyper, probing := none }
      | [] =>
        let s2 := if o.acquires && !o.idle then s1.acquireAt p.core o.scope else s1
        let s3 := (s2.stampBack p.gid o).modOp p.gid o.serial fun o => { o with done := true, accesses := [], unfinished := 0 }
        match o.kind with
        | .redld => s3.finishWork p.gid 2 o.serial
        | _ => s3

/-- Perform an operation as far as it can be performed now. -/
def State.runOp (s : State) (gid : Nat) (g : Group) (o : LongOp) : State :=
  let p := { s.party g.tid gid with serial := o.serial }
  let clk := (s.core p.core).clk
  let later (s : State) : State := s.modOp gid o.serial fun o => { o with dueClk := clk + 1 }
  match o.kind with
  | .pref h => (o.accesses.foldl (fun s a => s.prefLine p h a.addr) s).modOp gid o.serial fun o => { o with done := true, accesses := [] }
  | .mcst => if o.issueClk + 4 ≤ clk then s.modOp gid o.serial fun o => { o with done := true } else s
  | .copy | .coll | .launch | .sigwait => s
  | .acqrm =>
    match s.acqrmLine p o with
    | (none, _, _, rest) => s.endPass p o (Pass.run p o rest { s := s }) []
    | (some line, now, others, rest) =>
      if regionOf line = .fabric then s.endPass p o (Pass.run p o (rest ++ now) { s := s }) others
      else if o.probing = some line then
        if (s.coresOfPart p.part).any fun c => s.probeWaits c line then later s
        else
          let s1 := (s.coresOfPart p.part).foldl (fun s c => s.probeCore c line) s
          let r := Pass.run p o (rest ++ now) { s := s1 }
          { r with s := r.s.modPart p.part fun q => { q with probes := q.probes.erase line } } |> fun r => s.endPass p o r others
      else if 16 ≤ (s.part p.part).probes.length then later s
      else (s.modPart p.part fun q => { q with probes := q.probes ++ [line] }).modOp gid o.serial fun o => { o with probing := some line, dueClk := clk + 1 }
  | _ =>
    if o.releases && !o.idle && decide (2 ≤ o.scope) && s.pathWaits p.core then later s
    else
      let s1 := if o.releases && !o.idle then s.releaseAt p.core p.tid o.scope else s
      let s2 := s1.commitLocks p
      s2.endPass p o (Pass.run p o o.accesses { s := s2 }) []

/-- Report the fault of an operation (R87); one of a team that aborts has no record (R42). The record names the PC of the operation and the PC at which the group resumes. -/
def State.reportOp (s : State) (gid : Nat) (g : Group) (o : LongOp) (c : FaultCode) (addr : Nat) : State :=
  let other := g.flow.slot (1 - o.slot)
  let resume := if (g.flow.slot o.slot).live || !other.live then (g.flow.slot o.slot).pc else other.pc
  let aborted := ((Store.find s.teams g.tid).map fun t => t.sync.aborted).getD true
  let ended : Bool := c ≠ .pageFault || aborted
  let s0 := s.modOp gid o.serial fun o => if ended then { o with failure := none, accesses := [], done := true } else { o with reported := true }
  let s1 := if ended then s0.finishWork gid 2 o.serial else s0
  let trap : Trap :=
    { code := c, pc := o.pc, resume := resume, slot := o.slot, mask := o.mask, aux1 := if c = .pageFault then o.unfinished else 0, addr := addr,
      hyper := o.hyper, serial := some o.serial, noted := true }
  if aborted then s1 else s1.takeFault gid trap

/-- Whether a stall at issue ends with an operation (R85, R106, R225, R305): it names it, or waits for a counter that falls with it first. -/
def Wait.isFor (g : Group) (o : LongOp) : Wait → Bool
  | .order os => os.contains o.serial
  | .full k => (g.eng.out.find? fun w => w.cls == k).any fun w => w.serial == o.serial
  | _ => false

/-- Whether an instruction of the group waits for an operation now: its window is over, the next instruction waits for it, a save does, the group has
stopped or parked inside the window (R316), or no instruction is left to end the window (R87). -/
def Group.awaits (g : Group) (o : LongOp) : Bool :=
  o.window == 0 || g.stops.wait.isFor g o || g.stops.saving.isSome || g.stops.stop.isSome || g.stops.stopNext.isSome || g.stops.parked.isSome || g.flow.exited

/-- Whether a fault of an operation may be reported: no earlier access of the group, of which a fault would come first in its program order, is open
(R314). -/
def Group.reportable (g : Group) (o : LongOp) : Bool := g.stops.pending.isEmpty && g.ops.all fun e => decide (o.serial ≤ e.serial) || e.done || e.reported || !e.faultable

/-- LONG_LATENCY_COMPLETE (R85 to R87, R251): the operation of a group that was its n-th issued instruction is performed, completes, or
reports its fault. -/
def execLongLatencyComplete (gid : Nat) (op : Nat) (s : State) : Host.Outcome State Fault Refusal :=
  match Store.find s.groups gid with
  | none => .next s
  | some g =>
    match g.ops.find? fun o => o.serial == op with
    | none => .next s
    | some o =>
      if o.done || o.reported || s.held g gid o then .next s
      else match o.failure with
        | some (c, a) =>
          if g.awaits o && g.reportable o then .next (s.reportOp gid g o c a) else .next s
        | none => .next (s.runOp gid g o)

/-- REDLD_RESPONSE (R264, R265): the switches answer for a lane of the group's oldest REDLD that still waits for it and that no acquire of the group
holds back (R250). -/
def execRedldResponse (gid : Nat) (lane : Nat) (value : BitVec 64) (reachable : Bool) (s : State) : Host.Outcome State Fault Refusal :=
  match Store.find s.groups gid with
  | none => .next s
  | some g =>
    match g.ops.find? fun o => o.kind == .redld && !o.done && o.failure.isNone && !s.held g gid o && o.accesses.any fun a => a.lane == lane with
    | none => .next s
    | some o =>
      let p := s.party g.tid gid
      match o.accesses.find? fun a => a.lane == lane with
      | none => .next s
      | some a =>
        let later := o.accesses.filter fun b => b.lane != lane
        match s.translate p.core p.vdev a.addr .read with
        | .error _ => .next s
        | .ok (t, s1) =>
          if (s1.reductionGroup p (t.physAddr a.addr)).isNone then .next (s1.endPass p o { s := s1, fault := some (lane, .permission, a.addr) } later)
          else if !reachable then .next (s1.endPass p o { s := s1, fault := some (lane, .remoteUnreachable, a.addr) } later)
          else .next (s1.endPass p o { s := s1, got := [(lane, bytesOf o.bytes value.toNat)] } later)

/-- The next instruction of a group that has waited for a condition issues 2 clk after it is met (R81). -/
def State.departLater (s : State) (x : Issue) : State := s.modGroup x.gid fun g => { g with time := { g.time with nextClk := x.clk + 2 } }

/-- FENCE (R259, R260): it issues once the group's earlier accesses are done, and then meets the condition of its scope. -/
def execFence (f : Bool) (i : BitVec 5) (s : State) : Host.Outcome State Fault Refusal :=
  issue s (.fence f i) fun s x g =>
    let ord := fenceOrder g.regs.gmode f i
    let scope := if f then (i.extractLsb' 0 3).toNat else memScope g.regs.gmode
    if ord = 0 then .done s
    else if (g.ops.any fun e => !e.done && e.isAccess) || (releases ord && decide (2 ≤ scope) && s.pathWaits x.core) then
      .wait (.order ((g.ops.filter fun e => !e.done && e.isAccess).map (·.serial)))
    else
      let s1 := if releases ord then s.releaseAt x.core x.tid scope else s
      .done ((if acquires ord then s1.acquireAt x.core scope else s1).departLater x)

end Sys2Proof.Machine
end

