-- ==== Sys2Proof/Machine/StashMem.lean ====
section
/-! DEFINITION. The stash and lane-store instructions (R253, R254, R256, R258), and the multicast store (R262, R263). -/

namespace Sys2Proof.Machine

/-! ### LDS, STS and ATOMS -/

/-- The effective offset of a lane's offset word is a multiple of the size (R253). -/
def offsetAligned (w : Word) (off : Int) (n : Nat) : Bool := (offsetWord w off).2 % (n : Int) == 0

/-- Where the active lanes of a stash access lie: each lane's team and offset, or the fault of the lowest lane that has one (R248). -/
def State.stashTargets (s : State) (tid : Nat) (r : Regs) (a : BitVec 7) (off : Int) (n : Nat) (data : Nat → List Byte) : List Nat → Except FaultCode (List LaneAccess)
  | [] => .ok []
  | l :: rest =>
    match s.stashTarget tid ((r.vec a.toNat).at l) off n with
    | .error c => .error c
    | .ok (t, o) => match s.stashTargets tid r a off n data rest with
      | .error c => .error c
      | .ok as => .ok ({ lane := l, addr := stashAddr t o, data := data l } :: as)

/-- The bytes of an access to a stash, as the lines that they touch. -/
def State.accessLines (s : State) (n : Nat) (a : LaneAccess) : List Nat := s.stashLines (a.addr / 2 ^ 32) (a.addr % 2 ^ 32) n

/-- The scope at which a stash access acts: device and system act as cluster on unbound bytes (R238). -/
def State.stashScope (s : State) (o : LongOp) (n : Nat) : Nat :=
  if o.accesses.all fun a => s.unbound (a.addr / 2 ^ 32) (a.addr % 2 ^ 32) n then min 2 o.scope else o.scope

/-- A short-latency stash access (R253, R256): what it must wait for, its faults, and its effect; the lanes of lines on pages that are
not present are left unfinished, and the group parks (R213). -/
def stashIssue (s : State) (x : Issue) (g : Group) (kind : LongKind) (d a : BitVec 7) (z : BitVec 3) (off : Int) (regs : Nat) : Res :=
  let n := sizeBytes z
  let store := match kind with
    | .lds => false
    | _ => true
  if (lanesIn x.act).any fun l => !offsetAligned ((g.regs.vec a.toNat).at l) off n then .trap (x.trap .misaligned)
  else match s.stashTargets x.tid g.regs a off n (fun l => if store then storeBytes (4 * regs) (g.regs.laneWords d.toNat regs l) else []) (lanesIn x.act) with
    | .error c => .trap (x.trap c)
    | .ok accs =>
      let data (b : LaneAccess) : LaneAccess := match kind with
        | .sts => { b with data := b.data.take n }
        | _ => b
      let o : LongOp := { newOp x g kind 0 [] with sz := z.toNat, dest := d.toNat, destMask := x.act, accesses := accs.map data, dueClk := x.clk + 1 }
      let rel := o.releases && !o.idle
      let places := s.opPlaces g x.gid o
      let s0 := s.settlePath x.core places
      let after := (g.ops.filter (s.follows g x.gid o)).map (·.serial) ++ s.engineHolders x.gid (accs.flatMap (s.accessLines n)) store
      if !after.isEmpty || (rel && decide (2 ≤ s.stashScope o n) && s.pathWaits x.core) || (store && s0.pathTouches x.core places && !accs.isEmpty) then
        .wait (if after.isEmpty && store && accs.any fun b => s.leasedBytes (b.addr / 2 ^ 32) (b.addr % 2 ^ 32) n then .lease else .order after)
      else if store && accs.any fun b => s.leasedBytes (b.addr / 2 ^ 32) (b.addr % 2 ^ 32) n then .wait .lease
      else
        let s1 := if rel then s0.releaseAt x.core x.tid (s.stashScope o n) else s0
        let r := Pass.run (s.party x.tid x.gid) o o.accesses { s := s1 }
        match r.fault with
        | some (_, c, addr) => .trap { x.trap c with addr := addr, sites := r.sites }
        | none =>
          if !r.left.isEmpty then
            .wait (((r.left.findSome? fun b => s1.lockedAt (b.addr / 2 ^ 32) (b.addr % 2 ^ 32) n).map Wait.lock).getD .stall)
          else
            let s2 := match kind with
              | .atoms _ => r.s.setUnrew x.gid
              | _ => r.s
            let s3 := match kind with
              | .sts => s2
              | _ => s2.modRegs x.gid fun q => q.putLanes d.toNat (sizeRegs z) (x.act &&& ~~~o.lanesOf r.pages) x.ready
                  (r.got.map fun b => (b.1, loadWords z.toNat b.2))
            match r.pages with
            | [] => .done (if o.acquires && !o.idle then s3.acquireAt x.core (s.stashScope o n) else s3)
            | b :: _ => .done (s3.modOps x.gid fun l => l ++
                [{ o with failure := some (.pageFault, s3.accessVa o b), accesses := r.pages, unfinished := o.lanesOf r.pages, hyper := r.hyper }])

/-- LDS (R253). -/
def execLds (d : BitVec 7) (a : BitVec 7) (z : BitVec 3) (f : BitVec 4) (s : State) : Host.Outcome State Fault Refusal :=
  issue s (.lds d a z f) fun s x g => stashIssue s x g .lds d a z (offBytes f (sizeBytes z)) (sizeRegs z)

/-- STS (R253). -/
def execSts (d : BitVec 7) (a : BitVec 7) (z : BitVec 3) (f : BitVec 4) (s : State) : Host.Outcome State Fault Refusal :=
  issue s (.sts d a z f) fun s x g => stashIssue s x g .sts d a z (offBytes f (sizeBytes z)) (sizeRegs z)

/-- ATOMS (R256 to R258). -/
def execAtoms (d : BitVec 7) (a : BitVec 7) (z : BitVec 3) (o : AtomOp) (s : State) : Host.Outcome State Fault Refusal :=
  issue s (.atoms d a z o) fun s x g => stashIssue s x g (.atoms o) d a z 0 (atomRegs z o)

/-! ### LDL and STL -/

/-- The bytes of a lane's slice (R209). -/
def Core.sliceBytes (c : Core) : Nat := c.lane * 16

/-- The first fault of some lane-store offsets (R254). -/
def sliceFault (size n : Nat) (offs : List Int) : Option FaultCode :=
  if offs.any fun o => o % (n : Int) != 0 then some .misaligned
  else if offs.any fun o => decide (o < 0) || decide ((size : Int) < o + n) then some .permission
  else none

/-- The offset of a lane in its slice (R247): a 32-bit two's-complement sum. -/
def sliceOffset (w : Word) (off : Int) : Int := (w + BitVec.ofInt 32 off).toInt

/-- Where a lane's slice begins: the slice belongs to the lane, which a regrouping may have moved (R216). -/
def State.sliceBase (s : State) (gid l : Nat) : Nat :=
  (s.homeGroup gid l * 32 + l) * 512

/-- LDL (R254). A word of the lane store with an uncorrectable error faults (R217, R218). -/
def execLdl (d : BitVec 7) (a : BitVec 7) (z : BitVec 3) (f : BitVec 4) (s : State) : Host.Outcome State Fault Refusal :=
  issue s (.ldl d a z f) fun s x g =>
    let n := sizeBytes z
    let off (l : Nat) : Int := sliceOffset ((g.regs.vec a.toNat).at l) (offBytes f n)
    match sliceFault (s.core x.core).sliceBytes n ((lanesIn x.act).map off) with
    | some c => .trap (x.trap c)
    | none =>
      let m := ((Store.find s.teams x.tid).map (·.mem.lane)).getD []
      let bad := ((Store.find s.teams x.tid).map (·.mem.laneUpset)).getD []
      if (lanesIn x.act).any fun l => upsetIn bad (s.sliceBase x.gid l + (off l).toNat) n then .trap (x.trap .uncorrectable)
      else .done (s.modRegs x.gid fun r => r.putLanes d.toNat (sizeRegs z) x.act x.ready
        ((lanesIn x.act).map fun l => (l, loadWords z.toNat (stashReads m (s.sliceBase x.gid l + (off l).toNat) n))))

/-- STL (R254). -/
def execStl (d : BitVec 7) (a : BitVec 7) (z : BitVec 3) (f : BitVec 4) (s : State) : Host.Outcome State Fault Refusal :=
  issue s (.stl d a z f) fun s x g =>
    let n := sizeBytes z
    let off (l : Nat) : Int := sliceOffset ((g.regs.vec a.toNat).at l) (offBytes f n)
    match sliceFault (s.core x.core).sliceBytes n ((lanesIn x.act).map off) with
    | some c => .trap (x.trap c)
    | none =>
      .done (s.modTeamMem x.tid fun m =>
        { m with lane := (lanesIn x.act).foldl (fun st l =>
            stashWrites st (s.sliceBase x.gid l + (off l).toNat) (storeBytes n (g.regs.laneWords d.toNat (sizeRegs z) l))) m.lane,
                 laneUpset := (lanesIn x.act).foldl (fun bad l => rewritten bad (s.sliceBase x.gid l + (off l).toNat) n) m.laneUpset })

/-! ### Engine faults (R289, R319) -/

/-- An operation of class k has ended with a code (R319): the record that its completion will enter, with the slot, mask and PC of its issue, and the
status word as AUX1. -/
def State.engineFault (s : State) (gid cls : Nat) (c : FaultCode) (status : Word) (o : LongOp) (addr : Nat) : State :=
  match Store.find s.groups gid with
  | none => s
  | some g =>
    match Store.find s.teams g.tid with
    | none => s
    | some tm =>
      let rec' : FaultRecord :=
        { kind := FaultKind.engine.code, code := c.code, team := tm.id.number, group := g.number, slot := o.slot, cls := cls,
          mask := o.mask, pc := o.pc, resume := o.pc, aux1 := status, aux2 := 0, addr := addr, time := s.now }
      (s.stampFault gid cls o.serial).modEng gid fun e =>
        { e with out := e.out.map fun w => if w.cls = cls ∧ w.serial = o.serial then { w with record := some (w.record.getD rec') } else w }

/-! ### MCST (R262, R263) -/

/-- The fault of a multicast that its checks find at issue (R262). -/
def mcstFault (t : TeamId) (n : Nat) (base : Int) (w : Word) (m : Nat) (act : Mask) : Option FaultCode :=
  if m / 2 ^ (t.height * t.width) ≠ 0 then some .mcastMaskInvalid
  else if w.extractLsb' 21 11 ≠ 0 then some .permission
  else if base % (n : Int) ≠ 0 then some .misaligned
  else if (lanesIn act).any fun l => decide (base + l * n < 0) || decide ((t.stashBytes : Int) < base + l * n + n) then some .permission
  else none

/-- MCST (R262, R263). -/
def execMcst (d : BitVec 7) (a : BitVec 7) (l : BitVec 4) (z : BitVec 3) (f : BitVec 4) (s : State) : Host.Outcome State Fault Refusal :=
  issue s (.mcst d a l z f) fun s x g =>
    match Store.find s.teams x.tid with
    | none => .done s
    | some t =>
      let n := sizeBytes z
      let w := g.regs.sc a.toNat
      let m := (g.regs.sc (a.toNat + 1)).toNat % 4096
      let m' : Mask := BitVec.ofNat 32 m
      let off : Int := ((w.extractLsb' 0 21).toNat : Int) + offBytes f n
      let rel := releases (memOrder g.regs.gmode)
      let places : List Nat := (lanesIn m').flatMap fun r => match s.peerTeam t.id r with
        | some u => (lanesIn x.act).flatMap fun k => s.stashLines u.1 (off + k * n).toNat n
        | none => []
      let bytes : List (Nat × Nat) := (lanesIn m').flatMap fun r => match s.peerTeam t.id r with
        | some u => (lanesIn x.act).flatMap fun k => s.stashPlaces u.1 (off + k * n).toNat n
        | none => []
      let after := (if x.act = 0 then [] else s.before x.gid g { serial := g.issued, writes := true, releases := rel, places := bytes }) ++
        s.engineHolders x.gid places true
      if 255 ≤ g.eng.count 2 || !after.isEmpty || (rel && x.act != 0 && s.pathWaits x.core) then
        .wait (waitFor (decide (255 ≤ g.eng.count 2)) 2 after)
      else
        let o : LongOp := { newOp x g .mcst l [⟨.V, d.toNat, sizeRegs z⟩] with sz := z.toNat, dest := d.toNat, dueClk := x.clk + 4 }
        let s1 := (s.setUnrew x.gid).modEng x.gid fun e => e.begin 2 o.serial
        match mcstFault t.id n off w m x.act with
        | some c => .done (s1.modOps x.gid fun q => q ++ [{ o with failure := some (c, 0) }])
        | none =>
          if m = 0 ∨ x.act = 0 then
            .done ((s1.modOps x.gid fun q => q ++ [{ o with done := true }]).finishWork x.gid 2 o.serial)
          else
            let s2 := if rel then s1.releaseAt x.core x.tid 2 else s1
            .done (s2.modOps x.gid fun q => q ++
              [{ o with destMask := BitVec.ofNat 32 m, accesses := (lanesIn x.act).map fun k =>
                  { lane := k, addr := (off + k * n).toNat, data := storeBytes n (g.regs.laneWords d.toNat (sizeRegs z) k) } }])

/-- The writes of a multicast at one destination, in ascending lane order: none while a line is leased or must wait, or lies on a frame that has not been
pulled (R357); a page or a permission that fails ends them with that code, at the virtual address of the line. -/
def State.mcstLanes (s : State) (tid n : Nat) (covers : Nat → Bool) : List LaneAccess → Option (State × Option (FaultCode × Nat))
  | [] => some (s, none)
  | a :: rest =>
    match s.stashAccess .sts 0 tid a.addr n a.data covers with
    | .ok (_, s1) => s1.mcstLanes tid n covers rest
    | .error .wait | .error (.unpulled _) => none
    | .error (.page _) => some (s, some (.pageFault, s.stashVa tid a.addr))
    | .error (.fault c) => some (s, some (c, s.stashVa tid a.addr))
    | .error (.lost site) => some (s.detect site, some (.uncorrectable, s.stashVa tid a.addr))

/-- The write of a multicast at a destination, when it can be made now: an unknown rank writes nothing. -/
def State.mcstWrite (s : State) (g : Group) (o : LongOp) (rank : Nat) : Option (State × Option (FaultCode × Nat)) :=
  match ((Store.find s.teams g.tid).bind fun t => s.peerTeam t.id rank).map (·.1) with
  | none => some (s, none)
  | some tid => s.mcstLanes tid o.bytes (fun l => o.covers (128 * l) 128) o.accesses

/-- The clk at which a multicast writes a destination (R263): 20 clk after its issue and more for conflicts and hops, or when it tries again there. -/
def State.mcstClk (s : State) (g : Group) (o : LongOp) (rank : Nat) : Nat :=
  let far := match ((Store.find s.teams g.tid).bind fun t => s.peerTeam t.id rank).map (·.1) with
    | some tid => s.farClks g.tid tid
    | none => 0
  let degree := degreeOf (o.accesses.flatMap fun a => (upTo ((o.bytes + 3) / 4)).map fun k => a.addr / 4 + k)
  max (Store.get 0 o.retry rank) (o.issueClk + 20 + (degree - 1) + far)

/-- Whether a multicast still has to write a rank, and is due there at a clk. One whose lines an older one of its group is still to write has waited for
that at its issue (R245, R305). -/
def State.mcstOpen (s : State) (g : Group) (clk rank : Nat) (o : LongOp) : Bool :=
  o.kind == .mcst && o.destMask.getLsbD rank && decide (s.mcstClk g o rank ≤ clk)

/-- MCST_DESTINATION_WRITE (R263): the oldest multicast of the group whose write at this rank is due and can be made; those that must wait try again
at the next clk. A destination that fails makes the multicast end with a code (R262); c2 falls with the last one. -/
def execMcstDestinationWrite (gid : Nat) (rank : Nat) (s : State) : Host.Outcome State Fault Refusal :=
  match Store.find s.groups gid with
  | none => .next s
  | some g =>
    let clk := (s.core (coreOf gid)).clk
    let due := g.ops.filter (s.mcstOpen g clk rank)
    match due.findSome? fun o => (s.mcstWrite g o rank).map fun r => (o, r) with
    | none => .next (due.foldl (fun s o => s.modOp gid o.serial fun o => { o with retry := Store.put o.retry rank (clk + 1) }) s)
    | some (o, s1, bad) =>
      let left := o.destMask &&& ~~~BitVec.ofNat 32 (2 ^ rank)
      let s2 := match bad with
        | some (c, addr) => s1.engineFault gid 2 c (BitVec.ofNat 32 c.code) o addr
        | none => s1
      let s3 := s2.modOp gid o.serial fun o => { o with destMask := left }
      .next (if left = 0 then s3.finishWork gid 2 o.serial else s3)

end Sys2Proof.Machine
end

