-- ==== Sys2Proof/Machine/Array.lean ====
section
/-! DEFINITION. The matrix array: jigs (R174, R175, R184), clamp fills (R186 to R189), streams (R190 to R193), the accumulators
(R194, R195), and the load of an algebra slot (R196). -/

namespace Sys2Proof.Machine

/-! ### Jigs -/

/-- The row length of a jig in bytes (R174). -/
def Jig.rowBytes (j : Jig) : Nat := if j.fmt = 2 then 128 * j.kpl else if j.fmt = 3 then 256 else 128

/-- The fields of a jig in its 32 bytes. -/
def jigOf (b : List Byte) : Jig :=
  let w := field b 8 4
  { base := bits (field b 0 4) 20 0
    stride := bits (field b 4 4) 20 0
    kpl := bits w 22 18
    scaled := bit w 17
    compl := bit w 16
    planes := bits w 15 12
    fmt := bits w 11 8
    rows := bits w 7 0
    scaleBase := bits (field b 12 4) 20 0 }

/-- Whether 32 bytes are a valid jig for a team with some declared stash bytes (R175). -/
def validJig (b : List Byte) (declared : Nat) : Bool :=
  let j := jigOf b
  bits (field b 0 4) 31 21 == 0 && bits (field b 4 4) 31 21 == 0 && bits (field b 8 4) 31 23 == 0 && bits (field b 12 4) 31 21 == 0 &&
  zeros b 16 16 && decide (j.fmt ≤ 3) && decide (j.rows ≤ 127) && j.base % 128 == 0 && j.stride % 128 == 0 &&
  (if j.fmt = 2 then
     decide (2 ≤ j.planes) && decide (j.planes ≤ 8) && decide (1 ≤ j.kpl) && decide (j.kpl ≤ 16) && (j.scaled || j.scaleBase == 0)
   else j.planes == 0 && !j.compl && !j.scaled && j.kpl == 0 && j.scaleBase == 0) &&
  decide (j.base + j.rows * j.stride + j.rowBytes ≤ declared) &&
  (!j.scaled || decide (j.scaleBase + (j.rows + 1) * j.kpl ≤ declared))

/-- The stash lines that hold the rows of a jig, and under SCALED = 1 its scale bytes (R182). -/
def Jig.lines (j : Jig) : List Nat :=
  distinct (((upTo (j.rows + 1)).flatMap fun m => linesOf (j.base + m * j.stride) j.rowBytes) ++
    (if j.scaled then linesOf j.scaleBase ((j.rows + 1) * j.kpl) else []))

/-- The stash bytes that a fill or a stream reads (R174, R186, R191), as offsets and lengths: of a PN row the selected plank, of which PLANES ≤ 4
takes the first sector alone, and under SCALED = 1 its scale byte. -/
def Jig.pieces (j : Jig) (psel : Nat) : List (Nat × Nat) :=
  (upTo (j.rows + 1)).flatMap fun m =>
    let row := j.base + m * j.stride
    (if j.fmt = 2 then (row + 128 * psel, if j.planes ≤ 4 then 64 else 128) else (row, j.rowBytes)) ::
      (if j.scaled then [(j.scaleBase + m * j.kpl + psel, 1)] else [])

/-- Whether a team is the array holder, with how many tiles (R170). -/
def State.tilesOf (s : State) (tid : Nat) : Option Nat := match (s.core (tid / 16)).arr.holder with
  | some (t, n) => if t = tid then some n else none
  | none => none

/-- What an array instruction does first with the stash bytes that it reads (R244): it waits for the group's open acquires and its open loads of the same
bytes, and for the group's own copies to write them (R222, R223, R225, R305), absent lines are filled (R213), and an uncorrectable word faults at issue (R184, R193). -/
def State.arrayTouch (s : State) (x : Issue) (g : Group) (pieces : List (Nat × Nat)) : Except Res State :=
  let places := pieces.flatMap fun p => s.stashPlaces x.tid p.1 p.2
  match s.before x.gid g { serial := g.issued, reads := true, places := places } ++
      s.engineHolders x.gid (distinct (pieces.flatMap fun p => s.stashLines x.tid p.1 p.2)) false with
  | h :: hs => .error (.wait (.order (h :: hs)))
  | [] => match (s.settlePath x.core places).touchPieces x.tid pieces with
    | (s1, none) => .ok s1
    | (_, some (f, off)) => .error (x.failed (s.stashVa x.tid off) f (pieces.findSome? fun p => s.lockedAt x.tid p.1 p.2) (.full 4))

/-- OMAP (R184, R185). -/
def execOmap (d : BitVec 7) (a : BitVec 7) (j : BitVec 4) (s : State) : Host.Outcome State Fault Refusal :=
  issue s (.omap d a j) fun s x g =>
    match Store.find s.teams x.tid with
    | none => .done s
    | some t =>
      let off := (g.regs.sc a.toNat).toNat
      if (s.tilesOf x.tid).isNone then .trap (x.trap .accumRange)
      else if off % 32 ≠ 0 then .trap (x.trap .misaligned)
      else if t.id.stashBytes < off + 32 then .trap (x.trap .mapInvalid)
      else match s.arrayTouch x g [(off, 32)] with
        | .error r => r
        | .ok s1 =>
          let b := s1.stashBytes x.tid off 32
          if !validJig b t.id.stashBytes then .trap (x.trap .mapInvalid)
          else .done ((s1.modTeamMem x.tid fun m => m.putJig x.clk j.toNat (jigOf b) (x.clk + 12)).modRegs x.gid fun r => r.setSc d.toNat 0x00200000)

/-! ### Clamp fills -/

/-- The banks that a jig fills or a stream reads, from the bank field (R186, R190). -/
def banksOf (fmt bank : Nat) : List Nat := if fmt = 3 then [0, 1, 2] else if fmt = 2 then [0, 1] else [bank]

/-- The dimension as its logarithm. -/
def dlogOf (d : Nat) : Nat := if d = 8 then 3 else if d = 4 then 2 else if d = 2 then 1 else 0

/-- The descriptor that a fill gives to a bank (R186): ROLE is 1, 2, 3 in cb0, cb1, cb2 under FP32. -/
def clampDesc (j : Jig) (alg : Option AlgebraSlot) (aslot bank : Nat) (conj left : Bool) : ClampDesc :=
  { side := match alg with
      | none => 0
      | some _ => if left then 2 else 1
    conj := conj
    aslot := if alg.isSome then aslot else 0
    dlog := (alg.map fun a => dlogOf a.dim).getD 0
    scaled := j.scaled
    compl := j.compl
    planes := j.planes
    role := if j.fmt = 3 then bank + 1 else 0
    fmt := j.fmt }

/-- The descriptor of a bank in core issue order: that of the last fill of it that has issued, else what the bank holds (R183). -/
def CoreArray.descOf (a : CoreArray) (bank : Nat) : Option ClampDesc :=
  match (a.fills.filter fun f => (banksOf f.slotJig.fmt f.bank).contains bank).getLast? with
  | some f => some { f.desc with role := if f.slotJig.fmt = 3 then bank + 1 else 0 }
  | none => (Store.get {} a.banks bank).desc

/-- The fault of a CLAMPLD (R189). -/
def clampFault (tiles : Option Nat) (jig : Option Jig) (alg : Option AlgebraSlot) (bank : Nat) (e l : Bool) : Option FaultCode :=
  if tiles.isNone then some .accumRange
  else match jig with
    | none => some .mapInvalid
    | some j =>
      if (j.fmt = 2 ∧ j.kpl ≠ 1) ∨ (2 ≤ j.fmt ∧ bank ≠ 0) ∨ (j.fmt = 2 ∧ e) then some .mapInvalid
      else if e && alg.isNone then some .algebraTableInvalid
      else
        let d := if e then (alg.map AlgebraSlot.dim).getD 1 else 1
        if (j.rows + 1) * d ≠ 128 then some .mapInvalid
        else if e && l && !((alg.map (·.left)).getD false) then some .algebraTableInvalid
        else none

/-- CLAMPLD (R186 to R189): the fill joins those in progress. -/
def execClampld (d : BitVec 7) (a : BitVec 7) (j : BitVec 4) (e : Bool) (c : Bool) (l : Bool) (s : State) : Host.Outcome State Fault Refusal :=
  issue s (.clampld d a j e c l) fun s x g =>
    let core := s.core x.core
    let jig := (Store.find s.teams x.tid).bind fun t => t.mem.jigAt x.clk j.toNat
    let alg := if e then core.algebra (algSlot g.regs.gmode) else none
    match clampFault (s.tilesOf x.tid) jig alg a.toNat e l, jig with
    | some f, _ => .trap (x.trap f)
    | none, none => .trap (x.trap .mapInvalid)
    | none, some jg =>
      if 255 ≤ g.eng.count 1 then .wait (.full 1)
      else match s.arrayTouch x g (jg.pieces 0) with
        | .error r => r
        | .ok s1 =>
          let fill : ClampFill :=
            { serial := core.arr.serial, opSerial := g.issued, gid := x.gid, tid := x.tid, dest := d.toNat, slotJig := jg, bank := a.toNat,
              desc := clampDesc jg alg (algSlot g.regs.gmode) a.toNat c l, algebra := alg, pc := x.pc, slot := x.slot, mask := x.mask,
              issueClk := x.clk }
          .done ((s1.modArr x.core fun r => { r with fills := r.fills ++ [fill], serial := r.serial + 1 }).modEng x.gid fun y => y.begin 1 g.issued)

/-- The component that a block position takes, and whether it is negated (R62): none is a structural zero. -/
def blockEntry (a : AlgebraSlot) (left : Bool) (i k : Nat) : Option (Nat × Bool) :=
  ((upTo a.dim).find? fun j =>
    let t := if left then a.entry j i else a.entry i j
    entryUsed t && entryTarget t == k).map fun j => (j, entryNeg (if left then a.entry j i else a.entry i j))

/-- Negate a 16-bit or a 32-bit floating encoding on request. -/
def flipSign (w : Nat) (neg : Bool) (x : Nat) : Nat := if neg then (if x < 2 ^ (w - 1) then x + 2 ^ (w - 1) else x - 2 ^ (w - 1)) else x

/-- The encoding latched at K position k and column n (R186, R187), from the element at a jig row and a position in it: none is a
structural zero. -/
def clampCell (f : ClampFill) (elem : Nat → Nat → Nat) (w k n : Nat) : Option Nat :=
  match f.algebra with
  | none => some (elem n k)
  | some a =>
    let d := a.dim
    match blockEntry a (f.desc.side == 2) (k % d) (n % d) with
    | none => none
    | some (j, neg) => some (flipSign w (neg != (f.desc.conj && a.conj j)) (elem (n / d) (k / d * d + j)))

/-- The positions of a bank: key k * 128 + n. -/
def bankKeys : List Nat := upTo 8192

/-- A bank with its latches from a function of k and n: a structural zero is latched with its mark (R187). -/
def bankBy (cell : Nat → Nat → Option Nat) (scale : Store Byte) (desc : ClampDesc) (ready : Nat) : ClampBank :=
  { latch := bankKeys.foldl (fun st q => match cell (q / 128) (q % 128) with
      | some v => Store.set 0 st q (BitVec.ofNat 16 v)
      | none => st) []
    zeroMark := bankKeys.foldl (fun st q => match cell (q / 128) (q % 128) with
      | some _ => st
      | none => Store.put st q true) []
    scale := scale
    desc := some desc
    readyAt := some ready }

/-- Whether the stash gives a fill or a stream an uncorrectable word (R217, R218). -/
def State.piecesUpset (s : State) (tid : Nat) (pieces : List (Nat × Nat)) : Bool := pieces.any fun p => s.stashUpset tid p.1 p.2

/-- The banks that a fill makes, from the stash of its team (R186, R187). -/
def State.fillBanks (s : State) (f : ClampFill) (ready : Nat) : List (Nat × ClampBank) :=
  let j := f.slotJig
  let st := ((Store.find s.teams f.tid).map (·.mem.stash)).getD []
  let byte (n o : Nat) : Byte := Store.get 0 st (j.base + n * j.stride + o)
  let half (n k : Nat) : Nat := (byte n (2 * k)).toNat + 256 * (byte n (2 * k + 1)).toNat
  let word (n k : Nat) : Nat := half n (2 * k) + 65536 * half n (2 * k + 1)
  let scale : Store Byte := if j.scaled then (upTo 128).map fun n => (n, Store.get 0 st (j.scaleBase + n)) else []
  let desc (b : Nat) : ClampDesc := { f.desc with role := if j.fmt = 3 then b + 1 else 0 }
  if j.fmt = 2 then
    let z (n k : Nat) : Nat := Num.wrapNat 8 (plankElem (byte n) j.planes j.compl k)
    [(0, bankBy (fun k n => some (z n k)) scale (desc 0) ready), (1, bankBy (fun k n => some (z n (64 + k))) scale (desc 1) ready)]
  else if j.fmt = 3 then
    let part (sel : Nat × Nat × Nat → Nat) (k n : Nat) : Option Nat := (clampCell f word 32 k n).map fun v => sel (Num.slices v)
    [(0, bankBy (part (·.1)) scale (desc 0) ready), (1, bankBy (part (·.2.1)) scale (desc 1) ready), (2, bankBy (part (·.2.2)) scale (desc 2) ready)]
  else [(f.bank, bankBy (clampCell f half 16) scale (desc f.bank) ready)]

/-- The banks that a stream reads. -/
def ArrayOp.banksUsed (o : ArrayOp) : List Nat := banksOf o.jig.fmt o.bank

/-- The first fill that may start: every MMA and MMAR before it that reads a bank it fills has read its last row (R188). -/
def CoreArray.fillReady (a : CoreArray) : Option ClampFill :=
  a.fills.find? fun f => f.start.isNone && !(a.queue.any fun o =>
    decide (o.serial < f.serial) && !o.readDone && o.banksUsed.any (banksOf f.slotJig.fmt f.bank).contains)

/-- CLAMP_FILL_START (R188): the fill reads the stash, every row at its first clk, so that a write to the rows while it reads them is never seen (DESIGN
CHOICE, log 45); its banks will be ready 72 clk later. A fill that meets an uncorrectable word after its
issue leaves its banks and their descriptors as they were (R169, R218, DESIGN CHOICE, log 43). -/
def execClampFillStart (core : Nat) (s : State) : Host.Outcome State Fault Refusal :=
  match (s.core core).arr.fillReady with
  | none => .next s
  | some f =>
    let clk := (s.core core).clk
    let spoiled := s.piecesUpset f.tid (f.slotJig.pieces 0)
    .next (s.modArr core fun a =>
      { a with
        banks := if spoiled then a.banks else (s.fillBanks f (clk + 72)).foldl (fun st b => Store.put st b.1 b.2) a.banks
        fills := a.fills.map fun g => if g.serial = f.serial then { g with start := some clk, spoiled := spoiled } else g })

/-- The first fill that is complete at a clk. -/
def CoreArray.fillDone (a : CoreArray) (clk : Nat) : Option ClampFill :=
  a.fills.find? fun f => match f.start with
    | some b => decide (b + 72 ≤ clk)
    | none => false

/-- The status word of a fill: the jig's rows, with CODE 0 (R184, R188). -/
def ClampFill.status (f : ClampFill) : Word := BitVec.ofNat 32 ((f.slotJig.rows + 1) * 65536)

/-- An operation of the array has met an uncorrectable error after its issue: it is detected, and its class has a fault (R218, R319, DESIGN CHOICE,
log 43). -/
def State.arrayError (s : State) (gid serial : Nat) (pc : VA) (slot : Nat) (mask : Mask) (status : Word) : State :=
  (s.detect (.core (coreOf gid))).engineFault gid 1 .uncorrectable status
    { kind := .copy, serial := serial, pc := pc, slot := slot, mask := mask, issueClk := 0, window := 0, regs := [], gmode := 0 } 0

/-- CLAMP_FILL_COMPLETE (R188): the status word is written and the CLAMPLD completes. -/
def execClampFillComplete (core : Nat) (s : State) : Host.Outcome State Fault Refusal :=
  match (s.core core).arr.fillDone (s.core core).clk with
  | none => .next s
  | some f =>
    let s1 := s.modArr core fun a => { a with fills := a.fills.filter fun g => g.serial != f.serial }
    let s2 := s1.modRegs f.gid fun r => r.setSc f.dest f.status
    let s3 := if f.spoiled then s2.arrayError f.gid f.opSerial f.pc f.slot f.mask f.status else s2
    .next (s3.finishWork f.gid 1 f.opSerial)

/-! ### Streams -/

/-- The fault of an MMA or MMAR (R173, R190, R193). -/
def streamFault (tiles : Option Nat) (jig : Option Jig) (desc : Nat → Option ClampDesc) (tile psel bank : Nat) (left : Bool) : Option FaultCode :=
  match tiles with
  | none => some .accumRange
  | some n =>
    if n ≤ tile then some .accumRange
    else match jig with
      | none => some .mapInvalid
      | some j =>
        let side (d : ClampDesc) : Bool := d.side == 0 || d.side == (if left then 2 else 1)
        let good (b : Nat) : Bool := match desc b with
          | none => false
          | some d => side d && (if j.fmt = 3 then d.fmt == 3 && d.role == b + 1 else if j.fmt = 2 then d.fmt == 2 && d.side == 0 else decide (d.fmt ≤ 1))
        if (2 ≤ j.fmt ∧ bank ≠ 0) ∨ !((banksOf j.fmt bank).all good) ∨ (if j.fmt = 2 then j.kpl ≤ psel else psel ≠ 0) then some .mapInvalid
        else none

/-- Whether the latches that a bank has in core issue order hold an uncorrectable error (R193): those of a fill that has not started are still to
come. -/
def CoreArray.latchUpset (a : CoreArray) (bank : Nat) : Bool :=
  (Store.get {} a.banks bank).upset && !(a.fills.any fun f => f.start.isNone && (banksOf f.slotJig.fmt f.bank).contains bank)

/-- MMA and MMAR at issue (R182, R190 to R193): the lease, the queue entry, and the pending count of the tile. -/
def issueStream (s : State) (x : Issue) (g : Group) (left : Bool) (tile slot psel bank : Nat) : Res :=
  let arr := (s.core x.core).arr
  let jig := (Store.find s.teams x.tid).bind fun t => t.mem.jigAt x.clk slot
  match streamFault (s.tilesOf x.tid) jig arr.descOf tile psel bank left, jig with
  | some f, _ => .trap (x.trap f)
  | none, none => .trap (x.trap .mapInvalid)
  | none, some j =>
    if 16 ≤ (arr.queue.filter fun o => !o.readDone).length || 16 ≤ arr.leases.length || 255 ≤ g.eng.count 1 then .wait (.full 1)
    else match s.arrayTouch x g (j.pieces psel) with
      | .error r => r
      | .ok s1 =>
        if (banksOf j.fmt bank).any arr.latchUpset then .trap { x.trap .uncorrectable with sites := [.core x.core] } else
        let op : ArrayOp :=
          { serial := arr.serial, opSerial := g.issued, gid := x.gid, tid := x.tid, left := left, tile := tile, jig := j, bank := bank,
            psel := psel, lanes := x.act, pc := x.pc, slot := x.slot, mask := x.mask, issueClk := x.clk }
        .done ((s1.modArr x.core fun a =>
          { a with
            leases := a.leases ++ [⟨arr.serial, x.gid, x.tid, j.lines⟩]
            queue := a.queue ++ [op]
            pending := Store.modify 0 a.pending tile (· + 1)
            serial := a.serial + 1 }).modEng x.gid fun e => e.begin 1 g.issued)

/-- MMA (R190 to R193). -/
def execMma (d : BitVec 7) (a : BitVec 7) (p : BitVec 4) (b : BitVec 2) (s : State) : Host.Outcome State Fault Refusal :=
  issue s (.mma d a p b) fun s x g => issueStream s x g false d.toNat a.toNat p.toNat b.toNat

/-- MMAR (R190 to R193). -/
def execMmar (d : BitVec 7) (a : BitVec 7) (p : BitVec 4) (b : BitVec 2) (s : State) : Host.Outcome State Fault Refusal :=
  issue s (.mmar d a p b) fun s x g => issueStream s x g true d.toNat a.toNat p.toNat b.toNat

/-- The entry that may start to stream at a clk (R192): it is the first that has not read its last row, and its banks are ready. -/
def CoreArray.streamReady (a : CoreArray) (clk : Nat) : Option ArrayOp :=
  match a.queue.find? fun o => !o.readDone with
  | none => none
  | some o =>
    if o.start.isSome then none
    else if (a.fills.any fun f => decide (f.serial < o.serial) && f.start.isNone && o.banksUsed.any (banksOf f.slotJig.fmt f.bank).contains) then none
    else if o.banksUsed.all fun b => match (Store.get {} a.banks b).readyAt with
        | some r => decide (r ≤ clk)
        | none => false then some o
    else none

/-- Change one entry of the array queue. -/
def CoreArray.modOp (a : CoreArray) (serial : Nat) (f : ArrayOp → ArrayOp) : CoreArray :=
  { a with queue := a.queue.map fun o => if o.serial = serial then f o else o }

/-- ARRAY_STREAM_START (R192): the weights of its banks are those that the stream uses. -/
def execArrayStreamStart (core : Nat) (s : State) : Host.Outcome State Fault Refusal :=
  let clk := (s.core core).clk
  match (s.core core).arr.streamReady clk with
  | none => .next s
  | some o => .next ((s.modArr core fun a => a.modOp o.serial fun q =>
      { q with start := some clk, banks := o.banksUsed.map fun b => Store.get {} a.banks b }).stampOp o.gid 1 o.opSerial 4)

/-- The stream of which the last row has been read before a clk. -/
def CoreArray.rowsRead (a : CoreArray) (clk : Nat) : Option ArrayOp :=
  a.queue.find? fun o => !o.readDone && (match o.start with
    | some b => decide (b + o.jig.rowsBusy ≤ clk)
    | none => false)

/-- ARRAY_LAST_ROW_READ (R182, R193): the rows are as the stash held them; the lease and the queue entry go. -/
def execArrayLastRowRead (core : Nat) (s : State) : Host.Outcome State Fault Refusal :=
  let clk := (s.core core).clk
  match (s.core core).arr.rowsRead clk with
  | none => .next s
  | some o =>
    let j := o.jig
    let rows := (upTo (j.rows + 1)).map fun m => s.stashBytes o.tid (j.base + m * j.stride) j.rowBytes
    let scales := if j.scaled then (s.stashBytes o.tid j.scaleBase ((j.rows + 1) * j.kpl)).map (·.toNat) else []
    .next ((s.countTeam o.tid 0x005 (j.rows + 1)).modArr core fun a =>
      { a.modOp o.serial (fun q => { q with readDone := true, rowBytes := rows, rowScales := scales, spoiled := s.piecesUpset o.tid (j.pieces o.psel) }) with
        leases := a.leases.filter fun l => l.serial != o.serial
        lastRow := clk })

/-- The weight at K position k and column n of a bank: none is a structural zero. -/
def ClampBank.weight (b : ClampBank) (k n : Nat) : Option Nat :=
  if Store.get false b.zeroMark (k * 128 + n) then none else some (Store.get 0 b.latch (k * 128 + n)).toNat

/-- The floating format of a bank or of an A row by FMT. -/
def arrayFmt (fmt : Nat) : Num.Fmt := if fmt = 1 then Num.b16 else Num.bf16

/-- The 64 products of a pass that are formed (R64, R187). -/
def passProducts (fa fb : Num.Fmt) (a : Nat → Nat) (b : ClampBank) (n : Nat) : List Num.FVal :=
  (upTo 64).filterMap fun k => (b.weight k n).map fun w => Num.mulVal (fa.decode (a k)) (fb.decode w)

/-- The new value of an accumulator at row r and column n of a stream (R64 to R66, R191). -/
def ArrayOp.accumulate (o : ArrayOp) (r n : Nat) (acc : Nat) : Nat :=
  let j := o.jig
  let row := o.rowBytes.getD r []
  let bank (k : Nat) : ClampBank := o.banks.getD k {}
  let half (k : Nat) : Nat := field row (2 * k) 2
  if j.fmt = 2 then
    let line (k : Nat) : Byte := row.getD (128 * o.psel + k) 0
    let z (b : ClampBank) (k : Nat) : Int := Num.readInt true 8 ((b.weight k n).getD 0)
    let sum := (upTo 64).foldl (fun acc k =>
      acc + plankElem line j.planes j.compl k * z (bank 0) k + plankElem line j.planes j.compl (64 + k) * z (bank 1) k) (0 : Int)
    Num.plankPass sum (if j.scaled then o.rowScales.getD (r * j.kpl + o.psel) 127 else 127) (Store.get 127 (bank 0).scale n).toNat acc
  else if j.fmt = 3 then
    let cut (k : Nat) : Nat × Nat × Nat := Num.slices (field row (4 * k) 4)
    let run (sel : Nat × Nat × Nat → Nat) (b : Nat) (acc : Nat) : Nat :=
      Num.pass (passProducts Num.bf16 Num.bf16 (fun k => sel (cut k)) (bank b) n) acc
    run (·.1) 0 (run (·.1) 1 (run (·.2.1) 0 (run (·.2.1) 1 (run (·.1) 2 (run (·.2.2) 0 acc)))))
  else Num.pass (passProducts (arrayFmt j.fmt) (arrayFmt (((bank 0).desc.map (·.fmt)).getD 0)) half (bank 0) n) acc

/-- The accumulator keys of the rows that a stream writes: those of its active lanes (R191). -/
def ArrayOp.keys (o : ArrayOp) : List (Nat × Nat) :=
  ((upTo (o.jig.rows + 1)).filter fun r => o.lanes.getLsbD (r % 32)).flatMap fun r => (upTo 128).map fun n => (r, n)

/-- The key of an accumulator. -/
def accKey (tile r n : Nat) : Nat := tile * 16384 + r * 128 + n

/-- The stream of which the last accumulator write has been made before a clk. -/
def CoreArray.lastWrite (a : CoreArray) (clk : Nat) : Option ArrayOp :=
  a.queue.find? fun o => o.readDone && (match o.start with
    | some b => decide (b + o.jig.rowsBusy + 24 ≤ clk)
    | none => false)

/-- Whether a stream has met an uncorrectable error after its issue: in its rows, in its banks or in its accumulators (R218). -/
def CoreArray.failed (a : CoreArray) (o : ArrayOp) : Bool :=
  o.spoiled || o.banks.any (·.upset) || a.accUpset.any ((o.keys.map fun k => accKey o.tile k.1 k.2).contains ·)

/-- ARRAY_LAST_ACCUMULATOR_WRITE (R191, R192): the tile holds the sums, and the instruction completes; one that has met an uncorrectable error
writes none, and its class has a fault (R218). -/
def execArrayLastAccumulatorWrite (core : Nat) (s : State) : Host.Outcome State Fault Refusal :=
  match (s.core core).arr.lastWrite (s.core core).clk with
  | none => .next s
  | some o =>
    let failed := (s.core core).arr.failed o
    let s1 := (s.countTeam o.tid 0x006 1).modArr core fun a =>
      { a with
        acc := if failed then a.acc else o.keys.foldl (fun st k => Store.set 0 st (accKey o.tile k.1 k.2)
          (BitVec.ofNat 32 (o.accumulate k.1 k.2 (Store.get 0 st (accKey o.tile k.1 k.2)).toNat))) a.acc
        pending := Store.set 0 a.pending o.tile (Store.get 0 a.pending o.tile - 1)
        queue := a.queue.filter fun q => q.serial != o.serial }
    let s2 := if failed then s1.arrayError o.gid o.opSerial o.pc o.slot o.mask (BitVec.ofNat 32 FaultCode.uncorrectable.code) else s1
    .next ((s2.stampOp o.gid 1 o.opSerial 5).finishWork o.gid 1 o.opSerial)

/-! ### Accumulators -/

/-- The accumulators of the rows of some lanes in a tile. -/
def rowKeys (tile : Nat) (act : Mask) : List Nat :=
  (lanesIn act).flatMap fun l => (upTo 4).flatMap fun q => (upTo 128).map fun n => accKey tile (32 * q + l) n
/-- The accumulators of four columns in a quarter of a tile, in the rows of some lanes. -/
def quarterKeys (tile q c : Nat) (act : Mask) : List Nat :=
  (lanesIn act).flatMap fun l => (upTo 4).map fun i => accKey tile (32 * q + l) (4 * c + i)

/-- An accumulator instruction (R194, R195): it waits for the streams into its tile, and acts on the tiles of the array team. An
accumulator that it reads faults when it holds an uncorrectable error, and those that it writes are good again (R217, R218). -/
def issueAcc (s : State) (x : Issue) (tile : Nat) (reads writes : List Nat) (act : Store Word → Store Word) (regs : Store Word → Regs → Regs) : Res :=
  match s.tilesOf x.tid with
  | none => .trap (x.trap .accumRange)
  | some n =>
    if n ≤ tile then .trap (x.trap .accumRange)
    else if Store.get 0 (s.core x.core).arr.pending tile ≠ 0 then .wait (.full 1)
    else
      let acc := (s.core x.core).arr.acc
      if (s.core x.core).arr.accUpset.any reads.contains then .trap (x.trap .uncorrectable)
      else .done ((s.modArr x.core fun a => { a with acc := act acc, accUpset := a.accUpset.filter (!writes.contains ·) }).modRegs x.gid (regs acc))

/-- ACCZ (R194). -/
def execAccz (a : BitVec 7) (s : State) : Host.Outcome State Fault Refusal :=
  issue s (.accz a) fun s x _ =>
    issueAcc s x a.toNat [] (rowKeys a.toNat x.act) (fun acc => (lanesIn x.act).foldl (fun st l => (upTo 4).foldl (fun st q => (upTo 128).foldl (fun st n =>
      Store.set 0 st (accKey a.toNat (32 * q + l) n) 0) st) st) acc) fun _ r => r

/-- ACCLD (R194). -/
def execAccld (d : BitVec 7) (a : BitVec 7) (q : BitVec 2) (c : BitVec 5) (s : State) : Host.Outcome State Fault Refusal :=
  issue s (.accld d a q c) fun s x _ =>
    issueAcc s x a.toNat (quarterKeys a.toNat q.toNat c.toNat x.act) [] (fun acc => acc) fun acc r => (upTo 4).foldl (fun r i =>
      r.setVec x.act x.ready (d.toNat + i) (lanesBy fun l => Store.get 0 acc (accKey a.toNat (32 * q.toNat + l) (4 * c.toNat + i)))) r

/-- ACCST (R194). -/
def execAccst (d : BitVec 7) (a : BitVec 7) (q : BitVec 2) (c : BitVec 5) (s : State) : Host.Outcome State Fault Refusal :=
  issue s (.accst d a q c) fun s x g =>
    issueAcc s x a.toNat [] (quarterKeys a.toNat q.toNat c.toNat x.act) (fun acc => (lanesIn x.act).foldl (fun st l => (upTo 4).foldl (fun st i =>
      Store.set 0 st (accKey a.toNat (32 * q.toNat + l) (4 * c.toNat + i)) ((g.regs.vec (d.toNat + i)).at l)) st) acc) fun _ r => r

/-! ### ALGLD -/

/-- Read some bytes of global memory for a group at its issue, 16 at a time (R196). -/
def State.preciseRead (s : State) (p : Party) (va : Nat) : Nat → Except AccessFail (List Byte × State)
  | 0 => .ok ([], s)
  | n + 1 =>
    match s.translate p.core p.vdev (va % 2 ^ 56) .read with
    | .error f => .error f
    | .ok (t, s1) => match s1.readAt p t (t.physAddr (va % 2 ^ 56)) 16 false with
      | .error f => .error f
      | .ok (b, s2) => match s2.preciseRead p (va + 16) n with
        | .error f => .error f
        | .ok (rest, s3) => .ok (b ++ rest, s3)

/-- ALGLD (R196): a valid image replaces the slot 25 clk after the issue. -/
def execAlgld (d : BitVec 7) (a : BitVec 7) (s : State) : Host.Outcome State Fault Refusal :=
  issue s (.algld d a) fun s x g =>
    let va := g.regs.scAddr a.toNat
    if va % 16 ≠ 0 then .trap (x.trap .misaligned)
    else
    let after := s.before x.gid g { serial := g.issued, reads := true, places := s.globalPlaces x.core (s.vdevOf g) va 80 } ++
      s.engineHolders x.gid (s.globalLines x.core (s.vdevOf g) va 80) false
    if !after.isEmpty then .wait (.order after)
    else match s.preciseRead (s.party x.tid x.gid) va 5 with
      | .error f => x.failed va f ((s.globalLines x.core (s.vdevOf g) va 80).findSome? fun l => (s.lockAt (s.partOfCore x.core) (128 * l)).map fun k => lineOf k.addr) (.full 4)
      | .ok (img, s1) =>
        if !validImage img then .trap (x.trap .algebraTableInvalid)
        else .done (s1.modArr x.core fun r => { r with algLoads := r.algLoads ++ [⟨x.gid, d.toNat, img, leftBit img, x.clk + 25⟩] })

/-- ALGLD_COMPLETE (R181, R196): the first load of a group that is due replaces its slot for every team of the core. -/
def execAlgldComplete (gid : Nat) (s : State) : Host.Outcome State Fault Refusal :=
  let core := coreOf gid
  match (s.core core).arr.algLoads.find? fun l => l.gid == gid && decide (l.dueClk ≤ (s.core core).clk) with
  | none => .next s
  | some l => .next (s.modArr core fun a => { a with alg := Store.put a.alg l.slot ⟨l.image, l.left⟩, algLoads := a.algLoads.erase l })

end Sys2Proof.Machine
end

