-- ==== Sys2Proof/Machine/Control.lean ====
section
/-! DEFINITION. The control instructions: modes, branches, the join stack, flashback points, traps and yields (R29 to R31, R110 to
R130). -/

namespace Sys2Proof.Machine

/-- NOP (R112). -/
def execNop (s : State) : Host.Outcome State Fault Refusal := issue s .nop fun s _ _ => .done s

/-! ### Modes (R113, R114) -/

/-- The value bits [10:0] of a scalar register, laid out as IMM11. -/
def modeValue (r : Regs) (a : BitVec 7) : BitVec 11 := (r.sc a.toNat).extractLsb' 0 11

/-- SETMODE (R113, R114): a reserved value of a selected field faults and writes nothing. -/
def execSetmode (src : Bool) (w : BitVec 5) (a : BitVec 7) (i : BitVec 11) (s : State) : Host.Outcome State Fault Refusal :=
  issueRegs s (.setmode src w a i) fun _ r =>
    let v := if src then modeValue r a else i
    if modeReserved w v then .error .illegalOperand else .ok { r with gmode := setModeFields r.gmode w v }

/-- SETGRD (R113, R114). -/
def execSetgrd (src : Bool) (a : BitVec 7) (i : BitVec 5) (s : State) : Host.Outcome State Fault Refusal :=
  issueRegs s (.setgrd src a i) fun _ r =>
    .ok { r with gmode := setGuardFields r.gmode (if src then (modeValue r a).extractLsb' 0 5 else i) }

/-- SETMEM (R113, R114). -/
def execSetmem (src : Bool) (w : BitVec 2) (a : BitVec 7) (i : BitVec 5) (s : State) : Host.Outcome State Fault Refusal :=
  issueRegs s (.setmem src w a i) fun _ r =>
    let v := if src then (modeValue r a).extractLsb' 0 5 else i
    if memReserved w v then .error .illegalOperand else .ok { r with gmode := setMemFields r.gmode w v }

/-! ### Slots and the stack -/

/-- The target of a branch (R70). -/
def branchTarget (pc : VA) (j : BitVec 22) : VA := pc + BitVec.ofInt 56 (4 * j.toInt)

/-- Push some entries, the first one lowest: the stack and the clks that spills cost (R105), or none when it would pass 32 (R121). -/
def pushAll (stack : List StackEntry) (es : List StackEntry) : Option (List StackEntry × Nat) :=
  if 32 < stack.length + es.length then none
  else some (es.foldl (fun st e => e :: st) stack, 20 * ((upTo es.length).filter fun k => decide (4 ≤ stack.length + k)).length)

/-- A slot that an instruction moves: it may issue when the instruction's latency has passed (R81, R121). -/
def movedTo (x : Issue) (extra : Nat) (pc : VA) (m : Mask) : PcSlot := { pc := pc, mask := m, hold := .none, readyAt := x.ready + extra }

/-- A path entry for a slot when it is live. -/
def pathOf (o : PcSlot) : List StackEntry := if o.live then [.path o.pc o.mask] else []

/-- The group's slots and stack after a flow instruction. -/
def flowDone (s : State) (x : Issue) (f : Flow) : Res :=
  if s.spillBad x.gid f.stack then .trap (x.trap .uncorrectable) else .done ((s.setFlow x.gid f).afterFlow x.gid)

/-- Move the issuing slot whole. -/
def moveSlot (s : State) (x : Issue) (g : Group) (pc : VA) : Res := flowDone s x (g.flow.setSlot x.slot (movedTo x 0 pc x.mask))

/-- BRA (R116). -/
def execBra (j : BitVec 22) (s : State) : Host.Outcome State Fault Refusal :=
  issueFlow s (.bra j) fun s x g => moveSlot s x g (branchTarget x.pc j)

/-- BRU (R116, R117). -/
def execBru (c : BruCond) (j : BitVec 22) (s : State) : Host.Outcome State Fault Refusal :=
  issueFlow s (.bru c j) fun s x g => moveSlot s x g (if bruHolds c g.regs.scc then branchTarget x.pc j else x.pc + 4)

/-- BRC (R29, R118): the predicate is read under the slot mask. -/
def execBrc (p : BitVec 3) (j : BitVec 22) (s : State) : Host.Outcome State Fault Refusal :=
  issueFlow s (.brc p j) fun s x g =>
    let t := x.mask &&& g.regs.pred p.toNat
    let n := x.mask &&& ~~~t
    if t = 0 then moveSlot s x g (x.pc + 4)
    else if n = 0 then moveSlot s x g (branchTarget x.pc j)
    else match pushAll g.flow.stack (pathOf (g.flow.slot (1 - x.slot))) with
      | none => .trap (x.trap .joinStackOverflow)
      | some (st, c) =>
        let f := { g.flow with stack := st }
        flowDone s x ((f.setSlot (1 - x.slot) (movedTo x c (branchTarget x.pc j) t)).setSlot x.slot (movedTo x c (x.pc + 4) n))

/-- MARK (R29). -/
def execMark (j : BitVec 22) (s : State) : Host.Outcome State Fault Refusal :=
  issueFlow s (.mark j) fun s x g =>
    match pushAll g.flow.stack (pathOf (g.flow.slot (1 - x.slot)) ++ [StackEntry.join (branchTarget x.pc j) x.mask 0]) with
    | none => .trap (x.trap .joinStackOverflow)
    | some (st, c) =>
      let f := { g.flow with stack := st }
      flowDone s x ((f.setSlot (1 - x.slot) {}).setSlot x.slot (movedTo x c (x.pc + 4) x.mask))

/-- The topmost join entry: what lies above it, its fields, and what lies below. -/
def splitJoin : List StackEntry → Option (List StackEntry × (VA × Mask × Mask) × List StackEntry)
  | [] => none
  | .join r m a :: rest => some ([], (r, m, a), rest)
  | e :: rest => (splitJoin rest).map fun p => (e :: p.1, p.2)

/-- Whether an entry with some entries below it is the one that the group's regrouping pushed (R33, R35). -/
def Flow.isRegion (f : Flow) (below : List StackEntry) : Bool := f.region && below.length == f.regionDepth

/-- The slot that receives the members of a completed join entry; those of a regrouping wait at the matching JOIN (R29, R35). -/
def mergedSlot (x : Issue) (extra : Nat) (region : Bool) (rejoin : VA) (m : Mask) : PcSlot :=
  movedTo x extra (if region then rejoin else rejoin + 4) m

/-- JOIN (R29, R35, R121). -/
def joinFlow (f : Flow) (x : Issue) : Flow :=
  match splitJoin f.stack with
  | none => f.setSlot x.slot (movedTo x 0 (x.pc + 4) x.mask)
  | some (above, (rejoin, member, arrived), below) =>
    let m := x.mask &&& member
    let n := x.mask &&& ~~~member
    let arrived' := arrived ||| m
    let own (extra : Nat) : PcSlot := if n = 0 then {} else movedTo x extra (x.pc + 4) n
    if arrived' ≠ member then
      { f with stack := above ++ StackEntry.join rejoin member arrived' :: below }.setSlot x.slot (own 0)
    else
      let region := f.isRegion below
      let rest := above ++ below
      let refill := if 4 ≤ rest.length then 20 else 0
      let g := { f with stack := rest, atReturn := f.atReturn || region }
      if n = 0 then g.setSlot x.slot (mergedSlot x refill region rejoin member)
      else if !(f.slot (1 - x.slot)).live then
        (g.setSlot x.slot (own refill)).setSlot (1 - x.slot) (mergedSlot x refill region rejoin member)
      else
        let spill := if 4 ≤ rest.length then 20 else 0
        { g with stack := StackEntry.path (if region then rejoin else rejoin + 4) member :: rest }.setSlot x.slot (own (refill + spill))

/-- A group whose regrouping has come to its JOIN waits there (R35, R36). -/
def State.waitReturn (s : State) (gid : Nat) : State :=
  match Store.find s.groups gid with
  | some g => if g.flow.atReturn && g.stops.wait != .regroupJoin then s.startWait gid .regroupJoin else s
  | none => s

/-- The group's slots and stack after an instruction that may complete a join entry. -/
def joinDone (s : State) (x : Issue) (f : Flow) : Res :=
  if s.spillBad x.gid f.stack then .trap (x.trap .uncorrectable) else .done (((s.setFlow x.gid f).afterFlow x.gid).waitReturn x.gid)

/-- JOIN (R29). -/
def execJoin (s : State) : Host.Outcome State Fault Refusal :=
  issueFlow s .join fun s x g => joinDone s x (joinFlow g.flow x)

/-- Remove lanes from the join entries of a stack (R31), the lowest `keep` entries apart: what is left of the stack, and the entries
that this completes, topmost first. -/
def exitStack (gone : Mask) (keep : Nat) : List StackEntry → List StackEntry × List (VA × Mask × Nat)
  | [] => ([], [])
  | e :: below =>
    let (st, done) := exitStack gone keep below
    match e with
    | .path pc m => (.path pc m :: st, done)
    | .join r m a =>
      if below.length < keep then (.join r m a :: st, done)
      else
        let m' := m &&& ~~~gone
        if m' = 0 then (st, done)
        else if a = m' then (st, (r, m', below.length) :: done)
        else (.join r m' a :: st, done)

/-- The spilled entries of a stack that an exit rewrites (R105): one refill is charged for all the entries that the exit completes or removes
(DEDUCED, log 22). -/
def spilledRewrites (gone : Mask) (stack : List StackEntry) : Nat :=
  (((upTo stack.length).zip stack).filter fun p => decide (4 ≤ p.1) && (match p.2 with
    | .join _ m _ => m &&& gone != 0
    | .path _ _ => false)).length

/-- The clks that an exit of some lanes costs (R105). -/
def Flow.removalCost (f : Flow) (gone : Mask) : Nat :=
  let (st, done) := exitStack gone f.floor f.stack
  20 * spilledRewrites gone f.stack + (if !done.isEmpty && 4 ≤ st.length then 20 else 0)

/-- Remove lanes that have left their slot from the stack, and place the members of the entries that this completes: a free slot,
S0 first, else a path entry (R31). -/
def Flow.removeLanes (f : Flow) (gone : Mask) (ready : Nat) : Flow :=
  let (st, done) := exitStack gone f.floor f.stack
  let cost := f.removalCost gone
  done.foldl (fun f e =>
    let (rejoin, m, depth) := e
    let region := f.region && depth == f.regionDepth
    let f := { f with atReturn := f.atReturn || region }
    let pc := if region then rejoin else rejoin + 4
    let slot : PcSlot := { pc := pc, mask := m, hold := .none, readyAt := ready + cost }
    if !f.s0.live then { f with s0 := slot }
    else if !f.s1.live then { f with s1 := slot }
    else { f with stack := .path pc m :: f.stack }) { f with stack := st }

/-- EXIT (R31, R40, R120). -/
def execExit (s : State) : Host.Outcome State Fault Refusal :=
  issueFlow s .exit fun s x g =>
    joinDone s x ((g.flow.setSlot x.slot { readyAt := x.ready + g.flow.removalCost x.mask }).removeLanes x.mask x.ready)

/-- CALL (R116, R118): v30 and v31 in every lane of the slot mask. -/
def execCall (j : BitVec 22) (s : State) : Host.Outcome State Fault Refusal :=
  issueFlow s (.call j) fun s x g =>
    let ret := x.pc + 4
    let low : Word := ret.extractLsb' 0 32
    let high : Word := (ret.extractLsb' 32 24).zeroExtend 32
    moveSlot (s.modRegs x.gid fun r =>
      (r.setVec x.mask x.ready 30 (lanesBy fun _ => low)).setVec x.mask x.ready 31 (lanesBy fun _ => high)) x g (branchTarget x.pc j)

/-- The lanes of a mask by their targets, in ascending order of the targets. -/
def byTarget (m : Mask) (t : Nat → VA) : List (VA × Mask) :=
  (sortBy (fun (n : Nat) => [Int.ofNat n]) (distinct ((lanesIn m).map fun l => (t l).toNat))).map fun u =>
    (BitVec.ofNat 56 u, maskOf fun l => m.getLsbD l && (t l).toNat == u)

/-- RET and JMPR (R119): lanes with different targets diverge. -/
def indirectJump (s : State) (i : Instr) (a : BitVec 7) : Host.Outcome State Fault Refusal :=
  issueFlow s i fun s x g =>
    let t (l : Nat) : VA := BitVec.ofNat 56 (g.regs.vecAddr a.toNat l)
    if (lanesIn x.mask).any fun l => (t l).toNat % 4 != 0 then .trap (x.trap .misaligned)
    else match byTarget x.mask t with
      | [] => .done s
      | [u] => moveSlot s x g u.1
      | u1 :: u2 :: more =>
        match pushAll g.flow.stack (pathOf (g.flow.slot (1 - x.slot)) ++ more.reverse.map fun u => .path u.1 u.2) with
        | none => .trap (x.trap .joinStackOverflow)
        | some (st, c) =>
          let f := { g.flow with stack := st }
          flowDone s x ((f.setSlot x.slot (movedTo x c u1.1 u1.2)).setSlot (1 - x.slot) (movedTo x c u2.1 u2.2))

/-- RET (R119). -/
def execRet (a : BitVec 7) (s : State) : Host.Outcome State Fault Refusal := indirectJump s (.ret a) a

/-- JMPR (R119). -/
def execJmpr (a : BitVec 7) (s : State) : Host.Outcome State Fault Refusal := indirectJump s (.jmpr a) a

/-! ### BRP (R122 to R124) -/

/-- The target of a lane at a BRP (R122). -/
def brpTarget (pc : VA) (w : Word) : VA := pc + BitVec.ofInt 56 (4 * w.toInt)

/-- Split some lanes by target across S0, S1 and path entries, above a join entry (R33 steps 4 and 5), with the clks that spills cost: none when
it would pass 32. -/
def splitByTarget (f : Flow) (first : List StackEntry) (rejoin : VA) (m : Mask) (t : Nat → VA) (ready : Nat) : Option (Flow × Nat) :=
  let us := byTarget m t
  match pushAll f.stack (first ++ .join rejoin m 0 :: ((us.drop 2).reverse.map fun u => .path u.1 u.2)) with
  | none => none
  | some (st, c) =>
    let slot (n : Nat) : PcSlot := match us[n]? with
      | some u => { pc := u.1, mask := u.2, hold := .none, readyAt := ready + c }
      | none => {}
    some ({ f with stack := st, s0 := slot 0, s1 := slot 1 }, c)

/-- Some lanes join those that a slot holds at a BRP, with the target words that they read (R122, R123). -/
def PcSlot.joinHold (o : PcSlot) (words : Lanes) (m : Mask) : PcSlot :=
  { o with
    mask := o.mask ||| m
    hold := match o.hold with
      | .brp pc old join => .brp pc (old.merge words m) join
      | h => h }

/-- BRP (R122 to R124): the slot is held until the team synchronises; inside a regrouped region it is a marked multi-way branch. -/
def execBrp (a : BitVec 7) (i : BitVec 11) (s : State) : Host.Outcome State Fault Refusal :=
  issueFlow s (.brp a i) fun s x g =>
    let rejoin := x.pc + BitVec.ofNat 56 (4 * i.toNat)
    let o := g.flow.slot (1 - x.slot)
    if g.flow.region then
      match splitByTarget g.flow (pathOf o) rejoin x.mask (fun l => brpTarget x.pc ((g.regs.vec a.toNat).at l)) x.ready with
      | none => .trap (x.trap .joinStackOverflow)
      | some (f, _) => flowDone s x f
    else
      let same := o.live && (match o.hold with
        | .brp pc _ _ => pc == x.pc
        | _ => false)
      let words := g.regs.vec a.toNat
      if same then flowDone s x ((g.flow.setSlot (1 - x.slot) (o.joinHold words x.mask)).setSlot x.slot {})
      else flowDone s x (g.flow.setSlot x.slot { (g.flow.slot x.slot) with hold := .brp x.pc words rejoin })

/-! ### Flashback points, traps, yields -/

/-- FLASHPT (R126, R323): the group's flashback point is this instruction with both slots and the stack; in recipe mode it ends the
recipe, and inside a regrouped region it acts as NOP. -/
def execFlashpt (i : BitVec 11) (s : State) : Host.Outcome State Fault Refusal :=
  issueFlow s (.flashpt i) fun s x g =>
    match g.flow.recipe with
    | some fr =>
      let p := fr.point
      .done (s.modGroup x.gid fun g =>
        { g with
          flow := { g.flow with s0 := { p.s0 with readyAt := x.clk + 1 }, s1 := { p.s1 with readyAt := x.clk + 1 }, stack := p.stack, recipe := none }
          regs := { g.regs.dropBrine with gmode := p.gmode, scc := p.scc } })
    | none =>
      if g.flow.region then .done (s.advance x (.flashpt i))
      else
        let p : FlashPoint :=
          { pc := x.pc, recipe := i.toNat, s0 := g.flow.s0, s1 := g.flow.s1, stack := g.flow.stack, gmode := g.regs.gmode,
            scc := g.regs.scc, k0 := g.regs.k0, k1 := g.regs.k1, serial := g.issued }
        .done ((s.modFlow x.gid fun f => { f with flash := some p, unrew := false }).advance x (.flashpt i))

/-- TRAP (R128). -/
def execTrap (i : BitVec 11) (s : State) : Host.Outcome State Fault Refusal :=
  issueFlow s (.trap i) fun s x _ => .stop s { x.trap .softwareTrap with aux2 := i.zeroExtend 32 }

/-- Whether a debugger is attached to the device of a team (R129). -/
def State.debugged (s : State) (tid : Nat) : Bool :=
  match Store.find s.teams tid with
  | some t => (((Store.find s.vdevs t.id.vdev).bind (·.debugger)).isSome)
  | none => false

/-- BKPT (R129): NOP when no debugger is attached. -/
def execBkpt (i : BitVec 11) (s : State) : Host.Outcome State Fault Refusal :=
  issue s (.bkpt i) fun s x g =>
    if s.debugged g.tid then .stop s { x.trap .breakpoint with aux2 := i.zeroExtend 32, spread := true } else .done s

/-- YIELD (R130): the count is over n clk after this one. -/
def execYield (i : BitVec 11) (s : State) : Host.Outcome State Fault Refusal :=
  issue s (.yield i) fun s x _ => .done (s.modFlow x.gid fun f => { f with yieldEnd := x.clk + i.toNat })

/-- YIELD_COUNT_EXPIRY (R130): the group is ready again from the clk at which its count is over. -/
def execYieldCountExpiry (gid : Nat) (s : State) : Host.Outcome State Fault Refusal :=
  match Store.find s.groups gid with
  | none => .next s
  | some g =>
    let clk := (s.core (coreOf gid)).clk
    if g.flow.yieldEnd ≠ 0 ∧ g.flow.yieldEnd ≤ clk then
      .next (s.modGroup gid fun g =>
        { g with
          flow := { g.flow with yieldEnd := 0 }
          time := { g.time with readySince := max g.time.readySince g.flow.yieldEnd } })
    else .next s

end Sys2Proof.Machine
end

