-- ==== Sys2Proof/Machine/Regroup.lean ====
section
/-! DEFINITION. Regrouping at a BRP and the return from it (R32 to R35, R125), the extended blocks of a bench (R97, R98), the release of an
exited group (R40), and the guard of a bench (R285). -/

namespace Sys2Proof.Machine

/-! ### The pool of a bench (R95, R98) -/

/-- The pool free count at a clk: blocks released at a clk count from the next one on (R98). -/
def Bench.freeAt (b : Bench) (clk : Nat) : Nat := b.poolFree + (if b.releasedAt < clk then b.released else 0)

/-- Release some blocks at a clk. -/
def Bench.release (b : Bench) (n clk : Nat) : Bench :=
  if b.releasedAt = clk then { b with released := b.released + n }
  else { b with poolFree := b.poolFree + b.released, released := n, releasedAt := clk }

/-- Take some blocks at a clk. -/
def Bench.grant (b : Bench) (n clk : Nat) : Bench :=
  if b.releasedAt < clk then { b with poolFree := b.poolFree + b.released - n, released := 0 } else { b with poolFree := b.poolFree - n }

/-! ### Regrouping (R33) -/

/-- The members of a team on a bench, by group number. -/
def State.benchGroups (s : State) (tid bench : Nat) : List (Nat × Group) :=
  sortBy (fun kv => [Int.ofNat kv.2.number]) ((s.groupsOf tid).filter fun kv => kv.1 / 8 == bench)

/-- The hold of a group that has arrived at a BRP: its PC, the target words of its lanes, matching JOIN and lanes. -/
def Group.brpHold (g : Group) : Option (VA × Lanes × VA × Mask) :=
  let of (x : PcSlot) : Option (VA × Lanes × VA × Mask) := if x.live then (match x.hold with
    | .brp pc a j => some (pc, a, j, x.mask)
    | _ => none) else none
  match of g.flow.s0 with
  | some h => some h
  | none => of g.flow.s1

/-- The order in which the groups of a bench supply position l: the live lanes by target and then by group, then the others
(R33 steps 2 and 3). The j-th of them is the source of new group j. -/
def regroupOrder (gs : List (Nat × Group)) (l : Nat) : List Nat × Nat :=
  let idx := upTo gs.length
  let lane (i : Nat) : Option Nat := match gs[i]? with
    | some kv => match kv.2.brpHold with
      | some (pc, ws, _, m) => if m.getLsbD l then some (brpTarget pc (ws.at l)).toNat else none
      | none => none
    | none => none
  let live := sortBy (fun i => [Int.ofNat ((lane i).getD 0), Int.ofNat i]) (idx.filter fun i => (lane i).isSome)
  (live ++ idx.filter (fun i => (lane i).isNone), live.length)

/-- The registers of some groups moved by positions: register n of new group j in lane l is that of its source, with its errors (R34, R107).
Brine registers stay with the bench slot. -/
def gatherRegs (gs : List (Nat × Group)) (r : Regs) (src : Nat → Nat) : Regs :=
  let at' (l : Nat) : Regs := match gs[src l]? with
    | some kv => kv.2.regs
    | none => r
  let keys := distinct (gs.flatMap fun kv => kv.2.regs.v.map (·.1))
  let moved (of : Regs → List RegWord) : List RegWord :=
    let stays : List RegWord := (of r).filter fun b => match b with
      | .sc _ | .control => true
      | .vec n _ => decide (120 ≤ n)
      | .pred _ => false
    let lane (l : Nat) : List RegWord := (of (at' l)).filter fun b => (upTo 120).any fun n => b == .vec n l
    stays ++ (upTo 32).flatMap lane ++ ((upTo 8).filter fun n => (upTo 32).any fun l => (of (at' l)).contains (.pred n)).map .pred
  { r with
    upset := moved (·.upset)
    soft := moved (·.soft)
    v := keys.foldl (fun st n => Store.set zeroLanes st n (lanesBy fun l => (Store.get zeroLanes (at' l).v n).at l)) []
    p := (upTo 8).foldl (fun st n => Store.set 0 st n (maskOf fun l => (Store.get 0 (at' l).p n).getLsbD l)) [] }

/-- The slots of a flow may issue from a clk on. -/
def Flow.readyFrom (f : Flow) (clk : Nat) : Flow := { f with s0 := { f.s0 with readyAt := clk }, s1 := { f.s1 with readyAt := clk } }

/-- A bench's arrived groups, with what regrouping makes of each: its source by lane, and its slots and stack with the clks that spills
cost, or none when they would pass 32 entries (R33, R123). -/
structure Regrouping where
  gs : List (Nat × Group)
  src : Nat → Nat → Nat
  lives : Nat → Nat → Bool
  flows : List (Option (Flow × Nat))

/-- The regrouping of a team on one bench (R33). -/
def State.regrouping (s : State) (tid bench : Nat) : Regrouping :=
  let gs := (s.benchGroups tid bench).filter fun kv => !kv.2.flow.exited && kv.2.brpHold.isSome
  let orders := (upTo 32).map fun l => regroupOrder gs l
  let src (j l : Nat) : Nat := match orders[l]? with
    | some (o, _) => o.getD j j
    | none => j
  let lives (j l : Nat) : Bool := match orders[l]? with
    | some (_, n) => decide (j < n)
    | none => false
  let flow (j : Nat) (g : Group) : Option (Flow × Nat) :=
    let mask := maskOf (lives j)
    let target (l : Nat) : VA := match (gs[src j l]?).bind fun kv => kv.2.brpHold with
      | some (pc, ws, _, _) => brpTarget pc (ws.at l)
      | none => 0
    let join := match g.brpHold with
      | some (_, _, jn, _) => jn
      | none => 0
    let home : Store Nat := (upTo 32).foldl (fun st l => Store.put st l (if lives j l then ((gs[src j l]?).map (·.2.number)).getD 32 else 32)) []
    let f0 := { g.flow with s0 := {}, s1 := {}, region := true, regionDepth := g.flow.stack.length, regionBench := bench % 16, home := home, unrew := true, atReturn := false }
    if mask = 0 then some (f0, 0) else splitByTarget f0 [] join mask target 0
  { gs := gs, src := src, lives := lives, flows := ((upTo gs.length).zip gs).map fun jk => flow jk.1 jk.2.2 }

/-- The arrived groups of the bench hold unequal numbers of extended blocks (R34). -/
def Regrouping.unequal (r : Regrouping) : Bool := match r.gs with
  | [] => false
  | (_, g0) :: _ => r.gs.any fun kv => kv.2.regs.ext != g0.regs.ext

/-- The spill costs of a bench (R125). -/
def Regrouping.cost (r : Regrouping) : Nat := if r.unequal then 0 else (r.flows.map fun f => (f.map (·.2)).getD 0).sum

/-- The trap of a group at the BRP at which it is held (R34, R123). -/
def Group.brpTrap (g : Group) (c : FaultCode) : Trap := match g.brpHold with
  | some (pc, _, _, m) => { code := c, pc := pc, resume := pc, slot := if g.flow.s0.live then 0 else 1, mask := m }
  | none => { code := c, pc := 0, resume := 0, slot := 0, mask := 0 }

/-- Regroup the arrived groups of a team on one bench (R33, R34), to issue from a clk on. The groups whose pushes do not fit fault after the others
have moved (R123). -/
def State.regroupBench (s : State) (r : Regrouping) (ready : Nat) : State :=
  if r.unequal then r.gs.foldl (fun s kv => s.takeFault kv.1 (kv.2.brpTrap .extensionFault)) s
  else
    let js := (upTo r.gs.length).zip (r.gs.zip r.flows)
    let s2 := js.foldl (fun s x => match x.2.2 with
      | none => s
      | some (f, _) =>
        let (gid, g) := x.2.1
        (s.moveFlow gid (f.readyFrom ready)).modGroup gid fun g' =>
          { g' with
            regs := (gatherRegs r.gs g.regs (r.src x.1)).dropBrine
            stops := if g'.stops.wait = .brp then { g'.stops with wait := .none, waitUs := 0 } else g'.stops }) s
    js.foldl (fun s x => match x.2.2 with
      | none => s.takeFault x.2.1.1 (x.2.1.2.brpTrap .joinStackOverflow)
      | some (f, _) => if !f.s0.live && !f.s1.live then s.exitGroup x.2.1.1 else s) s2

/-- Whether a team synchronises at a BRP (R32): every group has arrived at the same BRP or exited, none is parked or stopped, and
some group has arrived. -/
def State.brpReady (s : State) (tid : Nat) : Bool :=
  let gs := s.groupsOf tid
  let arrived := gs.filter fun kv => !kv.2.flow.exited
  (match arrived with
   | [] => false
   | (_, g) :: _ => arrived.all fun kv =>
      kv.2.stops.wait == .brp && kv.2.stops.parked.isNone && kv.2.stops.stop.isNone &&
      (kv.2.brpHold.map (·.1)) == (g.brpHold.map (·.1)) && g.brpHold.isSome)

/-- BRP_SYNCHRONISE (R33, R34): each bench regroups. All complete in the same clk, 8 clk after this one and after the largest of the benches' spill
costs (R125, DEDUCED, log 22), and may issue 2 clk later. -/
def execBrpSynchronise (tid : Nat) (s : State) : Host.Outcome State Fault Refusal :=
  if s.brpReady tid then
    let s1 := s.modSync tid fun y => { y with brpArrived := 0, brpPc := none }
    let plans := (distinct ((s.groupsOf tid).map fun kv => kv.1 / 8)).map fun b => s.regrouping tid b
    let ready := (s.core (tid / 16)).clk + 10 + (plans.map fun p => p.cost).foldl max 0
    .next (plans.foldl (fun s p => s.regroupBench p ready) s1)
  else .next s

/-! ### The return (R35) -/

/-- The groups of a team whose lanes one bench regrouped, by group number. A restore may have put them on several benches (R43, log 28). -/
def State.regionGroups (s : State) (tid bench : Nat) : List (Nat × Group) :=
  sortBy (fun kv => [Int.ofNat kv.2.number]) ((s.groupsOf tid).filter fun kv => kv.2.flow.region && kv.2.flow.regionBench == bench)

/-- The teams on a core with a region that a bench regrouped, of which every group has come to its JOIN or exited. -/
def State.returnReady (s : State) (core bench : Nat) : List Nat :=
  let tids := distinct ((s.groups.filter fun kv => coreOf kv.1 == core && kv.2.flow.region && kv.2.flow.regionBench == bench).map fun kv => kv.2.tid)
  tids.filter fun t => (s.regionGroups t bench).all fun kv => kv.2.flow.atReturn || kv.2.flow.exited

/-- The sources of position l of the groups of a region, in the order of the groups, from the regroup map: the positions that the
map marks inactive have the sources that it does not name, in order. -/
def regroupSources (gs : List (Nat × Group)) (l : Nat) : List Nat :=
  let named := gs.map fun kv => Store.get kv.2.number kv.2.flow.home l
  let spare := (gs.map fun kv => kv.2.number).filter fun n => !named.contains n
  let step (acc : List Nat × List Nat) (n : Nat) : List Nat × List Nat :=
    if n = 32 then (acc.1 ++ [acc.2.headD 32], acc.2.drop 1) else (acc.1 ++ [n], acc.2)
  (named.foldl step ([], spare)).1

/-- Return the lanes of a region of a team to their original groups (R35). -/
def State.returnBench (s : State) (tid bench : Nat) : State :=
  let gs := s.regionGroups tid bench
  let clk := (s.core (tid / 16)).clk
  let srcs := (upTo 32).map fun l => regroupSources gs l
  let holder (number l : Nat) : Nat := match srcs[l]? with
    | some names => names.findIdx (· == number)
    | none => 0
  let live (kv : Nat × Group) : Mask := if kv.2.flow.exited then 0 else kv.2.flow.s0.mask ||| kv.2.flow.s1.mask
  let wasLive (kv : Nat × Group) (l : Nat) : Bool := Store.get 32 kv.2.flow.home l != 32
  let join : VA := gs.foldl (fun acc kv => if kv.2.flow.exited then acc else if kv.2.flow.s0.live then kv.2.flow.s0.pc else kv.2.flow.s1.pc) 0
  let flow (kv : Nat × Group) : Flow × Nat :=
    let back (l : Nat) : Option (Nat × Group) := gs[holder kv.2.number l]?
    let alive := maskOf fun l => match back l with
      | some n => (live n).getLsbD l
      | none => false
    let gone := maskOf fun l => match back l with
      | some n => wasLive n l && !(live n).getLsbD l
      | none => false
    let f0 : Flow :=
      { kv.2.flow with
        s0 := if alive = 0 then {} else { pc := join + 4, mask := alive }
        s1 := {}
        region := false
        regionDepth := 0
        regionBench := 0
        home := []
        atReturn := false
        exited := false }
    (f0.removeLanes gone 0, f0.removalCost gone)
  let flows := gs.map fun kv => (kv, flow kv)
  let ready := clk + 10 + (flows.map fun x => x.2.2).sum
  let s1 := s.modSync tid fun y => { y with exited := gs.foldl (fun m kv => m &&& ~~~(groupBit kv.2.number)) y.exited }
  let s2 := flows.foldl (fun s x =>
    (s.moveFlow x.1.1 (x.2.1.readyFrom ready)).modGroup x.1.1 fun g =>
      { g with
        regs := gatherRegs gs x.1.2.regs (holder x.1.2.number)
        stops := if g.stops.wait = .regroupJoin then { g.stops with wait := .none, waitUs := 0 } else g.stops }) s1
  gs.foldl (fun s kv => s.afterFlow kv.1) s2

/-- REGROUP_RETURN (R35): of the teams of a core, the regions that a bench regrouped return. -/
def execRegroupReturn (core bench : Nat) (s : State) : Host.Outcome State Fault Refusal :=
  .next ((s.returnReady core bench).foldl (fun s t => s.returnBench t bench) s)

/-! ### Exited groups and guards -/

/-- Whether an exited group releases its slot (R40): outside a regrouped region and its engine counters at 0. A write that a lock, a lease or a page that
is not present still keeps from being performed is made first, and a fault of it is reported (DEDUCED, log 22). -/
def Group.releasable (g : Group) : Bool := g.flow.exited && !g.flow.region && g.eng.out.isEmpty && !g.unwritten

/-- GROUP_EXIT_RELEASE (R40): the extended blocks return to the pool, and the slot and the base block are free; a decision follows (R272). -/
def execGroupExitRelease (gid : Nat) (s : State) : Host.Outcome State Fault Refusal :=
  match Store.find s.groups gid with
  | none => .next s
  | some g =>
    if g.releasable then
      let s0 := (g.ops.filter fun o => o.probing.isSome).foldl (fun s o => s.dropOp gid o) s
      let s1 := s0.modBench (gid / 8) fun b => b.release g.regs.ext (s.core (coreOf gid)).clk
      let s2 := { s1 with groups := Store.erase s1.groups gid }
      .next (match Store.find s.teams g.tid with
        | some t => s2.modDisp t.id.part fun d => { d with decide := true }
        | none => s2)
    else .next s

/-- GROUP_GUARDED (R285). -/
def execGroupGuarded (gid : Nat) (s : State) : Host.Outcome State Fault Refusal :=
  match Store.find s.groups gid with
  | none => .next s
  | some g =>
    if g.time.readySince + 32 ≤ (s.core (coreOf gid)).clk && !g.flow.exited then .next (s.modGroup gid fun g => { g with time := { g.time with guarded := true } })
    else .next s

end Sys2Proof.Machine
end

