-- ==== Sys2Proof/Machine/Sync.lean ====
section
/-! DEFINITION. Barriers (R290 to R292), signals (R293, R294), WAITC (R295), the extended blocks (R97, R98, R296), and what ends a wait:
the register-wait deadlock (R99, R100) and the watchdog (R39, R321). -/

namespace Sys2Proof.Machine

/-! ### BAR and BARC -/

/-- Hold the issuing slot at a barrier: the group arrives when its slots allow it (R291). -/
def holdAt (s : State) (x : Issue) (g : Group) (h : Hold) : Res :=
  .done ((s.modFlow x.gid fun f => f.setSlot x.slot { g.flow.slot x.slot with hold := h }).afterFlow x.gid)

/-- BAR (R290, R291): an acq_rel fence at team scope, so it waits for the group's earlier accesses (R227). -/
def execBar (m : Bool) (a : BitVec 7) (b : BitVec 2) (s : State) : Host.Outcome State Fault Refusal :=
  issueFlow s (.bar m a b) fun s x g =>
    match Store.find s.teams x.tid with
    | none => .done s
    | some t =>
      let shown := (if m then g.regs.sc a.toNat else BitVec.allOnes 32) &&& allGroups t.id.groups
      if shown &&& groupBit g.number = 0 then .trap (x.trap .illegalOperand)
      else if g.mustWait true then .wait (.order (g.before true))
      else holdAt s x g (.bar b.toNat shown)

/-- BARC (R292): an acq_rel fence at cluster scope. -/
def execBarc (s : State) : Host.Outcome State Fault Refusal :=
  issueFlow s .barc fun s x g => if g.mustWait true || s.pathWaits x.core then .wait (.order (g.before true)) else holdAt s x g .barc

/-! ### SIGWAIT and SIGADD -/

/-- Whether a signal word satisfies a threshold: their difference modulo 2^32, read as signed, is 0 or more (R293). -/
def signalMet (w t : Word) : Bool := decide (0 ≤ (w - t).toInt)

/-- SIGWAIT (R293): its faults are reported at the end of its window. A line that an engine operation of the group writes holds it (R305). -/
def execSigwait (d : BitVec 7) (a : BitVec 7) (l : BitVec 4) (f : BitVec 4) (s : State) : Host.Outcome State Fault Refusal :=
  issue s (.sigwait d a l f) fun s x g =>
    let w := g.regs.sc a.toNat
    let off := offBytes f 4
    let o : LongOp := { newOp x g .sigwait l [⟨.S, d.toNat, 1⟩] with dest := d.toNat, threshold := g.regs.sc d.toNat, dueClk := x.clk }
    let o' : LongOp :=
      if !offsetAligned w off 4 then { o with failure := some (.misaligned, 0) }
      else match s.stashTarget x.tid w off 4 with
        | .error c => { o with failure := some (c, 0) }
        | .ok (t, k) => { o with accesses := [{ lane := 0, addr := stashAddr t k }] }
      let s1 := match g.eng.tag, o'.accesses with
        | some _, a :: _ =>
          if signalMet (BitVec.ofNat 32 (numOf (s.stashBytes (a.addr / 2 ^ 32) (a.addr % 2 ^ 32) 4))) o.threshold then s
          else s.stampPoint x.core g.eng.tagSlot 3
        | _, _ => s
      match s.engineHolders x.gid (o'.accesses.flatMap (s.accessLines 4)) false with
      | h :: hs => .wait (.order (h :: hs))
      | [] => .done (s1.modOps x.gid fun q => q ++ [o'])

/-- The team and the offset of the signal word of a SIGWAIT. -/
def LongOp.signal (o : LongOp) : Option (Nat × Nat) := match o.accesses with
  | a :: _ => some (a.addr / 2 ^ 32, a.addr % 2 ^ 32)
  | [] => none

/-- A SIGWAIT of a group that has not read a satisfying value yet and would read one now. -/
def State.sigwaitReady (s : State) (gid : Nat) (g : Group) (clk : Nat) : Option LongOp :=
  g.ops.find? fun o => o.kind == .sigwait && !o.done && o.failure.isNone && o.probing.isNone && decide (o.dueClk ≤ clk) && !s.held g gid o &&
    (match o.signal with
     | some (t, k) => signalMet (BitVec.ofNat 32 (numOf (s.stashBytes t k 4))) o.threshold || !s.unbound t k 4
     | none => false)

/-- A SIGWAIT of a group of which the satisfying read completes at a clk. -/
def Group.sigwaitDone (g : Group) (clk : Nat) : Option LongOp :=
  g.ops.find? fun o => o.kind == .sigwait && !o.done && o.probing.isSome && decide (o.dueClk ≤ clk)

/-- SIGWAIT_SATISFIED (R293): a read returns a value that satisfies the threshold; 20 clk later, and 4 for each hop of a peer's stash, the
SIGWAIT writes that value and completes as an acquire. -/
def execSigwaitSatisfied (gid : Nat) (s : State) : Host.Outcome State Fault Refusal :=
  match Store.find s.groups gid with
  | none => .next s
  | some g =>
    let core := coreOf gid
    let clk := (s.core core).clk
    match g.sigwaitDone clk with
    | some o =>
      let s1 := s.modRegs gid fun r => r.setSc o.dest (BitVec.ofNat 32 (o.probing.getD 0))
      let s2 := s1.modOp gid o.serial fun o => { o with done := true, accesses := [] }
      .next (s2.acquireAt core o.scope)
    | none => match s.sigwaitReady gid g clk with
      | none => .next s
      | some o => match o.signal with
        | none => .next s
        | some (t, k) => match s.stashAccess .lds o.gmode t k 4 [] with
          | .error .wait =>
            let s1 := o.accesses.foldl (fun s a => s.noteLane (s.party g.tid gid) o a) s
            .next (s1.modOp gid o.serial fun o => { o with dueClk := clk + 1 })
          | .error (.page h) => .next (s.modOp gid o.serial fun o => { o with failure := some (.pageFault, s.stashVa t k), unfinished := o.mask, hyper := h })
          | .error (.unpulled _) => .next (s.modOp gid o.serial fun o => { o with failure := some (.pageFault, s.stashVa t k), unfinished := o.mask, hyper := true })
          | .error (.fault c) => .next (s.modOp gid o.serial fun o => { o with failure := some (c, s.stashVa t k) })
          | .error (.lost site) => .next ((s.detect site).modOp gid o.serial fun o => { o with failure := some (.uncorrectable, s.stashVa t k) })
          | .ok (b, s1) =>
            if signalMet (BitVec.ofNat 32 (numOf b)) o.threshold then
              .next (s1.modOp gid o.serial fun o => { o with probing := some (numOf b), dueClk := clk + 20 + s.farClks g.tid t })
            else .next (s1.modOp gid o.serial fun o => { o with dueClk := clk + 1 })

/-- SIGADD (R294): one read-modify-write for the group. -/
def execSigadd (a : BitVec 7) (b : BitVec 7) (s : State) : Host.Outcome State Fault Refusal :=
  issue s (.sigadd a b) fun s x g =>
    let w := g.regs.sc a.toNat
    if !offsetAligned w 0 4 then .trap (x.trap .misaligned)
    else match s.stashTarget x.tid w 0 4 with
      | .error c => .trap (x.trap c)
      | .ok (t, k) =>
        let ord := memOrder g.regs.gmode
        let scope := if s.unbound t k 4 then min 2 (memScope g.regs.gmode) else memScope g.regs.gmode
        let peer := t != x.tid
        let o : LongOp := { newOp x g (.atoms .add) 0 [] with sz := 4, destMask := 1, accesses := [{ lane := 0, addr := stashAddr t k }] }
        let full := peer && decide (255 ≤ g.eng.count 3)
        let places := s.opPlaces g x.gid o
        let s0 := s.settlePath x.core places
        let after := (g.ops.filter (s.follows g x.gid o)).map (·.serial) ++ s.engineHolders x.gid (s.stashLines t k 4) true
        if full || !after.isEmpty || (releases ord && decide (2 ≤ scope) && s.pathWaits x.core) || (s0.pathTouches x.core places && !s.leasedBytes t k 4) then
          .wait (waitFor full 3 after)
        else if s.leasedBytes t k 4 then .wait .lease
        else
          let s1 := if releases ord then s0.releaseAt x.core x.tid scope else s0
          match s1.stashAccess (.atoms .add) g.regs.gmode t k 4 (bytesOf 4 (g.regs.sc b.toNat).toNat) with
          | .error f => x.failed (s.stashVa t k) f (s.lockedAt t k 4)
          | .ok (_, s2) =>
            let s3 := if peer then (s2.modEng x.gid fun e => e.begin 3 g.issued).finishWork x.gid 3 g.issued else s2
            .done ((if acquires ord then s3.acquireAt x.core scope else s3).setUnrew x.gid)

/-! ### WAITC -/

/-- WAITC (R241, R295). -/
def execWaitc (k : BitVec 2) (sc : BitVec 3) (n : BitVec 8) (s : State) : Host.Outcome State Fault Refusal :=
  issue s (.waitc k sc n) fun s x g =>
    if n.toNat < g.eng.count k.toNat then .wait (.waitc k.toNat n.toNat sc.toNat)
    else match Store.find g.eng.f k.toNat with
      | some status => .trap { x.trap .engineFault with aux1 := status, clears := some k.toNat }
      | none => .done ((s.acquireAt x.core sc.toNat).departLater x)

/-! ### XACQ and XREL -/

/-- Whether a request for n blocks is granted with F blocks free (R98): it is the oldest, or leaves what the oldest needs. -/
def mayGrant (free n : Nat) (oldest : Option Nat) : Bool :=
  decide (n ≤ free) && (match oldest with
    | none => true
    | some o => decide (o ≤ free - n))

/-- A grant: the blocks read as 0 in every lane (R97). -/
def Regs.granted (r : Regs) (n : Nat) : Regs := 
  { r with
    v := r.v.filter (fun kv => decide (kv.1 < 32))
    upset := r.upset.filter (fun b => !((upTo 88).any fun k => b.inVec (32 + k) (BitVec.allOnes 32)))
    soft := r.soft.filter (fun b => !((upTo 88).any fun k => b.inVec (32 + k) (BitVec.allOnes 32)))
    ext := n }

/-- XACQ (R97, R98, R296): a request that is not granted at once joins the bench's queue, and the group waits at its XACQ. -/
def execXacq (r : Bool) (a : BitVec 7) (i : BitVec 11) (s : State) : Host.Outcome State Fault Refusal :=
  issueFlow s (.xacq r a i) fun s x g =>
    let n := if r then (g.regs.sc a.toNat).toNat else i.toNat
    let ceil := ((Store.find s.teams x.tid).map (·.id.extCeil)).getD 0
    let b := s.bench (x.gid / 8)
    if n = 0 ∨ 11 < n then .trap (x.trap .illegalOperand)
    else if ceil / 8 < n ∨ g.regs.ext ≠ 0 then .trap (x.trap .extensionFault)
    else if mayGrant (b.freeAt x.clk) n (b.acq.head?.map (·.n)) then
      .done ((((s.modBench (x.gid / 8) fun b => b.grant n x.clk).modRegs x.gid fun r => r.granted n).advance x (.xacq r a i)).departLater x)
    else
      .done ((s.modBench (x.gid / 8) fun b => { b with acq := b.acq ++ [⟨x.gid, n, x.clk⟩] }).startWait x.gid .xacq)

/-- The queued request that a bench grants at a clk: the oldest that the rule of R98 lets through. -/
def Bench.nextGrant (b : Bench) (clk : Nat) : Option XacqRequest :=
  let q := sortBy (fun (r : XacqRequest) => [Int.ofNat r.arrival, Int.ofNat r.gid]) b.acq
  match q with
  | [] => none
  | o :: rest => if o.n ≤ b.freeAt clk then some o else rest.find? fun r => mayGrant (b.freeAt clk) r.n (some o.n)

/-- XACQ_GRANT (R98): the group goes on after its XACQ, 2 clk after the grant. -/
def execXacqGrant (gid : Nat) (s : State) : Host.Outcome State Fault Refusal :=
  let clk := (s.core (coreOf gid)).clk
  match (s.bench (gid / 8)).nextGrant clk with
  | none => .next s
  | some r =>
    if r.gid ≠ gid then .next s
    else
      let s1 := s.modBench (gid / 8) fun b => { (b.grant r.n clk) with acq := b.acq.filter fun q => q.gid != gid }
      .next (s1.modGroup gid fun g =>
        let sl := g.flow.slot g.flow.last
        { g with
          regs := g.regs.granted r.n
          flow := g.flow.setSlot g.flow.last { sl with pc := sl.pc + 4, readyAt := clk + 2 }
          time := { g.time with nextClk := clk + 2 }
          stops := { g.stops with wait := .none, waitUs := 0 } })

/-- XREL (R97). -/
def execXrel (s : State) : Host.Outcome State Fault Refusal :=
  issue s .xrel fun s x g =>
    if g.regs.ext = 0 then .trap (x.trap .extensionFault)
    else .done (((s.modBench (x.gid / 8) fun b => b.release g.regs.ext x.clk).modRegs x.gid fun r => r.granted 0).departLater x)

/-! ### Register-wait deadlock -/

/-- A group waits at a SIGWAIT of which the window is over, or ends with a stop (R293, R316). -/
def Group.atSigwait (g : Group) : Bool := g.ops.any fun o => o.kind == .sigwait && !o.done && (o.window == 0 || (match g.stops.wait with
  | .order os => os.contains o.serial
  | _ => false))

/-- Every live slot of a group is held, at a barrier or a BRP; slots held at different ones never arrive (R291). -/
def Group.allHeld (g : Group) : Bool :=
  (g.flow.s0.live || g.flow.s1.live) && (!g.flow.s0.live || g.flow.s0.isHeld) && (!g.flow.s1.live || g.flow.s1.isHeld)

/-- A stuck wait (R99). -/
def Group.stuck (g : Group) : Bool :=
  g.stops.parked.isNone && g.stops.stop.isNone &&
  (g.atSigwait || g.allHeld || (match g.stops.wait with
    | .barrier | .cluster | .sigwait | .xacq | .brp | .regroupJoin => true
    | _ => false))

/-- Every group of a team has exited or is in a stuck wait (R99 condition 1). -/
def State.allStuck (s : State) (tid : Nat) : Bool := (s.groupsOf tid).all fun kv => kv.2.flow.exited || kv.2.stuck

/-- A team is in register-wait deadlock (R99). -/
def State.deadlocked (s : State) (tid : Nat) : Bool :=
  match Store.find s.teams tid with
  | none => false
  | some t =>
    let gs := s.groupsOf tid
    let waiting := gs.filter fun kv => kv.2.stops.wait == .xacq && kv.2.stuck
    s.allStuck tid && !waiting.isEmpty &&
    (waiting.any fun w => gs.any fun h => h.1 / 8 == w.1 / 8 && h.2.regs.ext != 0 && h.2.stuck &&
      (h.2.atSigwait || h.2.allHeld || h.2.stops.wait == .barrier || h.2.stops.wait == .cluster || h.2.stops.wait == .brp)) &&
    gs.all (fun kv => kv.2.eng.out.isEmpty) &&
    (decide (t.id.height * t.id.width ≤ 1) || (s.clusterTeams t.id).all fun u => s.allStuck u.1)

/-- The fault of a group that waits: at the slot that last issued, or, when the group waits for a SIGWAIT or a LAUNCH that has issued, at
that instruction (R314). -/
def Group.waitTrap (g : Group) (c : FaultCode) : Trap :=
  let n := if (g.flow.slot g.flow.last).live then g.flow.last else 1 - g.flow.last
  let sl := g.flow.slot n
  let here : Trap := { code := c, pc := sl.pc, resume := sl.pc, slot := n, mask := sl.mask }
  match g.stops.wait, g.ops.find? fun o => !o.done && (o.kind == .sigwait || o.kind == .launch) with
  | .none, some o => if g.allHeld then here else { here with pc := o.pc, slot := o.slot, mask := o.mask }
  | _, _ => here

/-- REGISTER_WAIT_DEADLOCK (R100): every group of the team that waits at XACQ faults there. -/
def execRegisterWaitDeadlock (tid : Nat) (s : State) : Host.Outcome State Fault Refusal :=
  match Store.find s.teams tid with
  | none => .next s
  | some t =>
    if t.sync.deadlockTimer < 1024 then .next s
    else
      let s1 := s.modSync tid fun y => { y with deadlockTimer := 0 }
      .next (((s.groupsOf tid).filter fun kv => kv.2.stops.wait == .xacq).foldl (fun s kv => s.takeFault kv.1 (kv.2.waitTrap .registerWaitDeadlock)) s1)

/-! ### The watchdog -/

/-- Whether the wait time of a group counts (R321): it waits (R36), or stalls where a rule says that it waits, or is parked, or stopped,
or a LAUNCH of it has not entered its queue (R306). -/
def Group.counts (g : Group) : Bool :=
  !g.flow.exited &&
  (g.atSigwait || g.allHeld || g.stops.parked.isSome || g.stops.stop.isSome || !g.stops.pending.isEmpty || (g.ops.any fun o => o.kind == .launch && !o.done) ||
   (match g.stops.wait with
    | .none | .order _ | .full _ => false
    | _ => true))

/-- The wait time of a group in µs (R311). -/
def State.waited (s : State) (g : Group) : Nat := g.stops.waitUs + (if g.stops.waitFrom = 0 then 0 else (s.mod.tick - g.stops.waitFrom) / 84000)

/-- The watchdog of a team's device in µs (R312). -/
def State.watchdogOf (s : State) (tid : Nat) : Nat :=
  (((Store.find s.teams tid).bind fun t => Store.find s.vdevs t.id.vdev).map fun v => v.ctx.watchdog).getD 0

/-- How a fault of a team's device is handled (R313). -/
def State.kindAt (s : State) (tid : Nat) (c : FaultCode) : FaultKind :=
  kindOf ((((Store.find s.teams tid).bind fun t => Store.find s.vdevs t.id.vdev).map fun v => v.ctx.trapsvc).getD false) c

/-- Whether the wait of a group has lasted as long as the watchdog (R39). -/
def State.overdue (s : State) (g : Group) : Bool :=
  g.counts && (g.stops.stop.all fun x => s.kindAt g.tid x.code != .fatal) && decide (0 < s.watchdogOf g.tid) && decide (s.watchdogOf g.tid ≤ s.waited g)

/-- WATCHDOG_EXPIRY (R39, R321). -/
def execWatchdogExpiry (gid : Nat) (s : State) : Host.Outcome State Fault Refusal :=
  match Store.find s.groups gid with
  | none => .next s
  | some g => if s.overdue g then .next (s.takeFault gid (g.waitTrap .waitTimeout)) else .next s

end Sys2Proof.Machine
end

