-- ==== Sys2Proof/Machine/Engine.lean ====
section
/-! DEFINITION. The copy streamer (R297 to R304) and the collectives (R307 to R309): RECLD, the four copies, COLL, and the events in which
they start, move and complete. -/

namespace Sys2Proof.Machine

/-! ### Status words (R289) -/

/-- A status word, from BYTES, SIGD and CODE. -/
def statusWord (bytes : Nat) (sigd : Bool) (code : Nat) : Word :=
  BitVec.ofNat 32 (bytes * 2 ^ 15 + (if sigd then 256 else 0) + code)

/-! ### RECLD (R297) -/

/-- RECLD (R297): the record is used 12 clk later; it counts in c0 until then. -/
def execRecld (d : BitVec 7) (a : BitVec 7) (sl : BitVec 4) (s : State) : Host.Outcome State Fault Refusal :=
  issue s (.recld d a sl) fun s x g =>
    match Store.find s.teams x.tid with
    | none => .done s
    | some t =>
      let off := (g.regs.sc a.toNat).toNat
      if off % 64 ≠ 0 then .trap (x.trap .misaligned)
      else if t.id.stashBytes < off + 64 then .trap (x.trap .recordInvalid)
      else
      let full := decide (32 ≤ (s.core x.core).copies.length) || decide (255 ≤ g.eng.count 0)
      let places := s.stashPlaces x.tid off 64
      let after := s.before x.gid g { serial := g.issued, reads := true, places := places } ++ s.engineHolders x.gid (s.stashLines x.tid off 64) false
      if full || !after.isEmpty then .wait (waitFor full 0 after)
      else match (s.settlePath x.core places).touch x.tid off 64 false with
        | (_, some f) => x.failed (s.stashVa x.tid off) f (s.lockedAt x.tid off 64) (.full 4)
        | (s1, none) =>
          let b := s1.stashBytes x.tid off 64
          if !validRecord b then .trap (x.trap .recordInvalid)
          else
            let s2 := s1.modTeamMem x.tid fun m => m.putRecord x.clk sl.toNat (recordOf b) (x.clk + 12)
            let s3 := (s2.modRegs x.gid fun r => r.setSc d.toNat (statusWord 64 false 0)).modEng x.gid fun e => e.begin 0 g.issued
            .done (s3.modCore x.core fun c =>
              { c with
                copies := c.copies ++ [{ kind := .recld, serial := c.copySerial, gid := x.gid, tid := x.tid, opSerial := g.issued, dest := d.toNat,
                                         stream := false, sig := false, record := none, block := [], issueClk := x.clk }]
                copySerial := c.copySerial + 1 })

/-! ### The issue of a copy (R298 to R300) -/

/-- The places that the scalar block of a copy names, with what R300 row 4 checks of each: the word, its alignment, the bytes that it
stands for, and whether it must be in the own stash. -/
def copyPlaces (kind : CopyKind) (block : List Word) (r : TensorRecord) (sig : Bool) : List (Word × Nat × Nat × Bool) :=
  let own := match kind with
    | .cpout | .cpst => true
    | _ => false
  [(block.getD 0 0, 128, r.tileBytes, own)] ++
  (match kind with
   | .cpst => [(block.getD 1 0, 128, r.tileBytes, false)]
   | .cpgath => [(block.getD 1 0, 4, 4 * r.box 1, true)]
   | _ => []) ++
  (if sig then [(block.getD 2 0, 4, 4, false)] else [])

/-- The fault of a copy by row 4 of R300. -/
def State.copyFault (s : State) (tid : Nat) (places : List (Word × Nat × Nat × Bool)) : Option FaultCode :=
  if places.any fun p => (p.1.extractLsb' 0 21).toNat % p.2.1 != 0 then some .misaligned
  else if places.any fun p => match s.stashTarget tid p.1 0 p.2.2.1 with
      | .error _ => true
      | .ok (t, _) => p.2.2.2 && t != tid then some .permission
  else none

/-- A copy at issue (R298 to R300): the block and the record are read whole. -/
def issueCopy (s : State) (x : Issue) (g : Group) (kind : CopyKind) (d a : BitVec 7) (la sl : BitVec 4) (stream sig : Bool) : Res :=
  match Store.find s.teams x.tid with
  | none => .done s
  | some t =>
    let block := g.regs.scWords a.toNat 8
    let rec' := t.mem.recordAt x.clk sl.toNat
    if t.sync.producer ≠ some x.gid then .trap (x.trap .streamerRights)
    else match rec'.bind fun r => s.copyFault x.tid (copyPlaces kind block r sig) with
      | some c => .trap (x.trap c)
      | none =>
        if 32 ≤ (s.core x.core).copies.length || 255 ≤ g.eng.count 0 || g.mustWait false then .wait (waitFor (decide (32 ≤ (s.core x.core).copies.length) || decide (255 ≤ g.eng.count 0)) 0 (g.before false))
        else
          let bad : Bool := match rec' with
            | none => true
            | some r => kind == .cpgath && decide (r.rank < 2)
          let op (serial : Nat) : CopyOp :=
            { kind := kind, serial := serial, gid := x.gid, tid := x.tid, opSerial := g.issued, dest := d.toNat, stream := stream, sig := sig,
              record := if bad then none else rec', block := block, issueClk := x.clk }
          let s1 := s.modCore x.core fun c => { c with copies := c.copies ++ [op c.copySerial], copySerial := c.copySerial + 1 }
          let s2 := (s1.modEng x.gid fun e => e.begin 0 g.issued).modOps x.gid fun l =>
            l ++ [{ newOp x g .copy la [⟨.S, d.toNat, 1⟩] with dest := d.toNat }]
          let out := match kind with
            | .cpout | .cpst => true
            | _ => false
          let s3 := if out then s2.setUnrew x.gid else s2
          .done (match g.eng.tag with
            | none => s3
            | some _ => s3.stampPoint x.core g.eng.tagSlot (if out then 6 else 1))

/-- CPIN (R298 to R302). -/
def execCpin (d : BitVec 7) (a : BitVec 7) (l : BitVec 4) (sl : BitVec 4) (t : Bool) (sg : Bool) (s : State) : Host.Outcome State Fault Refusal :=
  issue s (.cpin d a l sl t sg) fun s x g => issueCopy s x g .cpin d a l sl t sg
/-- CPOUT (R298 to R302). -/
def execCpout (d : BitVec 7) (a : BitVec 7) (l : BitVec 4) (sl : BitVec 4) (t : Bool) (sg : Bool) (s : State) : Host.Outcome State Fault Refusal :=
  issue s (.cpout d a l sl t sg) fun s x g => issueCopy s x g .cpout d a l sl t sg
/-- CPST (R298 to R302). -/
def execCpst (d : BitVec 7) (a : BitVec 7) (l : BitVec 4) (sl : BitVec 4) (t : Bool) (sg : Bool) (s : State) : Host.Outcome State Fault Refusal :=
  issue s (.cpst d a l sl t sg) fun s x g => issueCopy s x g .cpst d a l sl t sg
/-- CPGATH (R298 to R302). -/
def execCpgath (d : BitVec 7) (a : BitVec 7) (l : BitVec 4) (sl : BitVec 4) (t : Bool) (sg : Bool) (s : State) : Host.Outcome State Fault Refusal :=
  issue s (.cpgath d a l sl t sg) fun s x g => issueCopy s x g .cpgath d a l sl t sg

/-! ### The movement of a copy (R301, R302) -/

/-- Read bytes of global memory for the streamer, through the walk-ahead TLB (R303), at the home slice. -/
def State.engineRead (s : State) (p : Party) (va n : Nat) : Except AccessFail (List Byte × State) :=
  match s.translate p.core p.vdev va .read true with
  | .error f => .error f
  | .ok (t, s1) => s1.readAt p t (t.physAddr va) n true

/-- Write bytes of global memory for the streamer: they are performed at device scope, and the issuing core's L1 loses the line (R240). A lease on the
line, or on one that the path still has to write, holds it (R214). -/
def State.engineWrite (s : State) (p : Party) (va : Nat) (data : List Byte) : Except AccessFail State :=
  match s.translate p.core p.vdev va .write true with
  | .error f => .error f
  | .ok (t, s1) =>
    let a := t.physAddr va
    if s1.pathWaits p.core || s1.writeHeld (lineOf a) then .error .wait
    else match s1.writeAt p t (va / 4096) (fun _ => false) true a data with
      | .error f => .error f
      | .ok s2 => .ok (((s2.commitLocks p).drainPath p.core none).l1Drop p.core (lineOf a))

/-- The pages of the global side of a copy from an item on, in layout order, the first nine. -/
def State.pagesAhead (s : State) (c : CopyOp) (r : TensorRecord) : List Nat → List Nat → List Nat
  | [], acc => acc
  | i :: rest, acc =>
    if 9 ≤ acc.length then acc
    else match s.itemPlace c r i with
      | .inside va => s.pagesAhead c r rest (if acc.contains (va / 4096) then acc else acc ++ [va / 4096])
      | .outside => s.pagesAhead c r rest acc

/-- The walk-ahead of a copy (R303): the translations of its page and of up to 8 pages ahead of it come into the walk-ahead TLB; one that finds no valid
translation is dropped. -/
def State.walkAhead (s : State) (p : Party) (c : CopyOp) : State :=
  match c.kind, c.record with
  | .recld, _ | .cpst, _ | _, none => s
  | _, some r =>
    let need : Need := if c.kind == .cpout then .write else .read
    (s.pagesAhead c r ((upTo (r.items - c.done)).map (c.done + ·)) []).foldl (fun s page =>
      match Store.find s.vdevs p.vdev, tlbFind (s.core p.core).mem.walkTlb p.vdev page with
      | some v, none => match s.lookup (s.partOfCore p.core) p.vdev v [] (page * 4096) need with
        | .ok (t, s1) => s1.modMem p.core fun m => { m with walkTlb := tlbAdd 64 t m.walkTlb }
        | .error _ => s
      | _, _ => s) s

/-- The bytes that an item has in the tile, from its bytes in global memory: under PN, planes at and above PLANES are zero (R177). -/
def planked (r : TensorRecord) (i : Nat) (b : List Byte) : List Byte :=
  if r.fmt = 4 ∧ i < r.count then b.take (16 * r.planes) ++ List.replicate (128 - 16 * r.planes) 0 else b

/-- The bytes that a zero-filled item has in the tile: zeros, and 127 for a scale byte (R177). -/
def zeroFilled (r : TensorRecord) (i : Nat) : List Byte := if i < r.count then List.replicate r.elemSize 0 else [127]

/-- What a CPGATH reads of its index list for an item, in the own stash: the line is filled first when it is absent (R213, R301). -/
def State.indexTouch (s : State) (c : CopyOp) (r : TensorRecord) (i : Nat) : State × Option (AccessFail × Nat) :=
  if c.kind = .cpgath then
    let off := (c.block.getD 1 0).toNat % 2 ^ 21 + 4 * r.pos (if i < r.count then i else i - r.count) 1
    match s.touch c.tid off 4 false with
    | (s1, none) => (s1, none)
    | (_, some f) => (s, some (f, s.stashVa c.tid off))
  else (s, none)

/-- Gather some items of a CPIN or CPGATH, up to the first that fails. -/
def State.gatherItems (s : State) (p : Party) (c : CopyOp) (r : TensorRecord) : List Nat → State × List Byte × Nat × Option (AccessFail × Nat)
  | [] => (s, [], 0, none)
  | i :: rest =>
    match s.indexTouch c r i with
    | (s0, some f) => (s0, [], 0, some f)
    | (s0, none) =>
      let one : Except (AccessFail × Nat) (List Byte × State) := match s0.itemPlace c r i with
        | .outside => .ok (zeroFilled r i, s0)
        | .inside va => match s0.engineRead p va (if r.fmt = 4 ∧ i < r.count then 16 * r.planes else (r.itemAt i).2) with
          | .error f => .error (f, va)
          | .ok (b, s1) => .ok (planked r i b, s1)
      match one with
      | .error f => (s0, [], 0, some f)
      | .ok (b, s1) =>
        let (s2, bs, n, f) := s1.gatherItems p c r rest
        (s2, b ++ bs, n + 1, f)

/-- Write some items of a CPOUT from the bytes of their tile, up to the first that fails. -/
def State.scatterItems (s : State) (p : Party) (c : CopyOp) (r : TensorRecord) (tid off : Nat) : List Nat → State × Nat × Option (AccessFail × Nat)
  | [] => (s, 0, none)
  | i :: rest =>
    let (o, n) := r.itemAt i
    let data := s.stashBytes tid (off + o) (if r.fmt = 4 ∧ i < r.count then 16 * r.planes else n)
    match s.itemPlace c r i with
    | .outside =>
      let (s2, k, f) := s.scatterItems p c r tid off rest
      (s2, k + 1, f)
    | .inside va => match s.engineWrite p va data with
      | .error f => (s, 0, some (f, va))
      | .ok s1 =>
        let (s2, k, f) := s1.scatterItems p c r tid off rest
        (s2, k + 1, f)

/-- Land bytes in a stash (R182, R213): a leased line stops them. -/
def State.land (s : State) (tid off : Nat) (data : List Byte) : Except AccessFail State :=
  if s.leasedBytes tid off data.length then .error (.fault .leaseConflict)
  else match s.touch tid off data.length true with
    | (_, some f) => .error f
    | (s1, none) => .ok (s1.stashPut tid off data)

/-- The items of a copy from the next one on that share its line of the tile; scale bytes are taken one by one. -/
def CopyOp.chunk (c : CopyOp) (r : TensorRecord) : List Nat :=
  if r.count ≤ c.done then (if c.done < r.items then [c.done] else [])
  else
    let per := max 1 (128 / r.elemSize)
    (upTo (min (per - c.done % per) (r.count - c.done))).map (c.done + ·)

/-- Move one line of the tile of a copy (R301): what was processed, and the failure of its first item when nothing was. A CPOUT of packed planks reads whole
lines, the sectors that R57 does not fetch too (DESIGN CHOICE, log 45). -/
def State.moveLine (s : State) (p : Party) (c : CopyOp) (r : TensorRecord) : State × Nat × Option (AccessFail × Nat) :=
  let items := c.chunk r
  let first := (r.itemAt c.done).1
  let len := items.foldl (fun acc i => acc + (r.itemAt i).2) 0
  match s.copyTile c r with
  | .error f => (s, 0, some (.fault f, 0))
  | .ok (tid, off) =>
    match c.kind with
    | .recld => (s, 0, none)
    | .cpin | .cpgath =>
      let (s1, b, n, f) := s.gatherItems p c r items
      if n = 0 then (s1, 0, f)
      else match s1.land tid (off + first) b with
        | .error f => (s, 0, some (f, s.stashVa tid (off + first)))
        | .ok s2 => (s2, n, none)
    | .cpout => match s.touch tid (off + first) len false with
      | (_, some f) => (s, 0, some (f, s.stashVa tid (off + first)))
      | (s1, none) =>
        let (s2, n, f) := s1.scatterItems p c r tid off items
        if n = 0 then (s2, 0, f) else (s2, n, none)
    | .cpst => match s.copyDest c r with
      | .error f => (s, 0, some (.fault f, 0))
      | .ok (tid', off') => match s.touch tid (off + first) len false with
        | (_, some f) => (s, 0, some (f, s.stashVa tid (off + first)))
        | (s1, none) => match s1.land tid' (off' + first) (s1.stashBytes tid (off + first) len) with
          | .error f => (s, 0, some (f, s.stashVa tid' (off' + first)))
          | .ok s2 => (s2, items.length, none)

/-- Change one entry of a core's streamer queue. -/
def State.modCopy (s : State) (core serial : Nat) (f : CopyOp → CopyOp) : State :=
  s.modCore core fun k => { k with copies := k.copies.map fun c => if c.serial = serial then f c else c }

/-- BYTES of a copy: the bytes of the box elements processed (R302). -/
def CopyOp.bytes (c : CopyOp) : Nat := match c.record with
  | some r => r.elemSize * min c.done r.count
  | none => 0

/-- The long-latency operation of a copy. -/
def State.opOf (s : State) (gid serial : Nat) : Option LongOp := (Store.find s.groups gid).bind fun g => g.ops.find? fun o => o.serial == serial

/-- A copy is suspended on a page (R303), and the copy behind it comes to the head of the queue (R304): a record of the engine class names it, unless the second stage missed (R336). -/
def State.suspendCopy (s : State) (core : Nat) (c : CopyOp) (hyper : Bool) (addr : Nat) : State :=
  let s1 := (s.modCopy core c.serial fun c => { c with suspended := true, failAddr := addr }).modCore core fun k => { k with copyFree := max k.copyFree k.clk }
  match Store.find s.groups c.gid, Store.find s.teams c.tid, s.opOf c.gid c.opSerial with
  | some g, some t, some o =>
    if hyper then s1.touchPull t.id.part t.id.vdev addr
    else if t.sync.aborted then s1
    else
      let rec' : FaultRecord :=
        { kind := FaultKind.engine.code, code := FaultCode.pageFault.code, team := t.id.number, group := g.number, slot := o.slot, cls := 0,
          mask := o.mask, pc := o.pc, resume := (g.flow.slot o.slot).pc, aux1 := statusWord c.bytes false FaultCode.pageFault.code, aux2 := 0,
          addr := addr, time := s.now }
      let (s2, idx) := s1.enterRecord t.id.part t.id.vdev c.gid rec'
      (s2.modCopy core c.serial fun c => { c with recIdx := some idx }).hitTrigger t.id.vdev c.gid 1 rec'.code
  | _, _, _ => s1

/-- A copy stops with a code, or has made its last write (R302, R304). -/
def State.endCopy (s : State) (core : Nat) (c : CopyOp) (code : Option FaultCode) (addr : Nat) : State :=
  let clk := (s.core core).clk
  (s.modCopy core c.serial fun c => { c with code := code, failAddr := addr, endClk := some clk, suspended := false }).modCore core fun k =>
    { k with copyFree := max k.copyFree (clk + 2) }

/-- The lines of replicated pages on which a copy stalls at its next item (R237): one that it reads, or from which a line of a stash is to be filled. -/
def State.copyStalls (s : State) (c : CopyOp) (r : TensorRecord) : List Nat :=
  let (o, n) := r.itemAt c.done
  let stash (place : Except FaultCode (Nat × Nat)) : List Nat := match place with
    | .ok (t, off) => (s.lockedAt t (off + o) n).toList
    | .error _ => []
  match c.kind with
  | .recld => []
  | .cpout => stash (s.copyTile c r)
  | .cpst => stash (s.copyTile c r) ++ stash (s.copyDest c r)
  | .cpin | .cpgath => stash (s.copyTile c r) ++ (match s.itemPlace c r c.done with
    | .inside va => (s.globalLines (c.tid / 16) (s.party c.tid c.gid).vdev va n).map (128 * ·)
    | .outside => [])

/-- Move up to n lines of the copy that the streamer serves. -/
def State.moveLines (s : State) (core serial : Nat) : Nat → State
  | 0 => s
  | n + 1 =>
    match (s.core core).copies.find? fun c => c.serial == serial with
    | none => s
    | some c => match c.record with
      | none => s.endCopy core c (some .recordInvalid) 0
      | some r =>
        if c.suspended || c.endClk.isSome then s
        else if r.items ≤ c.done then s.endCopy core c none 0
        else
          let (s1, k, f) := s.moveLine (s.party c.tid c.gid) c r
          let s2 := s1.modCopy core serial fun c => { c with done := c.done + k }
          match f with
          | some (.wait, _) => (s2.copyStalls { c with done := c.done + k } r).foldl (fun s l => s.noteStall (s.party c.tid c.gid) c.opSerial l) s2
          | some (.page h, a) => s2.suspendCopy core c h a
          | some (.unpulled _, a) => s2.suspendCopy core c true a
          | some (.fault e, a) => s2.endCopy core c (some e) a
          | some (.lost site, a) => (s2.detect site).endCopy core c (some .uncorrectable) a
          | none => if r.items ≤ c.done + k then s2.endCopy core c none 0 else s2.moveLines core serial n

/-- The copy that the streamer serves: the first in arrival order that has neither ended nor been suspended. -/
def Core.serving (c : Core) : Option CopyOp := c.copies.find? fun o => o.kind != .recld && o.endClk.isNone && !o.suspended

/-- Whether an engine operation of a group, by its issue number, may begin its accesses: those of the group that come before it in program order are
done (R239). -/
def State.engineOrdered (s : State) (gid serial : Nat) : Bool :=
  match Store.find s.groups gid with
  | none => true
  | some g => g.ops.all fun o =>
      decide (serial ≤ o.serial) || (if o.kind == .mcst then o.destMask == 0 else o.done || o.kind == .sigwait || !o.isAccess)

/-- The copy that begins its first access at the present clk, 4 clk after it has reached the head (R304). -/
def State.copyStarts (s : State) (core : Nat) : Option CopyOp :=
  let k := s.core core
  match k.serving with
  | none => none
  | some c => if c.start.isNone && decide (max c.issueClk k.copyFree + 4 ≤ k.clk) && s.engineOrdered c.gid c.opSerial then some c else none

/-- COPY_START (R304). -/
def execCopyStart (core : Nat) (s : State) : Host.Outcome State Fault Refusal :=
  match s.copyStarts core with
  | none => .next s
  | some c => .next (s.modCopy core c.serial fun c => { c with start := some (s.core core).clk })

/-- One clk of the streamer of a core (R304): it moves at most 256 bytes of the copy that it serves; how much of them is free. -/
def State.streamClk (s : State) (core : Nat) : State :=
  match (s.core core).serving with
  | none => s
  | some c =>
    if c.start.isNone then s
    else
      let (n, s1) := (s.walkAhead (s.party c.tid c.gid) c).anyNat 3
      s1.moveLines core c.serial n

/-- A copy, or a RECLD, that completes at the present clk: 2 clk after its end, with every older operation of its class reported (R240). -/
def State.copyCompletes (s : State) (core : Nat) : Option CopyOp :=
  let k := s.core core
  k.copies.find? fun c => match c.kind with
    | .recld => decide (c.issueClk + 12 ≤ k.clk)
    | _ => !c.suspended && (match c.endClk with
      | some e => decide (e + 2 ≤ k.clk)
      | none => false) &&
      (match Store.find s.groups c.gid with
       | none => true
       | some g => match g.eng.out.find? fun w => w.cls == 0 with
         | some w => decide (c.opSerial ≤ w.serial)
         | none => true)

/-- The signal add of a copy (R243): a release read-modify-write at cluster scope, or why it cannot be made, with the virtual address of the word. -/
def State.signalAdd (s : State) (c : CopyOp) : Except (AccessFail × Nat) State :=
  match s.stashTarget c.tid (c.block.getD 2 0) 0 4 with
  | .error f => .error (.fault f, 0)
  | .ok (t, k) =>
    if s.pathWaits (c.tid / 16) then .error (.wait, 0)
    else match (s.releaseAt (c.tid / 16) c.tid 2).stashAccess (.atoms .add) 0 t k 4 (bytesOf 4 1) with
      | .ok (_, s1) => .ok s1
      | .error f => .error (f, s.stashVa t k)

/-- COPY_COMPLETE (R289, R304): the status word, the decrement of c0 and the signal add fall in one clk. -/
def execCopyComplete (core : Nat) (s : State) : Host.Outcome State Fault Refusal :=
  match s.copyCompletes core with
  | none => .next s
  | some c =>
    let leave (s : State) : State := (s.modCore core fun k => { k with copies := k.copies.filter fun o => o.serial != c.serial }).finishWork c.gid 0 c.opSerial
    let finish (s : State) (sigd : Bool) (c : CopyOp) : State :=
      let status := statusWord c.bytes sigd ((c.code.map (·.code)).getD 0)
      let s2 := (s.countTeam c.tid 0x009 c.bytes).modRegs c.gid fun r => r.setSc c.dest status
      let s3 := match c.code, s.opOf c.gid c.opSerial with
        | some e, some o => s2.engineFault c.gid 0 e status o c.failAddr
        | _, _ => s2
      let s4 := s3.stampOp c.gid 0 c.opSerial (match c.kind with
        | .cpout | .cpst => 7
        | _ => 2)
      (leave s4).modOp c.gid c.opSerial fun o => { o with done := true }
    match c.kind with
    | .recld => .next (leave s)
    | _ =>
      if !c.sig || c.code.isSome then .next (finish s false c)
      else match s.signalAdd c with
        | .ok s1 => .next (finish s1 true c)
        | .error (.wait, _) => .next (s.modCopy core c.serial fun c => { c with endClk := some ((s.core core).clk - 1) })
        | .error (.page h, a) => .next (s.suspendCopy core c h a)
        | .error (.unpulled _, a) => .next (s.suspendCopy core c true a)
        | .error (.fault e, a) => .next (finish s false { c with code := some e, failAddr := a })
        | .error (.lost site, a) => .next (finish (s.detect site) false { c with code := some .uncorrectable, failAddr := a })

/-! ### Collectives (R307 to R309) -/

/-- The fault of a collective descriptor (R307, R309). -/
def collFault (b : List Byte) (op : CollOp) (members : Option Nat) : Option FaultCode :=
  let src := bits (field b 0 8) 55 0
  let dst := bits (field b 8 8) 55 0
  let count := field b 16 4
  let root := field b 22 2
  let red := bits (field b 24 1) 7 4
  let etype := bits (field b 24 1) 3 0
  match members with
  | none => some .permission
  | some m =>
    let n := count * collElemSize etype
    let (ls, ld) := match op with
      | .allGather => (n, m * n)
      | .reduceScatter => (m * n, n)
      | .allReduce | .broadcast => (n, n)
    let reduces := op == .reduceScatter || op == .allReduce
    let same := (op == .allReduce || op == .broadcast) && src == dst
    if field b 7 1 ≠ 0 ∨ field b 15 1 ≠ 0 ∨ !zeros b 25 39 ∨ 6 ≤ etype ∨ 3 ≤ red ∨ (!reduces ∧ red ≠ 0) ∨ count = 0 ∨
        m ≤ root ∨ (src < dst + ld ∧ dst < src + ls ∧ !same) then some .recordInvalid
    else none

/-- COLL (R307, R309). -/
def execColl (d : BitVec 7) (a : BitVec 7) (l : BitVec 4) (o : CollOp) (s : State) : Host.Outcome State Fault Refusal :=
  issue s (.coll d a l o) fun s x g =>
    match Store.find s.teams x.tid with
    | none => .done s
    | some t =>
      let off := (g.regs.sc a.toNat).toNat
      if off % 64 ≠ 0 then .trap (x.trap .misaligned)
      else if t.id.stashBytes < off + 64 then .trap (x.trap .permission)
      else
      let places := s.stashPlaces x.tid off 64
      let after := s.before x.gid g { serial := g.issued, reads := true, places := places } ++ s.engineHolders x.gid (s.stashLines x.tid off 64) false
      if !after.isEmpty then .wait (.order after)
      else match (s.settlePath x.core places).touch x.tid off 64 false with
        | (_, some f) => x.failed (s.stashVa x.tid off) f (s.lockedAt x.tid off 64)
        | (s1, none) =>
          let b := s1.stashBytes x.tid off 64
          let comm := field b 20 2
          let members := ((s1.part t.id.part).fab.comms.find? fun kv => kv.2.id == comm && kv.2.vdev == t.id.vdev).map (·.2.members.length)
          let q := quadOfCore x.core
          match collFault b o members with
          | some c => .trap (x.trap c)
          | none =>
            if 16 ≤ (s1.quad q).colls.length || 255 ≤ g.eng.count 2 then .wait (.full 2)
            else
              let c : Collective :=
                { gid := x.gid, tid := x.tid, opSerial := g.issued, dest := d.toNat, op := o, src := bits (field b 0 8) 55 0,
                  dst := bits (field b 8 8) 55 0, count := field b 16 4, comm := comm, root := field b 22 2,
                  red := bits (field b 24 1) 7 4, etype := bits (field b 24 1) 3 0, core := x.core, vdev := t.id.vdev }
              let s2 := (s1.modQuad q fun z => { z with colls := z.colls ++ [c] }).modEng x.gid fun e => e.begin 2 g.issued
              let (k, s3) := s2.anyNat (2 ^ 32)
              .done ((s3.modOps x.gid fun q => q ++ [{ newOp x g .coll l [⟨.S, d.toNat, 1⟩] with dest := d.toNat, dueClk := x.clk + 1 + k }]).setUnrew x.gid)

/-- Read or check some bytes of global memory for a collective, a line at a time: what was read, or the failure and its address. -/
def State.collRead (s : State) (p : Party) : Nat → Nat → Nat → Except (AccessFail × Nat) (List Byte × State)
  | 0, _, _ => .ok ([], s)
  | fuel + 1, va, n =>
    if n = 0 then .ok ([], s)
    else
      let k := min n (128 - va % 128)
      match s.engineRead p va k with
      | .error f => .error (f, va)
      | .ok (b, s1) => match s1.collRead p fuel ((va + k) % 2 ^ 56) (n - k) with
        | .error f => .error f
        | .ok (bs, s2) => .ok (b ++ bs, s2)

/-- Write some bytes of global memory for a collective, a line at a time. -/
def State.collWrite (s : State) (p : Party) : Nat → Nat → List Byte → State × Option (AccessFail × Nat)
  | 0, _, _ => (s, none)
  | fuel + 1, va, data =>
    if data.isEmpty then (s, none)
    else
      let k := min data.length (128 - va % 128)
      match s.engineWrite p va (data.take k) with
      | .error f => (s, some (f, va))
      | .ok s1 => s1.collWrite p fuel ((va + k) % 2 ^ 56) (data.drop k)

/-- The number of an element in its type, as signed when the type is (R308). -/
def collInt (etype v : Nat) : Int := if etype = 0 ∧ 2 ^ 31 ≤ v then (v : Int) - 2 ^ 32 else v

/-- The floating format of an element type (R308). -/
def collFmt (etype : Nat) : Num.Fmt := if etype = 3 then Num.b64 else if etype = 4 then Num.bf16 else if etype = 5 then Num.b16 else Num.b32

/-- One step of a reduction (R308): RNE, subnormals kept, without saturation. -/
def collStep (etype red : Nat) (x y : Nat) : Nat :=
  if etype ≤ 1 then
    if red = 0 then (x + y) % 2 ^ 32
    else if red = 1 then (if collInt etype y < collInt etype x then y else x)
    else (if collInt etype x < collInt etype y then y else x)
  else if red = 0 then Num.fadd (collFmt etype) (floatCtl 0) x y
  else if red = 1 then Num.fmin (collFmt etype) (floatCtl 0) x y
  else Num.fmax (collFmt etype) (floatCtl 0) x y

/-- The elements of some bytes. -/
def elemsOf (sz : Nat) (b : List Byte) : List Nat := (upTo (b.length / sz)).map fun i => field b (sz * i) sz

/-- The element-wise reduction of the inputs of the members in ascending rank order (R308). -/
def collReduce (etype red : Nat) (inputs : List (List Nat)) : List Nat := match inputs with
  | [] => []
  | x :: rest => rest.foldl (fun acc y => (acc.zip y).map fun ab => collStep etype red ab.1 ab.2) x

/-- What a collective leaves in DST at a member of a rank, from the inputs of all members (R307). -/
def collResult (c : Collective) (rank : Nat) (inputs : List (List Byte)) : List Byte :=
  let sz := collElemSize c.etype
  let vals := collReduce c.etype c.red (inputs.map (elemsOf sz))
  match c.op with
  | .allGather => inputs.flatten
  | .broadcast => inputs.getD c.root []
  | .allReduce => vals.flatMap (bytesOf sz)
  | .reduceScatter => ((vals.drop (rank * c.count)).take c.count).flatMap (bytesOf sz)

/-- A collective ends at this member with a code: its status word, its record and the decrement of c2 (R289). -/
def State.endColl (s : State) (c : Collective) (code : Option FaultCode) (addr : Nat) : State :=
  let status := statusWord 0 false ((code.map (·.code)).getD 0)
  let s1 := s.modQuad (quadOfCore c.core) fun z => { z with colls := z.colls.filter fun x => !(x.gid == c.gid && x.opSerial == c.opSerial) }
  let s2 := (s1.countTeam c.tid 0x105 1).modRegs c.gid fun r => r.setSc c.dest status
  let s3 := match code, s.opOf c.gid c.opSerial with
    | some e, some o => s2.engineFault c.gid 2 e status o addr
    | _, _ => s2
  (s3.finishWork c.gid 2 c.opSerial).modOp c.gid c.opSerial fun o => { o with done := true }

/-- The code of a failed access of a collective. -/
def collCode : AccessFail → FaultCode
  | .page _ | .unpulled _ => .pageFault
  | .fault c => c
  | .lost _ => .uncorrectable
  | .wait => .remoteUnreachable

/-- The communicator entry of a collective at its own partition. -/
def State.commOf (s : State) (c : Collective) : Option Communicator :=
  ((s.part (s.partOfCore c.core)).fab.comms.find? fun kv => kv.2.id == c.comm && kv.2.vdev == c.vdev).map (·.2)

/-- The rank of a collective's own member (R288, R307). -/
def State.collRank (s : State) (c : Collective) : Nat := ((s.commOf c).map (·.rank)).getD 0

/-- Some bytes at exactly a length. -/
def sized (n : Nat) (b : List Byte) : List Byte := (b.take n) ++ List.replicate (n - b.length) 0

/-- The oldest collective of a group, when no older operation of class 2 is outstanding (R240). -/
def State.collOf (s : State) (gid : Nat) : Option Collective :=
  match (s.quad (quadOfCore (coreOf gid))).colls.find? fun c => c.gid == gid with
  | none => none
  | some c => match (Store.find s.groups gid).bind fun g => g.eng.out.find? fun w => w.cls == 2 with
    | some w => if c.opSerial ≤ w.serial then some c else none
    | none => some c

/-- The bytes that a member brings (R307): nothing counts at a member that is not the root of a broadcast. -/
def State.collOwn (s : State) (c : Collective) : Except (AccessFail × Nat) (List Byte × State) :=
  let n := (s.collLengths c).1
  if c.op = .broadcast ∧ c.root ≠ s.collRank c then .ok (sized n [], s)
  else s.collRead (s.party c.tid c.gid) (n / 128 + 2) c.src n

/-- What a collective does to memory at this member (R307, R308): its own SRC is read unless it is among the inputs already, and DST takes
what the operation gives. -/
def State.collMove (s : State) (c : Collective) (inputs : List (List Byte)) : State × Option (AccessFail × Nat) :=
  let n := (s.collLengths c).1
  let rank := s.collRank c
  let own := if (inputs.getD rank []).length = n then .ok (inputs.getD rank [], s) else s.collOwn c
  match own with
  | .error e => (s, some e)
  | .ok (mine, s1) =>
    let all := (upTo (max 1 (s.collMembers c))).map fun r => if r = rank then mine else sized n (inputs.getD r [])
    let out := collResult c rank all
    s1.collWrite (s.party c.tid c.gid) (out.length / 128 + 2) c.dst out

/-- COLL_COMPLETE (R307 to R309): the operation ends at this member with its data moved, or with the code of what failed. -/
def execCollComplete (gid : Nat) (outcome : CollOutcome) (s : State) : Host.Outcome State Fault Refusal :=
  match s.collOf gid with
  | none => .next s
  | some c => match outcome with
    | .mismatch => .next (s.endColl c (some .recordInvalid) 0)
    | .remoteError => .next (s.endColl c (some .remoteUnreachable) 0)
    | .done inputs => match s.collMove c inputs with
      | (s1, none) => .next (s1.endColl c none 0)
      | (s1, some (.lost site, a)) => .next ((s1.detect site).endColl c (some .uncorrectable) a)
      | (s1, some (f, a)) =>
        if f.waits then .next (s.modOp gid c.opSerial fun o => { o with dueClk := (s.core (coreOf gid)).clk + 1 })
        else .next (s1.endColl c (some (collCode f)) a)

/-! ### The exchange between the members (R309) -/

/-- Whether a collective of a group completes now: when, is a free value (R309, DESIGN CHOICE, log 8). -/
def State.collDue (s : State) (gid : Nat) : Bool :=
  match s.collOf gid with
  | none => false
  | some c => match s.opOf gid c.opSerial with
    | some o => decide (o.dueClk ≤ (s.core (coreOf gid)).clk) && o.failure.isNone && s.engineOrdered gid c.opSerial
    | none => true

/-- The member of a rank, when an endpoint of this module holds it (R204): its COLL, or none before it has issued one that can complete. -/
def State.collMember (s : State) (c : Collective) (rank endpoint : Nat) : Option (Option Collective) :=
  (s.endpointPart endpoint).map fun q =>
    (s.part q).fab.comms.findSome? fun kv =>
      if kv.2.id == c.comm && kv.2.rank == rank then
        (s.part q).regs.members.findSome? fun z => (s.quad z).colls.find? fun k =>
          k.comm == c.comm && k.vdev == kv.2.vdev && decide (s.collOf k.gid = some k) && s.collDue k.gid
      else none

/-- The members of a collective in rank order, none where another module holds one; nothing while a member on this module has not issued its
COLL (R309). -/
def State.collPeers (s : State) (c : Collective) : Option (List (Option Collective)) :=
  match s.commOf c with
  | none => some [some c]
  | some comm => (upTo comm.members.length).mapM fun r =>
    if r = comm.rank then some (some c)
    else match s.collMember c r (comm.members.getD r 0) with
      | none => some none
      | some none => none
      | some (some k) => some (some k)

/-- Whether two members' COLLs agree in what the engines exchange (R309). -/
def Collective.agrees (c k : Collective) : Bool := c.op == k.op && c.count == k.count && c.etype == k.etype && c.red == k.red && c.root == k.root

/-- The inputs of the members in rank order: those on this module read their SRC (an empty entry where that fails), the bytes of the others
are free (DESIGN CHOICE, log 19); nothing while one of them waits. -/
def State.collInputs (s : State) (n : Nat) : List (Option Collective) → Option (List (List Byte) × State)
  | [] => some ([], s)
  | m :: rest =>
    let one : Option (List Byte × State) := match m with
      | none => some (s.anyBytes n)
      | some k => match s.collOwn k with
        | .ok r => some r
        | .error (f, _) => if f.waits then none else some ([], s)
    match one with
    | none => none
    | some (b, s1) => (s1.collInputs n rest).map fun r => (b :: r.1, r.2)

/-- How the collectives of the members on this module end (R309): agreeing members move their data, a memory fault at one of them leaves its own
code there and REMOTE_UNREACHABLE at the others, and what members of other modules exchange or fail is free (DESIGN CHOICE, log 19). Nothing
while a lease or a probe holds one of their accesses. -/
def State.collEnds (s : State) (c : Collective) (peers : List (Option Collective)) : Option (List Instr × State) :=
  let here := peers.filterMap id
  let all (o : CollOutcome) := here.map fun k => Instr.collComplete k.gid o
  let (k, s1) := if peers.all Option.isSome then (0, s) else s.anyNat 3
  if k = 1 || !here.all c.agrees then some (all .mismatch, s1)
  else if k = 2 then some (all .remoteError, s1)
  else match s1.collInputs (s1.collLengths c).1 peers with
    | none => none
    | some (inputs, s2) =>
      let ends := here.map fun k => (k, (s2.collMove k inputs).2)
      if ends.any fun e => (e.2.map fun f => f.1.waits).getD false then none
      else if ends.all fun e => e.2.isNone then some (all (.done inputs), s2)
      else some (ends.map fun e => .collComplete e.1.gid (if e.2.isNone then .remoteError else .done inputs), s2)

/-! ### A broken replicated commit (R237) -/

/-- A load that was stalled on a line of which the primary cannot be written ends with UNCORRECTABLE (R237): an access of a group with its fault, an
engine operation with its code. -/
def State.loseLoad (s : State) (gid serial line : Nat) : State :=
  match s.opOf gid serial with
  | none => s
  | some o =>
    let p := s.party (((Store.find s.groups gid).map (·.tid)).getD 0) gid
    match o.kind with
    | .copy => match (s.core p.core).copies.find? fun c => c.gid == gid && c.opSerial == serial && c.endClk.isNone with
      | some c => s.endCopy p.core c (some .uncorrectable) c.failAddr
      | none => s
    | .coll => match (s.quad (quadOfCore p.core)).colls.find? fun c => c.gid == gid && c.opSerial == serial with
      | some c => s.endColl c (some .uncorrectable) c.src
      | none => s
    | _ =>
      let at' := o.accesses.find? fun a => lineOf (s.placeVa p.core p.vdev a.addr) == line || s.lockedAt (a.addr / 2 ^ 32) (a.addr % 2 ^ 32) o.bytes == some line
      s.loseOps gid .uncorrectable ((at'.map (s.accessVa o)).getD 0) fun o => o.serial == serial

/-- REPLICA_LOCK_TIMEOUT (R237): after a load has been stalled for 2 µs firmware completes the commit at the replicas that it can reach and marks the
others invalid; which it can reach is free. When the primary cannot be written, the writing group and the stalled loads fault. -/
def execReplicaLockTimeout (part : Nat) (entry : Nat) (s : State) : Host.Outcome State Fault Refusal :=
  match (s.part part).locks.find? fun l => l.entry == entry && s.lockOverdue l with
  | none => .next s
  | some l =>
    let line := lineOf l.addr
    let (lost, s1) := s.choose
    let quad := (homeQuad (s1.part part).regs.members l.addr).getD 0
    let s2 := (s1.count quad 0 0x206 1).logEvent part { type := 5, quad := quad, paddr := line, time := s1.now }
    if !lost then .next (s2.breakLock part l)
    else
      let s3 := (s2.modPart part fun p => { p with locks := p.locks.filter (· != l) }).loseOps l.gid .uncorrectable l.va fun o => o.serial == l.serial
      let s4 := l.stalled.foldl (fun s x => s.loseLoad x.1 x.2.1 line) s3
      .next ((s4.groups.filter fun kv => kv.2.stops.wait == .lock line).foldl (fun s kv => s.takeFault kv.1 (kv.2.waitTrap .uncorrectable)) s4)

end Sys2Proof.Machine
end

