-- ==== Sys2Proof/Machine/Launch.lean ====
section
/-! DEFINITION. Launch queues, dispatch and placement (R20 to R25, R41, R266 to R287, R306): packets and their acceptance, the dispatcher's
decisions, the creation of teams and groups, and the retirement of teams. -/

namespace Sys2Proof.Machine

/-! ### Acceptance (R270) -/

/-- The first condition of R270 that a packet meets, as its reason code; `stash` is the carve of its device in units of 64 KiB. -/
def packetReason (p : List Byte) (members : List Nat) (rh rw stash : Nat) : Option Nat :=
  let w (off : Nat) : Nat := field p off 4
  let grids := [w 8, w 12, w 16]
  let h := pkHeight p; let wd := pkWidth p; let g := pkGroups p
  let dm := pkDepMap p
  if bits (field p 0 8) 63 56 ≠ 0 ∨ (grids.any fun x => bits x 31 25 != 0) ∨ bits (w 20) 31 10 ≠ 0 ∨ bits (w 24) 31 13 ≠ 0 ∨ bits (w 28) 31 21 ≠ 0 ∨
      bits (w 32) 31 14 ≠ 0 ∨ w 36 ≠ 0 ∨ bits (field p 40 8) 63 56 ≠ 0 ∨ bits (field p 48 8) 63 56 ≠ 0 ∨ bits (field p 56 8) 63 56 ≠ 0 ∨
      bits (w 64) 31 31 ≠ 0 ∨ bits (w 72) 31 11 ≠ 0 ∨ w 76 ≠ 0 ∨ !zeros p 88 40 ∨ 6 ≤ dm ∨ 3 ≤ pkHmode p then some 1
  else if pkCode p % 4 ≠ 0 ∨ pkCompBmp p % 8 ≠ 0 ∨ pkCompRec p % 64 ≠ 0 ∨ pkDepBmp p % 8 ≠ 0 then some 2
  else if (grids.any fun x => x == 0) ∨ 2 ^ 24 < pkClusters p then some 3
  else if 6 < wd ∨ 12 < h * wd ∨ rh + 1 < h ∨ rw + 1 < wd then some 4
  else if pkBaseCeil p ≠ 32 ∨ 88 < pkExtCeil p ∨ pkExtCeil p % 8 ≠ 0 then some 5
  else if pkStash p % 128 ≠ 0 ∨ 1966080 < pkStash p ∨ 12 < pkTiles p then some 6
  else if (!pkProdV p ∧ pkProducer p ≠ 0) ∨ g ≤ pkProducer p then some 7
  else if (dm ≠ 0 ∧ (pkDepBmp p = 0 ∨ pkDepTeams p = 0)) ∨ ((dm = 2 ∨ dm = 3) ∧ pkDepRow p = 0) ∨
      (dm = 0 ∧ (pkDepBmp p ≠ 0 ∨ pkDepTeams p ≠ 0)) ∨ (dm ≠ 4 ∧ pkDepK p ≠ 0) ∨ (dm ≠ 2 ∧ dm ≠ 3 ∧ pkDepRow p ≠ 0) then some 8
  else if (pkHmode p ≠ 0 ∧ !members.contains (pkHdie p / 2)) ∨ (pkHmode p = 2 ∧ (4 < pkHrow p + h ∨ 6 < pkHcol p + wd)) ∨
      (pkHmode p = 0 ∧ pkHdie p ≠ 0) ∨ (pkHmode p ≠ 2 ∧ (pkHrow p ≠ 0 ∨ pkHcol p ≠ 0)) then some 9
  else if stash * 65536 < pkStash p + 448 * g then some 16
  else none

/-- The queue of a quadrant. -/
def State.queue (s : State) (q n : Nat) : LaunchQueue := Store.get {} (s.quad q).queues n
/-- Change a queue of a quadrant. -/
def State.modQueue (s : State) (q n : Nat) (f : LaunchQueue → LaunchQueue) : State :=
  s.modQuad q fun z => { z with queues := Store.modify {} z.queues n f }

/-- STASH of a VCARVE in units. -/
def carveStash (v : BitVec 32) : Nat := (v.extractLsb' 0 6).toNat
/-- LANE of a VCARVE in units. -/
def carveLane (v : BitVec 32) : Nat := (v.extractLsb' 6 6).toNat
/-- RH and RW of a descriptor (R348). -/
def descRh (d : List Byte) : Nat := bits (field d 24 1) 1 0
def descRw (d : List Byte) : Nat := bits (field d 24 1) 4 2

/-- Whether the head packet of a queue is the launch of a table entry. -/
def State.headTabled (s : State) (part q n : Nat) : Bool :=
  (s.part part).disp.launches.any fun e => e.2.quad == q && e.2.queue == n && e.2.queued

/-- The first number below a bound that a store does not list. -/
def freeIndex {α : Type} (m : Store α) (bound : Nat) : Option Nat := (upTo bound).find? fun i => !Store.has m i

/-- Whether PACKET_ACCEPT acts on a queue: a packet is at its head that the launch table does not hold, the table has room, and the
queue has an owner whose work is not frozen away. -/
def State.acceptable (s : State) (q n : Nat) : Bool :=
  let part := s.partOfQuad q
  let lq := s.queue q n
  !lq.packets.isEmpty && lq.owner != 255 && ((Store.find s.vdevs lq.owner).map fun v => v.saved.phase != .saved).getD false && !s.headTabled part q n &&
  (freeIndex (s.part part).disp.launches 256).isSome

/-- PACKET_ACCEPT (R270): the head packet enters the launch table, or is refused with its record. -/
def execPacketAccept (q : Nat) (n : Nat) (s : State) : Host.Outcome State Fault Refusal :=
  let part := s.partOfQuad q
  let lq := s.queue q n
  match s.acceptable q n, lq.packets, Store.find s.vdevs lq.owner, freeIndex (s.part part).disp.launches 256 with
  | true, p :: rest, some v, some idx =>
    match packetReason p.bytes (s.part part).regs.members (descRh v.desc) (descRw v.desc) (carveStash v.vcarve) with
    | some r =>
      let s1 := s.modQueue q n fun w => { w with packets := rest }
      let s2 := s1.writeCompletion part lq.owner p.bytes (if r = 16 then 5 else 4) r none
      .next (s2.cancelDependents part lq.owner (pkCompBmp p.bytes))
    | none =>
      .next ((s.modDisp part fun d =>
        { d with
          launches := Store.put d.launches idx
            { quad := q, queue := n, vdev := lq.owner, packet := p.bytes, accepted := s.mod.tick, order := d.acceptOrder, prev := lq.last }
          acceptOrder := d.acceptOrder + 1
          decide := true }).modQueue q n fun w => { w with last := some (s.part part).disp.acceptOrder })
  | _, _, _, _ => .next s

/-! ### Enqueueing (R269, R271, R306) -/

/-- A whole packet arrives at a queue. -/
def State.enqueue (s : State) (q n : Nat) (data : List Byte) : State :=
  s.modQueue q n fun w => { w with packets := w.packets ++ [⟨data, s.mod.tick⟩] }

/-- A write at a launch port: it is discarded and counted unless it is one whole packet for an owned queue with room (R271). -/
def State.portWrite (s : State) (q n : Nat) (data : List Byte) : State :=
  let lq := s.queue q n
  if data.length = 128 ∧ lq.owner ≠ 255 ∧ lq.packets.length < 32 then s.enqueue q n data
  else s.modQueue q n fun w => { w with drops := min (w.drops + 1) 65535 }

/-- LAUNCH (R306): its packet is read at issue, and its own faults come at the end of its window (R87). `dueClk` of the operation holds the
tick of its issue. -/
def execLaunch (d : BitVec 7) (a : BitVec 7) (l : BitVec 4) (s : State) : Host.Outcome State Fault Refusal :=
  issue s (.launch d a l) fun s x g =>
    match Store.find s.teams x.tid with
    | none => .done s
    | some t =>
      let off := (g.regs.sc a.toNat).toNat
      let w := g.regs.sc (a.toNat + 1)
      let q := (w.extractLsb' 6 2).toNat
      let n := (w.extractLsb' 0 6).toNat
      if 255 ≤ g.eng.count 3 || g.mustWait true || s.pathWaits x.core then .wait (waitFor (decide (255 ≤ g.eng.count 3)) 3 (g.before true))
      else
        let o : LongOp := { newOp x g .launch l [⟨.S, d.toNat, 1⟩] with dest := d.toNat, dueClk := s.mod.tick }
        let begun (s : State) (o : LongOp) : State :=
          (((s.releaseAt x.core x.tid 3).setUnrew x.gid).modEng x.gid fun e => e.begin 3 g.issued).modOps x.gid fun q => q ++ [o]
        if off % 128 ≠ 0 then .done (begun s { o with failure := some (.misaligned, 0) })
        else if t.id.stashBytes < off + 128 ∨ !(s.part t.id.part).regs.members.contains q ∨ (s.queue q n).owner ≠ t.id.vdev then
          .done (begun s { o with failure := some (.permission, 0) })
        else if s.engineHolds x.gid (s.stashLines x.tid off 128) false then .wait (.order (s.engineHolders x.gid (s.stashLines x.tid off 128) false))
        else match s.touch x.tid off 128 false with
          | (_, some .wait) => .wait (.full 4)
          | (_, some (.fault c)) => .done (begun s { o with failure := some (c, s.stashVa x.tid off) })
          | (_, some (.lost site)) => .done (begun (s.detect site) { o with failure := some (.uncorrectable, s.stashVa x.tid off) })
          | (_, some f) => x.failed (s.stashVa x.tid off) f
          | (s1, none) => .done (begun s1 { o with accesses := [{ lane := 0, addr := q * 64 + n, data := s1.stashBytes x.tid off 128 }] })

/-- The LAUNCHes of a group that wait for their packets to enter, each with its queue and packet, in order of issue. -/
def Group.waitingLaunches (g : Group) : List (LongOp × Nat × List Byte) :=
  (g.ops.filter fun o => o.kind == .launch && !o.done && o.failure.isNone && o.probing.isNone).filterMap fun o => match o.accesses with
    | a :: _ => some (o, a.addr, a.data)
    | [] => none

/-- A LAUNCH that enters before another one that waits for the same queue (R306): by the clk of issue, on one core by bench, in one group in order.
Those of different cores in one clk have no stated order (DESIGN CHOICE, log 1). -/
def launchBefore (g1 : Nat) (o1 : LongOp) (g2 : Nat) (o2 : LongOp) : Bool :=
  decide (o1.dueClk < o2.dueClk) || (o1.dueClk == o2.dueClk && coreOf g1 == coreOf g2 && decide (g1 / 8 < g2 / 8)) || (g1 == g2 && decide (o1.serial < o2.serial))

/-- The LAUNCH of a group of which the packet enters its queue now (R306): its queue has room, and no LAUNCH goes before it there. -/
def State.launchEnters (s : State) (gid : Nat) (g : Group) : Option (LongOp × Nat × List Byte) :=
  g.waitingLaunches.find? fun x =>
    decide ((s.queue (x.2.1 / 64) (x.2.1 % 64)).packets.length < 32) &&
    s.groups.all fun kv => kv.2.waitingLaunches.all fun y => y.2.1 != x.2.1 || !launchBefore kv.1 y.1 gid x.1

/-- The launches of a group of which the completion is reported write their status words (R240, R289). -/
def State.reportLaunches (s : State) (gid : Nat) : State :=
  match Store.find s.groups gid with
  | none => s
  | some g =>
    let done := g.ops.filter fun o => o.kind == .launch && !o.done && o.probing.isSome && !(g.eng.out.any fun w => w.cls == 3 && w.serial == o.serial)
    done.foldl (fun s o => (s.modRegs gid fun r => r.setSc o.dest (statusWord 128 false 0)).modOp gid o.serial fun o => { o with done := true }) s

/-- LAUNCH_PACKET_ENTRY (R306): the packet enters, and c3 falls in its order. -/
def execLaunchPacketEntry (gid : Nat) (s : State) : Host.Outcome State Fault Refusal :=
  match Store.find s.groups gid with
  | none => .next s
  | some g =>
    match s.launchEnters gid g with
    | none => .next s
    | some (o, qn, data) =>
      let s1 := s.enqueue (qn / 64) (qn % 64) data
      let s2 := (s1.modOp gid o.serial fun o => { o with probing := some 1 }).finishWork gid 3 o.serial
      .next (s2.reportLaunches gid)

/-! ### Wear indices and cores (R277, R364) -/

/-- W of a wear record (R367). -/
def WearRecord.w (r : WearRecord) : Nat := r.b + r.h + r.e
/-- The wear record of a unit. -/
def State.wearOf (s : State) (unit : Nat) : WearRecord := Store.get {} s.wear.records unit
/-- W of a logical core, as recorded at the most recent interval boundary (R277). -/
def State.coreW (s : State) (core : Nat) : Nat := match s.unitOfCore core with
  | some u => (Store.get {} s.wear.boundary u).w
  | none => 0
/-- A core is available: a physical core that is not retired stands behind it (R13). -/
def State.coreUp (s : State) (core : Nat) : Bool := match s.unitOfCore core with
  | some u => !(s.die (dieOfCore core)).retired.contains (u % 26)
  | none => false
/-- Add to the life budget of a unit (R362). -/
def State.addLbud (s : State) (unit : Nat) (x : Int) : State := s.modWear fun w => { w with lbud := Store.modify 0 w.lbud unit (· + x) }
/-- The grant of a core ends (R380): the intervals that have not started are refunded. One that has started is not, and keeps its X for R375; the
core runs at the base clock from then on (R15). -/
def State.endGrant (s : State) (core : Nat) : State :=
  match (s.core core).grant, s.unitOfCore core with
  | some g, some u => (s.modCore core fun c => { c with grant := none, boost := false }).addLbud u (g.x * (g.remaining : Int))
  | some _, none => s.modCore core fun c => { c with grant := none, boost := false }
  | none, _ => s
/-- A core is in rest. -/
def State.coreRests (s : State) (core : Nat) : Bool := match s.unitOfCore core with
  | some u => (s.wearOf u).rest.isSome
  | none => false
/-- The W that placement uses: none of it under WEARKEY = 1 (R287). -/
def State.placeW (s : State) (part core : Nat) : Nat := if (s.part part).regs.placectl.extractLsb' 9 2 = 1 then 0 else s.coreW core

/-- The teams resident on a core. -/
def State.teamsOn (s : State) (core : Nat) : List (Nat × Team) := s.teams.filter fun kv => kv.1 / 16 == core
/-- The groups resident on a core. -/
def State.groupsOn (s : State) (core : Nat) : List (Nat × Group) := s.groups.filter fun kv => coreOf kv.1 == core

/-- What a team takes of a core (R22): the extended blocks that its groups hold already, its stash footprint (R209), and its tiles. -/
structure Wants where
  held : List Nat
  stash : Nat
  tiles : Nat
  deriving DecidableEq, Repr

/-- What a new team of a packet takes. -/
def packetWants (p : List Byte) : Wants := { held := List.replicate (pkGroups p) 0, stash := pkStash p + 448 * pkGroups p, tiles := pkTiles p }

/-- What a saved team takes. -/
def SavedTeam.wants (t : SavedTeam) : Wants :=
  { held := t.groups.map (·.regs.ext), stash := t.team.id.stashBytes + 448 * t.team.id.groups, tiles := t.team.id.tiles }

/-- What the team of a gang takes of a core of its rectangle: of a restored cluster, the team whose rank the core has (R24, R109). -/
def State.gangWants (s : State) (part core : Nat) (g : Gang) : Wants :=
  if g.restored then
    match ((Store.find s.vdevs g.vdev).map (·.saved.teams)).getD [] |>.find? fun t =>
        t.team.id.launch == g.launch && t.team.id.cluster == g.cluster && t.team.id.rank == g.cores.findIdx (· == core) with
    | some t => t.wants
    | none => ⟨[], 0, 0⟩
  else match Store.find (s.part part).disp.launches g.launch with
    | some e => packetWants e.packet
    | none => ⟨[], 0, 0⟩

/-- The benches of the groups of a team, in order (R23): the most free slots, ties going to the first counting upward from the bench after
the last one; none when a group finds no slot. -/
def assignBenches (free : List Nat) (start : Nat) : Nat → Option (List Nat)
  | 0 => some []
  | n + 1 =>
    let most := free.foldl max 0
    if most = 0 then none
    else match ((upTo 16).map fun k => (start + k) % 16).find? fun b => free.getD b 0 == most with
      | none => none
      | some b => (assignBenches (free.set b (most - 1)) (b + 1) n).map (b :: ·)

/-- The free group slots of the benches of a core. -/
def State.benchFree (s : State) (core : Nat) : List Nat :=
  (upTo 16).map fun b => 8 - (s.groups.filter fun kv => kv.1 / 8 == core * 16 + b).length

/-- The free group slots when some are reserved: a reservation takes them as R23 would. -/
def takeBenches (free : List Nat) (n : Nat) : List Nat :=
  ((assignBenches free 0 n).getD []).foldl (fun f b => f.set b (f.getD b 0 - 1)) free

/-- A core that has held no group counts the clks that have passed (R14). -/
def Core.catchUp (c : Core) (tick : Nat) : Core :=
  if tick < c.nextTick then c
  else
    let n := (tick - c.nextTick) / c.period + 1
    { c with clk := c.clk + n, nextTick := c.nextTick + n * c.period }

/-- The clk of a core at which blocks released earlier are free again: one with no group has counted the clks that have passed (R14). -/
def State.poolClk (s : State) (core : Nat) : Nat :=
  (if (s.groupsOn core).isEmpty then (s.core core).catchUp s.mod.tick else s.core core).clk

/-- What the gangs of a partition but one take of a core by their reservations (R280). -/
def State.reservations (s : State) (part core : Nat) (own : Option Nat) : List Wants :=
  ((s.part part).disp.gangs.filter fun g => some g.1 != own && g.2.reserved.contains core).map fun g => s.gangWants part core g.2

/-- The group slots of the benches of a core that neither groups nor those reservations take: R23 assigns among them. -/
def State.openSlots (s : State) (part core : Nat) (own : Option Nat) : List Nat :=
  (s.reservations part core own).foldl (fun f r => takeBenches f r.held.length) (s.benchFree core)

/-- Whether a core can accept a team (R22, R109, R209), with the reservations of other gangs; the blocks that its groups hold are free on the
benches to which R23 assigns them. -/
def State.accepts (s : State) (part core vdev : Nat) (w : Wants) (own : Option Nat) : Bool :=
  let ts := s.teamsOn core
  let rs := s.reservations part core own
  let units := if ts.isEmpty then carveStash (((Store.find s.vdevs vdev).map (·.vcarve)).getD 0) else (s.core core).stash
  let used := ts.foldl (fun acc t => acc + t.2.id.stashBytes + 448 * t.2.id.groups) 0 + rs.foldl (fun acc r => acc + r.stash) 0
  decide (ts.length + rs.length < 16) && decide (used + w.stash ≤ units * 65536) &&
  (w.tiles == 0 || ((s.core core).arr.holder.isNone && rs.all fun r => r.tiles == 0)) &&
  (match assignBenches (s.openSlots part core own) 0 w.held.length with
   | none => false
   | some bs => (upTo 16).all fun b =>
       let need := ((bs.zip w.held).filter fun x => x.1 == b).foldl (fun acc x => acc + x.2) 0
       decide (need ≤ (s.bench (core * 16 + b)).freeAt (s.poolClk core)))

/-- Whether a core lies inside the hint of a packet (R270, R277). -/
def insideHint (p : List Byte) (core : Nat) : Bool :=
  let r := core % 24 / 6; let c := core % 6
  match pkHmode p with
  | 0 => true
  | 1 => dieOfCore core == pkHdie p
  | _ => dieOfCore core == pkHdie p && decide (pkHrow p ≤ r) && decide (r < pkHrow p + pkHeight p) && decide (pkHcol p ≤ c) && decide (c < pkHcol p + pkWidth p)

/-- The core set of a resident device. -/
def State.coreSet (s : State) (part vdev : Nat) : List Nat := Store.get [] (s.part part).disp.resident vdev

/-- A core is eligible for a team of a device (R277), for the gang of an index when one is given. -/
def State.eligible (s : State) (part core vdev : Nat) (p : List Byte) (own : Option Nat) : Bool :=
  let d := (s.part part).disp
  s.coreUp core && !s.coreRests core && (s.coreSet part vdev).contains core && insideHint p core &&
  ((s.teamsOn core).all fun t => t.2.id.vdev == vdev) &&
  (d.gangs.all fun g => !g.2.reserved.contains core || g.2.vdev == vdev) &&
  (match d.fence with
   | none => true
   | some f => own == some f || (match d.gangs.find? fun g => g.1 == f with
     | some g => !g.2.cores.contains core
     | none => true))

/-! ### Placement (R22 to R24, R43) -/

/-- A core takes teams of a device (R208): its carve when no team is resident, and an invalid L1, algebra slots and TLBs at a switch. -/
def State.prepareCore (s : State) (core vdev : Nat) : State :=
  let idle := (s.groupsOn core).isEmpty
  let empty := (s.teamsOn core).isEmpty
  let carve := ((Store.find s.vdevs vdev).map (·.vcarve)).getD 0
  s.modCore core fun c =>
    let c1 := if idle then c.catchUp s.mod.tick else c
    let c2 := if empty then { c1 with stash := carveStash carve, lane := carveLane carve } else c1
    let changed := empty && (c1.stash != carveStash carve || c1.lane != carveLane carve)
    if c.vdev ≠ vdev then
      { c2 with
        vdev := vdev
        mem := { c2.mem with l1 := [], tlb := [], walkTlb := [] }
        arr := { c2.arr with alg := [], algLoads := [] } }
    else if changed then { c2 with mem := { c2.mem with l1 := [] } }
    else c2

/-- The lowest free slot of a bench. -/
def State.freeSlot (s : State) (bench : Nat) : Option Nat := ((upTo 8).map fun k => bench * 8 + k).find? fun g => !Store.has s.groups g

/-- Put the groups of a team on the benches that R23 gives them. -/
def State.putGroups (s : State) (core tid : Nat) : List (Nat × Group) → State
  | [] => s
  | (b, g) :: rest => match s.freeSlot (core * 16 + b) with
    | none => s
    | some gid =>
      let clk := (s.core core).clk
      let s1 := s.setGroup gid
        { g with
          tid := tid
          time := { age := clk, nextClk := clk, readySince := clk } }
      (s1.modBench (core * 16 + b) fun x => x.grant g.regs.ext clk).putGroups core tid rest

/-- The free team slot of a core. -/
def State.freeTeam (s : State) (core : Nat) : Option Nat := ((upTo 16).map fun k => core * 16 + k).find? fun t => !Store.has s.teams t

/-- Place a team with its groups on a core: the array becomes its own when it declares tiles, with nothing in it (R169). -/
def State.placeTeam (s : State) (core : Nat) (t : Team) (gs : List Group) : Option (State × Nat) :=
  let s0 := s.prepareCore core t.id.vdev
  match s0.freeTeam core, assignBenches (s0.openSlots t.id.part core none) 0 gs.length with
  | some tid, some bs =>
    let s1 := { s0 with teams := Store.put s0.teams tid t }
    let s2 := s1.putGroups core tid (bs.zip gs)
    let s3 := if t.id.tiles = 0 then s2
      else s2.modArr core fun a =>
        { a with holder := some (tid, t.id.tiles), acc := [], accUpset := [], banks := [], leases := [], queue := [], fills := [], pending := [] }
    some (s3.acquireAt core 3, tid)
  | _, _ => none

/-- The key of the group of a team with a number. -/
def State.gidOf (s : State) (tid number : Nat) : Option Nat := (s.groups.find? fun kv => kv.2.tid == tid && kv.2.number == number).map (·.1)

/-- A new group (R93): zero everywhere, S0 at the entry with every lane. -/
def freshGroup (entry : VA) (number : Nat) : Group := { tid := 0, number := number, flow := { s0 := { pc := entry, mask := 0xFFFFFFFF } } }

/-- Place a new team of a launch (R20 to R23): its groups issue from a tick on. -/
def State.placeNew (s : State) (part idx : Nat) (e : LaunchEntry) (core cluster rank start : Nat) : State :=
  let p := e.packet
  let entry : VA := BitVec.ofNat 56 (pkCode p)
  let hw := pkHeight p * pkWidth p
  let t : Team :=
    { id := { vdev := e.vdev, part := part, launch := idx, number := cluster * hw + rank, cluster := cluster, rank := rank, height := pkHeight p,
              width := pkWidth p, groups := pkGroups p, stashBytes := pkStash p, tiles := pkTiles p, extCeil := pkExtCeil p, entry := entry }
      sync := { startTick := start } }
  match s.placeTeam core t ((upTo (pkGroups p)).map (freshGroup entry)) with
  | none => s
  | some (s1, tid) => if pkProdV p then s1.modSync tid fun y => { y with producer := s1.gidOf tid (pkProducer p) } else s1

/-- Place a saved team (R43, R326): its stash, lane store, tiles, banks, slots and maps are as saved; no brine lane is valid. The ready clk of a bank keeps
its number on the core where it is placed (DESIGN CHOICE, log 28: the manual gives none after a restore). -/
def State.placeSaved (s : State) (core : Nat) (t : SavedTeam) (start : Nat) : State :=
  match s.placeTeam core { t.team with sync := { t.team.sync with startTick := start } } t.groups with
  | none => s
  | some (s1, tid) =>
    let s2 := if t.team.id.tiles = 0 then s1 else s1.modArr core fun a => { a with acc := t.acc, banks := t.banks }
    let s3 := match t.team.sync.producer with
      | some n => s2.modSync tid fun y => { y with producer := s2.gidOf tid n }
      | none => s2
    let s4 := match t.reclusters with
      | some b => if Store.has s3.clusters (clusterKey t.team.id) then s3 else { s3 with clusters := Store.put s3.clusters (clusterKey t.team.id) b }
      | none => s3
    s4.modVdev t.team.id.vdev fun v => { v with saved := { v.saved with teams := v.saved.teams.filter fun u => u.team.id != t.team.id } }

/-- Whether an operation names stashes by team. -/
def LongOp.namesTeams (o : LongOp) : Bool := match o.kind with
  | .sigwait | .lds | .sts | .atoms _ => true
  | _ => false
/-- An operation with the teams of its stash addresses renamed: an image names them by rank in the cluster. -/
def LongOp.mapTeams (o : LongOp) (f : Nat → Nat) : LongOp :=
  if o.namesTeams then { o with accesses := o.accesses.map fun a => { a with addr := stashAddr (f (a.addr / 2 ^ 32)) (a.addr % 2 ^ 32) } } else o

/-- The waits and replays of a cluster that has been placed again name its teams where they are now. -/
def State.renameTeams (s : State) (t : TeamId) : State :=
  let rank (r : Nat) : Nat := ((s.peerTeam t r).map (·.1)).getD r
  { s with groups := s.groups.map fun kv => match Store.find s.teams kv.2.tid with
      | some u => if u.id.part = t.part ∧ u.id.launch = t.launch ∧ u.id.cluster = t.cluster then (kv.1, { kv.2 with ops := kv.2.ops.map fun o => o.mapTeams rank }) else kv
      | none => kv }

/-! ### Dependences (R274) -/

/-- Whether consumer team t requires producer team p. -/
def depends (pk : List Byte) (t p : Nat) : Bool := match pkDepMap pk with
  | 0 => false
  | 1 => p == t
  | 2 => p / pkDepRow pk == t / pkDepRow pk
  | 3 => p % pkDepRow pk == t % pkDepRow pk
  | 4 => decide (t ≤ p + pkDepK pk) && decide (p ≤ t + pkDepK pk)
  | _ => true

/-- Whether bit p of a completion bitmap is set; a bitmap that cannot be read has no bit set. -/
def State.doneBit (s : State) (part vdev bmp p : Nat) : Bool := match s.guestPeek part vdev (bmp + p / 8) 1 with
  | .ok b => bit (numOf b) (p % 8)
  | .error _ => false

/-- Whether the dependences of a cluster are met. -/
def State.clusterMet (s : State) (part : Nat) (e : LaunchEntry) (cluster : Nat) : Bool :=
  let p := e.packet
  let hw := pkHeight p * pkWidth p
  (upTo hw).all fun r => (upTo (pkDepTeams p)).all fun q => !depends p (cluster * hw + r) q || s.doneBit part e.vdev (pkDepBmp p) q

/-- The launch unit reads the part of a completion bitmap that the dependences of a launch concern (R205, R214, R274). -/
def State.depReads (s : State) (part : Nat) (e : LaunchEntry) : State :=
  if pkDepMap e.packet = 0 then s else (s.guestRead part e.vdev (pkDepBmp e.packet) ((pkDepTeams e.packet + 7) / 8)).1

/-- The clusters of a launch that have not been dispatched. -/
def LaunchEntry.waiting (e : LaunchEntry) : List Nat := (upTo (pkClusters e.packet)).filter fun c => !e.dispatched.contains c

/-- The first team of a launch may be dispatched (R273): under SERIAL the previous launch of its queue has completed. -/
def State.serialMet (s : State) (part : Nat) (e : LaunchEntry) : Bool :=
  !pkSerial e.packet || !e.dispatched.isEmpty || !((s.part part).disp.launches.any fun f => some f.2.order == e.prev)

/-! ### Decisions (R272, R278 to R283) -/

/-- The packet of a launch leaves the head of its queue. -/
def State.dequeue (s : State) (part idx : Nat) : State :=
  match Store.find (s.part part).disp.launches idx with
  | none => s
  | some e =>
    if !e.queued then s
    else (s.modQueue e.quad e.queue fun w => { w with packets := w.packets.drop 1 }).modDisp part fun d =>
      { d with launches := Store.put d.launches idx { e with queued := false } }

/-- A cluster of a launch has been dispatched. -/
def State.dispatched (s : State) (part idx cluster : Nat) : State :=
  let s1 := s.modDisp part fun d => { d with launches := match Store.find d.launches idx with
    | some e => Store.put d.launches idx { e with dispatched := e.dispatched ++ [cluster] }
    | none => d.launches }
  match Store.find (s1.part part).disp.launches idx with
  | some e => if e.dispatched.length = pkClusters e.packet then s1.dequeue part idx else s1
  | none => s1

/-- When the groups of a team that is placed now issue first: 80 ns from now for the first team of a launch (R273); for a later one no
figure is stated, and the time is free. -/
def State.startTick (s : State) (first : Bool) : Nat × State :=
  if first then (s.mod.tick + 6720, s)
  else
    let (n, s1) := s.anyNat (2 ^ 32)
    (s.mod.tick + n, s1)

/-- The best of some cores by W, ties going to the lower number. -/
def State.leastWorn (s : State) (part : Nat) : List Nat → Option Nat
  | [] => none
  | c :: rest => match s.leastWorn part rest with
    | none => some c
    | some d => if s.placeW part d < s.placeW part c ∨ (s.placeW part d = s.placeW part c ∧ d < c) then some d else some c

/-- The rectangles of logical cores of one die, by their top-left core, each with its cores in rank order (R24). -/
def rectangles (dies : List Nat) (h w : Nat) : List (List Nat) :=
  dies.flatMap fun d => (upTo (5 - h)).flatMap fun r => (upTo (7 - w)).map fun c =>
    (upTo h).flatMap fun i => (upTo w).map fun j => d * 24 + (r + i) * 6 + (c + j)

/-- The dies of a partition. -/
def State.diesOf (s : State) (part : Nat) : List Nat := (s.part part).regs.members.flatMap fun q => [2 * q, 2 * q + 1]

/-- The least of some lists by keys. -/
def bestBy (key : List Nat → List Int) : List (List Nat) → Option (List Nat)
  | [] => none
  | x :: rest => match bestBy key rest with
    | none => some x
    | some y => if lexLe (key x) (key y) then some x else some y

/-- What a cluster is placed from: new teams of a launch, or saved teams. -/
structure Candidate where
  launch : Nat
  cluster : Nat
  vdev : Nat
  height : Nat
  width : Nat
  wants : Wants
  packet : List Byte
  since : Nat
  saved : List SavedTeam := []
  deriving DecidableEq, Repr

/-- What the team of a rank of a cluster takes of its core. A restored cluster needs nothing of the core of a team that has retired (DESIGN CHOICE,
log 28: the manual does not say what becomes of that core). -/
def Candidate.wantsOf (c : Candidate) (rank : Nat) : Wants :=
  if c.saved.isEmpty then c.wants else ((c.saved.find? fun t => t.team.id.rank == rank).map (·.wants)).getD ⟨[], 0, 0⟩

/-- Place the teams of a cluster on cores in rank order. -/
def State.placeCluster (s : State) (part : Nat) (c : Candidate) (cores : List Nat) : State :=
  match c.saved with
  | [] => match Store.find (s.part part).disp.launches c.launch with
    | none => s
    | some e =>
      let (start, s1) := s.startTick e.dispatched.isEmpty
      let s2 := ((upTo cores.length).zip cores).foldl (fun s rc => s.placeNew part c.launch e rc.2 c.cluster rc.1 start) s1
      s2.dispatched part c.launch c.cluster
  | ts =>
    let (start, s1) := s.startTick false
    let s2 := ts.foldl (fun s t => s.placeSaved (cores.getD t.team.id.rank (cores.getD 0 0)) t start) s1
    match ts with
    | t :: _ => s2.renameTeams t.team.id
    | [] => s2

/-- Serve a cluster of one team (R278). -/
def State.serveSingle (s : State) (part : Nat) (c : Candidate) : State × Bool :=
  let cores := (s.coreSet part c.vdev).filter fun k => s.eligible part k c.vdev c.packet none && s.accepts part k c.vdev c.wants none
  match s.leastWorn part cores with
  | none => (s, false)
  | some k => (s.placeCluster part c [k], true)

/-- Choose the rectangle of a gang, once (R279). The gang table is kept in the order of the wait starts: a restored gang waits since its restore
(R43), so one that is entered later may be older. -/
def State.chooseGang (s : State) (part : Nat) (c : Candidate) : State :=
  let d := (s.part part).disp
  match (upTo 16).find? fun i => !d.gangs.any fun g => g.1 == i with
  | none => s
  | some i =>
    let rects := (rectangles (s.diesOf part) c.height c.width).filter fun r => r.all fun k => s.eligible part k c.vdev c.packet none
    let older := d.gangs.filter fun g => decide (g.2.since ≤ c.since)
    let key (r : List Nat) : List Int :=
      [Int.ofNat (((upTo r.length).zip r).filter fun k =>
         (older.any fun g => g.2.cores.contains k.2) || !s.accepts part k.2 c.vdev (c.wantsOf k.1) none).length,
       Int.ofNat (r.foldl (fun acc k => acc + s.placeW part k) 0), Int.ofNat (r.getD 0 0)]
    match bestBy key rects with
    | none => s
    | some r => s.modDisp part fun d =>
      { d with gangs := older ++ [(i, { launch := c.launch, cluster := c.cluster, die := dieOfCore (r.getD 0 0), cores := r, reserved := [],
                                        since := c.since, vdev := c.vdev, restored := !c.saved.isEmpty })] ++
                        d.gangs.filter fun g => !decide (g.2.since ≤ c.since) }

/-- The gang of a cluster, and the gangs that are older. -/
def State.gangOf (s : State) (part : Nat) (c : Candidate) : Option (Nat × Gang × List Gang) :=
  let gs := (s.part part).disp.gangs
  let i := gs.findIdx fun g => g.2.launch == c.launch && g.2.cluster == c.cluster && g.2.restored == !c.saved.isEmpty
  match gs[i]? with
  | some g => some (g.1, g.2, (gs.take i).map (·.2))
  | none => none

/-- Serve a cluster of several teams (R279, R280): it chooses, reserves, and starts when every core is reserved and can still grant the blocks that
the groups of a restored team hold (R109), which a reservation does not take. -/
def State.serveGang (s : State) (part : Nat) (c : Candidate) : State :=
  let s1 := if (s.gangOf part c).isSome then s else s.chooseGang part c
  match s1.gangOf part c with
  | none => s1
  | some (i, g, older) =>
    let takes (k : Nat) : Bool := s1.accepts part k c.vdev (c.wantsOf (g.cores.findIdx (· == k))) (some i)
    let now := g.cores.filter fun k =>
      g.reserved.contains k || (s1.eligible part k c.vdev c.packet (some i) && takes k && !older.any fun o => o.cores.contains k)
    let s2 := s1.modDisp part fun d => { d with gangs := d.gangs.map fun x => if x.1 = i then (i, { g with reserved := now }) else x }
    if now.length < g.cores.length ∨ !g.cores.all takes then s2
    else
      let s3 := s2.modDisp part fun d => { d with
        gangs := d.gangs.filter fun x => x.1 != i
        fence := if d.fence = some i then none else d.fence
        decide := d.decide || d.fence == some i }
      s3.placeCluster part c g.cores

/-- Serve the clusters of a launch in ascending order (R273). -/
def State.serveClusters (s : State) (part idx : Nat) (e : LaunchEntry) : List Nat → State
  | [] => s
  | k :: rest =>
    if !s.clusterMet part e k then s.serveClusters part idx e rest
    else
      let c : Candidate :=
        { launch := idx, cluster := k, vdev := e.vdev, height := pkHeight e.packet, width := pkWidth e.packet, wants := packetWants e.packet,
          packet := e.packet, since := s.mod.tick }
      if c.height * c.width = 1 then
        match s.serveSingle part c with
        | (s1, true) => s1.serveClusters part idx e rest
        | (s1, false) => s1
      else (s.serveGang part c).serveClusters part idx e rest

/-- Whether a device may have teams placed: it is resident, and neither halted nor stopping nor saved. -/
def State.mayPlace (s : State) (part vdev : Nat) : Bool :=
  Store.has (s.part part).disp.resident vdev &&
  (match Store.find s.vdevs vdev with
   | some v => !v.ctx.halted && v.saved.phase == .running
   | none => false)

/-- Serve a launch, when it is not held back. -/
def State.serveLaunch (s : State) (part idx : Nat) : State :=
  match Store.find (s.part part).disp.launches idx with
  | none => s
  | some e => if e.phase == .running && s.mayPlace part e.vdev && s.serialMet part e then (s.depReads part e).serveClusters part idx e e.waiting else s

/-- The order of R272 for a launch of the table: its priority, its acceptance, its queue. -/
def orderKey (e : LaunchEntry) : List Int := [-(Int.ofNat (pkPrio e.packet)), Int.ofNat e.accepted, Int.ofNat (e.quad * 64 + e.queue)]

/-- The saved teams of the devices of a partition by cluster, as candidates in the order of R272 (R43). -/
def State.savedCandidates (s : State) (part : Nat) : List Candidate :=
  let vs := ((s.part part).disp.resident.map (·.1)).filter (s.mayPlace part)
  let ts := vs.flatMap fun v => ((Store.find s.vdevs v).map (·.saved.teams)).getD []
  let same (t u : SavedTeam) : Bool := u.team.id.vdev == t.team.id.vdev && u.team.id.launch == t.team.id.launch && u.team.id.cluster == t.team.id.cluster
  let firsts := ts.filter fun t => ts.all fun u => !same t u || decide (t.team.id.rank ≤ u.team.id.rank)
  let entry (t : SavedTeam) : Option LaunchEntry := Store.find (s.part part).disp.launches t.team.id.launch
  (sortBy (fun (t : SavedTeam) => (((entry t).map orderKey).getD [0, 0, 0]) ++ [Int.ofNat t.team.id.number]) firsts).map fun t =>
    { launch := t.team.id.launch, cluster := t.team.id.cluster, vdev := t.team.id.vdev, height := t.team.id.height, width := t.team.id.width, wants := t.wants,
      packet := ((entry t).map (·.packet)).getD [], since := t.restoredAt, saved := ts.filter (same t) }

/-- Serve the saved teams of a partition, before the new ones of their devices (R43). -/
def State.serveSaved (s : State) (part : Nat) : State :=
  (s.savedCandidates part).foldl (fun s c => if c.saved.length ≤ 1 && c.height * c.width = 1 then (s.serveSingle part c).1 else s.serveGang part c) s

/-- The launches of a partition in the order of R272. -/
def State.launchOrder (s : State) (part : Nat) : List Nat :=
  (sortBy (fun (kv : Nat × LaunchEntry) => orderKey kv.2) (s.part part).disp.launches).map (·.1)

/-! ### The end of a launch (R41, R42, R275, R276) -/

/-- The teams of a launch that are resident or saved. -/
def State.teamsOfLaunch (s : State) (part idx : Nat) (e : LaunchEntry) : Nat :=
  (s.teams.filter fun kv => kv.2.id.part == part && kv.2.id.launch == idx).length +
  ((((Store.find s.vdevs e.vdev).map (·.saved.teams)).getD []).filter fun t => t.team.id.launch == idx).length

/-- A launch ends when it has nothing left to run: its record is written and its entry removed. -/
def State.settleLaunch (s : State) (part idx : Nat) : State :=
  match Store.find (s.part part).disp.launches idx with
  | none => s
  | some e =>
    let remove (s : State) : State := s.modDisp part fun d => { d with launches := Store.erase d.launches idx }
    match e.phase with
    | .faulted => s
    | .running => if e.retired = pkTeams e.packet then remove (s.writeCompletion part e.vdev e.packet 0 0 none) else s
    | .aborted =>
      let s1 := s.dequeue part idx
      if s1.teamsOfLaunch part idx e = 0 then remove (s1.writeCompletion part e.vdev e.packet 1 0 e.fatal) else s1
    | .cancelled st =>
      let s1 := s.dequeue part idx
      if s1.teamsOfLaunch part idx e = 0 then remove (s1.writeCompletion part e.vdev e.packet st 0 none) else s1

/-- Every launch of a partition that has ended leaves the table. -/
def State.settleLaunches (s : State) (part : Nat) : State :=
  ((s.part part).disp.launches.map (·.1)).foldl (fun s i => s.settleLaunch part i) s

/-- A launch waits on required bits that no live launch of the partition owns (R275). -/
def State.orphaned (s : State) (part : Nat) (e : LaunchEntry) : Bool :=
  pkDepMap e.packet != 0 && e.phase == .running && (e.waiting.any fun k => !s.clusterMet part e k) &&
  !((s.part part).disp.launches.any fun f => f.2.vdev == e.vdev && pkCompBmp f.2.packet == pkDepBmp e.packet && (f.2.phase == .running || f.2.phase == .faulted)) &&
  !((s.part part).regs.members.any fun q => (s.quad q).queues.any fun w => w.2.owner == e.vdev && w.2.packets.any fun p => pkCompBmp p.bytes == pkDepBmp e.packet)

/-- Since when each launch has been waiting so. -/
def State.markOrphans (s : State) (part : Nat) : State :=
  s.modDisp part fun d => { d with launches := Store.mapVals d.launches fun _ e =>
    { e with depFrom := if s.orphaned part e then some (e.depFrom.getD s.mod.tick) else none } }

/-- DISPATCH_DECISION (R272): every candidate of the partition is examined once, in order. -/
def execDispatchDecision (part : Nat) (s : State) : Host.Outcome State Fault Refusal :=
  let s0 := (s.settleLaunches part).modDisp part fun d => { d with decide := false }
  let s1 := s0.serveSaved part
  let s2 := (s1.launchOrder part).foldl (fun s i => s.serveLaunch part i) s1
  .next (s2.markOrphans part)

/-- GANGFENCE in ticks (R287). -/
def State.gangFence (s : State) (part : Nat) : Nat := ((s.part part).regs.placectl.extractLsb' 0 8).toNat * 8400

/-- Whether the oldest waiting gang of a partition has waited for the fence (R281). -/
def State.fenceDue (s : State) (part : Nat) : Option Nat :=
  let d := (s.part part).disp
  match d.fence, d.gangs with
  | none, g :: _ => if g.2.since + s.gangFence part ≤ s.mod.tick then some g.1 else none
  | _, _ => none

/-- GANG_FENCE (R281). -/
def execGangFence (part : Nat) (s : State) : Host.Outcome State Fault Refusal :=
  match s.fenceDue part with
  | none => .next s
  | some i => .next (s.modDisp part fun d => { d with fence := some i, decide := true })

/-- The stall watchdog of a device in ticks (R39). -/
def State.watchdogTicks (s : State) (vdev : Nat) : Nat := (((Store.find s.vdevs vdev).map fun v => v.ctx.watchdog).getD 0) * 84000

/-- Whether a consumer has waited too long (R275). -/
def State.depOverdue (s : State) (e : LaunchEntry) : Bool := match e.depFrom with
  | some t => e.phase == .running && decide (t + s.watchdogTicks e.vdev ≤ s.mod.tick)
  | none => false

/-- DEPENDENCY_TIMEOUT (R275): the teams of a consumer that are not dispatched are cancelled with status 3. -/
def execDependencyTimeout (part : Nat) (launch : Nat) (s : State) : Host.Outcome State Fault Refusal :=
  match Store.find (s.part part).disp.launches launch with
  | none => .next s
  | some e =>
    if s.depOverdue e && s.orphaned part e then
      .next ((s.modDisp part fun d =>
        { (d.dropGangs fun g => g.launch == launch && !g.restored) with launches := Store.put d.launches launch { e with phase := .cancelled 3, depFrom := none } }).settleLaunch part launch)
    else .next s

/-! ### Retirement (R41) -/

/-- Whether a team retires: its groups have released their slots, its engine operations have completed, and its stamp records are written. -/
def State.retires (s : State) (tid : Nat) : Bool :=
  let core := s.core (tid / 16)
  Store.has s.teams tid && (s.groupsOf tid).isEmpty && !s.pathWaits (tid / 16) && !(core.copies.any fun c => c.tid == tid) &&
  !((s.quad (quadOfCore (tid / 16))).colls.any fun c => c.tid == tid) && !(core.arr.queue.any fun o => o.tid == tid) &&
  !(core.arr.fills.any fun f => f.tid == tid) && !(core.stamps.any fun x => x.2.tid == tid)

/-- Set the completion bit of a team (R41, R268), with release at device scope. -/
def State.setDoneBit (s : State) (part : Nat) (e : LaunchEntry) (n : Nat) : State :=
  let bmp := pkCompBmp e.packet
  if bmp = 0 then s
  else match s.guestRead part e.vdev (bmp + n / 8) 1 with
    | (s, .error _) => s
    | (s, .ok b) => (s.guestWrite part e.vdev (bmp + n / 8) [BitVec.ofNat 8 (numOf b) ||| BitVec.ofNat 8 (2 ^ (n % 8))]).1

/-- A core that no team of the granting device is resident on loses its grant (R380). -/
def State.lapseGrant (s : State) (core : Nat) : State :=
  match (s.core core).grant with
  | some g => if s.teams.any fun t => t.1 / 16 == core && t.2.id.vdev == g.vdev then s else s.endGrant core
  | none => s

/-- A team leaves its core: its resources are free, the array when it held it, its entries of the release log go (R234), and a grant of
its device ends with its last team there (R380). -/
def State.freeTeamSlot (s : State) (tid : Nat) : State :=
  let core := tid / 16
  let s1 := { s with teams := Store.erase s.teams tid }.lapseGrant core
  let s2 := match (s1.core core).arr.holder with
    | some (t, _) => if t = tid then s1.modArr core fun a => { a with holder := none, acc := [], accUpset := [], banks := [] } else s1
    | none => s1
  s2.modMem core fun m => { m with log := m.log.filter fun e => e.tid != tid }

/-- The OWNERSHIP event of a write-back of a team that was discarded (R214): it enters the device's fault queue and is fatal to the launch;
the event log records it (R315). -/
def State.ownershipFault (s : State) (tid : Nat) : State :=
  match Store.find s.teams tid with
  | none => s
  | some t =>
    if !t.sync.ownershipEvent then s
    else
      let s1 := (s.modSync tid fun y => { y with ownershipEvent := false }).logEvent t.id.part
        { type := 10, quad := quadOfCore (tid / 16), vdev := t.id.vdev, paddr := t.sync.ownershipLine, time := s.now }
      match s1.groupsOf tid with
      | kv :: _ => s1.takeFault kv.1 (kv.2.waitTrap .ownership)
      | [] =>
        let sum : FatalSummary := ⟨FaultCode.ownership.code, t.id.number, 0, 0, 0, s.now, s.mod.tick / 35⟩
        let rec' : FaultRecord :=
          { kind := 0, code := FaultCode.ownership.code, team := t.id.number, group := 0, slot := 0, cls := 0, mask := 0, pc := 0, resume := 0,
            aux1 := 0, aux2 := 0, addr := 0, time := s.now }
        let ev : EventRecord :=
          { type := 6, quad := quadOfCore (tid / 16), vdev := t.id.vdev, code := FaultCode.ownership.code, time := s.now, team := t.id.number }
        (((s1.enterRecord t.id.part t.id.vdev 0 rec').1).logEvent t.id.part ev).reportFatal t.id.part t.id.launch sum

/-- TEAM_RETIRE (R41). -/
def execTeamRetire (tid : Nat) (s : State) : Host.Outcome State Fault Refusal :=
  if !s.retires tid then .next s
  else match Store.find s.teams tid with
    | none => .next s
    | some t =>
      let s1 := ((s.drainPath (tid / 16) none).writeBackTeam tid).ownershipFault tid
      let s2 := s1.freeTeamSlot tid
      let s3 := match Store.find (s2.part t.id.part).disp.launches t.id.launch with
        | none => s2
        | some e =>
          let s3 := if e.phase = LaunchPhase.aborted ∨ e.phase = LaunchPhase.faulted then s2 else s2.setDoneBit t.id.part e t.id.number
          s3.modDisp t.id.part fun d =>
            { d with launches := Store.put d.launches t.id.launch { e with retired := e.retired + 1 }, decide := true }
      let s4 := if (s3.clusterTeams t.id).isEmpty then { s3 with clusters := Store.erase s3.clusters (clusterKey t.id) } else s3
      .next (s4.settleLaunch t.id.part t.id.launch)

end Sys2Proof.Machine
end

