-- ==== Sys2Proof/Machine/Observe.lean ====
section
/-! DEFINITION. Observation (R388 to R399): the check pair, counters and time, tile stamps and their records, the system registers with the
binding of stash windows (R212, R215), and the host's counter reads (R393). -/

namespace Sys2Proof.Machine

/-! ### Check pair (R389) -/

/-- One fold of a float into a check value: an exact sum rounded once to binary64. -/
def foldFloat (fmt : Num.Fmt) (k : BitVec 64) (x : Nat) : BitVec 64 :=
  BitVec.ofNat 64 (Num.b64.encode Num.Ctl.array (Num.addVal .rne (Num.b64.decode k.toNat) (fmt.decode x)))

/-- CKFOLD over the active lanes in ascending order. -/
def foldLanes (r : Regs) (act : Mask) (a : Nat) (int : Bool) (k : BitVec 64) : BitVec 64 :=
  let t := elemType r.gmode
  (lanesIn act).foldl (fun (k : BitVec 64) l =>
    let w := (r.vec a).at l
    if int then k + (if t = .i32 then w.signExtend 64 else w.zeroExtend 64)
    else if t = .f64 then foldFloat Num.b64 k (r.vec64 a l).toNat
    else foldFloat Num.b32 k w.toNat) k

/-- CKFOLD (R389). -/
def execCkfold (d : BitVec 7) (a : BitVec 7) (int : Bool) (s : State) : Host.Outcome State Fault Refusal :=
  issueRegs s (.ckfold d a int) fun x r =>
    .ok (if d = 0 then { r with k0 := foldLanes r x.act a.toNat int r.k0 } else { r with k1 := foldLanes r x.act a.toNat int r.k1 })

/-- A finite binary64 value in units of 2^-1074. -/
def fixed64 (c : BitVec 64) : Option Int := match Num.b64.decode c.toNat with
  | .fin neg m e => some (Num.sigOf neg (m * 2 ^ (e + 1074).toNat))
  | _ => none

/-- Whether a tolerance is refused: a NaN, or a value below zero (R389). -/
def badTolerance (t : BitVec 64) : Bool := match Num.b64.decode t.toNat with
  | .nan => true
  | .inf neg => neg
  | .fin neg m _ => neg && m != 0

/-- CKTEST on floats: both finite, and their difference within the tolerance, all exact (R389). -/
def pairClose (k0 k1 t : BitVec 64) : Bool := match fixed64 k0, fixed64 k1 with
  | some x, some y => match fixed64 t with
    | none => true
    | some u => decide ((x - y).natAbs * 2 ^ 1074 ≤ u.natAbs * max (max x.natAbs y.natAbs) (2 ^ 1074))
  | _, _ => false

/-- CKTEST (R389). -/
def execCktest (a : BitVec 7) (int : Bool) (s : State) : Host.Outcome State Fault Refusal :=
  issueRegs s (.cktest a int) fun _ r =>
    if int then (if r.k0 = r.k1 then .ok r else .error .checkFail)
    else
      let t := r.sc64 a.toNat
      if badTolerance t then .error .illegalOperand else if pairClose r.k0 r.k1 t then .ok r else .error .checkFail

/-- CKCLR (R389). -/
def execCkclr (s : State) : Host.Outcome State Fault Refusal := issueRegs s .ckclr fun _ r => .ok { r with k0 := 0, k1 := 0 }

/-! ### Counters and time (R390 to R393) -/

/-- A counter of a quadrant: the instance of a device, or the host total under 0. -/
def State.counter (s : State) (q vdev sel : Nat) : Nat := Store.get 0 (s.quad q).counters (counterKey vdev sel)

/-- RDCNT (R391). -/
def execRdcnt (d : BitVec 7) (i : BitVec 11) (s : State) : Host.Outcome State Fault Refusal :=
  issue s (.rdcnt d i) fun s x _ =>
    let vdev := ((Store.find s.teams x.tid).map (·.id.vdev)).getD 0
    .done (s.modRegs x.gid fun r => r.setSc64 d.toNat (BitVec.ofNat 64 (s.counter (quadOfCore x.core) vdev i.toNat)))

/-- RDTIME (R392). -/
def execRdtime (d : BitVec 7) (s : State) : Host.Outcome State Fault Refusal :=
  issue s (.rdtime d) fun s x _ => .done (s.modRegs x.gid fun r => r.setSc64 d.toNat (BitVec.ofNat 64 s.now))

/-- Where a host offset reads a counter: the quadrant, the instance, the selector and the half (R402); none for any other offset. -/
def counterOffset (off : Nat) : Option (Nat × Nat × Nat × Nat) :=
  let q := off / 0x1000000
  let o := off % 0x1000000
  if o < 0x100000 ∨ 4 ≤ q then none
  else
    let v := (o - 0x100000) / 0x2000
    let sel := (o - 0x100000) % 0x2000 / 8
    if 64 < v ∨ !counterAssigned sel ∨ off % 4 ≠ 0 then none else some (q, v, sel, off / 4 % 2)

/-- The reply to a host read. -/
def State.reply (s : State) (w : Word) : State := s.modMod fun m => { m with hostReply := some w }

/-- Whether a byte of a command block is reserved (R405). -/
def blockReserved (i : Nat) : Bool := i == 3 || (decide (16 ≤ i) && decide (i < 64))
/-- Whether the host writes a byte of a command block: firmware alone writes STATUS, DETAIL and RLEN, and a reserved byte keeps 0 (R405). -/
def hostWrites (i : Nat) : Bool := !blockReserved i && !(decide (8 ≤ i) && decide (i < 16))

/-- What the host reads at an offset that is no counter's (R402, R405): four bytes of a command block, a GO word, and 0 elsewhere. -/
def State.windowWord (s : State) (off : Nat) : Word :=
  let q := off / 0x1000000
  let o := off % 0x1000000
  let m := (s.quad q).mailbox
  if q < 4 ∧ 0x4000 ≤ o ∧ o + 4 ≤ 0x5000 then BitVec.ofNat 32 (numOf ((upTo 4).map fun i => Store.get 0 m.block (o - 0x4000 + i)))
  else if q < 4 ∧ o = 0x5000 ∧ m.go then 1
  else 0

/-- COUNTER_LOW_READ (R393): bits [31:0], and the latch takes the other half of the same snapshot. -/
def execCounterLowRead (off : Nat) (s : State) : Host.Outcome State Fault Refusal :=
  match counterOffset off with
  | some (q, v, sel, 0) =>
    let c := s.counter q v sel
    .next ((s.modQuad q fun z => { z with latch := some (counterKey v sel, BitVec.ofNat 32 (c / 2 ^ 32)) }).reply (BitVec.ofNat 32 c))
  | _ => .next (s.reply (s.windowWord off))

/-- COUNTER_HIGH_READ (R393): the latch when it holds this counter, which clears it, else the live bits. -/
def execCounterHighRead (off : Nat) (s : State) : Host.Outcome State Fault Refusal :=
  match counterOffset off with
  | some (q, v, sel, 1) =>
    match (s.quad q).latch with
    | some (k, w) =>
      if k = counterKey v sel then .next ((s.modQuad q fun z => { z with latch := none }).reply w)
      else .next (s.reply (BitVec.ofNat 32 (s.counter q v sel / 2 ^ 32)))
    | none => .next (s.reply (BitVec.ofNat 32 (s.counter q v sel / 2 ^ 32)))
  | _ => .next (s.reply (s.windowWord off))

/-! ### Tile stamps (R394 to R397) -/

/-- The stamp slot of a core that holds a team and a tile id. -/
def Core.stampOf (c : Core) (tid : Nat) (tile : Word) : Option Nat := (c.stamps.find? fun kv => kv.2.tid == tid && kv.2.tile == tile).map (·.1)

/-- The group joins a slot of the stamp table, which it opens when none holds its team and its tile. -/
def State.joinTile (s : State) (x : Issue) (g : Group) (tile : Word) (slot : Nat) : State :=
  let team := ((Store.find s.teams x.tid).map (·.id.number)).getD 0
  let fresh : StampSlot := { tid := x.tid, team := team, tile := tile, base := s.now, joined := 0, closed := 0 }
  let join (c : Core) : StampSlot :=
    let o := Store.get fresh c.stamps slot
    { o with joined := o.joined ||| groupBit g.number, closed := o.closed &&& ~~~groupBit g.number }
  (s.modCore x.core fun c => { c with stamps := Store.put c.stamps slot (join c) }).modEng x.gid fun e =>
    { e with tag := some tile.toNat, tagSlot := slot }

/-- TILEB (R394): it acts as TILEE first when a tag is held; with every slot in use it stalls, and the stall is a wait. -/
def execTileb (a : BitVec 7) (s : State) : Host.Outcome State Fault Refusal :=
  issue s (.tileb a) fun s x g =>
    let s1 := s.closeTile x.gid
    let tile := g.regs.sc a.toNat
    let c := s1.core x.core
    match c.stampOf x.tid tile with
    | some n => .done (s1.joinTile x g tile n)
    | none => match (upTo 16).find? fun n => !Store.has c.stamps n with
      | some n => .done (s1.joinTile x g tile n)
      | none => .hold (fun s => s.closeTile x.gid) .stall

/-- TILEE (R394). -/
def execTilee (s : State) : Host.Outcome State Fault Refusal := issue s .tilee fun s x _ => .done (s.closeTile x.gid)

/-- The 64 bytes of a stamp record (R396). -/
def StampSlot.bytes (x : StampSlot) (dropped : Nat) : List Byte :=
  let point (n : Nat) : Nat := match Store.find x.points n with
    | some t => min (t - x.base) 0xFFFFFFFE
    | none => 0xFFFFFFFF
  bytesOf 8 x.base ++ bytesOf 4 x.tile.toNat ++ bytesOf 4 x.team ++ bytesOf 4 x.joined.toNat ++
  ((upTo 7).flatMap fun k => bytesOf 4 (point (k + 1))) ++ bytesOf 4 dropped ++
  bytesOf 4 ((if x.preempt then 4 else 0) + (if x.abort then 2 else 0) + (if x.faulted then 1 else 0)) ++ bytesOf 8 0

/-- The address of the stamp ring (R397). -/
def StampRegs.ring (r : StampRegs) : Nat := (r.hi.extractLsb' 0 24).toNat * 2 ^ 32 + r.lo.toNat

/-- A stamp record is dropped (R397). -/
def State.dropStamp (s : State) (vdev : Nat) : State :=
  s.modVdev vdev fun v => { v with stamp := { v.stamp with ovf := v.stamp.ovf + 1, dropped := v.stamp.dropped + 1 } }

/-- The code of a record write that failed. -/
def failCode : AccessFail → FaultCode
  | .page _ | .unpulled _ | .wait => .pageFault
  | .fault c => c
  | .lost _ => .uncorrectable

/-- Whether the record of a slot of the stamp table cannot be written yet: its ring lies in a frame that has not been pulled (R357). -/
def State.stampWaits (s : State) (core slot : Nat) : Bool :=
  (Store.find (s.core core).stamps slot).any fun x => (Store.find s.teams x.tid).any fun t => (Store.find s.vdevs t.id.vdev).any fun v =>
    let r : StampRegs := v.stamp
    decide (r.n ≠ 0) && decide (r.head - r.tail ≠ r.n) && (match (s.locate t.id.part t.id.vdev ((r.ring + 64 * (r.head.toNat % r.n.toNat)) % 2 ^ 56) .write).2 with
      | .error f => f.waits
      | .ok _ => false)

/-- Write the record of a slot of the stamp table, or drop it, and free the slot (R397). -/
def State.closeStamp (s : State) (core slot : Nat) : State :=
  match Store.find (s.core core).stamps slot with
  | none => s
  | some x =>
    let s1 := s.modCore core fun c => { c with stamps := Store.erase c.stamps slot }
    match Store.find s.teams x.tid with
    | none => s1
    | some t => match Store.find s.vdevs t.id.vdev with
      | none => s1
      | some v =>
        let r := v.stamp
        if r.n = 0 then s1
        else if r.head - r.tail = r.n then s1.dropStamp t.id.vdev
        else
          let addr := r.ring + 64 * (r.head.toNat % r.n.toNat)
          match s1.guestWrite t.id.part t.id.vdev addr (x.bytes r.dropped) with
          | (s2, _, none) => s2.modVdev t.id.vdev fun v => { v with stamp := { v.stamp with head := v.stamp.head + 1, dropped := 0 } }
          | (s1, _, some f) =>
            let code := (failCode f).code
            let rec' : FaultRecord :=
              { kind := FaultKind.engine.code, code := code, team := t.id.number, group := 0, slot := 0, cls := 0, mask := 0, pc := 0, resume := 0,
                aux1 := BitVec.ofNat 32 code, aux2 := 0, addr := addr, time := s.now }
            (match s1.groupsOf x.tid with
             | kv :: _ => (s1.enterRecord t.id.part t.id.vdev kv.1 rec').1
             | [] => (s1.enterRecord t.id.part t.id.vdev 24576 rec').1).dropStamp t.id.vdev

/-- Whether the record of a slot is due: every joined group has closed, and no tagged operation is outstanding (R395). -/
def State.stampDue (s : State) (core slot : Nat) : Bool :=
  match Store.find (s.core core).stamps slot with
  | none => false
  | some x => (x.joined &&& ~~~x.closed == 0) && !s.stampWaits core slot && (x.preempt || x.abort || (s.groupsOf x.tid).all fun kv =>
      (kv.2.eng.out.all fun w => w.tile != some slot) && kv.2.ops.all fun o => o.done || o.tile != some slot)

/-- STAMP_RECORD_WRITE (R395 to R397). -/
def execStampRecordWrite (core : Nat) (slot : Nat) (s : State) : Host.Outcome State Fault Refusal :=
  if s.stampDue core slot then .next (s.closeStamp core slot) else .next s

/-- Every slot of a team is closed at once at a save, and its record written with PREEMPT (R396). -/
def State.closeTeamStamps (s : State) (tid : Nat) : State :=
  let core := tid / 16
  let s1 := s.modCore core fun k => { k with stamps := Store.mapVals k.stamps fun _ x =>
    if x.tid == tid then { x with closed := x.joined, preempt := true } else x }
  (((s1.core core).stamps.filter fun kv => kv.2.tid == tid).map (·.1)).foldl (fun s n => s.closeStamp core n) s1

/-! ### System registers (R399) -/

/-- A system register as MFSR reads it. -/
def State.sysReg (s : State) (tid sel : Nat) : Word :=
  match Store.find s.teams tid with
  | none => 0
  | some t =>
    let r := ((Store.find s.vdevs t.id.vdev).map (·.stamp)).getD {}
    if sel = 0x10 then r.lo else if sel = 0x11 then r.hi else if sel = 0x12 then r.n else if sel = 0x13 then r.head
    else if sel = 0x14 then r.ovf else if sel = 0x15 then r.tail
    else ((Store.find t.mem.windows (sel % 8)).map (·.value)).getD 0xFFFFFFFF

/-- A firmware register (R399): what MTSR has last written to it, else a value that is not stated, and free (DESIGN CHOICE, log 14). -/
def State.firmwareReg (s : State) (sel : Nat) : Word := match Store.find s.mod.fwRegs sel with
  | some w => w
  | none => BitVec.ofNat 32 (Config.freeNat sel)

/-- MFSR (R399). -/
def execMfsr (d : BitVec 7) (i : BitVec 11) (s : State) : Host.Outcome State Fault Refusal :=
  issue s (.mfsr d i) fun s x _ =>
    if isFirmwareSel i.toNat then .done (s.modRegs x.gid fun r => r.setSc d.toNat (s.firmwareReg i.toNat))
    else .done (s.modRegs x.gid fun r => r.setSc d.toNat (s.sysReg x.tid i.toNat))

/-- A window is unbound (R215): its dirty lines are written back, and its bytes are scratch from then on. -/
def State.unbind (s : State) (tid n : Nat) : State :=
  match (Store.find s.teams tid).bind fun t => Store.find t.mem.windows n with
  | none => s
  | some w =>
    let lines := linesOf w.offset w.length
    (lines.foldl (fun s l => s.recallLine tid l) s).modTeamMem tid fun m => { m with windows := Store.erase m.windows n }

/-- The fields of a window descriptor (R212). -/
def windowOf (v : Word) (b : List Byte) : Window :=
  { value := v, offset := bits (field b 0 4) 20 0, length := bits (field b 4 4) 20 0, va := bits (field b 8 8) 55 0, readOnly := bit (field b 4 4) 31 }

/-- Whether a window descriptor is refused (R212), beside the other windows of its team. -/
def badWindow (b : List Byte) (declared : Nat) (others : List Window) : Bool :=
  let w := windowOf 0 b
  bits (field b 0 4) 31 21 != 0 || bits (field b 4 4) 30 21 != 0 || field b 15 1 != 0 || w.offset % 128 != 0 || w.length % 128 != 0 || w.length == 0 ||
  w.va % 128 != 0 || decide (declared < w.offset + w.length) || decide (2 ^ 56 < w.va + w.length) ||
  others.any fun o => (decide (w.offset < o.offset + o.length) && decide (o.offset < w.offset + w.length)) ||
    (decide (w.va < o.va + o.length) && decide (o.va < w.va + w.length))

/-- MTSR to a window (R212, R215): none for a wait on its lines. -/
def bindWindow (s : State) (x : Issue) (n : Nat) (v : Word) : Res :=
  match Store.find s.teams x.tid with
  | none => .done s
  | some t =>
    if v = 0xFFFFFFFF then .done (s.unbind x.tid n)
    else if v.toNat % 16 ≠ 0 then .trap (x.trap .misaligned)
    else if t.id.stashBytes < v.toNat + 16 then .trap (x.trap .permission)
    else if s.engineHolds x.gid (s.stashLines x.tid v.toNat 16) false then .wait (.order (s.engineHolders x.gid (s.stashLines x.tid v.toNat 16) false))
    else match s.touch x.tid v.toNat 16 false with
      | (_, some .wait) => .wait (.full 4)
      | (_, some f) => x.failed (s.stashVa x.tid v.toNat) f
      | (s1, none) =>
        let b := s1.stashBytes x.tid v.toNat 16
        if badWindow b t.id.stashBytes ((t.mem.windows.filter fun kv => kv.1 != n).map (·.2)) then .trap (x.trap .recordInvalid)
        else .done ((s1.unbind x.tid n).modTeamMem x.tid fun m => { m with windows := Store.put m.windows n (windowOf v b) })

/-- A value that MTSR may not write to a stamp register (R399). -/
def badSysValue (sel : Nat) (v : Word) : Bool :=
  (sel == 0x10 && v.toNat % 64 != 0) || (sel == 0x12 && decide (2 ^ 24 < v.toNat)) || (sel == 0x14 && v != 0)

/-- A write of a stamp register. -/
def StampRegs.put (r : StampRegs) (sel : Nat) (v : Word) : StampRegs :=
  if sel = 0x10 then { r with lo := v } else if sel = 0x11 then { r with hi := v } else if sel = 0x12 then { r with n := v }
  else if sel = 0x14 then { r with ovf := v } else if sel = 0x15 then { r with tail := v } else r

/-- MTSR (R399). -/
def execMtsr (a : BitVec 7) (i : BitVec 11) (s : State) : Host.Outcome State Fault Refusal :=
  issue s (.mtsr a i) fun s x g =>
    let v := g.regs.sc a.toNat
    if isWindowSel i.toNat then bindWindow s x (i.toNat % 8) v
    else if isFirmwareSel i.toNat then .done (s.modMod fun m => { m with fwRegs := Store.put m.fwRegs i.toNat v })
    else if badSysValue i.toNat v then .trap (x.trap .illegalOperand)
    else
      let vdev := ((Store.find s.teams x.tid).map (·.id.vdev)).getD 0
      .done (s.modVdev vdev fun d => { d with stamp := d.stamp.put i.toNat v })

end Sys2Proof.Machine
end

