-- ==== Sys2Proof/Machine/Mailbox.lean ====
section
/-! DEFINITION. The mailboxes of the ROM firmware (R402, R405 to R408): the command block, what a block asks for, the checks that every
command shares, and how a command ends. -/

namespace Sys2Proof.Machine

/-! ### Reading a command -/

/-- The command block's PARAM begins at byte 64 (R405). -/
def paramAt : Nat := 64

/-- A command as its block gives it. -/
structure Command where
  src : CommandSource
  op : Nat
  expert : Bool
  block : List Byte
  deriving DecidableEq, Repr

/-- Whether the caller is guest system software. -/
def isGuest : CommandSource → Bool
  | .guest _ => true
  | .mailbox _ => false

/-- A field of PARAM. -/
def Command.get (c : Command) (off n : Nat) : Nat := field c.block (paramAt + off) n
/-- Bytes of PARAM. -/
def Command.bytes (c : Command) (off n : Nat) : List Byte := (c.block.drop (paramAt + off)).take n
/-- PLEN. -/
def Command.plen (c : Command) : Nat := field c.block 4 4

/-- The device and the partition of a group's team. -/
def State.callerOf (s : State) (gid : Nat) : Option TeamId := ((Store.find s.groups gid).bind fun g => Store.find s.teams g.tid).map (·.id)

/-- The guest virtual address of an ECALL's command block (R400). -/
def State.guestBlock (s : State) (gid : Nat) : Nat := ((Store.find s.groups gid).map fun g => g.regs.scAddr 0).getD 0

/-- The command block of a source, when it can be read: an ECALL's lies in its own device's memory, aligned to 4,096 bytes (R400). -/
def State.blockOf (s : State) : CommandSource → Option (List Byte)
  | .mailbox q => some ((upTo 4096).map fun i => Store.get 0 (s.quad q).mailbox.block i)
  | .guest gid => match s.callerOf gid with
    | none => none
    | some t =>
      if s.guestBlock gid % 4096 ≠ 0 then none
      else match s.guestPeek t.part t.vdev (s.guestBlock gid) 4096 with
        | .ok b => some b
        | .error _ => none

/-- The operation number by which some commands divide (R408). -/
def subOf (op : Nat) (block : List Byte) : Nat :=
  let p (n : Nat) : Nat := field block (paramAt + n) 1
  if op = 0x08 then bits (field block (paramAt + 8) 8) 59 56
  else if op = 0x0E ∨ op = 0x12 ∨ op = 0x13 then p 1
  else if op = 0x14 ∨ op = 0x15 ∨ op = 0x16 then p 0
  else 0

/-- Whether an opcode, with its operation, names a command (R407, R408). -/
def isCommand (op sub : Nat) : Bool :=
  decide (1 ≤ op) && decide (op ≤ 0x16) &&
  (match op with
   | 0x08 => decide (sub ≤ 2)
   | 0x0E | 0x13 => decide (sub ≤ 5)
   | 0x12 | 0x14 => decide (sub ≤ 3)
   | 0x15 => decide (sub ≤ 2)
   | 0x16 => decide (sub ≤ 4)
   | _ => true)

/-! ### The checks that commands share -/

/-- Whether a command, in an operation of it, lists a level (R407). -/
def levelListed (op sub : Nat) (expert : Bool) : Bool :=
  if expert then !(op == 0x02 || op == 0x04 || op == 0x05 || op == 0x0F || op == 0x10 || op == 0x12 || op == 0x15)
  else !(op == 0x11 || (op == 0x0E && (sub == 4 || sub == 5)) || (op == 0x13 && (sub == 3 || sub == 4)) || (op == 0x14 && (sub == 2 || sub == 3)) ||
         (op == 0x16 && sub == 4))

/-- Whether guest system software may give a command, in an operation of it (R407, R408). -/
def guestListed (op sub : Nat) : Bool :=
  op == 0x03 || op == 0x0B || op == 0x0D || op == 0x0F || (op == 0x13 && (sub == 0 || sub == 2)) || (op == 0x16 && decide (sub ≤ 1))

/-- The length of PARAM (R408); `m` is the member count of COMMS. -/
def paramLength (op : Nat) (expert guest : Bool) (m : Nat) : Nat :=
  match op with
  | 0x01 => 64 | 0x02 => 8 | 0x03 => 136 | 0x04 => 24 | 0x05 => 24 | 0x06 => 16 | 0x07 => 72 | 0x08 => 24
  | 0x09 => if expert then 32 else 4
  | 0x0A => 8
  | 0x0B => if expert then 56 else 32
  | 0x0C => 8
  | 0x0D => if expert then 16 else 8
  | 0x0E => 2708
  | 0x0F => if guest then 40 else 24
  | 0x10 => 8 | 0x11 => 16 | 0x12 => 16 | 0x13 => 64
  | 0x14 => 16 + 2 * m
  | 0x15 => 8
  | _ => 24

/-- The bytes of PARAM that R408 lists, as offsets and lengths; `vendor` is the attach kind 1 of DEBUG_ATTACH. -/
def paramListed (op sub : Nat) (expert guest vendor : Bool) (m : Nat) : List (Nat × Nat) :=
  match op with
  | 0x01 => if expert then [(0, 64)] else [(0, 4), (12, 52)]
  | 0x02 => [(0, 1)]
  | 0x03 => [(0, 130)]
  | 0x04 | 0x05 | 0x08 => [(0, 1), (8, 16)]
  | 0x06 => [(0, 1), (2, 10)]
  | 0x07 => [(0, 66), (68, 4)]
  | 0x09 => if expert then [(0, 4), (8, 9), (24, 8)] else [(0, 4)]
  | 0x0A => if expert then [(0, 1), (4, 4)] else [(0, 2)]
  | 0x0B => if expert then [(0, 33), (40, 16)] else [(0, 32)]
  | 0x0C => if expert then [(0, 2), (4, 4)] else [(0, 1)]
  | 0x0D => if expert then [(0, 1), (4, 5), (12, 4)] else [(0, 2)]
  | 0x0E => [(0, 9), (16, 13), (32, 5), (40, 16), (64, 128)] ++ if vendor then [(256, 2452)] else []
  | 0x0F => if guest then [(8, 32)] else [(0, 1), (8, 16)]
  | 0x10 => [(0, 8)]
  | 0x11 => [(0, 10)]
  | 0x12 => [(0, 2), (4, 5)]
  | 0x13 => match sub with
    | 0 | 1 => [(0, 2), (8, 9)]
    | 2 => [(0, 3), (8, 8)]
    | 3 => [(0, 3), (8, 17)]
    | 4 => [(0, 3), (8, 32)]
    | _ => [(0, 3), (32, 32)]
  | 0x14 => if sub = 2 then [(0, 10), (16, 2 * m)] else [(0, 8), (16, 2 * m)]
  | 0x15 => [(0, 2)]
  | _ => match sub with
    | 1 => [(0, 3), (8, 4)]
    | 3 => [(0, 3), (8, 12)]
    | 4 => [(0, 3), (8, 2)]
    | _ => [(0, 3)]

/-- Whether every byte of PARAM that is not listed is 0. -/
def unlistedZero (block : List Byte) (plen : Nat) (listed : List (Nat × Nat)) : Bool :=
  (upTo plen).all fun i => (block.getD (paramAt + i) 0 == 0) || listed.any fun r => decide (r.1 ≤ i) && decide (i < r.1 + r.2)

/-- The VDEV that a command names, when its layout has one (R408). -/
def Command.vdev (c : Command) (sub : Nat) : Option Nat :=
  if c.op = 0x02 ∨ c.op = 0x04 ∨ c.op = 0x05 ∨ c.op = 0x06 ∨ c.op = 0x08 ∨ (c.op = 0x0A ∧ !c.expert) ∨ c.op = 0x0D ∨ c.op = 0x0E ∨
      (c.op = 0x0F ∧ !isGuest c.src) ∨ c.op = 0x12 ∨ (c.op = 0x13 ∧ sub ≠ 5) then some (c.get 0 1)
  else if c.op = 0x14 ∨ (c.op = 0x16 ∧ sub ≤ 1) then some (c.get 1 1)
  else none

/-- The mailbox of which a command on a device is still in progress (R406). -/
def Vdev.inProgress (v : Vdev) : Option Nat :=
  match v.saved.phase with
  | .stopping (.save m _ _) => some m
  | .stopping (.migrate m) => some m
  | _ => if v.mig.incoming then none else v.mig.mailbox

/-- The context key of a device was erased (R413). -/
def Vdev.lost (v : Vdev) : Bool := v.ctx.prot && v.ctx.keyErased

/-- The commands that a device whose key was erased does not refuse here (R413): DESTROY_VDEV acts on it; RESTORE, MIGRATE_OUT, CHECKPOINT,
DEBUG_ATTACH and DUMP refuse it in checks of their own. -/
def checksLost (op : Nat) : Bool := op == 0x02 || op == 0x05 || op == 0x06 || op == 0x08 || op == 0x0E || op == 0x0F

/-- The status with which the checks that all commands share end a command (R406 to R408, R413): not listed for the caller or at the level; a
length, an unlisted byte, or a device that does not exist; a device whose key was erased; another command of the device in progress. -/
def State.commonRefusal (s : State) (c : Command) : Option Nat :=
  let sub := subOf c.op c.block
  let m := c.get 6 2
  let guest := isGuest c.src
  let own : Option Nat := match c.src with
    | .guest gid => (s.callerOf gid).map (·.vdev)
    | .mailbox _ => none
  if guest && !guestListed c.op sub then some 3
  else if !levelListed c.op sub c.expert || 2 ≤ field c.block 2 1 then some 3
  else if c.op = 0x14 ∧ (m = 0 ∨ 2008 < m) then some 1
  else if c.plen ≠ paramLength c.op c.expert guest m ∨ !unlistedZero c.block c.plen (paramListed c.op sub c.expert guest (c.get 3 1 == 1) m) then some 1
  else match c.vdev sub with
    | none => none
    | some v =>
      if guest && own != some v then some 3
      else match Store.find s.vdevs v with
        | none => some 1
        | some d => if d.lost && !checksLost c.op then some 3 else match d.inProgress, c.src with
          | some m, .mailbox q => if m = q then none else some 2
          | some _, .guest _ => some 2
          | none, _ => none

/-! ### The end of a command -/

/-- Store bytes in a mailbox's command block. -/
def Mailbox.put (m : Mailbox) : Nat → List Byte → Mailbox
  | _, [] => m
  | off, b :: rest => { m with block := Store.set 0 m.block off b }.put (off + 1) rest

/-- Store bytes that the host writes in a mailbox's command block. -/
def Mailbox.hostPut (m : Mailbox) : Nat → List Byte → Mailbox
  | _, [] => m
  | off, b :: rest => (if hostWrites off then { m with block := Store.set 0 m.block off b } else m).hostPut (off + 1) rest

/-- A command ends (R405): STATUS, DETAIL, RLEN and RESULT are written; GO reads 0 again; the caller of an ECALL gets s0 and s1 (R400). -/
def State.endCommand (s : State) (src : CommandSource) (status detail : Nat) (result : List Byte) : State :=
  let head := bytesOf 4 (detail * 256 + status) ++ bytesOf 4 result.length
  match src with
  | .mailbox q => s.modQuad q fun z => { z with mailbox := { ((z.mailbox.put 8 head).put paramAt result) with go := false } }
  | .guest gid => match s.callerOf gid with
    | none => s
    | some t =>
      let s1 := if s.guestBlock gid % 4096 ≠ 0 then s
        else ((s.guestWrite t.part t.vdev (s.guestBlock gid + 8) head).1.guestWrite t.part t.vdev (s.guestBlock gid + paramAt) result).1
      s1.modRegs gid fun r => (r.setSc 0 (BitVec.ofNat 32 (detail * 256 + status))).setSc 1 (BitVec.ofNat 32 result.length)

/-- How a command ends, or that it goes on. A refused command changes no state (R406). -/
inductive Reply where
  | done (s : State) (result : List Byte)
  | refused (status detail : Nat)
  /-- refused, with a result -/
  | answered (s : State) (status detail : Nat) (result : List Byte)
  | going (s : State)

/-- Whether a source has given a command that firmware has not taken: GO was written (R405), or an ECALL entered (R400). -/
def State.given (s : State) : CommandSource → Bool
  | .mailbox q => (s.quad q).mailbox.fresh
  | .guest gid => (((Store.find s.groups gid).bind fun g => g.flow.fw).map (·.fresh)).getD false

/-- Firmware reads the command block of an ECALL at the LLC (R205, R214, R400). -/
def State.blockRead (s : State) : CommandSource → State
  | .mailbox _ => s
  | .guest gid => match s.callerOf gid with
    | none => s
    | some t => if s.guestBlock gid % 4096 ≠ 0 then s else (s.guestRead t.part t.vdev (s.guestBlock gid) 4096).1

/-- Firmware takes the command of a source. -/
def State.taken (s : State) : CommandSource → State
  | .mailbox q => s.modQuad q fun z => { z with mailbox := { z.mailbox with fresh := false } }
  | .guest gid => (s.blockRead (.guest gid)).modFlow gid fun f => { f with fw := f.fw.map fun w => { w with fresh := false } }

/-- The command that a block holds. -/
def commandFrom (src : CommandSource) (block : List Byte) : Command :=
  { src := src, op := field block 0 2, expert := field block 2 1 == 1, block := block }

/-! ### Services that are repeated after a rewind (R400) -/

/-- What of a command tells it from another of its group: its header and its parameters. -/
def Command.key (c : Command) : List Byte := c.block.take 8 ++ c.bytes 0 c.plen

/-- The result that a service of a guest has given before a rewind, when the group calls it again (R400): it has its effect already. -/
def State.repeated (s : State) (c : Command) : Option (List Byte) := match c.src with
  | .mailbox _ => none
  | .guest gid => (((Store.find s.groups gid).bind fun g => g.flow.flash).bind fun p => p.again.head?).bind fun k => if k.block = c.key then some k.result else none

/-- A service of a guest is done, which its flashback point keeps for a repetition (R400). -/
def State.noteService (s : State) (c : Command) (result : List Byte) : State := match c.src with
  | .mailbox _ => s
  | .guest gid => s.modFlow gid fun f => { f with flash := f.flash.map fun p =>
      { p with calls := p.calls ++ [⟨c.key, 0, result⟩], again := if (p.again.head?.map (·.block)) = some c.key then p.again.drop 1 else [] } }

/-- Run a command with an opcode and an operation: its source has given it, its block names it, and it passes the checks that all
commands share. -/
def State.runCommand (s : State) (src : CommandSource) (op sub : Nat) (body : Command → State → Reply) : Host.Outcome State Fault Refusal :=
  match s.given src, s.blockOf src with
  | true, some b =>
    let c := commandFrom src b
    if c.op ≠ op ∨ subOf c.op b ≠ sub then .next s
    else
      let s0 := s.taken src
      match s0.commonRefusal c with
      | some st => .next (s0.endCommand src st 0 [])
      | none => match body c s0 with
        | .done s1 r => .next (s1.endCommand src 0 0 r)
        | .refused st d => .next (s0.endCommand src st d [])
        | .answered s1 st d r => .next (s1.endCommand src st d r)
        | .going s1 => .next s1
  | _, _ => .next s

/-- A source gives the command of its block; it ends at once when nothing has its name (R405 to R408). -/
def State.giveCommand (s : State) (src : CommandSource) : State :=
  match s.blockOf src with
  | none => s.endCommand src 1 0 []
  | some b =>
    let op := field b 0 2
    if isCommand op (subOf op b) then match src with
      | .mailbox q =>
        let s1 := s.modQuad q fun z => { z with mailbox := { z.mailbox with fresh := true } }
        { s1 with mod := { s1.mod with goOrder := s1.mod.goOrder.erase q ++ [q] } }
      | .guest gid => s.modFlow gid fun f => { f with fw := f.fw.map fun w => { w with fresh := true } }
    else if op = 0 ∨ 0x16 < op then s.endCommand src 4 0 []
    else if (isGuest src && !guestListed op (subOf op b)) || !levelListed op (subOf op b) (field b 2 1 == 1) then s.endCommand src 3 0 []
    else s.endCommand src 1 0 []

/-- Put an event at the end of the agenda. -/
def State.push (s : State) (i : Instr) : State := { s with sched := { s.sched with agenda := s.sched.agenda ++ [i] } }

/-! ### The host window -/

/-- The exit of a quadrant from a rest starts (R415): 200 µs from a quadrant rest, 2 ms from deep idle. -/
def State.wakeQuad (s : State) (q : Nat) : State :=
  s.modQuad q fun z => match z.power with
    | .rest => { z with power := .exiting, powerFrom := s.mod.tick + 16800000 }
    | .deepIdle => { z with power := .exiting, powerFrom := s.mod.tick + 168000000 }
    | _ => z

/-- A host write at a launch port (R269, R271, R403): a quadrant in rest wakes, and its packet waits for the exit. -/
def State.postPacket (s : State) (q n : Nat) (data : List Byte) : State :=
  match (s.quad q).power with
  | .active => s.portWrite q n data
  | _ => (s.modQuad q fun z => { z with waiting := z.waiting ++ [(n, data)] }).wakeQuad q

/-- LAUNCH_PORT_WRITE (R269, R271, R403). -/
def execLaunchPortWrite (q : Nat) (n : Nat) (data : List Byte) (s : State) : Host.Outcome State Fault Refusal :=
  if 4 ≤ q ∨ 64 ≤ n then .next s else .next (s.postPacket q n data)

/-- HOST_REGISTER_WRITE (R402, R405, R406): the command block keeps what is written in the host's fields; 1 in the GO word starts the command; what is written
at a launch port and is not one whole packet is counted as a drop (R271); anything else is discarded. -/
def execHostRegisterWrite (offset : Nat) (data : List Byte) (s : State) : Host.Outcome State Fault Refusal :=
  let q := offset / 0x1000000
  let o := offset % 0x1000000
  if 4 ≤ q then .next s
  else if o < 0x2000 then .next (s.postPacket q (o / 128) (if o % 128 = 0 then data else data.take 127))
  else if 0x4000 ≤ o ∧ o < 0x5000 then .next (s.modQuad q fun z => { z with mailbox := z.mailbox.hostPut (o - 0x4000) (data.take (0x5000 - o)) })
  else if o = 0x5000 ∧ data.length = 4 ∧ numOf data = 1 ∧ !(s.quad q).mailbox.go then
    .next ((s.modQuad q fun z => { z with mailbox := { z.mailbox with go := true } }).giveCommand (.mailbox q))
  else .next s

/-! ### Host and CXL memory -/

/-- Whether some bytes lie in the host or in one CXL window, of which the port answers (R201, R404, R408). -/
def State.hostRange (s : State) (addr n : Nat) : Bool :=
  let last := addr + n - 1
  match regionOf addr, regionOf last with
  | .host _, .host _ => true
  | .cxl p, .cxl r => p == r && s.cxlAnswers addr && s.cxlAnswers last
  | _, _ => false

/-- Bytes that a caller names, and the state after they are read at the LLC: a guest's address is a virtual one of its device (R205, R214, R408). -/
def State.commandRead (s : State) (src : CommandSource) (addr n : Nat) : State × Option (List Byte) :=
  match src with
  | .mailbox q =>
    if !s.hostRange addr n then (s, none)
    else match s.servedBytes (s.partOfQuad q) 0 addr n with
      | (s1, .ok b) => (s1, some b)
      | (s1, .error _) => (s1, none)
  | .guest gid => match s.callerOf gid with
    | none => (s, none)
    | some t => match s.guestRead t.part t.vdev addr n with
      | (s1, .ok b) => (s1, some b)
      | (s1, .error _) => (s1, none)

/-- Write bytes where a caller names them; answers the number written and whether all of them were. -/
def State.commandWrite (s : State) (src : CommandSource) (addr : Nat) (data : List Byte) : State × Nat × Bool :=
  match src with
  | .mailbox q => if s.hostRange addr data.length then (s.coherentWrite (s.part (s.partOfQuad q)).regs.members addr data, data.length, true) else (s, 0, false)
  | .guest gid => match s.callerOf gid with
    | none => (s, 0, false)
    | some t => match s.guestWrite t.part t.vdev addr data with
      | (s1, n, f) => (s1, n, f.isNone)

end Sys2Proof.Machine
end

