-- ==== Sys2Proof/Machine/Preempt.lean ====
section
/-! DEFINITION. Flashback pre-emption (R43, R108 to R110, R310, R322 to R330): recipes, how each group stops for a save, the image of a
device, SAVE and RESTORE, and the release of a halt (R311). -/

namespace Sys2Proof.Machine

/-! ### Recipes (R322, R323) -/

/-- A row of a recipe table. -/
structure Recipe where
  body : VA
  vsave : Nat
  ssave : Nat
  psave : Nat
  deriving DecidableEq, Repr

/-- A row of a recipe table with its id, when its reserved bits are 0. -/
def recipeRow (b : List Byte) : Option (Nat × Recipe) :=
  if bits (field b 0 2) 15 11 ≠ 0 ∨ !zeros b 2 6 ∨ bits (field b 8 8) 63 56 ≠ 0 ∨ field b 8 8 % 4 ≠ 0 ∨ bits (field b 16 16) 127 120 ≠ 0 ∨ !zeros b 41 7 then none
  else some (field b 0 2, ⟨BitVec.ofNat 56 (field b 8 8), field b 16 16, field b 32 8, field b 40 1⟩)

/-- Ascending ids. -/
def idsRise : List (Nat × Recipe) → Bool
  | x :: y :: rest => decide (x.1 < y.1) && idsRise (y :: rest)
  | _ => true

/-- The recipe table of a team's kernel, when its header and its rows can be read and are well formed. -/
def State.recipeTable (s : State) (t : TeamId) : Option (List (Nat × Recipe)) :=
  match s.guestPeek t.part t.vdev (t.entry - 16).toNat 16 with
  | .error _ => none
  | .ok h =>
    let n := bits (field h 0 4) 11 0
    let tab := field h 8 8
    if bits (field h 0 4) 31 12 ≠ 0 ∨ 2048 < n ∨ !zeros h 4 4 ∨ bits tab 63 56 ≠ 0 ∨ tab % 8 ≠ 0 ∨ (n = 0 ∧ tab ≠ 0) then none
    else match s.guestPeek t.part t.vdev tab (48 * n) with
      | .error _ => none
      | .ok b =>
        let rows := (upTo n).map fun i => recipeRow ((b.drop (48 * i)).take 48)
        if rows.any (·.isNone) then none
        else
          let rs := rows.filterMap id
          if idsRise rs then some rs else none

/-- What firmware reads to find the recipes of a team's kernel, at the LLC (R205, R214). -/
def State.recipeReads (s : State) (t : TeamId) : State :=
  match s.guestRead t.part t.vdev (t.entry - 16).toNat 16 with
  | (s1, .error _) => s1
  | (s1, .ok h) => let n := bits (field h 0 4) 11 0; if 2048 < n then s1 else (s1.guestRead t.part t.vdev (field h 8 8 % 2 ^ 56) (48 * n)).1

/-- The recipe that a point of a team's group names (R127). -/
def State.recipeOf (s : State) (t : TeamId) (n : Nat) : Option Recipe := (s.recipeTable t).bind fun rs => (rs.find? fun r => r.1 == n).map (·.2)

/-- The recipe to which a group may be rewound: it has a valid point with a defined recipe, its flag is clear, and it is outside a regrouped
region (R325). -/
def State.rewindTo (s : State) (g : Group) : Option (FlashPoint × Recipe) :=
  match g.flow.flash, Store.find s.teams g.tid with
  | some p, some t => if g.flow.unrew || g.flow.region then none else (s.recipeOf t.id p.recipe).map fun r => (p, r)
  | _, _ => none

/-- The registers of a save set; every other register reads 0 (R323). -/
def Regs.keep (r : Regs) (p : FlashPoint) (c : Recipe) : Regs :=
  { v := r.v.filter fun kv => bit c.vsave kv.1
    s := r.s.filter fun kv => bit c.ssave kv.1
    p := r.p.filter fun kv => bit c.psave kv.1
    upset := r.upset.filter fun b => match b with
      | .vec n _ => bit c.vsave n
      | .sc n => bit c.ssave n
      | .pred n => bit c.psave n
      | .control => false
    soft := r.soft.filter fun b => match b with
      | .vec n _ => bit c.vsave n
      | .sc n => bit c.ssave n
      | .pred n => bit c.psave n
      | .control => false
    gmode := p.gmode, scc := p.scc, k0 := p.k0, k1 := p.k1, ext := r.ext }

/-- The lanes that had not exited at a point. -/
def FlashPoint.lanes (p : FlashPoint) : Mask := ({ s0 := p.s0, s1 := p.s1, stack := p.stack } : Flow).lanes

/-- An operation that a save carries: a SIGWAIT that is not satisfied, or what a page fault left unfinished (R310, R325). -/
def LongOp.carried (o : LongOp) : Bool := !o.done && ((o.kind == .sigwait && o.probing.isNone) || o.reported)

/-- An operation as an image carries it: its window is not issued again (R87, R310). -/
def LongOp.resumed (o : LongOp) : LongOp := { o with window := 0, issueClk := 0, dueClk := 0 }

/-- A point to which a group is rewound: the services that it has called since are to be called again, with the effect that they had (R400). -/
def FlashPoint.recalled (p : FlashPoint) : FlashPoint := { p with calls := [], again := p.calls ++ p.again }

/-- A group as its rewind leaves it: it runs its recipe, with the recorded slots and stack held aside (R323). A SIGWAIT that was issued before its
point is carried, since its rewind does not repeat it (R310). -/
def Group.rewound (g : Group) (p : FlashPoint) (c : Recipe) (waitUs : Nat) : Group :=
  { g with
    regs := g.regs.keep p c
    flow := { s0 := { pc := c.body, mask := p.lanes }, flash := some p.recalled, recipe := some ⟨p.recalled⟩ }
    ops := (g.ops.filter fun o => o.carried && o.kind == .sigwait && decide (o.serial < p.serial)).map (·.resumed)
    stops := { waitUs := waitUs, carried := decide (0 < waitUs), pending := g.stops.pending.filter fun r => r.kind != 1 }
    eng := { f := g.eng.f }
    time := {} }

/-- A group as it is saved whole and restored (R108): it has no point, a clear flag and no yield count (R110). -/
def Group.whole (g : Group) (waitUs : Nat) : Group :=
  let fresh (x : PcSlot) : PcSlot := { x with readyAt := 0 }
  let kept (b : RegWord) : Bool := (upTo 8).all fun k => !b.inVec (120 + k) (BitVec.allOnes 32)
  { g with
    regs := { g.regs with e := [], eValid := [], eClk := [], upset := g.regs.upset.filter kept, soft := g.regs.soft.filter kept }
    flow := { g.flow with s0 := fresh g.flow.s0, s1 := fresh g.flow.s1, yieldEnd := 0, flash := none, unrew := false }
    ops := (g.ops.filter (·.carried)).map (·.resumed)
    stops := { g.stops with waitUs := waitUs, waitFrom := 0, saving := none }
    eng := { f := g.eng.f }
    time := {} }

/-! ### How groups stop (R325) -/

/-- Whether a group waits under R36. -/
def Group.waits (g : Group) : Bool :=
  g.atSigwait || g.allHeld || (match g.stops.wait with
    | .none | .stall | .lock _ | .order _ | .full _ => false
    | _ => true)

/-- Whether the device of a group is halted: every group of it is stopped then (R311, R408). -/
def State.haltedGroup (s : State) (g : Group) : Bool :=
  (((Store.find s.teams g.tid).bind fun t => Store.find s.vdevs t.id.vdev).map (·.ctx.halted)).getD false

/-- How a group of a device that stops for a save is kept, when it stops now; a group that is neither rewindable nor waiting runs on. -/
def State.saveAs (s : State) (g : Group) : Option SaveAs :=
  if g.flow.exited && !g.flow.region then none
  else if g.stops.stop.isSome || s.haltedGroup g then some .whole
  else if g.flow.recipe.isSome || (s.rewindTo g).isSome then some .rewound
  else if g.stops.parked.isSome || g.waits || g.flow.exited then some .whole
  else none

/-- A group that will be rewound loses its arrivals (R288, R325): an instance keeps the participants that its other arrivals presented. -/
def State.dropArrivals (s : State) (gid : Nat) : State :=
  match Store.find s.groups gid with
  | none => s
  | some g =>
    match Store.find s.teams g.tid with
    | none => s
    | some t =>
      let bit := groupBit g.number
      let shown (id : Nat) (arrived : Mask) : Mask := ((s.groupsOf g.tid).filter fun kv => arrived &&& groupBit kv.2.number != 0).foldl (fun acc kv =>
        [kv.2.flow.s0, kv.2.flow.s1].foldl (fun acc x => match x.hold with
          | .bar n m => if x.live && n == id then acc ||| m else acc
          | _ => acc) acc) 0
      let drop (id : Nat) (b : Barrier) : Barrier :=
        if b.arrived &&& bit = 0 then b else { arrived := b.arrived &&& ~~~bit, participants := shown id (b.arrived &&& ~~~bit) }
      let s1 := s.modSync g.tid fun y =>
        { y with
          barriers := Store.mapVals y.barriers drop
          brpArrived := y.brpArrived &&& ~~~bit
          brpPc := if y.brpArrived &&& ~~~bit = 0 then none else y.brpPc }
      { s1 with clusters := match Store.find s1.clusters (clusterKey t.id) with
          | some b => Store.put s1.clusters (clusterKey t.id) { b with groups := Store.modify 0 b.groups t.id.rank fun m => m &&& ~~~bit }
          | none => s1.clusters }

/-- A group stops for a save: its yield count is 0 (R110), and a request for blocks is withdrawn, so that its XACQ is issued again (R97). -/
def State.stopForSave (s : State) (gid : Nat) (how : SaveAs) : State :=
  let s1 := if how = .rewound then s.dropArrivals gid else s
  (s1.withdrawXacq gid).modGroup gid fun g =>
    { g with
      flow := { g.flow with yieldEnd := 0 }
      stops := { g.stops with saving := some how, wait := if g.stops.wait = .xacq then .reacquire else g.stops.wait } }

/-- The teams of a device that are resident. -/
def State.teamsOf (s : State) (vdev : Nat) : List (Nat × Team) := s.teams.filter fun kv => kv.2.id.vdev == vdev
/-- The groups of a device that are resident. -/
def State.groupsOfVdev (s : State) (vdev : Nat) : List (Nat × Group) := (s.teamsOf vdev).flatMap fun t => s.groupsOf t.1

/-- A group of a stopping device that can stop now. -/
def State.stopsNow (s : State) (vdev : Nat) : Option (Nat × SaveAs) :=
  ((s.groupsOfVdev vdev).filterMap fun kv => if kv.2.stops.saving.isSome then none else (s.saveAs kv.2).map fun h => (kv.1, h)).head?

/-- Every group of a device that can stop now stops. -/
def State.stopAll (s : State) (vdev : Nat) : State :=
  (s.groupsOfVdev vdev).foldl (fun s kv => match s.saveAs kv.2 with
    | some h => if kv.2.stops.saving.isSome then s else s.stopForSave kv.1 h
    | none => s) s

/-- A device starts to stop for a save (R325): the run-on timers of its teams start, and its gangs release what they have (R283). -/
def State.startSave (s : State) (vdev : Nat) (cause : SaveCause) : State :=
  let s0 := match Store.find s.vdevs vdev with
    | some v => s.modDisp (descPart v.desc) fun d => d.dropGangs fun g => g.vdev == vdev
    | none => s
  let s1 := s0.modVdev vdev fun v => { v with saved := { v.saved with phase := .stopping cause } }
  ((s1.teamsOf vdev).foldl (fun s t => (s.recipeReads t.2.id).modSync t.1 fun y => { y with runOnFrom := some s.mod.tick }) s1).stopAll vdev

/-! ### Residency (R350) -/

/-- Member quadrants of a partition. -/
def State.quadsOf (s : State) (part : Nat) : List Nat := (s.part part).regs.members
/-- NCOREi of a descriptor. -/
def descCores (d : List Byte) (i : Nat) : Nat := field d (20 + i) 1

/-- Whether a device has work: packets or launches, resident teams, or teams of its image (R350). -/
def State.hasWork (s : State) (vdev : Nat) (v : Vdev) : Bool :=
  let part := descPart v.desc
  !(s.teamsOf vdev).isEmpty || !v.saved.teams.isEmpty || ((s.part part).disp.launches.any fun e => e.2.vdev == vdev) ||
  (s.quadsOf part).any fun q => (s.quad q).queues.any fun w => w.2.owner == vdev && !w.2.packets.isEmpty

/-- Whether a device is resident. -/
def State.isResident (s : State) (vdev : Nat) (v : Vdev) : Bool := Store.has (s.part (descPart v.desc)).disp.resident vdev

/-- What R413 and R414 keep from becoming resident: a context whose key was erased, and a protected one while a debugger is attached to it or a vendor
debugger is attached. -/
def State.keptOut (s : State) (v : Vdev) : Bool :=
  v.lost || (v.ctx.prot && (v.debugger.isSome || s.vdevs.any fun w => (w.2.debugger.map (·.vendor)).getD false))

/-- A device that waits for admission (R350). -/
def State.runnable (s : State) (vdev : Nat) (v : Vdev) : Bool :=
  !s.isResident vdev v && v.saved.phase == .running && !s.keptOut v && s.hasWork vdev v

/-- A core is free for a device (R350). -/
def State.coreFree (s : State) (part core : Nat) : Bool :=
  s.coreUp core && !s.coreRests core && (s.quad (quadOfCore core)).power == .active && (s.part part).disp.resident.all fun r => !r.2.contains core

/-- Cores in order of W, ties going to the lower number. -/
def State.byWear (s : State) (cores : List Nat) : List Nat := sortBy (fun (c : Nat) => [Int.ofNat (s.coreW c), Int.ofNat c]) cores

/-- The rectangle of some cores of a quadrant with the least sum of W (R350). -/
def State.bestRectangle (s : State) (q h w : Nat) (cores : List Nat) : Option (List Nat) :=
  bestBy (fun r => [Int.ofNat (r.foldl (fun acc c => acc + s.coreW c) 0), Int.ofNat (r.getD 0 0)])
    ((rectangles [2 * q, 2 * q + 1] h w).filter fun r => r.all cores.contains)

/-- The cores that a device receives in a quadrant. -/
def State.coresIn (s : State) (part q : Nat) (d : List Byte) (n : Nat) : Option (List Nat) :=
  let free := ((upTo 48).map (48 * q + ·)).filter fun c => s.coreFree part c
  if free.length < n then none
  else match s.bestRectangle q (descRh d + 1) (descRw d + 1) free with
    | none => none
    | some r => some (r ++ (s.byWear (free.filter fun c => !r.contains c)).take (n - r.length))

/-- The core set of a device, when every member quadrant can supply its part. -/
def State.coreSetFor (s : State) (part : Nat) (d : List Byte) : Option (List Nat) :=
  let qs := s.quadsOf part
  let sets := ((upTo qs.length).zip qs).map fun iq => s.coresIn part iq.2 d (descCores d iq.1)
  if sets.any (·.isNone) then none else some (sets.filterMap id).flatten

/-- The device of a partition that is admitted next (R350): the first in round-robin order that can be. -/
def State.nextAdmission (s : State) (part : Nat) : Option Nat :=
  let last := (s.part part).regs.lastAdmitted
  let vs := s.vdevs.filter fun kv => descPart kv.2.desc == part && s.runnable kv.1 kv.2 && (s.coreSetFor part kv.2.desc).isSome
  ((sortBy (fun (kv : Nat × Vdev) => [Int.ofNat ((kv.1 + 64 - last) % 65)]) vs).head?).map (·.1)

/-- ADMISSION (R350): the device receives its core set, its slice starts, and its saved teams become candidates (R43). -/
def execAdmission (vdev : Nat) (part : Nat) (s : State) : Host.Outcome State Fault Refusal :=
  match s.nextAdmission part, Store.find s.vdevs vdev with
  | some w, some v =>
    if w ≠ vdev then .next s
    else match s.coreSetFor part v.desc with
      | none => .next s
      | some cs =>
        let s1 := s.modPart part fun p =>
          { p with
            regs := { p.regs with lastAdmitted := vdev }
            disp := { p.disp with resident := Store.put p.disp.resident vdev cs, decide := true } }
        .next (s1.modVdev vdev fun v =>
          { v with
            ctx := { v.ctx with sliceFrom := s.mod.tick }
            saved := { v.saved with teams := v.saved.teams.map fun t => { t with restoredAt := s.mod.tick } } })
  | _, _ => .next s

/-- Whether a set of cores holds a rectangle of a shape on one die of a quadrant. -/
def holdsRectangle (q : Nat) (d : List Byte) (cores : List Nat) : Bool :=
  (rectangles [2 * q, 2 * q + 1] (descRh d + 1) (descRw d + 1)).any fun r => r.all cores.contains

/-- A core of a device's set that is marked unavailable, or that the rest rule has taken (R351). -/
def State.coreLost (s : State) (core : Nat) : Bool := !s.coreUp core || s.coreRests core

/-- The core that replaces one of a resident device's set (R351). -/
def State.replacement (s : State) (part vdev old : Nat) (v : Vdev) : Option Nat :=
  let set := s.coreSet part vdev
  if !set.contains old || !s.coreLost old then none
  else
    let q := quadOfCore old
    let free := s.byWear (((upTo 48).map (48 * q + ·)).filter fun c => s.coreFree part c)
    let rest := set.filter fun c => !s.coreLost c
    match free.find? fun c => holdsRectangle q v.desc (c :: rest) with
    | some c => some c
    | none => free.head?

/-- CORE_SET_REPLACEMENT (R351). -/
def execCoreSetReplacement (vdev : Nat) (old : Nat) (new : Nat) (s : State) : Host.Outcome State Fault Refusal :=
  match Store.find s.vdevs vdev with
  | none => .next s
  | some v =>
    let part := descPart v.desc
    if s.replacement part vdev old v = some new then
      .next (s.modDisp part fun d => { d with resident := Store.put d.resident vdev ((s.coreSet part vdev).map fun c => if c = old then new else c), decide := true })
    else .next s

/-- A lost core that no free core replaces leaves the set: the device runs on its smaller set until its slice ends (R351). -/
def State.setShrinks (s : State) : Option State :=
  s.parts.findSome? fun p => (p.2.disp.resident.find? fun r => r.2.any s.coreLost).map fun r =>
    s.modDisp p.1 fun d => { d with resident := Store.put d.resident r.1 (r.2.filter fun c => !s.coreLost c) }

/-- A device leaves its partition's residency. -/
def State.leave (s : State) (part vdev : Nat) : State :=
  s.modDisp part fun d => { (d.dropGangs fun g => g.vdev == vdev) with resident := Store.erase d.resident vdev, decide := true }

/-- A resident device that holds no work (R350). -/
def State.idleVdev (s : State) : Option (Nat × Nat) :=
  (s.vdevs.find? fun kv => s.isResident kv.1 kv.2 && kv.2.saved.phase == .running && !s.hasWork kv.1 kv.2).map fun kv => (descPart kv.2.desc, kv.1)

/-! ### The slice (R325, R350) -/

/-- The slice of a resident device has run out. -/
def State.sliceOver (s : State) (vdev : Nat) (v : Vdev) : Bool :=
  s.isResident vdev v && v.saved.phase == .running && decide (0 < v.ctx.sliceLen) &&
  decide (v.ctx.sliceFrom + v.ctx.sliceLen * 8400000 ≤ s.mod.tick)

/-- Another device of the partition is runnable and cannot be admitted. -/
def State.contended (s : State) (part vdev : Nat) : Bool :=
  s.vdevs.any fun kv => kv.1 != vdev && descPart kv.2.desc == part && s.runnable kv.1 kv.2 && (s.coreSetFor part kv.2.desc).isNone

/-- A slice end is due (R350). -/
def State.sliceDue (s : State) (vdev : Nat) (v : Vdev) : Bool := s.sliceOver vdev v && s.contended (descPart v.desc) vdev

/-- MODE of CKCTL (R355). -/
def Checkpoint.mode (c : Checkpoint) : Nat := (c.ctl.extractLsb' 56 4).toNat

/-- SLICE_END (R325): with a checkpoint running, the slice end closes its epoch (R354). -/
def execSliceEnd (vdev : Nat) (s : State) : Host.Outcome State Fault Refusal :=
  match Store.find s.vdevs vdev with
  | none => .next s
  | some v => if s.sliceDue vdev v then .next (s.startSave vdev (if v.ckpt.mode = 0 then .slice else .epoch)) else .next s

/-- The run-on timer of a team has reached UNRWLIM (R325). -/
def State.runOnOver (s : State) (t : Team) : Bool :=
  match t.sync.runOnFrom, Store.find s.vdevs t.id.vdev with
  | some f, some v => decide (f + v.ctx.unrwlim * 84000 ≤ s.mod.tick)
  | _, _ => false

/-- UNRWLIM_EXPIRY (R325): the groups of the team that still run on stop, and are saved whole. -/
def execUnrwlimExpiry (tid : Nat) (s : State) : Host.Outcome State Fault Refusal :=
  match Store.find s.teams tid with
  | none => .next s
  | some t =>
    if s.runOnOver t then
      .next ((s.groupsOf tid).foldl (fun s kv => if kv.2.stops.saving.isSome || (kv.2.flow.exited && !kv.2.flow.region) then s else s.stopForSave kv.1 .whole)
        (s.modSync tid fun y => { y with runOnFrom := none }))
    else .next s

/-! ### The image (R310, R326 to R330) -/

/-- Whether a team is ready for its image: every group has stopped, and what it has issued has completed (R108, R310, R325). -/
def State.teamDrained (s : State) (tid : Nat) (t : Team) : Bool :=
  let core := s.core (tid / 16)
  let gs := s.groupsOf tid
  !t.sync.aborted && !gs.isEmpty &&
  (gs.all fun kv => (kv.2.stops.saving.isSome || (kv.2.flow.exited && !kv.2.flow.region)) && kv.2.eng.out.isEmpty && kv.2.flow.fw.isNone &&
    kv.2.ops.all fun o => o.carried || (o.done && !(o.kind == .mcst && o.destMask != 0))) &&
  (gs.any fun kv => kv.2.stops.saving.isSome) &&
  !(core.copies.any fun c => c.tid == tid) && !((s.quad (quadOfCore (tid / 16))).colls.any fun c => c.tid == tid) &&
  !(core.arr.queue.any fun o => o.tid == tid) && !(core.arr.fills.any fun f => f.tid == tid) &&
  !(core.arr.algLoads.any fun a => gs.any fun kv => kv.1 == a.gid) &&
  !(core.stamps.any fun x => x.2.tid == tid && s.stampWaits (tid / 16) x.1)

/-- Whether the image of a stopping device can be taken. -/
def State.drained (s : State) (vdev : Nat) : Bool := (s.teamsOf vdev).all fun t => s.teamDrained t.1 t.2 && !s.pathWaits (t.1 / 16)

/-- A group as its image holds it, with its wait time. -/
def State.packGroup (s : State) (g : Group) : Group :=
  let w := s.waited g
  match g.stops.saving with
  | some .rewound => match (match g.flow.recipe with
      | some fr => (Store.find s.teams g.tid).bind fun t => (s.recipeOf t.id fr.point.recipe).map fun r => (fr.point, r)
      | none => s.rewindTo g) with
    | some (p, r) => g.rewound p r w
    | none => g.whole w
  | _ => g.whole w

/-- The same with the teams that its operations name by their rank. -/
def State.packOps (s : State) (g : Group) : Group :=
  let rank (tid : Nat) : Nat := ((Store.find s.teams tid).map (·.id.rank)).getD 0
  { g with ops := g.ops.map fun o => o.mapTeams rank }

/-- The slots with what was loaded last into each. -/
def slotsNow {α : Type} (old : Store α) (next : Store (List (Nat × α))) : Store α :=
  next.foldl (fun m kv => match kv.2.getLast? with
    | some x => Store.put m kv.1 x.2
    | none => m) old

/-- A team as its image holds it (R326): no window line is present, and the slots hold what was loaded last. Its groups stand in the order of their
numbers, in which R23 places them; one that has exited takes no slot again (DESIGN CHOICE, log 28). -/
def State.packTeam (s : State) (tid : Nat) (t : Team) : SavedTeam :=
  let core := tid / 16
  let arr := (s.core core).arr
  let holds := match arr.holder with
    | some h => h.1 == tid
    | none => false
  let gs := sortBy (fun (kv : Nat × Group) => [Int.ofNat kv.2.number]) ((s.groupsOf tid).filter fun kv => !kv.2.flow.exited || kv.2.flow.region)
  let number (gid : Nat) : Nat := ((Store.find s.groups gid).map (·.number)).getD 32
  { team := { t with
      mem := { t.mem with
        lines := []
        jigs := slotsNow t.mem.jigs t.mem.jigNext
        records := slotsNow t.mem.records t.mem.recordNext
        jigNext := []
        recordNext := [] }
      sync := { t.sync with producer := t.sync.producer.map number, deadlockTimer := 0, runOnFrom := none, startTick := 0 } }
    groups := gs.map fun kv => s.packOps (s.packGroup kv.2)
    banks := if holds then arr.banks else []
    acc := if holds then arr.acc else []
    reclusters := Store.find s.clusters (clusterKey t.id) }

/-- A saved team leaves its core: its groups' slots and blocks, its bench state, its team slot and the array are free. -/
def State.unplace (s : State) (tid : Nat) : State :=
  let gs := s.groupsOf tid
  let s1 := gs.foldl (fun s kv =>
    let s1 := s.modBench (kv.1 / 8) fun b =>
      { (b.release kv.2.regs.ext (s.core (coreOf kv.1)).clk) with
        acq := b.acq.filter fun r => r.gid != kv.1 }
    { s1 with groups := Store.erase s1.groups kv.1 }) s
  s1.freeTeamSlot tid

/-- The teams of a device move into its image and leave their cores. -/
def State.packVdev (s : State) (vdev : Nat) : State :=
  let ts := s.teamsOf vdev
  let packed := ts.map fun t => s.packTeam t.1 t.2
  let s1 := ts.foldl (fun s t => s.unplace t.1) s
  let s2 := ts.foldl (fun s t => { s with clusters := Store.erase s.clusters (clusterKey t.2.id) }) s1
  s2.modVdev vdev fun v => { v with saved := { v.saved with teams := v.saved.teams ++ packed } }

/-- Perform what has been translated for a device and is not performed yet (R337): the stores in the paths of cores, and replicated commits, as far as
no lease holds them. -/
def State.settleVdev (s : State) (vdev : Nat) : State :=
  let s1 := (s.cores.filter fun c => c.2.mem.path.any (·.vdev == vdev)).foldl (fun s c => s.drainPath c.1 none) s
  s1.parts.foldl (fun s p => (p.2.locks.filter (·.vdev == vdev)).foldl (fun s l => if s.lockWaits p.1 l then s else s.commitLock p.1 l) s) s1

/-- Whether some of it is left: a store of a path, a replicated commit, or a write that a lease keeps. -/
def State.unsettled (s : State) (vdev : Nat) : Bool :=
  (s.cores.any fun c => c.2.mem.path.any (·.vdev == vdev)) || (s.parts.any fun p => p.2.locks.any (·.vdev == vdev)) ||
  s.mod.heldWrites.any fun h => s.frameVdev h.addr == vdev

/-- Before an image: each core of the device performs its stores, bound windows are written back (R215), and log entries are promoted (R234). -/
def State.settleMemory (s : State) (vdev : Nat) : State :=
  (s.teamsOf vdev).foldl (fun s t => ((s.drainPath (t.1 / 16) none).writeBackTeam t.1).modMem (t.1 / 16) fun m => { m with log := m.log.filter fun e => e.tid != t.1 })
    (s.settleVdev vdev)

/-- CTXCTL.PROT of a device as a number. -/
def Context.protBit (c : Context) : Nat := if c.prot then 1 else 0

/-- The first 32 bytes of an image (R328). -/
def imageHead (c : Context) (teams counter length : Nat) : List Byte :=
  bytesOf 4 0x4956534B ++ bytesOf 4 (c.protBit * 256 + 1) ++ bytesOf 4 c.ctxid ++ bytesOf 4 teams ++ bytesOf 8 counter ++ bytesOf 8 length

/-- The number of the IV of an image or a dump: CTXID in bytes 0..3, its counter in bytes 4..11 (R328, R331). -/
def sealIV (ctxid counter : Nat) : Nat := ctxid + counter * 2 ^ 32

/-- The tag of an image or dump under an IV, with the bytes that it covers (R329). -/
def sealed (c : Context) (iv : Nat) (aad body : List Byte) : List Byte × List Byte :=
  match c.prot, c.key with
  | true, some k =>
    let out := Config.sealBody k iv aad body
    ((upTo body.length).map fun i => out.getD i 0, bytesOf 16 (Config.sealTag k iv aad body).toNat)
  | _, _ => (body, (bytesOf 32 (Config.sha3 (aad ++ body)).toNat).take 16)

/-- The bytes of an image (R328, R329): its body is firmware's, and free. -/
def imageBytes (c : Context) (i : Image) : List Byte :=
  let head := imageHead c i.teams.length i.counter i.length
  let aad := head ++ List.replicate 64 0
  let (body, tag) := sealed c (sealIV c.ctxid i.counter) aad ((upTo (i.length - 128)).map (Config.imageByte i.index))
  head ++ bytesOf 4 c.ctxid ++ bytesOf 8 i.counter ++ bytesOf 4 0 ++ tag ++ List.replicate 64 0 ++ body

/-- The length of the image that is taken now: its body's length is firmware's, and below 2^46, since what R326 lists is far less (DEDUCED, log 12). -/
def State.imageLength (s : State) : Nat × State :=
  let (n, s1) := s.anyNat (2 ^ 46)
  (128 + n, s1)

/-- The packets of a device's queues and its launches move out with it (R266). -/
def State.moveOut (s : State) (part vdev : Nat) : State :=
  let s1 := (s.quadsOf part).foldl (fun s q => s.modQuad q fun z =>
    { z with queues := Store.mapVals z.queues fun _ w => if w.owner = vdev then { w with packets := [] } else w }) s
  s1.modDisp part fun d => { d with launches := d.launches.filter fun e => e.2.vdev != vdev }

/-- The shape of a descriptor (R360): member count, NCORE0 to NCORE3, RH, RW and NQUEUE. -/
def State.shapeOf (s : State) (d : List Byte) : List Nat := (s.quadsOf (descPart d)).length :: (upTo 4).map (descCores d) ++ [descRh d, descRw d, field d 25 1]

/-- An image of a device as it stands, with a save counter and a length. -/
def State.imageOf (s : State) (part vdev : Nat) (v : Vdev) (length : Nat) (epoch : Option Nat) : Image :=
  { counter := v.ctx.saves, index := s.sched.free, length := length, teams := v.saved.teams, s1root := v.tab.s1root, epoch := epoch
    shape := s.shapeOf v.desc
    launches := (s.part part).disp.launches.filter fun e => e.2.vdev == vdev
    packets := (s.quadsOf part).flatMap fun q => ((s.quad q).queues.filter fun w => w.2.owner == vdev && !w.2.packets.isEmpty).map fun w => (q, w.1, w.2.packets) }

/-- A device that stopped continues in place (R327): a rewound group runs its recipe, a group stopped whole goes on. -/
def State.continueInPlace (s : State) (vdev : Nat) : State :=
  let s1 := (s.groupsOfVdev vdev).foldl (fun s kv =>
    let clk := (s.core (coreOf kv.1)).clk
    match kv.2.stops.saving with
    | none => s
    | some .rewound => s.setGroup kv.1 { s.packGroup kv.2 with time := { kv.2.time with board := [], nextClk := clk, guarded := false } }
    | some .whole => s.modStops kv.1 fun x => { x with saving := none }) s
  let s2 := (s1.teamsOf vdev).foldl (fun s t => s.modSync t.1 fun y => { y with runOnFrom := none }) s1
  s2.modVdev vdev fun v => { v with saved := { v.saved with phase := .running }, ctx := { v.ctx with sliceFrom := s.mod.tick } }

/-- The image of a device is taken (R326, R327): the counter rises, stamp slots close, the teams leave, and the device is not resident. -/
def State.takeImage (s : State) (part vdev : Nat) : State :=
  let s1 := (s.teamsOf vdev).foldl (fun s t => s.closeTeamStamps t.1) s
  let s2 := (s1.packVdev vdev).leave part vdev
  s2.modCtx vdev fun c => { c with saves := c.saves + 1 }

/-- SAVE_IMAGE_TAKEN (R325 to R327, R354, R356). -/
def execSaveImageTaken (vdev : Nat) (s : State) : Host.Outcome State Fault Refusal :=
  match Store.find s.vdevs vdev with
  | none => .next s
  | some v => match v.saved.phase with
    | .stopping cause =>
      if !s.drained vdev then .next s
      else
        let part := descPart v.desc
        let s0 := s.settleMemory vdev
        match (s0.teamsOf vdev).find? fun t => t.2.sync.ownershipEvent with
        | some t => .next (s0.ownershipFault t.1)
        | none => match cause with
          | .slice => .next ((s0.takeImage part vdev).modVdev vdev fun v => { v with saved := { v.saved with phase := .running } })
          | .epoch =>
            let (n, s1) := s0.imageLength
            let s2 := s1.takeImage part vdev
            let img := ((Store.find s2.vdevs vdev).map fun v => s2.imageOf part vdev v n (some v.ckpt.epoch))
            .next (s2.modVdev vdev fun v => { v with saved := { v.saved with phase := .saved, image := img }, ckpt := { v.ckpt with closing := true } })
          | .migrate _ =>
            let (n, s1) := s0.imageLength
            let s2 := s1.takeImage part vdev
            let img := ((Store.find s2.vdevs vdev).map fun v => s2.imageOf part vdev v n none)
            let s3 := (s2.moveOut part vdev).dropTranslations fun t => t.vdev == vdev
            .next (s3.modVdev vdev fun v => { v with saved := { v.saved with phase := .saved, image := img }, mig := { v.mig with phase := 2 } })
          | .save m buf len =>
            let (n, s1) := s0.imageLength
            if len < n || !s1.hostRange buf (max n 1) then .next ((s1.continueInPlace vdev).endCommand (.mailbox m) 1 0 (bytesOf 8 n ++ bytesOf 8 0))
            else
              let s2 := s1.takeImage part vdev
              match Store.find s2.vdevs vdev with
              | none => .next s2
              | some w =>
                let img := s2.imageOf part vdev w n none
                let s3 := ((s2.moveOut part vdev).coherentWrite (s2.quadsOf part) buf (imageBytes w.ctx img)).modVdev vdev fun v =>
                  { v with saved := { phase := .saved, teams := [], image := some img } }
                .next (s3.endCommand (.mailbox m) 0 0 (bytesOf 8 n ++ bytesOf 8 w.ctx.saves))
    | _ => .next s

/-! ### SAVE and RESTORE (R327, R330, R406, R408) -/

/-- The status with which a save command of a device cannot start (R406, R413). -/
def Vdev.cannotSave (v : Vdev) : Option Nat := match v.saved.phase with
  | .saved => if v.ckpt.closing || v.mig.phase != 0 then some 2 else some 3
  | .stopping _ => some 2
  | .running => none

/-- SAVE (R327, R408): the device stops as at a slice end. -/
def execSave (src : CommandSource) (s : State) : Host.Outcome State Fault Refusal :=
  s.runCommand src 0x04 0 fun c s =>
    let vdev := c.get 0 1
    let buf := c.get 8 8
    let len := c.get 16 8
    match src, Store.find s.vdevs vdev with
    | .mailbox m, some v =>
      if buf % 4096 ≠ 0 ∨ !s.hostRange buf (max len 1) then .refused 1 0
      else match v.cannotSave with
        | some st => .refused st 0
        | none => .going (s.startSave vdev (.save m buf len))
    | _, _ => .refused 1 0

/-- Whether a partition offers the shape of a descriptor (R348, R360): available cores, whoever holds them. -/
def State.shapeOffered (s : State) (part : Nat) (d : List Byte) : Bool :=
  let qs := s.quadsOf part
  ((upTo qs.length).zip qs).all fun iq =>
    let up := ((upTo 48).map (48 * iq.2 + ·)).filter fun c => s.coreUp c
    decide (descCores d iq.1 ≤ up.length) && holdsRectangle iq.2 d up

/-- The reason for which an image is refused (R330). -/
def State.imageRefusal (s : State) (v : Vdev) (b : List Byte) : Option Nat :=
  let aad := b.take 32 ++ (b.drop 64).take 64
  let body := b.drop 128
  let counter := field b 16 8
  let clear := (upTo body.length).map fun i => Config.imageByte ((v.saved.image.map (·.index)).getD 0) i
  if b.length < 128 ∨ field b 0 4 ≠ 0x4956534B ∨ field b 4 1 ≠ 1 ∨ bits (field b 4 4) 31 9 ≠ 0 ∨ field b 24 8 ≠ b.length ∨ !zeros b 44 4 ∨ !zeros b 64 64 then some 5
  else if field b 8 4 ≠ v.ctx.ctxid ∨ bits (field b 4 4) 8 8 ≠ v.ctx.protBit then some 6
  else if counter < v.ctx.saves then some 1
  else if v.ctx.saves < counter then some 2
  else
    let (out, tag) := sealed v.ctx (field b 32 12) aad (if v.ctx.prot then clear else body)
    if (b.drop 48).take 16 ≠ tag ∨ out ≠ body then some 3
    else match v.saved.image with
      | none => some 5
      | some i => if i.counter ≠ counter ∨ i.length ≠ b.length ∨ clear ≠ (if v.ctx.prot then clear else body) then some 5
        else if !s.shapeOffered (descPart v.desc) v.desc then some 4 else none

/-- Launch-table entries of an image take free places of the table, with new acceptance numbers in their order (R273); the teams of the image follow
them. -/
def State.moveInLaunches (s : State) (part vdev : Nat) (ls : List (Nat × LaunchEntry)) : State :=
  let ls := sortBy (fun (e : Nat × LaunchEntry) => [Int.ofNat e.2.order]) ls
  let base := (s.part part).disp.acceptOrder
  let placed := ls.zip ((upTo 256).filter fun i => !Store.has (s.part part).disp.launches i)
  let now (order : Nat) : Option Nat :=
    let k := ls.findIdx fun e => e.2.order == order
    if k < ls.length then some (base + k) else none
  let place (old : Nat) : Nat := ((placed.find? fun x => x.1.1 == old).map (·.2)).getD old
  let s1 := s.modDisp part fun d =>
    { d with
      launches := placed.foldl (fun m x => Store.put m x.2 { x.1.2 with vdev := vdev, order := (now x.1.2.order).getD 0, prev := x.1.2.prev.bind now }) d.launches
      acceptOrder := base + ls.length }
  let s2 := ls.foldl (fun s e => s.modQueue e.2.quad e.2.queue fun w => { w with last := now e.2.order }) s1
  s2.modVdev vdev fun v => { v with saved := { v.saved with teams := v.saved.teams.map fun t =>
    { t with team := { t.team with id := { t.team.id with launch := place t.team.id.launch, part := part, vdev := vdev } } } } }

/-- The packets of an image return to a queue (R266): they come before those that have entered it since, and none twice. What then finds no room is
discarded and counted, as at a port (DESIGN CHOICE, log 28). -/
def LaunchQueue.moveIn (w : LaunchQueue) (ps : List Packet) : LaunchQueue :=
  let all := ps ++ w.packets.filter fun p => !ps.contains p
  { w with packets := all.take 32, drops := min (w.drops + (all.length - 32)) 65535 }

/-- What an accepted image gives back (R266, R330): the teams become candidates, the launches and the packets return to their places. -/
def State.moveIn (s : State) (part vdev : Nat) (i : Image) : State :=
  let s0 := s.modDisp part fun d => { d with launches := d.launches.filter fun e => e.2.vdev != vdev }
  let s1 := s0.modVdev vdev fun v =>
    { v with tab := { v.tab with s1root := i.s1root }, saved := { v.saved with phase := .running, teams := i.teams.map fun t => { t with restoredAt := 0 } } }
  let s2 := i.packets.foldl (fun s x => s.modQueue x.1 x.2.1 fun w => w.moveIn x.2.2) s1
  (s2.moveInLaunches part vdev i.launches).modDisp part fun d => { d with decide := true }

/-- Whether the launch table of a partition has room for the launches of an image of a device. -/
def State.launchRoom (s : State) (part vdev : Nat) (i : Image) : Bool :=
  decide (((s.part part).disp.launches.filter fun e => e.2.vdev != vdev).length + i.launches.length ≤ 256)

/-- The records of a checkpoint's pages that an epoch's image rests on: for each page its last copy (R354), written back to the page's frame. -/
def State.writePages (s : State) (part vdev : Nat) (v : Vdev) (epoch : Nat) : State :=
  (v.ckpt.records.filter fun r => decide (r.epoch ≤ epoch)).foldl (fun s r =>
    let (s1, page) := s.guestRead part vdev (v.ckpt.region + r.offset + 16) 4096
    let (s2, home) := s1.guestPage part vdev r.page
    match page, home with
    | .ok b, .ok a => s2.coherentWrite (s2.quadsOf part) a b
    | _, _ => s2) s

/-- RESTORE (R330, R355, R406, R413). -/
def execRestore (src : CommandSource) (s : State) : Host.Outcome State Fault Refusal :=
  s.runCommand src 0x05 0 fun c s =>
    let vdev := c.get 0 1
    let addr := c.get 8 8
    let len := c.get 16 8
    match Store.find s.vdevs vdev with
    | none => .refused 1 0
    | some v =>
      let part := descPart v.desc
      if v.lost then .refused 3 0
      else if s.isResident vdev v then (match v.saved.phase with
        | .stopping _ => .refused 2 0
        | _ => .refused 3 0)
      else if v.cannotSave = some 2 then .refused 2 0
      else match s.commandRead src addr (max len 1) with
        | (_, none) => .refused 1 0
        | (s, some b) => match s.imageRefusal v (b.take len) with
          | some r => .refused 1 r
          | none => match v.saved.image with
            | none => .refused 1 5
            | some i =>
              if !s.launchRoom part vdev i then .refused 2 0
              else
                let s1 := match i.epoch with
                  | some e => s.writePages part vdev v e
                  | none => s
                .done (s1.moveIn part vdev i) []

/-! ### Halts (R311) -/

/-- HALT_RELEASE (R311, R331): the device goes on; each launch of it that a fatal fault stopped is aborted now, with its own first fault (R42). -/
def execHaltRelease (vdev : Nat) (s : State) : Host.Outcome State Fault Refusal :=
  match Store.find s.vdevs vdev with
  | none => .next s
  | some v =>
    if !v.ctx.halted then .next s
    else
      let s1 := s.modCtx vdev fun c => { c with halted := false, haltFault := none }
      .next ((s.faultedLaunches (descPart v.desc) vdev).foldl (fun s e => s.abortLaunch (descPart v.desc) e.1 e.2) s1)

end Sys2Proof.Machine
end

