-- ==== Sys2Proof/Machine/Vdev.lean ====
section
/-! DEFINITION. Firmware commands on virtual devices, partitions, tables, launches and the logs (R205 to R209, R264, R287, R315, R317, R318,
R337, R341 to R349, R407, R408), and the carve of a core. -/

namespace Sys2Proof.Machine

/-! ### Frames (R342, R343) -/

/-- Write back and drop the cached lines that satisfy a test, of every quadrant (R200, R343). -/
def State.flushLines (s : State) (p : Nat → Nat → LlcLine → Bool) : State :=
  s.quads.foldl (fun s q => ((q.2.llc.lines.filter fun l => p q.1 l.1 l.2).foldl (fun s l => s.dropLine q.1 l.1 0) s)) s

/-- The writes that wait for lines of some frames are applied, as far as they can be. -/
def State.applyInside (s : State) (inside : Nat → Bool) : Nat → State
  | 0 => s
  | n + 1 => match (s.mod.heldWrites.filter fun h => inside h.addr).findSome? s.applyHeld with
    | some s1 => s1.applyInside inside n
    | none => s

/-- Firmware takes some frames from their owner (R343): what is on its way to them is performed; every stash line filled from them is recalled, their
cached sectors are written back and dropped, translations and remote entries to them go, and they are zeroed when they pass to a new device. A store
that still waits meets the new owner, and its team takes an OWNERSHIP event (R214, R344). -/
def State.clearFrames (s : State) (sel : Nat → Bool) (zero : Bool) : State :=
  let inside (a : Nat) : Bool := isDeviceMemory a && sel (frameOf a)
  let s1 := (s.cores.filter fun c => c.2.mem.path.any fun p => inside p.addr).foldl (fun s c => s.drainPath c.1 none) s
  let s2 := s1.applyInside inside s1.mod.heldWrites.length
  let hold := s2.teams.flatMap fun kv => (kv.2.mem.lines.filter fun l => inside l.2.phys).map fun l => (kv.1, l.1)
  let s3 := hold.foldl (fun s h => s.recallLine h.1 h.2) s2
  let backs := s3.mod.heldWrites.filter fun h => h.back && inside h.addr
  let s4 : State := { s3 with mem := backs.foldl (fun m h => memWrites m h.addr h.data) s3.mem }
  let s5 := (s4.flushLines fun _ a _ => inside a).dropTranslations fun t => (upTo t.span).any fun k => inside ((t.phys + k) * 4096)
  let left := s5.cores.flatMap fun c => c.2.mem.path.filter fun p => inside p.addr
  let s6 := left.foldl (fun s p => s.modSync p.tid fun y => { y with ownershipEvent := true, ownershipLine := lineOf p.addr }) s5
  let clean (m : CoreMem) : CoreMem := { m with l1 := m.l1.filter (fun l => !inside l.1), path := m.path.filter fun p => !inside p.addr }
  let stays (f : Fabric) (a : Nat) : Bool := !inside a || f.departed.contains (frameOf a)
  { s6 with
    mem := if zero then s6.mem.filter (fun c => !inside c.1) else s6.mem
    cores := Store.mapVals s6.cores fun _ c => { c with mem := clean c.mem }
    parts := Store.mapVals s6.parts fun _ p => { p with fab := { p.fab with
      remote := p.fab.remote.filter fun r => match s6.endpointPart r.endpoint with
        | some q => stays (s6.part q).fab (fabricHome (r.frame * 65536))
        | none => true
      exports := p.fab.exports.filter fun e => stays p.fab (e.1 * 65536) } }
    mod := { s6.mod with
      heldWrites := s6.mod.heldWrites.filter fun h => !inside h.addr
      frames := { s6.mod.frames with bad := if zero then s6.mod.frames.bad.filter (fun k => !sel (k / 1024)) else s6.mod.frames.bad } } }

/-- Some frames are owned by nobody any more (R342, R343). -/
def State.releaseFrames (s : State) (sel : Nat → Bool) (zero : Bool) : State :=
  (s.clearFrames sel zero).modMod fun m => { m with frames := { m.frames with owner := m.frames.owner.filter fun f => !sel f.1 } }

/-- The frames of a device are zeroed and freed (R349). -/
def State.freeFrames (s : State) (vdev : Nat) : State := s.releaseFrames (fun f => Store.get 255 s.mod.frames.owner f == vdev) true

/-- A frame passes to an owner (R343): to a device zeroed; what a device that has left did with it, and the exports of it, are forgotten. -/
def State.passFrame (s : State) (frame owner : Nat) : State :=
  let s1 : State := { s with parts := Store.mapVals s.parts fun _ p => { p with fab := { p.fab with
    departed := p.fab.departed.filter (· != frame), exports := p.fab.exports.filter fun e => e.1 != frame } } }
  (s1.clearFrames (· == frame) (owner != 0)).modMod fun m => { m with frames := { m.frames with owner := Store.put m.frames.owner frame owner } }

/-- A device receives frames (R343): which ones, firmware chooses among the free frames of its partition, so that each is a free value. -/
def State.assignFrames (s : State) (part owner : Nat) : Nat → State
  | 0 => s
  | n + 1 =>
    let (f, s1) := s.anyNat (2 ^ 26)
    let ok := isDeviceMemory (f * 65536) && s1.ownerOf (f * 65536) == 255 && !s1.mod.frames.retired.contains f &&
      (match homeQuad (s1.part part).regs.members (f * 65536) with
       | some q => (s1.part part).regs.members.contains q
       | none => false)
    (if ok then s1.passFrame f owner else s1).assignFrames part owner n

/-- What firmware stores in its own frames, among them the second-stage tables, which the hypervisor changes through it (R333, R344): how many words,
where and which, is free (DESIGN CHOICE, log 23). The dirty bitmaps change by R339 and R340 alone. -/
def State.firmwareStores (s : State) (part : Nat) : Nat → State
  | 0 => s
  | n + 1 =>
    let (k, s1) := s.anyNat (2 ^ 39)
    let (w, s2) := s1.anyNat (2 ^ 64)
    let a := 8 * k
    let bitmap := s2.vdevs.any fun v => decide (v.2.tab.dirtyBase ≤ a + 7) && decide (a < v.2.tab.dirtyBase + v.2.tab.dirtyLen)
    let ok := isDeviceMemory a && s2.ownerOf a == 0 && !bitmap
    (if ok then s2.coherentWrite (s2.quadsOf part) a (bytesOf 8 w) else s2).firmwareStores part n

/-- Firmware changes second-stage tables (R333). -/
def State.tableStores (s : State) (part : Nat) : State :=
  let (n, s1) := s.anyNat (2 ^ 18)
  s1.firmwareStores part n

/-- Firmware installs a second stage for a device (R333, R356): its root is a table in a frame of firmware. -/
def State.installTables (s : State) (part vdev : Nat) : State :=
  let (r, s1) := s.anyNat (2 ^ 40)
  (s1.tableStores part).modVdev vdev fun v => { v with tab := { v.tab with s2root := some (4096 * r) } }

/-- The second-stage leaves whose page holds some of a frame that is to be retired are replaced by firmware's choice of entries, each of which is free
(R333, DESIGN CHOICE, log 23). -/
def State.remapFrame (s : State) (frame : Nat) : State :=
  let holds (l : Nat × Nat × Nat) : Bool :=
    let base := entryAddr (s.readEntry l.1)
    decide (base < (frame + 1) * 65536) && decide (frame * 65536 < base + pageSize l.2.1)
  s.vdevs.foldl (fun s kv => ((s.deviceLeaves kv.2).filter holds).foldl (fun s l =>
    let (w, s1) := s.anyNat (2 ^ 64)
    s1.coherentWrite (s1.quadsOf (descPart kv.2.desc)) l.1 (bytesOf 8 w)) s) s

/-! ### CREATE_VDEV (R348) -/

/-- CTXCTL of the basic level (R312). -/
def defaultCtl : Nat := 100000 * 2 ^ 32 + 40 * 2 ^ 20 + 20 * 2 ^ 10

/-- Whether a VCARVE is valid under a CARVELIM (R207). -/
def carveOk (v lim : BitVec 32) : Bool :=
  let st := carveStash v; let ln := carveLane v
  v.extractLsb' 12 20 == 0 && decide (st ≤ (lim.extractLsb' 0 6).toNat) && decide (ln ≤ (lim.extractLsb' 6 6).toNat) &&
  decide (st + ln + (lim.extractLsb' 12 6).toNat ≤ 32)

/-- Whether the fields of a descriptor hold values of their ranges (R312, R348). -/
def State.descriptorOk (s : State) (d : List Byte) : Bool :=
  let part := descPart d
  let ctl := field d 4 8
  let qs := s.quadsOf part
  let nq := field d 25 1
  decide (1 ≤ field d 0 1) && decide (field d 0 1 ≤ 64) && Store.has s.parts part && zeros d 2 2 && bits ctl 63 59 == 0 && bits ctl 9 3 == 0 &&
  bits ctl 58 32 != 0 && bits ctl 19 10 != 0 && field d 15 1 == 0 && carveOk (BitVec.ofNat 32 (field d 16 4)) (s.part part).regs.carvelim &&
  ((upTo 4).all fun i => if i < qs.length then decide (1 ≤ descCores d i) && decide (descCores d i ≤ 48) else descCores d i == 0) &&
  bits (field d 24 1) 7 5 == 0 && decide (descRw d ≤ 5) && decide (1 ≤ nq) && decide (nq ≤ 64) && zeros d 26 6 &&
  bits (field d 32 8) 63 56 == 0 && field d 32 8 % 4096 == 0 && bits (field d 40 8) 63 56 == 0 && field d 40 8 % 4096 == 0 &&
  field d 48 4 % 4096 == 0 && zeros d 52 12

/-- The free launch queues of a quadrant. -/
def State.freeQueues (s : State) (q : Nat) : List Nat := (upTo 64).filter fun n => (s.queue q n).owner == 255

/-- Whether a partition can take a device of a descriptor (R348). -/
def State.canHold (s : State) (d : List Byte) : Bool :=
  let part := descPart d
  let qs := s.quadsOf part
  decide ((s.vdevs.filter fun kv => descPart kv.2.desc == part).length < 16) && s.shapeOffered part d &&
  ((upTo qs.length).all fun i => decide ((descRh d + 1) * (descRw d + 1) ≤ descCores d i)) &&
  qs.all fun q => decide (field d 25 1 ≤ (s.freeQueues q).length)

/-- Firmware gives a device n launch queues of a quadrant: which ones, it chooses. -/
def State.giveQueues (s : State) (q vdev : Nat) : Nat → State
  | 0 => s
  | n + 1 =>
    let free := s.freeQueues q
    let (i, s1) := s.anyNat free.length
    (s1.modQueue q (free.getD i 0) fun w => { w with owner := vdev }).giveQueues q vdev n

/-- Firmware zeroes the dirty bitmap of a device (R333). -/
def State.zeroBitmap (s : State) (t : VdevTables) : State :=
  let base := t.dirtyBase % 2 ^ 52
  let inside (a : Nat) : Bool := decide (base ≤ a) && decide (a < base + t.dirtyLen)
  { s with
    mem := s.mem.filter fun c => !inside c.1
    mod := { s.mod with frames := { s.mod.frames with bad := s.mod.frames.bad.filter fun k => !inside (64 * k) } } }

/-- Enter a device in the table, with its queues, quota and frames, and its counters and its dirty bitmap zeroed (R205, R333, R348, R388). MIGRATE_IN
enters a device as CREATE_VDEV does, its quota, counters and bitmap too (DESIGN CHOICE, log 46). -/
def State.enterVdev (s : State) (d : List Byte) (v : Vdev) : State :=
  let vdev := field d 0 1
  let part := descPart d
  let s1 := (s.quadsOf part).foldl (fun s q => s.giveQueues q vdev (field d 25 1)) s
  let s2 := (s1.quadsOf part).foldl (fun s q => s.modQuad q fun z =>
    { z with
      llc := { z.llc with quota := Store.put z.llc.quota vdev (field d 12 3) }
      counters := z.counters.filter fun c => c.1 / 2048 != vdev }) s1
  let (n, s3) := s2.anyNat (2 ^ 18)
  let (m, s4) := s3.anyNat (2 ^ 18)
  let s5 := (s4.assignFrames part vdev n).assignFrames part 0 m
  { s5.zeroBitmap v.tab with vdevs := Store.put s5.vdevs vdev v }

/-- CREATE_VDEV (R312, R348, R413). -/
def execCreateVdev (src : CommandSource) (s : State) : Host.Outcome State Fault Refusal :=
  s.runCommand src 0x01 0 fun c s =>
    let given := c.bytes 0 64
    let d := if c.expert then given else given.take 4 ++ bytesOf 8 defaultCtl ++ given.drop 12
    let vdev := field d 0 1
    let ctl := BitVec.ofNat 64 (field d 4 8)
    if Store.has s.vdevs vdev || !s.descriptorOk d || !s.canHold d then .refused 1 0
    else if ctl.getLsbD 2 && s.mod.ident.security == .manufacturing then .refused 3 0
    else
      let id := s.mod.ident.ctxNext
      let (k, s1) := s.anyNat (2 ^ 256)
      let ctx : Context := { ctl := ctl, ctxid := id, key := if ctl.getLsbD 2 then some (Config.freshKey k) else none }
      let v : Vdev := { desc := d, ctx := ctx, faults := { base := field d 32 8 }, tab := { dirtyBase := field d 40 8, dirtyLen := field d 48 4 },
                        vcarve := BitVec.ofNat 32 (field d 16 4) }
      .done ((s1.modIdent fun i => { i with ctxNext := id + 1 }).enterVdev d v) (bytesOf 4 id ++ bytesOf 4 0)

/-! ### DESTROY_VDEV (R349) -/

/-- The packets of a device: those of its launches, and those that still wait in its queues (R349). -/
def State.packetsOf (s : State) (part vdev : Nat) (v : Vdev) : List (List Byte) :=
  let tabled := ((s.part part).disp.launches.filter fun e => e.2.vdev == vdev).map (·.2.packet)
  let queued := (s.quadsOf part).flatMap fun q => ((s.quad q).queues.filter fun w => w.2.owner == vdev).flatMap fun w =>
    (if s.headTabled part q w.1 then w.2.packets.drop 1 else w.2.packets).map (·.bytes)
  let saved := match v.saved.phase, v.saved.image with
    | .saved, some i => if v.ckpt.closing then [] else i.launches.map (·.2.packet) ++ i.packets.flatMap fun x =>
      (if i.launches.any fun e => e.2.queued && e.2.quad == x.1 && e.2.queue == x.2.1 then x.2.2.drop 1 else x.2.2).map (·.bytes)
    | _, _ => []
  tabled ++ queued ++ saved

/-- The teams of a device end, with everything that they had outstanding: they stop as under R42, their stores are performed, and bound windows are
written back before the stash is free (R215). -/
def State.endTeams (s : State) (vdev : Nat) : State :=
  (s.teamsOf vdev).foldl (fun s t =>
    let core := t.1 / 16
    let s1 := (((s.abortTeam t.1).drainPath core none).writeBackTeam t.1).modCore core fun k => { k with
      copies := k.copies.filter fun c => c.tid != t.1
      stamps := k.stamps.filter fun x => x.2.tid != t.1 }
    let s2 := s1.modQuad (quadOfCore core) fun z => { z with colls := z.colls.filter fun c => c.tid != t.1 }
    let s3 := s2.unplace t.1
    { s3 with clusters := Store.erase s3.clusters (clusterKey t.2.id) }) s

/-- A device leaves the table: its launches end with a status when one is given, its queues are free, its frames are zeroed and free. A core that it
occupied last switches devices at its next team, whatever the number of that team's device (R169, R208). -/
def State.removeVdev (s : State) (vdev : Nat) (status : Option Nat) : State :=
  match Store.find s.vdevs vdev with
  | none => s
  | some v =>
    let part := descPart v.desc
    let s1 := s.endTeams vdev
    let s2 : State := match status with
      | some st => (s1.packetsOf part vdev v).foldl (fun s p => s.writeCompletion part vdev p st 0 none) s1
      | none => s1
    let s2' := s2.modPart part fun p => { p with locks := p.locks.filter fun l => l.vdev != vdev }
    let s2'' := (s2'.flushLines fun _ _ l => l.owner == vdev).dropTranslations fun t => t.vdev == vdev
    let s3 := ((s2''.moveOut part vdev).leave part vdev).freeFrames vdev
    let s4 := (s3.quadsOf part).foldl (fun s q => s.modQuad q fun z =>
      { z with
        queues := Store.mapVals z.queues fun _ w => if w.owner = vdev then { w with owner := 255, packets := [], last := none } else w
        waiting := z.waiting.filter fun w => (Store.get {} z.queues w.1).owner != vdev }) s3
    let s5 := s4.modPart part fun p =>
      { p with
        fab := { p.fab with remote := p.fab.remote.filter fun r => r.vdev != vdev, comms := p.fab.comms.filter fun c => c.2.vdev != vdev, forwarding := p.fab.forwarding.filter fun f => status.isNone || f.2.vdev != vdev }
        replicas := p.replicas.filter fun r => r.2.vdev != vdev }
    { s5 with
      parts := Store.mapVals s5.parts fun _ p => { p with fab := { p.fab with exports := p.fab.exports.filter fun e => e.2.1 != vdev } }
      vdevs := Store.erase s5.vdevs vdev
      cores := Store.mapVals s5.cores fun _ c => if c.vdev = vdev then { c with vdev := 0 } else c }

/-- DESTROY_VDEV (R349). -/
def execDestroyVdev (src : CommandSource) (s : State) : Host.Outcome State Fault Refusal :=
  s.runCommand src 0x02 0 fun c s => .done (s.removeVdev (c.get 0 1) (some 6)) []

/-! ### LAUNCH (R408) -/

/-- LAUNCH_COMMAND (R286, R400, R408): one that a group repeats after a rewind does not submit its packet again. -/
def execLaunchCommand (src : CommandSource) (s : State) : Host.Outcome State Fault Refusal :=
  s.runCommand src 0x03 0 fun c s =>
    let p := c.bytes 0 128
    let n := c.get 128 1
    let q := c.get 129 1
    let owner := (s.queue q n).owner
    let foreign : Bool := match src with
      | .guest gid => (s.callerOf gid).map (·.vdev) != some owner
      | .mailbox _ => false
    if 64 ≤ n ∨ 4 ≤ q ∨ (!c.expert ∧ pkHmode p ≠ 0) then .refused 1 0
    else if foreign ∨ owner = 255 then .refused 1 0
    else if (s.repeated c).isSome then .done (s.noteService c []) []
    else if 32 ≤ (s.queue q n).packets.length + ((s.quad q).waiting.filter fun w => w.1 == n).length then .refused 2 0
    else .done ((s.postPacket q n p).noteService c []) []

/-! ### CARVE (R207, R208) -/

/-- The presets of the basic level (R407). -/
def carvePreset (n : Nat) : Option (BitVec 32) := match n with
  | 0 => some (8 <<< 6 ||| 16)
  | 1 => some (4 <<< 6 ||| 24)
  | 2 => some (16 <<< 6 ||| 8)
  | _ => none

/-- Whether CARVELIM holds values of its ranges (R207). -/
def carvelimOk (l : BitVec 32) : Bool :=
  l.extractLsb' 18 14 == 0 && decide ((l.extractLsb' 0 6).toNat ≤ 30) && decide ((l.extractLsb' 6 6).toNat ≤ 30) &&
  decide (2 ≤ (l.extractLsb' 12 6).toNat) && decide ((l.extractLsb' 12 6).toNat ≤ 32)

/-- The LLC quota of a device in the quadrants of its partition after an expert CARVE: it is listed with what changes the quota, and has no parameter for
one, so the value is firmware's, and free (R200, R408, DESIGN CHOICE, log 46). -/
def State.requota (s : State) (part vdev : Nat) : State :=
  let (n, s1) := s.anyNat (2 ^ 24)
  (s1.quadsOf part).foldl (fun s q => s.modLlc q fun c => { c with quota := Store.put c.quota vdev n }) s1

/-- CARVE (R207, R407, R408). -/
def execCarve (src : CommandSource) (s : State) : Host.Outcome State Fault Refusal :=
  s.runCommand src 0x0D 0 fun c s =>
    let vdev := c.get 0 1
    match Store.find s.vdevs vdev with
    | none => .refused 1 0
    | some v =>
      let part := descPart v.desc
      if !c.expert then match carvePreset (c.get 1 1) with
        | none => .refused 1 0
        | some w => if carveOk w (s.part part).regs.carvelim then .done (s.modVdev vdev fun v => { v with vcarve := w }) (bytesOf 4 w.toNat) else .refused 1 0
      else
        let w := BitVec.ofNat 32 (c.get 4 4)
        let p := c.get 8 1
        let given := BitVec.ofNat 32 (c.get 12 4)
        let lim := if given = 0 then (s.part p).regs.carvelim else given
        let own := if p = part then lim else (s.part part).regs.carvelim
        let others := given == 0 || s.vdevs.all fun kv => kv.1 == vdev || !Store.has (s.part p).disp.resident kv.1 || carveOk kv.2.vcarve lim
        if isGuest src ∧ given ≠ 0 then .refused 3 0
        else if !Store.has s.parts p || !carvelimOk lim || !carveOk w own || !others then .refused 1 0
        else .done (((s.requota part vdev).modVdev vdev fun v => { v with vcarve := w }).modPart p fun x => { x with regs := { x.regs with carvelim := lim } }) (bytesOf 4 w.toNat ++ bytesOf 4 lim.toNat)

/-- A core holds no team of its device and has another carve than the device (R208). -/
def State.carveStale (s : State) (core : Nat) : Bool :=
  let c := s.core core
  match Store.find s.vdevs c.vdev with
  | none => false
  | some v => (s.teamsOn core).isEmpty && (c.stash != carveStash v.vcarve || c.lane != carveLane v.vcarve)

/-- CARVE_APPLY (R208): the L1 is invalidated at that instant. -/
def execCarveApply (core : Nat) (s : State) : Host.Outcome State Fault Refusal :=
  if !s.carveStale core then .next s
  else
    let w := ((Store.find s.vdevs (s.core core).vdev).map (·.vcarve)).getD 0
    .next ((s.modCore core fun c => { c with stash := carveStash w, lane := carveLane w }).l1Clear core)

/-! ### PARTITION (R347) -/

/-- The partitions of a code. -/
def partitionsOf (code : Nat) : List (List Nat) := match code with
  | 0 => [[0], [1], [2], [3]]
  | 1 => [[0, 1], [2], [3]]
  | 2 => [[0], [1], [2, 3]]
  | 3 => [[0, 1], [2, 3]]
  | _ => [[0, 1, 2, 3]]

/-- Whether PLACECTL holds values that are not reserved (R287). -/
def placectlOk (w : BitVec 32) : Bool := w.extractLsb' 11 21 == 0 && w.extractLsb' 9 2 != 2 && w.extractLsb' 9 2 != 3 && !w.getLsbD 8 && w.extractLsb' 0 8 != 0

/-- A measurement register is extended (R411). -/
def State.extendMr (s : State) (n : Nat) (digest : List Byte) : State :=
  s.modIdent fun i => { i with mr := Store.put i.mr n (Config.sha3 (bytesOf 32 (Store.get 0 i.mr n).toNat ++ digest)) }

/-- The digest of some bytes. -/
def digestOf (b : List Byte) : List Byte := bytesOf 32 (Config.sha3 b).toNat

/-- SETDIGEST of R386: over FV, FT, LBUDCAP, WEARCTL of Q0 to Q3 and BOOSTCTL of each partition, as they are set. -/
def State.setDigest (s : State) : List Byte :=
  let w := s.wear
  digestOf (w.nextFv.map (BitVec.ofNat 8) ++ w.nextFt.map (BitVec.ofNat 8) ++ bytesOf 8 w.lbudcap.toNat ++
    ((upTo 4).flatMap fun q => bytesOf 8 (Store.get (s.quad q).wearctl w.nextWearctl q).toNat) ++
    s.parts.flatMap fun p => bytesOf 4 p.2.regs.boostctl.toNat)
/-- MR3 is extended after a change of what SETDIGEST covers (R411). -/
def State.measureSettings (s : State) : State := s.extendMr 3 s.setDigest

/-- The partitions of a code replace those that it changes, of which firmware flushes the LLC (R200); the endpoint of one that is formed anew is
firmware's (R346, R347). The event log, the sample control and the fabric tables of a partition that is replaced go with it, unread records too
(DESIGN CHOICE, log 46). -/
def State.repartition (s0 : State) (code : Nat) : State :=
  let changed := ((partitionsOf code).filter fun qs => !(s0.parts.any fun p => p.2.regs.members == qs)).flatten
  let s := s0.flushLines fun q _ _ => changed.contains q
  (partitionsOf code).foldl (fun (acc : State) (qs : List Nat) =>
    let n := qs.headD 0
    match Store.find s.parts n with
    | some p => if p.regs.members = qs then { acc with parts := Store.put acc.parts n p }
      else
        let (e, acc1) := acc.anyNat 0x780
        { acc1 with parts := Store.put acc1.parts n (Part.formed qs e) }
    | none =>
      let (e, acc1) := acc.anyNat 0x780
      { acc1 with parts := Store.put acc1.parts n (Part.formed qs e) }) { s with parts := [] }

/-- Whether a quadrant of which the partition would change holds a device. -/
def State.codeBlocked (s : State) (code : Nat) : Bool :=
  (partitionsOf code).any fun qs => !(s.parts.any fun p => p.2.regs.members == qs) && s.vdevs.any fun v => (s.quadsOf (descPart v.2.desc)).any qs.contains

/-- PARTITION (R347, R408). -/
def execPartition (src : CommandSource) (s : State) : Host.Outcome State Fault Refusal :=
  s.runCommand src 0x0C 0 fun c s =>
    let code := c.get 0 1
    let keep := c.expert && code == 0xFF
    let place := BitVec.ofNat 32 (c.get 4 4)
    let p := c.get 1 1
    if !keep ∧ (4 < code ∨ s.codeBlocked code) then .refused 1 0
    else
      let s1 := if keep then s else (s.repartition code).modMod fun m => { m with code := code }
      if c.expert ∧ (!placectlOk place ∨ !Store.has s1.parts p) then .refused 1 0
      else
        let s2 := if c.expert then s1.modPart p fun x => { x with regs := { x.regs with placectl := place } } else s1
        let s3 := s2.extendMr 4 (digestOf [BitVec.ofNat 8 s2.mod.code])
        .done (if s3.parts.map (fun q => q.2.regs.boostctl) = s.parts.map (fun q => q.2.regs.boostctl) then s3 else s3.measureSettings) []

/-! ### RETIRE_PAGE (R343) -/

/-- Whether a lease covers a line of a stash that was filled from a frame: its recall waits (R182, R214, R343). -/
def State.frameLeased (s : State) (frame : Nat) : Bool :=
  s.teams.any fun kv => kv.2.mem.lines.any fun l => isDeviceMemory l.2.phys && frameOf l.2.phys == frame && s.leased kv.1 l.1

/-- Retire a frame: it is no longer owned, and never assigned again; the event log has a record (R219, R315, R343). -/
def State.retireFrame (s : State) (frame : Nat) : State :=
  let a := frame * 65536
  let q := (homeQuad [] a).getD 0
  let owner := s.ownerOf a
  let s1 := (s.remapFrame frame).releaseFrames (· == frame) false
  let s2 := s1.modMod fun m => { m with frames := { m.frames with retired := m.frames.retired ++ [frame] } }
  s2.logEvent (s2.partOfQuad q) { type := 3, quad := q, vdev := if 1 ≤ owner ∧ owner ≤ 64 then owner else 0, paddr := a, time := s2.now }

/-- Firmware retires a frame of which a sector could not be written back; the interrupt names it (R219). -/
def State.condemnedFrame (s : State) : Option State :=
  (s.mod.frames.condemned.find? fun f => !s.frameLeased f).map fun f =>
    let a := f * 65536
    let q := (homeQuad [] a).getD 0
    let owner := s.ownerOf a
    let vdev := if 1 ≤ owner ∧ owner ≤ 64 then owner else 0
    let s1 := s.modMod fun m => { m with frames := { m.frames with condemned := m.frames.condemned.filter (· != f) } }
    let s2 := (s1.count q vdev 0x204 1).logEvent (s1.partOfQuad q) { type := 2, quad := q, vdev := vdev, code := 0x204, paddr := a, time := s1.now }
    if s2.mod.frames.retired.contains f ∨ 65536 ≤ s2.mod.frames.retired.length then s2 else s2.retireFrame f

/-- RETIRE_PAGE (R333, R343, R408): it waits while a lease holds a line of the frame; with a full list of retired frames it ends with STATUS 2
(DESIGN CHOICE, log 23). -/
def execRetirePage (src : CommandSource) (s : State) : Host.Outcome State Fault Refusal :=
  s.runCommand src 0x10 0 fun c s =>
    let a := c.get 0 8
    if a % 65536 ≠ 0 ∨ !isDeviceMemory a ∨ s.mod.frames.retired.contains (a / 65536) then .refused 1 0
    else if 65536 ≤ s.mod.frames.retired.length then .refused 2 0
    else if s.frameLeased (a / 65536) then .going (s.modMod fun m => { m with retiring := m.retiring ++ [(src, a / 65536)] })
    else .done (s.retireFrame (a / 65536)) []

/-- A RETIRE_PAGE that waited for a lease ends, its frame being retired (R343). -/
def State.retireNow (s : State) : Option State :=
  (s.mod.retiring.find? fun x => !s.frameLeased x.2).map fun x =>
    let s1 := s.modMod fun m => { m with retiring := m.retiring.erase x }
    (if s1.mod.frames.retired.contains x.2 ∨ 65536 ≤ s1.mod.frames.retired.length then s1 else s1.retireFrame x.2).endCommand x.1 0 0 []

/-! ### ANSWER (R303, R317, R318, R320) -/

/-- The groups of a device with a team number and a group number; none of a launch that has aborted, for which no answer is accepted (R320). -/
def State.named (s : State) (vdev team group : Nat) : List (Nat × Group) :=
  (s.groupsOfVdev vdev).filter fun kv => kv.2.number == group && (Store.find s.teams kv.2.tid).any fun t => t.id.number == team && !t.sync.aborted

/-- A stop that system software may answer (R317): serviced or a debugger's, with its record entered. -/
def Group.answerable (g : Group) (trapsvc : Bool) : Bool :=
  (match g.stops.stop with
   | some t => kindOf trapsvc t.code != .fatal
   | none => false) && g.stops.pending.all fun r => r.kind == 3

/-- A stopped group goes on at its resume PC (R317); a wait that the stop found goes on with its time (R321). -/
def Group.resumed (g : Group) (clk : Nat) : Group :=
  match g.stops.stop with
  | none => g
  | some t =>
    let y := { g.stops with stop := none }
    { g with
      flow := g.flow.setSlot t.slot { (g.flow.slot t.slot) with pc := t.resume }
      stops := if { g with stops := y }.counts || y.wait == .reacquire then y else { y with waitUs := 0, waitFrom := 0 }
      time := { g.time with nextClk := max g.time.nextClk clk, readySince := clk } }

/-- The stopped groups of a device with a name, resident or in its image. -/
def Vdev.savedNamed (v : Vdev) (team group : Nat) (p : Group → Bool) : Bool :=
  v.saved.teams.any fun t => t.team.id.number == team && t.groups.any fun g => g.number == group && p g

/-- Change the groups with a name in a device's image. -/
def State.modSaved (s : State) (vdev team group : Nat) (f : Group → Group) : State :=
  s.modVdev vdev fun v => { v with saved := { v.saved with teams := v.saved.teams.map fun t =>
    if t.team.id.number = team then { t with groups := t.groups.map fun g => if g.number = group then f g else g } else t } }

/-- ANSWER_RESUME (R317). -/
def execAnswerResume (src : CommandSource) (s : State) : Host.Outcome State Fault Refusal :=
  s.runCommand src 0x12 0 fun c s =>
    let vdev := c.get 0 1; let team := c.get 4 4; let group := c.get 8 1
    match Store.find s.vdevs vdev with
    | none => .refused 1 0
    | some v => match (s.named vdev team group).find? fun kv => kv.2.answerable v.ctx.trapsvc with
      | some kv => .done (s.modGroup kv.1 fun g => g.resumed (s.core (coreOf kv.1)).clk) []
      | none =>
        if v.savedNamed team group (·.answerable v.ctx.trapsvc) then .done (s.modSaved vdev team group fun g => if g.answerable v.ctx.trapsvc then g.resumed 0 else g) []
        else .refused 3 0

/-- The PC and the mask of a group's fault: those of the operation that parked it, else of the slot (R87, R314). -/
def Group.faultPlace (g : Group) (slot : Nat) : VA × Mask :=
  match g.stops.parked with
  | some p => match g.ops.find? fun o => some o.serial == p.serial with
    | some o => (o.pc, o.mask)
    | none => ((g.flow.slot slot).pc, (g.flow.slot slot).mask)
  | none => ((g.flow.slot slot).pc, (g.flow.slot slot).mask)

/-- The summary of a fault of a group by which its launch aborts. -/
def State.summary (s : State) (g : Group) (code : FaultCode) (slot : Nat) : FatalSummary :=
  ⟨code.code, ((Store.find s.teams g.tid).map (·.id.number)).getD 0, g.number, (g.faultPlace slot).1, (g.faultPlace slot).2, s.now, s.mod.tick / 35⟩

/-- The launch of a group aborts (R42). -/
def State.abortOf (s : State) (g : Group) (f : FatalSummary) : State :=
  match Store.find s.teams g.tid with
  | none => s
  | some t => s.abortLaunch t.id.part t.id.launch f

/-- The launch of a saved team aborts (R42): its saved teams go with it. -/
def State.abortSaved (s : State) (vdev : Nat) (t : SavedTeam) (g : Group) (code : FaultCode) (slot : Nat) : State :=
  let s1 := s.modVdev vdev fun v => { v with saved := { v.saved with teams := v.saved.teams.filter fun u => u.team.id.launch != t.team.id.launch } }
  (s1.abortLaunch t.team.id.part t.team.id.launch ⟨code.code, t.team.id.number, g.number, (g.faultPlace slot).1, (g.faultPlace slot).2, s.now, s.mod.tick / 35⟩).modDisp t.team.id.part fun d => { d with decide := true }

/-- A group of a device's image with a name, with its team. -/
def Vdev.findSaved (v : Vdev) (team group : Nat) (p : Group → Bool) : Option (SavedTeam × Group) :=
  (v.saved.teams.filterMap fun t => if t.team.id.number = team then (t.groups.find? fun g => g.number == group && p g).map fun g => (t, g) else none).head?

/-- ANSWER_ABORT (R317): the launch aborts with the stop's code. -/
def execAnswerAbort (src : CommandSource) (s : State) : Host.Outcome State Fault Refusal :=
  s.runCommand src 0x12 1 fun c s =>
    let vdev := c.get 0 1; let team := c.get 4 4; let group := c.get 8 1
    match Store.find s.vdevs vdev with
    | none => .refused 1 0
    | some v => match (s.named vdev team group).find? fun kv => kv.2.answerable v.ctx.trapsvc with
      | some kv => match kv.2.stops.stop with
        | some t => .done (s.abortOf kv.2 (s.summary kv.2 t.code t.slot)) []
        | none => .refused 3 0
      | none => match v.findSaved team group (·.answerable v.ctx.trapsvc) with
        | some (t, g) => match g.stops.stop with
          | some st => .done (s.abortSaved vdev t g st.code st.slot) []
          | none => .refused 3 0
        | none => .refused 3 0

/-- A parked group that has not been answered, and whose record has entered. -/
def Group.isParked (g : Group) : Bool := (g.stops.parked.any fun p => !p.answered) && g.stops.pending.all fun r => r.kind == 3

/-- The replay of a parked group (R318): the unfinished lanes of what it has reported are performed again; a fetch or a precise access is made
again by its instruction. The group is parked until the operations are done (R21), and what it waits for beside the replay it waits for still
(R38). -/
def Group.replayOf (g : Group) (clk : Nat) (sel : LongOp → Bool) : Group :=
  match g.stops.parked with
  | none => g
  | some p =>
    let chosen (o : LongOp) : Bool := o.reported && sel o
    let again := p.replaying ++ (g.ops.filter chosen).map (·.serial)
    let more := g.ops.any fun o => o.reported && !sel o
    let left : Option Parked := if more then some { p with replaying := again } else if again.isEmpty then none else some { p with answered := true, replaying := again }
    { g with
      ops := g.ops.map fun o => if chosen o then { o with failure := none, reported := false, hyper := false, dueClk := clk } else o
      stops := { g.stops with parked := left }
      time := { g.time with nextClk := max g.time.nextClk clk, readySince := clk } }

/-- The replay of all that a parked group has reported. -/
def Group.replayed (g : Group) (clk : Nat) : Group := g.replayOf clk fun _ => true

/-- The suspended copies of a group go on (R303). -/
def State.resumeCopies (s : State) (gid : Nat) : State :=
  s.modCore (coreOf gid) fun k => { k with copies := k.copies.map fun c => if c.gid = gid ∧ c.suspended then { c with suspended := false, recIdx := none } else c }

/-- Whether a copy of a group is suspended. -/
def State.hasSuspended (s : State) (gid : Nat) : Bool := (s.core (coreOf gid)).copies.any fun c => c.gid == gid && c.suspended

/-- ANSWER_REPLAY (R303, R318). -/
def execAnswerReplay (src : CommandSource) (s : State) : Host.Outcome State Fault Refusal :=
  s.runCommand src 0x12 2 fun c s =>
    let vdev := c.get 0 1; let team := c.get 4 4; let group := c.get 8 1
    match Store.find s.vdevs vdev with
    | none => .refused 1 0
    | some v => match (s.named vdev team group).find? fun kv => kv.2.isParked || s.hasSuspended kv.1 with
      | some kv => .done ((s.modGroup kv.1 fun g => if g.isParked then g.replayed (s.core (coreOf kv.1)).clk else g).resumeCopies kv.1) []
      | none => if v.savedNamed team group (·.isParked) then .done (s.modSaved vdev team group fun g => if g.isParked then g.replayed 0 else g) [] else .refused 3 0

/-- The suspended copies of a group complete with PAGE_FAULT (R303). -/
def State.declineCopies (s : State) (gid : Nat) : State :=
  ((s.core (coreOf gid)).copies.filter fun c => c.gid == gid && c.suspended).foldl (fun s c => s.endCopy (coreOf gid) c (some .pageFault) c.failAddr) s

/-- ANSWER_DECLINE (R303, R318): the launch of a parked group aborts with code 0x05. -/
def execAnswerDecline (src : CommandSource) (s : State) : Host.Outcome State Fault Refusal :=
  s.runCommand src 0x12 3 fun c s =>
    let vdev := c.get 0 1; let team := c.get 4 4; let group := c.get 8 1
    match Store.find s.vdevs vdev with
    | none => .refused 1 0
    | some v => match (s.named vdev team group).find? fun kv => kv.2.isParked || s.hasSuspended kv.1 with
      | some kv => match kv.2.isParked, kv.2.stops.parked with
        | true, some p => .done (s.abortOf kv.2 (s.summary kv.2 .pageFault p.slot)) []
        | _, _ => .done (s.declineCopies kv.1) []
      | none => match v.findSaved team group (·.isParked) with
        | some (t, g) => .done (s.abortSaved vdev t g .pageFault ((g.stops.parked.map (·.slot)).getD 0)) []
        | none => .refused 3 0

/-! ### TABLES (R333, R337, R341, R344, R411) -/

/-- The translations that an invalidation covers drop (R337, R401): 0 every one of a device; 1 those of a first-stage page; 2 those of a second-stage
page; 3 the remote entries of an endpoint. An entry is covered when the address lies in its page. -/
def State.invalidate (s : State) (part vdev kind addr : Nat) : State :=
  let covers (first span : Nat) : Bool := decide (first ≤ addr / 4096) && decide (addr / 4096 < first + span)
  match kind with
  | 0 => s.dropTranslations fun t => t.vdev == vdev
  | 1 => s.dropTranslations fun t => t.vdev == vdev && covers t.page t.span
  | 2 => s.dropTranslations fun t => t.vdev == vdev && covers t.gpa t.span
  | _ => s.modFab part fun f => { f with remote := f.remote.filter fun r => r.endpoint != addr % 2048 }

/-- An invalidation, with what had been translated for its device performed (R337); some of it may have to wait. -/
def State.invalidated (s : State) (part vdev kind addr : Nat) : State :=
  if kind = 3 then s.invalidate part vdev kind addr else (s.invalidate part vdev kind addr).settleVdev vdev

/-- An invalidation command that waited ends, what its device had translated being performed (R337). -/
def State.drainEnds (s : State) : Option State :=
  s.mod.drains.findSome? fun d =>
    let s1 := s.settleVdev d.2
    if s1.unsettled d.2 then none else some ((s1.modMod fun m => { m with drains := m.drains.erase d }).endCommand d.1 0 0 [])

/-- TABLES_SET_S1ROOT (R333, R408). -/
def execTablesSetS1root (src : CommandSource) (s : State) : Host.Outcome State Fault Refusal :=
  s.runCommand src 0x13 0 fun c s =>
    let a := c.get 8 8
    if 2 ^ 56 ≤ a ∨ a % 4096 ≠ 0 ∨ 1 < c.get 16 1 then .refused 1 0
    else .done (s.modVdev (c.get 0 1) fun v => { v with tab := { v.tab with s1root := if c.get 16 1 = 1 then some a else none } }) []

/-- TABLES_SET_S2ROOT (R333, R408): firmware stores the second-stage tables that the hypervisor wants. -/
def execTablesSetS2root (src : CommandSource) (s : State) : Host.Outcome State Fault Refusal :=
  s.runCommand src 0x13 1 fun c s =>
    let a := c.get 8 8
    if 2 ^ 52 ≤ a ∨ a % 4096 ≠ 0 ∨ 1 < c.get 16 1 then .refused 1 0
    else
      let s1 := s.tableStores (((Store.find s.vdevs (c.get 0 1)).map fun v => descPart v.desc).getD 0)
      .done (s1.modVdev (c.get 0 1) fun v => { v with tab := { v.tab with s2root := if c.get 16 1 = 1 then some a else none } }) []

/-- TABLES_INVALIDATE (R337, R408): the hypervisor's second-stage stores are made before it; it ends when what had been translated is performed. -/
def execTablesInvalidate (src : CommandSource) (s : State) : Host.Outcome State Fault Refusal :=
  s.runCommand src 0x13 2 fun c s =>
    match Store.find s.vdevs (c.get 0 1) with
    | none => .refused 1 0
    | some v =>
      let kind := c.get 2 1
      let a := c.get 8 8
      if 3 < kind ∨ (kind = 3 ∧ 2048 ≤ a) ∨ (kind = 1 ∧ 2 ^ 56 ≤ a) ∨ (kind = 2 ∧ 2 ^ 52 ≤ a) then .refused 1 0
      else
        let part := descPart v.desc
        let s1 := (if kind = 2 ∧ !isGuest src then s.tableStores part else s).invalidated part (c.get 0 1) kind a
        if kind ≠ 3 ∧ s1.unsettled (c.get 0 1) then .going (s1.modMod fun m => { m with drains := m.drains ++ [(src, c.get 0 1)] })
        else .done s1 []

/-- The sizes of the windows that a grant may name (R201). -/
def windowSize (w : Nat) : Nat := if w = 1 then 0x1000000000000 else 0x800000000000

/-- TABLES_SET_WINDOW_GRANT (R333, R344, R408): a length of 0 removes the grant. -/
def execTablesSetWindowGrant (src : CommandSource) (s : State) : Host.Outcome State Fault Refusal :=
  s.runCommand src 0x13 3 fun c s =>
    let n := c.get 2 1; let base := c.get 8 8; let len := c.get 16 8; let w := c.get 24 1
    if 16 ≤ n ∨ w = 0 ∨ 3 < w ∨ base % 65536 ≠ 0 ∨ len % 65536 ≠ 0 ∨ windowSize w < base + len then .refused 1 0
    else
      let set (g : Store WindowGrant) : Store WindowGrant := if len = 0 then Store.erase g n else Store.put g n ⟨w, base, len⟩
      .done (s.modVdev (c.get 0 1) fun v => { v with tab := { v.tab with grants := set v.tab.grants } }) []

/-- TABLES_SET_REPLICA_ENTRY (R333, R341, R408): a replica of 0 is none. -/
def execTablesSetReplicaEntry (src : CommandSource) (s : State) : Host.Outcome State Fault Refusal :=
  s.runCommand src 0x13 4 fun c s =>
    match Store.find s.vdevs (c.get 0 1) with
    | none => .refused 1 0
    | some v =>
      let part := descPart v.desc
      let qs := s.quadsOf part
      let prim := c.get 8 8
      let reps := [c.get 16 8, c.get 24 8, c.get 32 8].filter (· != 0)
      let all := prim :: reps
      let quads := all.map fun a => (homeQuad qs a).getD 4
      if 256 ≤ c.get 2 1 ∨ (all.any fun a => a % 65536 != 0 || !isDeviceMemory a) ∨ !quads.all qs.contains ∨ (distinct quads).length ≠ quads.length then .refused 1 0
      else
        let e : ReplicaEntry := { primary := prim / 65536, vdev := c.get 0 1, replicas := reps.map fun a => ⟨a / 65536, (homeQuad qs a).getD 0, true⟩ }
        .done (s.modPart part fun p => { p with replicas := Store.put p.replicas (c.get 2 1) e }) []

/-- TABLES_EXTEND_MEASUREMENT (R411). -/
def execTablesExtendMeasurement (src : CommandSource) (s : State) : Host.Outcome State Fault Refusal :=
  s.runCommand src 0x13 5 fun c s =>
    let n := c.get 2 1
    if n = 5 ∨ n = 6 then .done (s.extendMr n (c.bytes 32 32)) [] else .refused 1 0

/-! ### COMMS (R264, R288, R408) -/

/-- The members that COMMS names, in rank order. -/
def Command.members (c : Command) : List Nat := (upTo (c.get 6 2)).map fun i => c.get (16 + 2 * i) 2

/-- The partition of the device that COMMS names. -/
def Command.commsPart (c : Command) (s : State) : Nat := ((Store.find s.vdevs (c.get 1 1)).map fun v => descPart v.desc).getD 0

/-- Whether the members and the own rank that COMMS names are in their ranges. -/
def Command.commsBad (c : Command) : Bool := decide (c.get 6 2 ≤ c.get 4 2) || c.members.any fun e => decide (2048 ≤ e)

/-- COMMS_SET_COMMUNICATOR (R288, R408). -/
def execCommsSetCommunicator (src : CommandSource) (s : State) : Host.Outcome State Fault Refusal :=
  s.runCommand src 0x14 0 fun c s =>
    let part := c.commsPart s
    let comms := (s.part part).fab.comms
    let entry : Communicator := { id := c.get 2 2, members := c.members, rank := c.get 4 2, vdev := c.get 1 1 }
    if c.commsBad then .refused 1 0
    else match (comms.find? fun e => e.2.id == entry.id && e.2.vdev == entry.vdev).map (·.1) <|> freeIndex comms 64 with
      | none => .refused 2 0
      | some n => .done (s.modFab part fun f => { f with comms := Store.put f.comms n entry }) []

/-- COMMS_REMOVE_COMMUNICATOR (R288, R408). -/
def execCommsRemoveCommunicator (src : CommandSource) (s : State) : Host.Outcome State Fault Refusal :=
  s.runCommand src 0x14 1 fun c s =>
    let part := c.commsPart s
    match (s.part part).fab.comms.find? fun e => e.2.id == c.get 2 2 && e.2.vdev == c.get 1 1 with
    | none => .refused 1 0
    | some e => .done (s.modFab part fun f => { f with comms := Store.erase f.comms e.1 }) []

/-- COMMS_SET_REDUCTION_GROUP (R264, R408). -/
def execCommsSetReductionGroup (src : CommandSource) (s : State) : Host.Outcome State Fault Refusal :=
  s.runCommand src 0x14 2 fun c s =>
    let part := c.commsPart s
    let e := c.get 2 2
    let g : ReductionGroup := { endpoint := e, vdev := c.get 1 1, elem := c.get 8 1, red := c.get 9 1, rank := c.get 4 2, members := c.members }
    if c.commsBad || !(decide (0x780 ≤ e) && decide (e ≤ 0x7FF)) || 5 < g.elem || 2 < g.red then .refused 1 0
    else .done (s.modFab part fun f => { f with groups := Store.put f.groups (e * 256 + g.vdev) g }) []

/-- COMMS_REMOVE_REDUCTION_GROUP (R264, R408). -/
def execCommsRemoveReductionGroup (src : CommandSource) (s : State) : Host.Outcome State Fault Refusal :=
  s.runCommand src 0x14 3 fun c s =>
    let part := c.commsPart s
    let k := c.get 2 2 * 256 + c.get 1 1
    if Store.has (s.part part).fab.groups k then .done (s.modFab part fun f => { f with groups := Store.erase f.groups k }) [] else .refused 1 0

/-! ### LOGS (R311, R315, R431) -/

/-- LOGS_FAULT_QUEUE_STATE (R311, R400, R431): the overflow count is read and cleared; a group that repeats it after a rewind gets the same answer. -/
def execLogsFaultQueueState (src : CommandSource) (s : State) : Host.Outcome State Fault Refusal :=
  s.runCommand src 0x16 0 fun c s =>
    match Store.find s.vdevs (c.get 1 1) with
    | none => .refused 1 0
    | some v => match s.repeated c with
      | some r => .done (s.noteService c r) r
      | none =>
        let r := bytesOf 4 v.faults.head.toNat ++ bytesOf 4 v.faults.tail.toNat ++ bytesOf 2 v.faults.overflow ++ bytesOf 6 0
        .done ((s.modVdev (c.get 1 1) fun v => { v with faults := { v.faults with overflow := 0 } }).noteService c r) r

/-- LOGS_ADVANCE_TAIL (R431). -/
def execLogsAdvanceTail (src : CommandSource) (s : State) : Host.Outcome State Fault Refusal :=
  s.runCommand src 0x16 1 fun c s =>
    let t : BitVec 32 := BitVec.ofNat 32 (c.get 8 4)
    match Store.find s.vdevs (c.get 1 1) with
    | none => .refused 1 0
    | some v =>
      if (t - v.faults.tail).toNat ≤ (v.faults.head - v.faults.tail).toNat then
        .done (s.modVdev (c.get 1 1) fun v => { v with faults := { v.faults with tail := t } }) []
      else .refused 1 0

/-- The 64 bytes of an event-log record (R315). -/
def EventRecord.bytes (e : EventRecord) : List Byte :=
  bytesOf 2 e.type ++ bytesOf 1 e.quad ++ bytesOf 1 e.vdev ++ bytesOf 4 e.code ++ bytesOf 4 e.unit ++ bytesOf 4 0 ++ bytesOf 8 e.paddr ++ bytesOf 8 e.time ++
  bytesOf 4 e.team ++ bytesOf 4 e.group ++ bytesOf 8 e.pc.toNat ++ bytesOf 4 e.count ++ bytesOf 12 0

/-- LOGS_READ_EVENT_LOG (R315): up to 62 records, oldest first, leave the log. -/
def execLogsReadEventLog (src : CommandSource) (s : State) : Host.Outcome State Fault Refusal :=
  s.runCommand src 0x16 2 fun c s =>
    let q := c.get 2 1
    if 4 ≤ q then .refused 1 0
    else
      let part := s.partOfQuad q
      let log := (s.part part).log
      let out := log.records.take 62
      .done (s.modPart part fun p => { p with log := { records := p.log.records.drop 62, dropped := 0, fresh := false } })
        (bytesOf 4 out.length ++ bytesOf 4 log.dropped ++ out.flatMap (·.bytes))

/-- LOGS_SET_EVENT_INTERRUPT (R315). -/
def execLogsSetEventInterrupt (src : CommandSource) (s : State) : Host.Outcome State Fault Refusal :=
  s.runCommand src 0x16 3 fun c s =>
    let q := c.get 2 1
    let a := c.get 8 8
    if 4 ≤ q ∨ (a ≠ 0 ∧ !s.hostRange a 4) then .refused 1 0
    else .done (s.modQuad q fun z => { z with irq := { addr := a, data := BitVec.ofNat 32 (c.get 16 4) } }) []

/-- LOGS_CLEAR_COUNTERS (R388, R408): the host totals of a quadrant. -/
def execLogsClearCounters (src : CommandSource) (s : State) : Host.Outcome State Fault Refusal :=
  s.runCommand src 0x16 4 fun c s =>
    let q := c.get 2 1
    let sel := c.get 8 2
    if 4 ≤ q ∨ (sel ≠ 0xFFFF ∧ !counterAssigned sel) then .refused 1 0
    else .done (s.modQuad q fun z => { z with counters := z.counters.filter fun k => !(decide (k.1 < 2048) && (sel == 0xFFFF || k.1 == sel)) }) []

end Sys2Proof.Machine
end

