-- ==== Sys2Proof/Machine/Migrate.lean ====
section
/-! DEFINITION. Incremental checkpoints (R340, R353 to R355), live migration (R356 to R361), and the fabric side of a partition (R204,
R345, R404). -/

namespace Sys2Proof.Config

/-- What an image that another module sends holds: that module's, and free (R356, DESIGN CHOICE, log 19). -/
opaque foreignImage : Nat → Machine.Image

end Sys2Proof.Config

namespace Sys2Proof.Machine

/-! ### Checkpoints -/

/-- CKRATE of a CKCTL, in bytes per microsecond (R355). -/
def Checkpoint.rate (c : Checkpoint) : Nat := (c.ctl.extractLsb' 40 16).toNat

/-- Whether a stream region lies in windows granted to the device (R353). -/
def State.regionOk (s : State) (part vdev base len : Nat) : Bool :=
  (upTo (len / 4096)).all fun i => match (s.locate part vdev (base + 4096 * i) .write).2 with
    | .ok (a, _) => match regionOf a with
      | .host _ | .cxl _ => true
      | _ => false
    | .error _ => false

/-- The reply of CHECKPOINT (R408). -/
def Checkpoint.reply (c : Checkpoint) : List Byte := bytesOf 4 c.epoch ++ bytesOf 4 0 ++ bytesOf 8 c.position

/-- CKCTL as a CHECKPOINT gives it, when its values are in their ranges; CKRATE 0 at the basic level means 1,000 (R408). -/
def Command.ckctl (c : Command) : Option (BitVec 64) :=
  let w := c.get 8 8
  let rate := bits w 55 40
  if bits w 63 60 ≠ 0 ∨ c.get 16 8 % 4096 ≠ 0 ∨ (c.expert ∧ rate = 0) ∨ (!c.expert ∧ rate ≠ 0) then none
  else some (BitVec.ofNat 64 (if rate = 0 then w + 1000 * 2 ^ 40 else w))

/-- What keeps CHECKPOINT from acting on a device (R406, R413). -/
def Vdev.cannotCheckpoint (v : Vdev) : Option Nat :=
  if v.lost then some 3 else match v.cannotSave with
    | some 2 => some 2
    | _ => none

/-- A CHECKPOINT with an operation, its device and its CKCTL. -/
def checkpointWith (s : State) (src : CommandSource) (mode : Nat) (body : State → Nat → Vdev → BitVec 64 → Nat → Reply) : Host.Outcome State Fault Refusal :=
  s.runCommand src 0x08 mode fun c s =>
    match Store.find s.vdevs (c.get 0 1), c.ckctl with
    | some v, some w => match v.cannotCheckpoint with
      | some st => .refused st 0
      | none => body s (c.get 0 1) v w (c.get 16 8)
    | _, _ => .refused 1 0

/-- CHECKPOINT_DISABLE (R355). -/
def execCheckpointDisable (src : CommandSource) (s : State) : Host.Outcome State Fault Refusal :=
  checkpointWith s src 0 fun s vdev v w len =>
    let k : Checkpoint := { v.ckpt with ctl := w, length := len }
    .done (s.modVdev vdev fun v => { v with ckpt := k }) k.reply

/-- CHECKPOINT_RUN (R353, R355): epoch 1 starts. -/
def execCheckpointRun (src : CommandSource) (s : State) : Host.Outcome State Fault Refusal :=
  checkpointWith s src 1 fun s vdev v w len =>
    let k : Checkpoint := { ctl := w, epoch := 1, length := len, nextPage := s.mod.tick }
    if s.regionOk (descPart v.desc) vdev k.region len then .done (s.modVdev vdev fun v => { v with ckpt := k }) k.reply
    else .refused 1 0

/-- CHECKPOINT_CLOSE_NOW (R354): the device stops as at a slice end; checkpoints go on to run afterwards. -/
def execCheckpointCloseNow (src : CommandSource) (s : State) : Host.Outcome State Fault Refusal :=
  checkpointWith s src 2 fun s vdev v w len =>
    let k : Checkpoint := { v.ckpt with ctl := w - (1 <<< 56), length := len }
    if v.ckpt.mode ≠ 1 ∨ v.saved.phase = .saved then .refused 3 0
    else if k.region ≠ v.ckpt.region then .refused 1 0
    else .done ((s.modVdev vdev fun v => { v with ckpt := k }).startSave vdev .epoch) k.reply

/-- Whether the streamers of a device stream its pages now: a checkpoint runs, the device is resident or its epoch closes, and CKRATE lets the
next page go, with room in the region (R353 to R355). -/
def State.streams (s : State) (vdev : Nat) (v : Vdev) : Bool :=
  v.ckpt.mode == 1 && (v.ckpt.closing || (s.isResident vdev v && (s.coreSet (descPart v.desc) vdev).any fun c => (s.core c).serving.isNone)) &&
  decide (v.ckpt.nextPage ≤ s.mod.tick) && decide (v.ckpt.position + 4112 ≤ v.ckpt.length)

/-- Bytes at a guest virtual address that firmware or a streamer writes, with the dirty bits as they were (R353). -/
def State.streamWrite (s : State) (part vdev va : Nat) (data : List Byte) : Option State :=
  match s.guestWrite part vdev va data with
  | (s1, _, none) => some (((s1.dirtyPages vdev).filter fun p => !(s.dirtyPages vdev).contains p).foldl (fun s p => s.clearDirty vdev p) s1)
  | _ => none

/-- A page is taken for streaming (R340): its bit is cleared, and the translations by which it is written are dropped. -/
def State.takePage (s : State) (vdev page : Nat) : State :=
  (s.clearDirty vdev page).dropTranslations fun t => t.vdev == vdev && decide (t.gpa ≤ page) && decide (page < t.gpa + t.span) && t.w

/-- The page that the streamers of a device take next: the first dirty one, of which the data can be read if there is one. A page that the second stage does
not map, or of which the frame has not been pulled, is not taken, and keeps its bit (DESIGN CHOICE, log 12). -/
def State.nextStreamed (s : State) (vdev : Nat) (v : Vdev) : Option Nat :=
  let home (p : Nat) : Option Nat := match (s.guestPage (descPart v.desc) vdev (p * 4096)).2 with
    | .ok a => some a
    | .error _ => none
  let pages := s.dirtyPages vdev
  (pages.find? fun p => (home p).any fun a => !s.badAt a 4096) <|> pages.find? fun p => (home p).isSome

/-- CHECKPOINT_PAGE_STREAM (R340, R353, R355): the page is taken, with what had been translated performed (R337), and is copied; while a lease holds some
of that, the page waits, and keeps its bit. Data that an error has spoilt is not copied (R218). -/
def execCheckpointPageStream (vdev : Nat) (page : Nat) (s : State) : Host.Outcome State Fault Refusal :=
  match Store.find s.vdevs vdev with
  | none => .next s
  | some v =>
    if !s.streams vdev v || !(s.dirtyPages vdev).contains page then .next s
    else
      let part := descPart v.desc
      let later := s.mod.tick + 4112 * 84000 / max 1 v.ckpt.rate
      let later' (s : State) : State := s.modVdev vdev fun v => { v with ckpt := { v.ckpt with nextPage := later } }
      let s1 := (s.takePage vdev page).settleVdev vdev
      if s1.unsettled vdev then .next (later' s)
      else match s1.guestPage part vdev (page * 4096) with
      | (_, .error _) => .next (later' s)
      | (s2, .ok a) => match s2.servedBytes part vdev a 4096 with
        | (_, .error f) => .next (later' (match f with
          | .lost site => s.detect site
          | _ => s))
        | (s3, .ok bytes) =>
          let data := bytesOf 4 v.ckpt.epoch ++ bytesOf 4 0 ++ bytesOf 8 (page * 4096) ++ bytes
          match s3.streamWrite part vdev (v.ckpt.region + v.ckpt.position) data with
          | none => .next (later' s)
          | some s4 => .next (s4.modVdev vdev fun v => { v with ckpt := { v.ckpt with
              position := v.ckpt.position + 4112
              pages := v.ckpt.pages + 1
              records := v.ckpt.records ++ [⟨v.ckpt.epoch, page * 4096, v.ckpt.position⟩]
              nextPage := later } })

/-- The trailer of an epoch (R355); the widths of its fields are the model's (DESIGN CHOICE, log 12). -/
def epochTrailer (k : Checkpoint) (i : Image) : List Byte :=
  bytesOf 4 k.epoch ++ bytesOf 4 k.pages ++ bytesOf 8 k.position ++ bytesOf 8 i.length ++ bytesOf 8 i.counter ++ bytesOf 32 0

/-- The state with the image and the trailer of an epoch in the device's region, when every set bit is streamed, they fit, and the region can be
written (R354, R355). What a context whose key was erased has sealed is opened by no one: it closes no epoch (R413). -/
def State.closed (s : State) (vdev : Nat) (v : Vdev) : Option State :=
  if v.ckpt.closing && v.saved.phase == .saved && !v.lost && (s.dirtyPages vdev).isEmpty then v.saved.image.bind fun i =>
    if v.ckpt.position + i.length + 64 ≤ v.ckpt.length then
      s.streamWrite (descPart v.desc) vdev (v.ckpt.region + v.ckpt.position) (imageBytes v.ctx i ++ epochTrailer v.ckpt i)
    else none
  else none

/-- Whether an epoch can close. -/
def State.closes (s : State) (vdev : Nat) (v : Vdev) : Bool := (s.closed vdev v).isSome

/-- EPOCH_CLOSE (R354): image and trailer are written, the device is runnable again, and the next epoch begins. -/
def execEpochClose (vdev : Nat) (s : State) : Host.Outcome State Fault Refusal :=
  match Store.find s.vdevs vdev with
  | none => .next s
  | some v => match s.closed vdev v, v.saved.image with
    | some s1, some i => .next (s1.modVdev vdev fun v =>
        { v with
          ckpt := { v.ckpt with epoch := v.ckpt.epoch + 1, position := v.ckpt.position + i.length + 64, pages := 0, closing := false, fullFrom := none }
          saved := { v.saved with phase := .running } })
    | _, _ => .next s

/-- Whether the region of a device whose epoch closes is full (R355): what the close writes next, a page or the image with the trailer, has no room. -/
def State.regionFull (s : State) (vdev : Nat) (v : Vdev) : Bool :=
  let next := if (s.dirtyPages vdev).isEmpty then (v.saved.image.map fun i => i.length + 64).getD 0 else 4112
  v.ckpt.closing && v.saved.phase == .saved && decide (v.ckpt.length < v.ckpt.position + next)

/-- Whether a saved group waits (R321): it waited when it was saved. -/
def Group.savedWaits (g : Group) : Bool := g.counts || g.stops.carried || g.stops.wait == .reacquire

/-- The tick at which a wait that a full region prolongs from a tick has lasted as long as the watchdog (R355), for a saved group that waits, of which no
fatal fault is reported. -/
def Vdev.savedDue (v : Vdev) (since : Nat) (g : Group) : Option Nat :=
  if g.savedWaits && decide (0 < v.ctx.watchdog) && g.stops.stop.all (fun x => kindOf v.ctx.trapsvc x.code != .fatal) then
    some (since + (v.ctx.watchdog - g.stops.waitUs) * 84000)
  else none

/-- The waits that a full region prolongs: each saved team and group with the tick at which its watchdog ends it. -/
def Vdev.savedDues (v : Vdev) : List (SavedTeam × Group × Nat) := match v.ckpt.fullFrom with
  | none => []
  | some t => v.saved.teams.flatMap fun u => u.groups.filterMap fun g => (v.savedDue t g).map fun d => (u, g, d)

/-- WAIT_TIMEOUT at a saved group (R39, R355), as at a group of a core: the records name the partition's lowest quadrant (DEDUCED, log 12). -/
def State.savedTimeout (s : State) (vdev : Nat) (t : SavedTeam) (g : Group) : State :=
  let part := t.team.id.part
  let x := g.waitTrap .waitTimeout
  let r : FaultRecord :=
    { kind := FaultKind.fatal.code, code := x.code.code, team := t.team.id.number, group := g.number, slot := x.slot, cls := 0, mask := x.mask,
      pc := x.pc, resume := x.resume, aux1 := 0, aux2 := 0, addr := 0, time := s.now }
  let (s1, idx) := s.enterRecord part vdev 24576 r
  let ev (ty : Nat) : EventRecord :=
    { type := ty, quad := (s.quadsOf part).headD 0, vdev := vdev, code := x.code.code, time := s.now, team := r.team, group := r.group, pc := x.pc }
  let s2 := ((s1.logEvent part (ev 6)).logEvent part (ev 7)).modSaved vdev r.team r.group fun g =>
    { g with stops := { g.stops with stop := some ⟨x.code, idx, x.resume, x.slot⟩, wait := .none } }
  (s2.hitTrigger vdev 24576 1 r.code).reportFatal part t.team.id.launch ⟨r.code, r.team, r.group, x.pc, x.mask, s.now, s.mod.tick / 35⟩

/-- While the close of an epoch waits for room, the wait counts for each saved group that waits (R355). -/
def State.checkpointStalls (s : State) : Option State :=
  s.vdevs.findSome? fun kv =>
    if !s.regionFull kv.1 kv.2 then none
    else if kv.2.ckpt.fullFrom.isNone then some (s.modVdev kv.1 fun v => { v with ckpt := { v.ckpt with fullFrom := some s.mod.tick } })
    else (kv.2.savedDues.find? fun x => decide (x.2.2 ≤ s.mod.tick)).map fun x => s.savedTimeout kv.1 x.1 x.2.1

/-! ### Migration: the commands (R356, R360, R408) -/

/-- MIGRATE_IN (R356, R408): the context gets an entry, and is not runnable before its image has crossed. -/
def execMigrateIn (src : CommandSource) (s : State) : Host.Outcome State Fault Refusal :=
  s.runCommand src 0x07 0 fun c s =>
    let d := c.bytes 0 64
    if 2048 ≤ c.get 64 2 ∨ Store.has s.vdevs (field d 0 1) ∨ !s.descriptorOk d ∨ !s.canHold d then .refused 1 0
    else
      let ctx : Context := { ctl := BitVec.ofNat 64 (field d 4 8), ctxid := c.get 68 4 }
      let v : Vdev := { desc := d, ctx := ctx, faults := { base := field d 32 8 }, tab := { dirtyBase := field d 40 8, dirtyLen := field d 48 4 },
                        vcarve := BitVec.ofNat 32 (field d 16 4), saved := { phase := .saved }, mig := { incoming := true, peer := c.get 64 2 } }
      .done (s.enterVdev d v) []

/-- The device of this module that a MIGRATE_IN entered for a context coming from an endpoint to a partition. -/
def State.incoming (s : State) (part ctxid peer : Nat) : Option (Nat × Vdev) :=
  s.vdevs.find? fun kv => kv.2.mig.incoming && kv.2.mig.phase == 0 && kv.2.ctx.ctxid == ctxid && kv.2.mig.peer == peer && descPart kv.2.desc == part

/-- Whether the preconditions of a MIGRATE_OUT hold (R356): a matching MIGRATE_IN, and a session for a protected context. What another module's
firmware has accepted is free (DESIGN CHOICE, log 19). -/
def State.mayMigrate (s : State) (v : Vdev) (peer : Nat) : Bool × State :=
  let open' := !v.ctx.prot || (Store.get {} s.mod.ident.spdm (2 + peer)).phase == .session
  match s.endpointPart peer with
  | some q => (open' && (s.incoming q v.ctx.ctxid (s.part (descPart v.desc)).regs.endpoint).isSome, s)
  | none =>
    let (b, s1) := s.choose
    (open' && b, s1)

/-- The reply of MIGRATE_OUT (R408). -/
def migrateReply (phase pulled : Nat) : List Byte := bytesOf 1 phase ++ bytesOf 7 0 ++ bytesOf 8 pulled

/-- MIGRATE_OUT (R356, R360, R406, R413). -/
def execMigrateOut (src : CommandSource) (s : State) : Host.Outcome State Fault Refusal :=
  s.runCommand src 0x06 0 fun c s =>
    let vdev := c.get 0 1
    let peer := c.get 2 2
    let rate := c.get 4 4
    match src, Store.find s.vdevs vdev with
    | .mailbox m, some v =>
      if 2048 ≤ peer ∨ (!c.expert ∧ rate ≠ 0) ∨ c.get 8 4 ≠ v.ctx.ctxid then .refused 1 0
      else if v.lost then .refused 3 0
      else if v.mig.phase = 4 ∧ !v.mig.incoming then .done s (migrateReply 4 v.mig.sent.length)
      else match v.cannotSave with
        | some st => .refused st 0
        | none =>
          let (ok, s1) := s.mayMigrate v peer
          if !ok then .refused 3 0
          else
            let g : Migration := { phase := 1, peer := peer, mailbox := some m, rate := if rate = 0 then 4096 else rate }
            .going ((s1.modVdev vdev fun v => { v with mig := g }).startSave vdev (.migrate m))
    | _, _ => .refused 1 0

/-! ### Migration: the switch (R356, R358 to R360) -/

/-- The queues of a device in ascending order, quadrant by quadrant (R356). -/
def State.queuesOf (s : State) (part vdev : Nat) : List (Nat × Nat) :=
  (s.quadsOf part).flatMap fun q => ((upTo 64).filter fun n => (s.queue q n).owner == vdev).map fun n => (q, n)

/-- An image whose queues are those of another device, by position (R356). -/
def Image.remap (i : Image) (old new : List (Nat × Nat)) : Image :=
  let at' (q n : Nat) : Nat × Nat := new.getD (old.findIdx fun x => x == (q, n)) (q, n)
  { i with
    launches := i.launches.map fun e => (e.1, { e.2 with quad := (at' e.2.quad e.2.queue).1, queue := (at' e.2.quad e.2.queue).2 })
    packets := i.packets.map fun x => ((at' x.1 x.2.1).1, (at' x.1 x.2.1).2, x.2.2) }

/-- The frames of a device. -/
def State.framesOf (s : State) (vdev : Nat) : List Nat := (s.mod.frames.owner.filter fun f => f.2 == vdev).map (·.1)

/-- The destination takes a context that comes in: its key, its counters, its sealed dumps
and its image; its CTXCTL is that of the MIGRATE_IN; firmware installs its second stage with every frame unpulled (R329, R333, R356). -/
def State.arriveVdev (s : State) (vdev : Nat) (ctx : Context) (img : Option Image) : State :=
  match Store.find s.vdevs vdev with
  | none => s
  | some v =>
    let part := descPart v.desc
    let s1 := s.modVdev vdev fun v =>
      { v with
        ctx := { v.ctx with saves := ctx.saves, dumps := ctx.dumps, key := ctx.key, sealedDumps := ctx.sealedDumps }
        saved := { phase := .running }
        mig := { v.mig with phase := 4, unpulled := s.framesOf vdev } }
    let s2 := s1.installTables part vdev
    match img with
    | some i => s2.moveIn part vdev i
    | none => s2

/-- The dumps that another module has sealed for a context: how many and which is free (R329, DESIGN CHOICE, log 19). -/
def foreignDumps : Nat → State → Store (Nat × Nat) × State
  | 0, s => ([], s)
  | n + 1, s =>
    let (k, s1) := s.anyNat (2 ^ 63)
    let (i, s2) := s1.anyNat (2 ^ 64)
    let (l, s3) := s2.anyNat (2 ^ 32)
    let (m, s4) := foreignDumps n s3
    (Store.put m k (i, l), s4)

/-- The context that another module's image brings: its fields are that module's, and free (DESIGN CHOICE, log 19). -/
def State.foreignContext (s : State) (v : Vdev) : Context × State :=
  let (a, s1) := s.anyNat (2 ^ 63)
  let (b, s2) := s1.anyNat (2 ^ 63)
  let (k, s2') := s2.anyNat (2 ^ 256)
  let (n, s2'') := s2'.anyNat (2 ^ 16)
  let (m, s3) := foreignDumps n s2''
  ({ v.ctx with saves := a, dumps := b, sealedDumps := m, key := if v.ctx.prot then some (Config.freshKey k) else none }, s3)

/-- The image that another module sends for a device (DESIGN CHOICE, log 19): its launches and packets are in queues of the device, where the
hand-over by position puts them (R356), and its teams are those of its launches. -/
def State.foreignImage (s : State) (part vdev : Nat) : Image × State :=
  let (n, s1) := s.anyNat (2 ^ 64)
  let own := s.queuesOf part vdev
  let i := Config.foreignImage n
  let ls := i.launches.filter fun e => own.contains (e.2.quad, e.2.queue)
  ({ i with
      launches := ls
      packets := i.packets.filter fun x => own.contains (x.1, x.2.1)
      teams := i.teams.filter fun t => ls.any fun e => e.1 == t.team.id.launch }, s1)

/-- The source ends a MIGRATE_OUT whose image the destination refused (R360): the device stays frozen, and resumes at its next admission. -/
def State.migrationRefused (s : State) (part vdev reason : Nat) (m : Option Nat) : State :=
  let img := (Store.find s.vdevs vdev).bind (·.saved.image)
  let s1 := match img with
    | some i => s.moveIn part vdev i
    | none => s
  let s2 := s1.modVdev vdev fun v => { v with mig := {} }
  match m with
  | some q => s2.endCommand (.mailbox q) 1 reason (migrateReply 0 0)
  | none => s2

/-- The partitions of this module that hold an export of a device's frames at an endpoint, or name it (R204, R356). -/
def State.holdsExport (s : State) (part vdev : Nat) : List Nat :=
  let old := (s.part part).regs.endpoint
  let frames := s.framesOf vdev
  let users := (s.part part).fab.exports.filterMap fun e => if e.2.2 && frames.contains e.1 then (Store.find s.vdevs e.2.1).map fun w => descPart w.desc else none
  (s.parts.filter fun p => p.1 != part &&
    (users.contains p.1 || p.2.fab.remote.any (·.endpoint == old) || p.2.fab.comms.any fun c => c.2.members.contains old)).map (·.1)

/-- The source switches (R356, R358): the forwarding entry is added for 100 ms, with the guest-physical addresses of the frames that it still holds, notices go
to the peers, and the command ends. Which endpoints of other modules hold an export is free (DESIGN CHOICE, log 19). -/
def State.switchSource (s : State) (part vdev n peer : Nat) (m : Option Nat) : State :=
  match Store.find s.vdevs vdev with
  | none => s
  | some v =>
    let old := (s.part part).regs.endpoint
    let (others, s1) := s.anyNat (2 ^ 64)
    let near := s1.holdsExport part vdev
    let held := s1.framesOf vdev
    let e : Forwarding :=
      { vdev := vdev, ctxid := v.ctx.ctxid, endpoint := peer, acks := 0, expiry := s.mod.tick + 8400000000
        frames := held.filterMap fun f => (s1.gpaOf v (f * 65536)).map fun g => (f, g)
        peers := near.foldl (fun m p => m ||| BitVec.ofNat 64 (2 ^ p)) (BitVec.ofNat 64 others) }
    let s2 := s1.modFab part fun f => { f with forwarding := Store.put f.forwarding n e, departed := distinct (f.departed ++ held) }
    let s3 := near.foldl (fun s p => s.push (.migrationNotice p old peer n)) s2
    let s4 := s3.modVdev vdev fun v => { v with mig := { v.mig with phase := 4, mailbox := none }, saved := { v.saved with teams := [], image := none } }
    match m with
    | some q => s4.endCommand (.mailbox q) 0 0 (migrateReply 4 0)
    | none => s4

/-- Whether a device of this module is at the switch: its image has been sent, or it comes in from another module. -/
def Vdev.switching (v : Vdev) : Bool := if v.mig.incoming then v.mig.phase == 0 else v.mig.phase == 2

/-- The reason for which a destination of this module refuses an image (R330, R360): CTXID or PROT, a tag that no key opens (R413), or the shape. -/
def State.arrivalRefusal (s : State) (v : Vdev) (q : Nat) (dst : Vdev) (i : Image) : Option Nat :=
  if dst.ctx.ctxid ≠ v.ctx.ctxid ∨ dst.ctx.prot ≠ v.ctx.prot then some 6
  else if v.lost then some 3
  else if i.shape ≠ s.shapeOf dst.desc ∨ !s.shapeOffered q dst.desc then some 4
  else none

/-- MIGRATION_SWITCH (R356, R360): the image has crossed, and the destination has checked it; it waits for room in the destination's launch table. What
another module decides is free (DESIGN CHOICE, log 19). -/
def execMigrationSwitch (vdev : Nat) (s : State) : Host.Outcome State Fault Refusal :=
  match Store.find s.vdevs vdev with
  | none => .next s
  | some v =>
    let part := descPart v.desc
    if !v.switching then .next s
    else if v.mig.incoming then
      if (s.endpointPart v.mig.peer).isSome || !s.shapeOffered part v.desc then .next s
      else
        let (ctx, s1) := s.foreignContext v
        let (img, s2) := s1.foreignImage part vdev
        if img.shape ≠ s.shapeOf v.desc ∨ !s2.launchRoom part vdev img then .next s2 else .next (s2.arriveVdev vdev ctx (some img))
    else match freeIndex (s.part part).fab.forwarding 16, v.saved.image with
      | some n, some i => match s.endpointPart v.mig.peer with
        | none =>
          let (ok, s1) := s.choose
          let (r, s2) := s1.anyNat 6
          .next (if v.lost then s2.migrationRefused part vdev 3 v.mig.mailbox
            else if ok then s2.switchSource part vdev n v.mig.peer v.mig.mailbox else s2.migrationRefused part vdev (r + 1) v.mig.mailbox)
        | some q => match s.incoming q v.ctx.ctxid (s.part part).regs.endpoint with
          | none => .next (s.migrationRefused part vdev 4 v.mig.mailbox)
          | some (w, dst) => match s.arrivalRefusal v q dst i with
            | some r => .next (s.migrationRefused part vdev r v.mig.mailbox)
            | none =>
              if !s.launchRoom q w i then .next s
              else .next ((s.arriveVdev w v.ctx (some (i.remap (s.queuesOf part vdev) (s.queuesOf q w)))).switchSource part vdev n v.mig.peer v.mig.mailbox)
      | _, _ => .next s

/-- Whether the switch of a device of this module is due: there is room for its forwarding entry, and at a destination of this module for its launches. -/
def State.switchDue (s : State) (v : Vdev) : Bool :=
  let part := descPart v.desc
  v.switching && !v.mig.incoming && (freeIndex (s.part part).fab.forwarding 16).isSome &&
  (match (s.endpointPart v.mig.peer).bind fun q => (s.incoming q v.ctx.ctxid (s.part part).regs.endpoint).map fun w => (q, w), v.saved.image with
   | some (q, w, dst), some i => (s.arrivalRefusal v q dst i).isSome || s.launchRoom q w i
   | _, i => i.isSome)

/-- MIGRATION_NOTICE (R358, R359): the partition drops its entries for the old endpoint, re-points later accesses and its communicators, and
acknowledges. -/
def execMigrationNotice (part : Nat) (old : Nat) (new : Nat) (handle : Nat) (s : State) : Host.Outcome State Fault Refusal :=
  let s1 := s.modFab part fun f =>
    { f with
      remote := f.remote.filter fun r => r.endpoint != old
      moved := Store.put f.moved old new
      comms := Store.mapVals f.comms fun _ c => { c with members := c.members.map fun e => if e = old then new else e } }
  .next (match s1.endpointPart old with
    | some q => s1.push (.migrationAcknowledgement q handle part)
    | none => s1)

/-- MIGRATION_ACKNOWLEDGEMENT (R358): the entry is removed once every exporting peer has acknowledged. -/
def execMigrationAcknowledgement (part : Nat) (handle : Nat) (peer : Nat) (s : State) : Host.Outcome State Fault Refusal :=
  match Store.find (s.part part).fab.forwarding handle with
  | none => .next s
  | some f =>
    let acks := f.acks ||| BitVec.ofNat 64 (2 ^ peer)
    .next (s.modFab part fun x => { x with forwarding :=
      if f.peers &&& ~~~acks = 0 then Store.erase x.forwarding handle else Store.put x.forwarding handle { f with acks := acks } })

/-- FORWARDING_EXPIRY (R358). -/
def execForwardingExpiry (part : Nat) (handle : Nat) (s : State) : Host.Outcome State Fault Refusal :=
  match Store.find (s.part part).fab.forwarding handle with
  | none => .next s
  | some f => if f.expiry ≤ s.mod.tick then .next (s.modFab part fun x => { x with forwarding := Store.erase x.forwarding handle }) else .next s

/-- The flits that an access from outside makes at a partition: their numbers are free (DESIGN CHOICE, log 19). -/
def State.edgeFlits (s : State) (part vdev : Nat) : State := s.countFlits ⟨0, 0, 0, vdev, part, 0⟩

/-- FORWARDED_ACCESS (R358): the source passes the access on to the destination, or answers it with an abort when the entry is gone; nothing
else of this module changes. -/
def execForwardedAccess (part : Nat) (handle : Nat) (frame : Nat) (s : State) : Host.Outcome State Fault Refusal :=
  match Store.find (s.part part).fab.forwarding handle with
  | none => .next (s.edgeFlits part 0)
  | some f =>
    if s.ownerOf (frame * 65536) = f.vdev then .next (s.edgeFlits part f.vdev) else .next (s.edgeFlits part 0)

/-! ### Migration: pulls (R356, R357, R361) -/

/-- Groups of a device that are parked without a record, and copies suspended without one, go on: what they wait for may be there now. -/
def State.retryHidden (s : State) (vdev : Nat) : State :=
  (s.groupsOfVdev vdev).foldl (fun s kv =>
    let hidden := (kv.2.stops.parked.map (·.hyper)).getD false
    let s1 := if hidden then s.modGroup kv.1 fun g => g.replayOf (s.core (coreOf kv.1)).clk (·.hyper) else s
    s1.modCore (coreOf kv.1) fun k => { k with copies := k.copies.map fun c => if c.gid = kv.1 ∧ c.suspended ∧ c.recIdx.isNone then { c with suspended := false } else c }) s

/-- The device of this module from which a device came, while it serves pulls (R356). -/
def State.sourceOf (s : State) (v : Vdev) : Option (Nat × Vdev) :=
  let here := (s.part (descPart v.desc)).regs.endpoint
  (s.endpointPart v.mig.peer).bind fun q => s.vdevs.find? fun kv =>
    !kv.2.mig.incoming && kv.2.mig.phase == 4 && kv.2.mig.peer == here && kv.2.ctx.ctxid == v.ctx.ctxid && descPart kv.2.desc == q

/-- The bytes that the source has of the pages of a frame, each at its guest-physical address, and taken as R340 says: zeros where a second stage maps
nothing. None while data that an error has spoilt is withheld (R218). -/
def State.pullPages (s : State) (v : Vdev) (src : Nat) (q frame : Nat) : List Nat → State × Option (List Byte)
  | [] => (s, some [])
  | i :: rest =>
    let page : State × Option (List Byte) := match s.gpaOf v (frame * 65536 + 4096 * i) with
      | none => (s, some (List.replicate 4096 0))
      | some gpa => match (s.takePage src (gpa / 4096)).guestPage q src gpa with
        | (s1, .error _) => (s1, some (List.replicate 4096 0))
        | (s1, .ok a) => match s1.servedBytes q src a 4096 with
          | (s2, .ok b) => (s2, some b)
          | (s2, .error _) => (s2, none)
    match page with
    | (s1, none) => (s1, none)
    | (s1, some b) => match s1.pullPages v src q frame rest with
      | (s2, some bs) => (s2, some (b ++ bs))
      | (s2, none) => (s2, none)

/-- A frame lands whole (R357): the accesses that waited for it are made again. -/
def State.landFrame (s : State) (vdev frame : Nat) (v : Vdev) (data : List Byte) : State :=
  let left := v.mig.unpulled.filter (· != frame)
  let s1 := { s with mem := memWrites s.mem (frame * 65536) data }.modVdev vdev fun v =>
    { v with mig := if left.isEmpty then {} else { v.mig with unpulled := left, touched := v.mig.touched.filter (· != frame) } }
  s1.retryHidden vdev

/-- A source of this module has sent a frame: the next is pulled in the background as its rate lets it, and with the last the source's frames are zeroed and
freed, and its entry removed (R356). -/
def State.sourceSent (s : State) (vdev src frame : Nat) (w : Vdev) : State :=
  let s1 := s.modVdev vdev fun v => if v.mig.incoming then { v with mig := { v.mig with nextPull := s.mod.tick + 65536 * 84000 / max 1 w.mig.rate } } else v
  let s2 := s1.modVdev src fun w => { w with mig := { w.mig with sent := w.mig.sent ++ [frame] } }
  if (Store.find s2.vdevs vdev).any (·.mig.incoming) then s2 else s2.removeVdev src none

/-- FRAME_PULL_COMPLETE (R357, R361): a frame lands, with the bytes that another module sends, or those that the source has in this one. -/
def execFramePullComplete (vdev : Nat) (frame : Nat) (data : List Byte) (s : State) : Host.Outcome State Fault Refusal :=
  match Store.find s.vdevs vdev with
  | none => .next s
  | some v =>
    if !v.mig.unpulled.contains frame ∨ v.mig.sourceLost then .next s
    else match s.endpointPart v.mig.peer with
      | none => if data.length ≠ 65536 then .next s else .next (s.landFrame vdev frame v data)
      | some q => match s.sourceOf v with
        | none => .next s
        | some (src, w) => match s.pullPages v src q frame (upTo 16) with
          | (s1, some bytes) => .next ((s1.landFrame vdev frame v bytes).sourceSent vdev src frame w)
          | (s1, none) => .next (s1.modVdev vdev fun v => { v with mig := { v.mig with
              unpulled := v.mig.unpulled.filter (· != frame) ++ [frame]
              touched := v.mig.touched.filter (· != frame)
              nextPull := s.mod.tick + 65536 * 84000 / max 1 w.mig.rate } })

/-- The frame that a device pulls from a source of this module now (R356): one for which an access waits, else the next in the background. -/
def State.pullDue (s : State) (v : Vdev) : Option Nat :=
  if !v.mig.incoming || v.mig.phase != 4 || v.mig.sourceLost || (s.sourceOf v).isNone then none
  else match v.mig.touched.find? v.mig.unpulled.contains with
    | some f => some f
    | none => if v.mig.nextPull ≤ s.mod.tick then v.mig.unpulled.head? else none

/-- Whether the source in this module of a device that still pulls is there no longer (R361). -/
def State.sourceGone (s : State) (v : Vdev) : Bool :=
  v.mig.incoming && v.mig.phase == 4 && !v.mig.unpulled.isEmpty && !v.mig.sourceLost && (s.endpointPart v.mig.peer).isSome && (s.sourceOf v).isNone

/-- MIGRATION_SOURCE_LOST (R361): accesses to unpulled frames fault from now on. -/
def execMigrationSourceLost (vdev : Nat) (s : State) : Host.Outcome State Fault Refusal :=
  match Store.find s.vdevs vdev with
  | none => .next s
  | some v =>
    if v.mig.incoming ∧ v.mig.phase = 4 ∧ !v.mig.unpulled.isEmpty then
      .next ((s.modVdev vdev fun v => { v with mig := { v.mig with sourceLost := true } }).retryHidden vdev)
    else .next s

/-- The pages of a frame of a device are taken, as it is sent (R340). -/
def State.takeFrame (s : State) (vdev frame : Nat) (v : Vdev) : State :=
  (upTo 16).foldl (fun s i => match s.gpaOf v (frame * 65536 + 4096 * i) with
    | some g => s.takePage vdev (g / 4096)
    | none => s) s

/-- PULL_REQUEST (R340, R356): the source sends a frame of a device, named by its owner number, to another module; once every frame has been sent it
zeroes and frees them and removes its entry. -/
def execPullRequest (part : Nat) (handle : Nat) (frame : Nat) (s : State) : Host.Outcome State Fault Refusal :=
  match Store.find s.vdevs handle with
  | none => .next s
  | some v =>
    if v.mig.incoming ∨ v.mig.phase ≠ 4 ∨ descPart v.desc ≠ part ∨ s.ownerOf (frame * 65536) ≠ handle ∨ (s.endpointPart v.mig.peer).isSome then
      .next (s.edgeFlits part 0)
    else
      let sent := if v.mig.sent.contains frame then v.mig.sent else v.mig.sent ++ [frame]
      let s1 := ((s.takeFrame handle frame v).edgeFlits part handle).modVdev handle fun v => { v with mig := { v.mig with sent := sent } }
      .next (if (s1.framesOf handle).all sent.contains then s1.removeVdev handle none else s1)

/-! ### Accesses from outside (R204, R339, R403) -/

/-- An access from outside to a frame of device memory, at the place that serves it (R204, R356 to R358, R361, R415): at its home slice, where the
directory acts on stash-held copies (R214) and the LLC serves it (R205), or at the device's new place in this module. One that has to wait for a
frame, or is answered with an abort, changes nothing here (DESIGN CHOICE, log 19); data of an uncorrectable sector is withheld (R218). -/
def State.outsideAccess (s : State) (part : Nat) (x : ExternalAccess) : State :=
  let serve (a n : Nat) (reads : Bool) (f : State → Nat → Nat → State) : State :=
    if n = 0 ∨ frameOf a ≠ frameOf (a + n - 1) then s
    else match s.fabricServe part a with
      | (.ok (some (q, home)), s1) =>
        if !reads then f s1 q home
        else match s1.badSite home n with
          | some site => s1.detect site
          | none => f ((s1.coherentRead (s1.part q).regs.members home n (s1.frameVdev home)).getD s1) q home
      | (_, s1) => s1
  match x with
  | .read a n => serve a n true fun s _ _ => s
  | .write a data => serve a data.length false fun s q a => s.coherentWrite (s.part q).regs.members a data
  | .atomAdd a data =>
    if (data.length = 4 ∨ data.length = 8) ∧ a % data.length = 0 then
      serve a data.length true fun s q a => s.coherentWrite (s.part q).regs.members a (bytesOf data.length (numOf (s.seen a data.length) + numOf data))
    else s

/-- Where an access from outside begins. -/
def outsideAddr : ExternalAccess → Nat
  | .read a _ | .write a _ | .atomAdd a _ => a

/-- An access from outside with another address. -/
def outsideAt (x : ExternalAccess) (a : Nat) : ExternalAccess := match x with
  | .read _ n => .read a n
  | .write _ d => .write a d
  | .atomAdd _ d => .atomAdd a d

/-- FABRIC_REQUEST (R204): the address is an offset at this endpoint. A frame that is not exported is answered with an abort; the requesters of
other modules are one party, number 256, to the free choice of what is exported. -/
def execFabricRequest (part : Nat) (access : ExternalAccess) (s : State) : Host.Outcome State Fault Refusal :=
  let a := fabricHome (outsideAddr access)
  let s1 := s.edgeFlits part 0
  if outsideAddr access < 2 ^ 40 ∧ (s1.frameHere part a ∨ (s1.part part).fab.departed.contains (frameOf a)) then
    let (yes, s2) := s1.exported part (frameOf a) 256
    .next (if yes then s2.outsideAccess part (outsideAt access a) else s2)
  else .next s1

/-- FABRIC_LINK_DOWN (R345). -/
def execFabricLinkDown (part : Nat) (endpoints : List Nat) (s : State) : Host.Outcome State Fault Refusal :=
  .next (s.modFab part fun f =>
    { f with
      remote := f.remote.filter fun r => !endpoints.contains r.endpoint
      unreachable := distinct (f.unreachable ++ endpoints) })

/-- FABRIC_ROUTE_RESTORED (R345). -/
def execFabricRouteRestored (part : Nat) (endpoint : Nat) (s : State) : Host.Outcome State Fault Refusal :=
  .next (s.modFab part fun f => { f with unreachable := f.unreachable.filter (· != endpoint) })

/-- CXL_LINK_DOWN (R404): accesses to the port's window complete with an abort. -/
def execCxlLinkDown (port : Nat) (s : State) : Host.Outcome State Fault Refusal :=
  .next (s.modMod fun m => { m with cxlDown := if port < 2 ∧ !m.cxlDown.contains port then m.cxlDown ++ [port] else m.cxlDown })

end Sys2Proof.Machine
end

