-- ==== Sys2Proof/Machine/Wear.lean ====
section
/-! DEFINITION. Wear records and the life budget (R362 to R387): the arithmetic of an interval, the interval boundary, rests and spares,
BOOST and its grants, RDWEAR and RDLIFE, the wear store, and the errors that patrol scrub finds (R220). -/

namespace Sys2Proof.Machine

/-! ### Units (R364) -/

/-- The number of units (R364). -/
def unitCount : Nat := 500
/-- The quadrant of a unit. -/
def unitQuad (u : Nat) : Nat := if u < 208 then u / 52 else if u < 416 then (u - 208) / 52 else if u < 480 then (u - 416) / 16 else (u - 480) / 5
/-- The physical core that a core or array unit belongs to. -/
def coreOfUnit (u : Nat) : Nat := if u < 208 then u else u - 208
/-- The logical core that a physical core backs. -/
def State.logicalOf (s : State) (u : Nat) : Option Nat := ((upTo 24).map fun l => u / 26 * 24 + l).find? fun c => s.unitOfCore c == some u
/-- The units of a quadrant that a rest of the quadrant powers down: those of its in-service cores and their arrays, slices and links (R372). -/
def State.quadUnits (s : State) (q : Nat) : List Nat :=
  let cores := ((upTo 48).map fun c => 48 * q + c).filterMap fun c => if s.coreUp c then s.unitOfCore c else none
  cores ++ cores.map (· + 208) ++ (upTo 16).map (416 + 16 * q + ·) ++ (upTo 5).map (480 + 5 * q + ·)

/-! ### Stress (R366 to R368) -/

/-- The supply column of a voltage in mV. -/
def supplyCol (mv : Nat) : Nat := if mv ≤ 700 then 0 else if mv ≤ 750 then 1 else if mv ≤ 800 then 2 else if mv ≤ 850 then 3 else 4
/-- The temperature column of a reading. -/
def tempCol (t : Nat) : Nat := if t ≤ 55 then 0 else if t ≤ 65 then 1 else if t ≤ 75 then 2 else if t ≤ 85 then 3 else 4

/-- The increments of B, H and E in an interval (R367). -/
def stress (fv ft b a64 : Nat) : Nat × Nat × Nat := (b * fv * ft, a64 * fv * fv / 64, a64 * fv * ft / 64)
/-- Their sum. -/
def stressSum (fv ft b a64 : Nat) : Nat := let (x, y, z) := stress fv ft b a64; x + y + z

/-- The supply and temperature columns of a unit in the present interval. -/
def Sensors.columns (x : Sensors) (u : Nat) : Nat × Nat :=
  let supply := if u < 416 then coreOfUnit u else 500 + unitQuad u
  let temp := if u < 416 then coreOfUnit u else u
  (supplyCol (Store.get 750 x.supply supply), tempCol (Store.get 55 x.temp temp))

/-- The tick at which the present interval began. -/
def State.intervalStart (s : State) : Nat := s.mod.nextBoundary - 84000000
/-- The quarter of the interval in which a tick lies. -/
def State.quarterOf (s : State) (t : Nat) : Nat := min 3 ((t - s.intervalStart) / 21000000)
/-- The quarters from one tick to another, as a mask. -/
def State.quarterSpan (s : State) (a b : Nat) : Nat := ((upTo 4).filter fun k => decide (s.quarterOf a ≤ k) && decide (k ≤ s.quarterOf b)).foldl (fun m k => m + 2 ^ k) 0
/-- The quarters of the interval so far in which a quadrant was powered. -/
def State.quadQuarters (s : State) (q : Nat) : Nat :=
  let z := s.quad q
  Store.get 0 s.wear.activity.quarters q |||
    (if z.power = .active then s.quarterSpan (max z.powerFrom s.intervalStart) s.mod.tick else 0)
/-- The number of quarters in a mask. -/
def quarterCount (m : Nat) : Nat := ((upTo 4).filter fun k => bit m k).length

/-- floor(64 * active clks / clks of the interval) (R368). -/
def a64Of (active clks : Nat) : Nat := min 64 (64 * active / max 1 clks)

/-- The quarters of the interval so far since a physical core was swapped in; all of them when it was not. -/
def State.quartersSince (s : State) (u : Nat) : Nat := match Store.find s.wear.activity.since u with
  | some t => s.quarterSpan t s.mod.tick
  | none => 15

/-- b and a64 of a unit (R368). The traffic of a link macro, and how far the accesses of a slice share clks, are free (DESIGN CHOICE, log 24). -/
def State.activityOf (s : State) (u : Nat) : Nat × Nat × State :=
  let q := unitQuad u
  let on := s.quadQuarters q
  let pool := Store.get 0 s.wear.activity.active u
  if u < 416 then
    let (active, clks) := match s.logicalOf (coreOfUnit u) with
      | some c => ((if u < 208 then (s.core c).activeClk else (s.core c).arrayClk), (s.core c).clkBase + ((s.core c).clk - (s.core c).clkFrom))
      | none => (0, 84000000 / 35)
    let powered := on &&& s.quartersSince (coreOfUnit u)
    let b := if u < 208 then quarterCount powered else quarterCount (powered &&& Store.get 0 s.wear.activity.quarters u)
    (b, a64Of (pool + active) (if clks = 0 then 84000000 / 35 else clks), s)
  else
    let (n, s1) := s.anyNat ((if u < 480 then a64Of pool (84000000 / 35) else 64) + 1)
    (quarterCount on, n, s1)

/-- Whether a unit accrues nothing: it rests, is a cold spare, or is retired (R367). -/
def State.accruesNot (s : State) (u : Nat) : Bool :=
  (s.wearOf u).rest.isSome ||
  (decide (u < 416) && (!(s.logicalOf (coreOfUnit u)).isSome || (s.die (coreOfUnit u / 26)).retired.contains (coreOfUnit u % 26)))

/-- The operating point of an interval as RDWEAR gives it (R382). -/
def pointOf (b a64 sup temp : Nat) : Nat := a64 + b * 2 ^ 8 + sup * 2 ^ 16 + temp * 2 ^ 24

/-- Step 1 of a boundary for one unit (R367). -/
def State.accrue (s : State) (u : Nat) : State :=
  let (sup, temp) := s.wear.sensors.columns u
  let (b, a64, s1) := s.activityOf u
  let (b, a64) := if s.accruesNot u then (0, 0) else (b, a64)
  let (db, dh, de) := stress (s.wear.fv.getD sup 0) (s.wear.ft.getD temp 0) b a64
  s1.modWear fun w => { w with records := Store.modify {} w.records u fun r =>
    { r with b := r.b + db, h := r.h + dh, e := r.e + de, p := r.p + db, lastW := db + dh + de, point := pointOf b a64 sup temp } }

/-! ### The life budget (R374, R375) -/

/-- The allowance A of a target in hours (R374). -/
def allowance (target : Nat) : Nat := 2 ^ 46 / (target * 3600000)

/-- Step 2 of a boundary (R369, R375): the budget of every core. -/
def State.settleBudgets (s : State) : State :=
  let a : Int := allowance s.wear.lifectl
  (upTo 208).foldl (fun (s : State) (u : Nat) =>
    let x : Int := ((s.logicalOf u).bind fun c => (s.core c).paid).getD 0
    let dw : Int := (s.wearOf u).lastW
    s.modWear fun w => { w with lbud := Store.modify 0 w.lbud u fun l => min (l + a - max 0 (dw - x)) w.lbudcap }) s

/-- Step 2 of a boundary for the grants (R369, R380): a grant with no interval left has passed its last; any other starts its next. -/
def Core.nextInterval (c : Core) : Core :=
  let c1 := { c with activeClk := 0, arrayClk := 0, clkFrom := c.clk, clkBase := 0 }
  match c.grant with
  | none => { c1 with paid := none, boost := false }
  | some g => if g.remaining = 0 then { c1 with grant := none, paid := none, boost := false }
    else { c1 with grant := some { g with remaining := g.remaining - 1 }, paid := some g.x, boost := true }

/-! ### Rests (R370 to R372) -/

/-- The credit of a completed rest (R371). -/
def restCredit (p n : Nat) (poweredDown : Bool) : Nat := if poweredDown then p * n / 128 else p * n / 64

/-- A rest of a unit completes (R371); that of a quadrant counts at most 16 intervals (R372). A core's budget receives the credit too. -/
def State.completeRest (s : State) (u : Nat) : State :=
  let r := s.wearOf u
  match r.rest with
  | none => s
  | some t =>
    let n := if t.left = 0 then min t.completed 16 else t.completed
    let credit := restCredit r.p n t.poweredDown
    let s1 := s.modWear fun w => { w with records := Store.put w.records u { r with b := r.b - credit, p := 0, rests := r.rests + 1, rest := none } }
    if u < 208 then s1.addLbud u credit else s1

/-- A core leaves rest: its clk count starts anew (R83); the clks of the interval so far still count for R368. -/
def State.restartClk (s : State) (core : Nat) : State :=
  if !(s.teamsOn core).isEmpty then s
  else
    let s1 := { s with benches := s.benches.filter fun b => b.1 / 16 != core }
    s1.modCore core fun c =>
      { c with clk := 0, nextTick := s.mod.tick + c.period, lastActive := 0, copyFree := 0, clkFrom := 0, clkBase := c.clkBase + (c.clk - c.clkFrom)
               arr := { c.arr with lastRow := 0 } }

/-- A core and its array complete the rest that they are in. -/
def State.wakeCore (s : State) (u : Nat) : State :=
  if (s.wearOf u).rest.isNone then s
  else
    let s1 := (s.completeRest u).completeRest (u + 208)
    match s1.logicalOf u with
    | some c => s1.restartClk c
    | none => s1

/-- A rest of a unit of a quadrant that powers down begins (R372). -/
def State.powerDown (s : State) (u : Nat) : State :=
  s.modWear fun w => { w with records := Store.modify {} w.records u fun r => if r.rest.isSome then r else { r with rest := some ⟨true, 0, 0⟩ } }

/-- Step 3 of a boundary for one unit (R371, R372): the interval counts, and a rest with no interval left completes. In a quadrant that
rests, its later intervals count toward the quadrant's rest. -/
def State.restInterval (s : State) (start : Nat) (u : Nat) : State :=
  match (s.wearOf u).rest with
  | none => s
  | some t =>
    let z := s.quad (unitQuad u)
    let resting := z.power = .rest ∨ z.power = .deepIdle
    if t.left = 0 then
      if resting ∧ z.powerFrom ≤ start then
        s.modWear fun w => { w with records := Store.modify {} w.records u fun r => { r with rest := some { t with completed := t.completed + 1 } } }
      else s
    else
      let s1 := s.modWear fun w => { w with records := Store.modify {} w.records u fun r => { r with rest := some { t with left := t.left - 1, completed := t.completed + 1 } } }
      if t.left ≠ 1 then s1
      else
        let full : Rest := { t with left := 1, completed := t.completed + 1 }
        let s2 := (s1.modWear fun w => { w with records := Store.modify {} w.records u fun r => { r with rest := some full } }).completeRest u
        if resting then s2.powerDown u
        else match (if u < 208 then s2.logicalOf u else none) with
          | some c => s2.restartClk c
          | none => s2

/-- The in-service cores of a quadrant. -/
def State.inService (s : State) (q : Nat) : List Nat := ((upTo 48).map fun c => 48 * q + c).filter s.coreUp
/-- W of the record behind a logical core as it stands within a boundary (R369). -/
def State.liveW (s : State) (core : Nat) : Nat := match s.unitOfCore core with
  | some u => (s.wearOf u).w
  | none => 0
/-- The mean W of a quadrant, from the W of each core (R369). -/
def State.meanW (s : State) (w : Nat → Nat) (q : Nat) : Nat :=
  let cs := s.inService q
  (cs.foldl (fun n c => n + w c) 0) / max 1 cs.length
/-- The largest and the smallest W of a quadrant's in-service cores. -/
def State.maxW (s : State) (w : Nat → Nat) (q : Nat) : Nat := (s.inService q).foldl (fun n c => max n (w c)) 0
def State.minW (s : State) (w : Nat → Nat) (q : Nat) : Nat := (leastOf ((s.inService q).map w)).getD 0

/-- The fields of WEARCTL (R376). -/
def wcSpread (w : BitVec 64) : Nat := (w.extractLsb' 40 24).toNat
def wcMargin (w : BitVec 64) : Nat := (w.extractLsb' 24 16).toNat
def wcRestMax (w : BitVec 64) : Nat := (w.extractLsb' 18 6).toNat
def wcRestN (w : BitVec 64) : Nat := (w.extractLsb' 13 5).toNat
def wcKind (w : BitVec 64) : Bool := w.getLsbD 12
def wcRetire (w : BitVec 64) : Nat := 100 * (w.extractLsb' 0 12).toNat

/-- Whether a gang reservation holds a core (R280). -/
def State.reservedCore (s : State) (core : Nat) : Bool := (s.part (s.partOfCore core)).disp.gangs.any fun g => g.2.reserved.contains core

/-- Step 5 of a boundary for one quadrant (R370). -/
def State.startRests (s : State) (q : Nat) : State :=
  let w := (s.quad q).wearctl
  let mean := s.meanW s.liveW q
  let ready := (s.inService q).filter fun c =>
    decide (mean + wcMargin w ≤ s.liveW c) && (s.teamsOn c).isEmpty && !s.reservedCore c && (s.core c).grant.isNone && !s.coreRests c
  let order := sortBy (fun (c : Nat) => [-Int.ofNat (s.liveW c), Int.ofNat c]) ready
  let resting := ((s.inService q).filter s.coreRests).length
  let rest : Rest := ⟨wcKind w, wcRestN w, 0⟩
  (order.take (wcRestMax w - resting)).foldl (fun (s : State) (c : Nat) => match s.unitOfCore c with
    | none => s
    | some u => s.modWear fun w =>
        { w with records := Store.modify {} (Store.modify {} w.records u fun r => { r with rest := some rest }) (u + 208) fun r => { r with rest := some rest } }) s

/-! ### Spares (R373) -/

/-- A core holds no team and no reservation. -/
def State.coreClear (s : State) (core : Nat) : Bool := (s.teamsOn core).isEmpty && !s.reservedCore core

/-- A called spare that can take its place on a die. -/
def State.swapReady (s : State) (die : Nat) : Option (Nat × Nat) := (s.die die).pendingSwap.find? fun x => s.coreClear (die * 24 + x.2)

/-- A called spare takes the place of a core, which becomes a cold spare unless it is retired; each physical core keeps its record and its
activity, and is powered from now on, with no interval prepaid (R12, R364, R368, R373, R375). -/
def State.swapIn (s : State) (die spare l : Nat) : State :=
  let core := die * 24 + l
  let d := s.die die
  let old := (d.map.getD l none)
  let s1 := match old with
    | none => s
    | some p => s.modWear fun w => { w with activity := { w.activity with
        active := Store.modify 0 (Store.modify 0 w.activity.active (die * 26 + p) (· + (s.core core).activeClk)) (die * 26 + p + 208) (· + (s.core core).arrayClk) } }
  let back := match old with
    | some p => if d.retired.contains p then [] else [p]
    | none => []
  let s2 := s1.modDie die fun d => { d with map := d.map.set l (some spare), spares := d.spares ++ back, pendingSwap := d.pendingSwap.filter fun x => x.2 != l }
  let s3 := s2.modWear fun w => { w with activity := { w.activity with since := Store.put w.activity.since (die * 26 + spare) s.mod.tick } }
  (s3.modCore core fun c => { c with activeClk := 0, arrayClk := 0, paid := none, boost := false }).modDisp (s3.partOfCore core) fun p => { p with decide := true }

/-- Firmware calls a spare of a die in place of a logical core of it; which spare is a free choice. With none the event log records it. -/
def State.callSpare (s : State) (die l : Nat) : State :=
  let core := die * 24 + l
  match (s.die die).spares with
  | [] => s.logEvent (s.partOfCore core) { type := 8, quad := quadOfCore core, time := s.now }
  | first :: rest =>
    let (k, s1) := s.anyNat (rest.length + 1)
    let spare := (first :: rest).getD k first
    let s2 := match s1.unitOfCore core with
      | some u => s1.wakeCore u
      | none => s1
    let s3 := s2.modDie die fun d => { d with spares := d.spares.filter (· != spare), pendingSwap := d.pendingSwap ++ [(spare, l)] }
    if s3.coreClear core then s3.swapIn die spare l else s3

/-- Whether a spare has been called for a core of a die and has not taken its place yet. -/
def State.spareCalled (s : State) (die l : Nat) : Bool := (s.die die).pendingSwap.any fun x => x.2 == l

/-- Step 6 of a boundary (R373): spares for the cores retired since the last one, then one spread call per quadrant, on the spread and the cores of
step 4 (R369); a core for which a spare has
been called keeps that spare. -/
def State.callSpares (s : State) : State :=
  let s1 := (upTo 8).foldl (fun (s : State) (d : Nat) =>
    ((s.die d).retiredSince.foldl (fun (s : State) (l : Nat) => if s.spareCalled d l then s else s.callSpare d l) s).modDie d fun x => { x with retiredSince := [] }) s
  (upTo 4).foldl (fun (t : State) (q : Nat) =>
    if s.maxW s.liveW q - s.minW s.liveW q ≤ wcSpread (s.quad q).wearctl then t
    else match sortBy (fun (c : Nat) => [-Int.ofNat (s.liveW c), Int.ofNat c]) (s.inService q) with
      | [] => t
      | c :: _ => if t.spareCalled (c / 24) (c % 24) then t else t.callSpare (c / 24) (c % 24)) s1

/-- SPARE_SWAP_OUT (R373). -/
def execSpareSwapOut (die : Nat) (s : State) : Host.Outcome State Fault Refusal :=
  match s.swapReady die with
  | none => .next s
  | some (spare, l) => .next (s.swapIn die spare l)

/-- Firmware retires a physical core (R13, R371): a spare leaves the spare set, a called one its call as well; a core in service completes its rest,
is unavailable, the waiting gangs whose rectangle holds it choose again (R283), and a spare is called at the next boundary. The event log records
it (R315). -/
def State.retireCore (s : State) (die pos : Nat) : State :=
  let d := s.die die
  if d.retired.contains pos ∨ 26 ≤ pos then s
  else
    let u := die * 26 + pos
    let called := (d.pendingSwap.filter fun x => x.1 == pos).map (·.2)
    let again := called.filter fun l => ((d.map.getD l none).map d.retired.contains).getD true
    let s1 := (s.wakeCore u).modDie die fun d =>
      { d with
        retired := d.retired ++ [pos]
        spares := d.spares.filter (· != pos)
        pendingSwap := d.pendingSwap.filter fun x => x.1 != pos
        retiredSince := distinct (d.retiredSince ++ again) }
    let s2 := match s.logicalOf u with
      | some c => (s1.modDie die fun d => { d with retiredSince := distinct (d.retiredSince ++ [c % 24]) }).modDisp (s1.partOfCore c) fun p => p.dropGangs fun g => g.cores.contains c
      | none => s1
    s2.logEvent (s2.partOfQuad (die / 2)) { type := 4, quad := die / 2, unit := u, time := s2.now }

/-- CORE_RETIREMENT (R13). -/
def execCoreRetirement (die : Nat) (position : Nat) (s : State) : Host.Outcome State Fault Refusal :=
  if 8 ≤ die then .next s else .next (s.retireCore die position)

/-! ### The wear store (R384) -/

/-- The bank that is current (R384): its records all check, and its interval count is the higher. -/
def Wear.bankAIsCurrent (w : Wear) : Bool := w.bankA.intact && (!w.bankB.intact || decide (w.bankB.intervals ≤ w.bankA.intervals))
def Wear.current (w : Wear) : WearBank := if w.bankAIsCurrent then w.bankA else w.bankB

/-- The 64 bytes of a unit's record in a bank. -/
def WearBank.bytes (b : WearBank) (u : Nat) : List Byte :=
  let r : WearRecord := Store.get {} b.records u
  let l : Int := if u < 208 then Store.get 0 b.lbud u else 0
  let head := bytesOf 8 r.b ++ bytesOf 8 r.h ++ bytesOf 8 r.e ++ bytesOf 8 r.p ++ bytesOf 8 (l % 2 ^ 64).toNat ++ bytesOf 4 r.mon ++ bytesOf 4 r.rests ++
    bytesOf 8 b.intervals
  head ++ (digestOf head).take 8
/-- The 32,000 bytes of a bank. -/
def WearBank.image (b : WearBank) : List Byte := (upTo unitCount).flatMap b.bytes

/-- Step 7 of a boundary (R384): the older bank takes every record. -/
def Wear.store (w : Wear) : Wear :=
  let bank : WearBank := { intervals := w.intervals, records := w.records, lbud := w.lbud }
  if w.bankAIsCurrent then { w with bankB := bank } else { w with bankA := bank }

/-! ### Sensors and monitors -/

/-- A core that is boosted is supplied with 850 mV through the interval (R378). -/
def State.boostSupply (s : State) : State :=
  (s.cores.filter (·.2.boost)).foldl (fun s c => match s.unitOfCore c.1 with
    | some u => s.modWear fun w => { w with sensors := { w.sensors with supply := Store.put w.sensors.supply u 850 } }
    | none => s) s

/-- What the sensors read in the interval that starts is a free value for each: supplies up to 900 mV (R366, DESIGN CHOICE, log 24). -/
def State.readSensors (s : State) : State :=
  let rails := upTo 208 ++ (upTo 4).map (500 + ·)
  let temps := upTo 208 ++ (upTo 84).map (416 + ·)
  let s1 := s.modWear fun w => { w with sensors := { w.sensors with supply := [], temp := [], lastTemp := w.sensors.temp } }
  let s2 := rails.foldl (fun (s : State) (u : Nat) =>
    let (x, s1) := s.anyNat 901
    s1.modWear fun w => { w with sensors := { w.sensors with supply := Store.put w.sensors.supply u x } }) s1
  (temps.foldl (fun (s : State) (u : Nat) =>
    let (x, s1) := s.anyNat 256
    s1.modWear fun w => { w with sensors := { w.sensors with temp := Store.put w.sensors.temp u x } }) s2).boostSupply

/-- The word of the register files that a number names. -/
def regWordAt (y : Nat) : RegWord := match y % 4 with
  | 0 => .vec (y / 4 % 128) (y / 512 % 32)
  | 1 => .sc (y / 4 % 64)
  | 2 => .pred (y / 4 % 8)
  | _ => .control

/-- The lines of an LLC, by a free number: one of them. -/
def State.llcLineAt (s : State) (q n : Nat) : Option Nat :=
  let ls := (s.quad q).llc.lines
  (ls[n % max 1 ls.length]?).map (·.1)

/-- An error of two bits in an LLC (R217): in the data of one sector of a line, or in its tag or its directory entry, and then neither can be served. -/
def State.strikeLlc (s : State) (q line how : Nat) : State :=
  s.modLlc q fun c => { c with lines := Store.modify {} c.lines line fun l =>
    if how = 2 then { l with tagBad := true }
    else { l with bad0 := l.bad0 || (l.valid0 && how == 0), bad1 := l.bad1 || (l.valid1 && how == 1) } }

/-- A line of a core's L1, by a free number, in which the parity finds an error: it is invalidated, and fetched again when it is needed (R217). -/
def State.l1Parity (s : State) (core n : Nat) : State := s.modMem core fun m => { m with l1 := m.l1.eraseIdx (n % max 1 m.l1.length) }

/-- An error strikes a memory of the module (R107, R217): where is free. One of the register files is met by the read of its word; another one that is
corrected is counted at once, for no device when it is in a tag or a directory entry (R352); one that is not stays until the word is written again
(DESIGN CHOICE, log 43). -/
def State.strike (s : State) : State :=
  let (kind, s1) := s.anyNat 12
  let (x, s2) := s1.anyNat (2 ^ 46)
  let (y, s3) := s2.anyNat (2 ^ 19)
  let core := x % 192
  let a := 64 * x
  let q := x % 4
  match kind with
  | 0 => if isDeviceMemory a ∧ !s3.mod.frames.bad.contains x then
      s3.modMod fun m => { m with frames := { m.frames with bad := m.frames.bad ++ [x] } } else s3
  | 1 => s3.modRegs (x % 24576) fun r => { r with upset := r.upset ++ [regWordAt y] }
  | 2 => s3.modTeamMem (x % 3072) fun m => { m with upset := m.upset ++ [y] }
  | 3 => s3.modTeamMem (x % 3072) fun m => { m with laneUpset := m.laneUpset ++ [y] }
  | 4 => s3.modArr core fun r => { r with accUpset := r.accUpset ++ [y] }
  | 5 => s3.modArr core fun r => { r with banks := Store.modify {} r.banks (y % 3) fun b => { b with upset := true } }
  | 6 => if isDeviceMemory a then s3.corrected ((homeQuad [] a).getD 0) (s3.frameVdev a) 0x200 0xFFFFFFFF a else s3
  | 7 =>
    let s4 := if y % 2 = 1 then s3.l1Parity core (y / 2) else s3
    s4.corrected (quadOfCore core) (s3.coreVdev core) (0x202 + y % 2) ((s3.unitOfCore core).getD 0xFFFFFFFF) 0
  | 8 => s3.modRegs (x % 24576) fun r => { r with soft := r.soft ++ [regWordAt y] }
  | 9 => s3.modTeamMem (x % 3072) fun m => { m with spillUpset := m.spillUpset ++ [y % 3584] }
  | 10 => match s3.llcLineAt q y with
    | some line => s3.strikeLlc q line (y % 3)
    | none => s3
  | _ => match s3.llcLineAt q y with
    | some line => s3.corrected q (if x / 4 % 2 = 0 then s3.frameVdev line else 0) 0x201 (416 + 16 * q + llcSlice q line) line
    | none => s3

/-- The errors that strike until the next boundary, of which the number is free. -/
def State.strikes (s : State) : State :=
  let (n, s1) := s.anyNat (2 ^ 16)
  (upTo n).foldl (fun (s : State) (_ : Nat) => s.strike) s1

/-- Firmware reads and clears drop counts of launch queues (R266): which ones, in an interval, is free (DESIGN CHOICE, log 24). -/
def State.readDrops (s : State) : State :=
  let dropped := (s.quads.map fun q => (q.2.queues.filter fun w => decide (w.2.drops ≠ 0)).map fun w => (q.1, w.1)).flatten
  dropped.foldl (fun (s : State) (k : Nat × Nat) =>
    let (clear, s1) := s.choose
    if clear then s1.modQueue k.1 k.2 fun w => { w with drops := 0 } else s1) s

/-- The monitors are measured (R365): a core over RETIREPPM is retired; a slice or link macro over it enters the event log. -/
def State.measure (s : State) (readings : List Nat) : State :=
  ((upTo unitCount).zip readings).foldl (fun (s : State) (x : Nat × Nat) =>
    let u := x.1
    let q := unitQuad u
    let s1 := s.modWear fun w => { w with records := Store.modify {} w.records u fun r => { r with mon := x.2 % 2 ^ 32 } }
    if x.2 % 2 ^ 32 ≤ wcRetire (s.quad q).wearctl then s1
    else if u < 208 then s1.retireCore (u / 26) (u % 26)
    else if u < 416 then s1
    else s1.logEvent (s1.partOfQuad q) { type := 9, quad := q, unit := u, time := s1.now }) s

/-- MONITOR_MEASUREMENT (R362, R365). -/
def execMonitorMeasurement (readings : List Nat) (s : State) : Host.Outcome State Fault Refusal := .next (s.measure readings)

/-- Free readings of the monitors of n units. -/
def State.drawReadings (s : State) : Nat → List Nat × State
  | 0 => ([], s)
  | n + 1 =>
    let (x, s1) := s.anyNat (2 ^ 32)
    let (xs, s2) := s1.drawReadings n
    (x :: xs, s2)

/-- The monitors of every unit are measured, as they read. -/
def State.measureAll (s : State) : State :=
  let (rs, s1) := s.drawReadings unitCount
  s1.measure rs

/-! ### The interval boundary (R369) -/

/-- Steps 1 and 2. -/
def State.boundaryStress (s : State) : State :=
  let caught : Store Core := Store.mapVals s.cores fun n c => if (s.groupsOn n).isEmpty then c.catchUp s.mod.tick else c
  let s0 : State := { s with cores := caught }
  let s1 : State := ((upTo unitCount).foldl (fun (s : State) (u : Nat) => s.accrue u) s0).settleBudgets
  { s1 with cores := Store.mapVals s1.cores fun _ c => c.nextInterval }

/-- Steps 3 to 6, from the tick at which the interval began. -/
def State.boundaryRests (s : State) (start : Nat) : State :=
  let s1 : State := (upTo unitCount).foldl (fun (s : State) (u : Nat) => s.restInterval start u) s
  let s2 : State := (upTo 4).foldl (fun (s : State) (q : Nat) => s.startRests q) s1
  s2.callSpares

/-- Values that SET_LIFE and FACTOR_TABLES have set come into force (R366, R374, R376). -/
def State.adoptWearctl (s : State) : State :=
  let s1 := s.wear.nextWearctl.foldl (fun (s : State) (kv : Nat × BitVec 64) => s.modQuad kv.1 fun z => { z with wearctl := kv.2 }) s
  s1.modWear fun w => { w with nextWearctl := [] }

/-- The records of the boundary, which the dispatcher and RDWEAR see until the next (R277, R369, R382). -/
def State.recordBoundary (s : State) : State := s.modWear fun w => { w with boundary := w.records }

/-- INTERVAL_BOUNDARY (R369). -/
def execIntervalBoundary (s : State) : Host.Outcome State Fault Refusal :=
  if s.mod.tick < s.mod.nextBoundary then .next s
  else
    let start := s.intervalStart
    let s1 := s.adoptWearctl.boundaryStress.boundaryRests start
    let s2 := s1.modWear fun w =>
      ({ w with intervals := w.intervals + 1, lifectl := w.nextLifectl, fv := w.nextFv, ft := w.nextFt, activity := {} }).store
    let s2 := s2.recordBoundary
    let due (p : Part) : Part := { p with disp := { p.disp with decide := true } }
    let s3 : State := { s2 with parts := Store.mapVals s2.parts fun _ p => due p }
    let s4 := (s3.modMod fun m => { m with nextBoundary := m.nextBoundary + 84000000 }).readSensors.strikes.readDrops
    .next (if s4.wear.intervals % 1024 = 0 then s4.measureAll else s4)

/-! ### BOOST (R378 to R381) -/

/-- The fields of BOOSTCTL (R377). -/
def bcMaxDur (w : BitVec 32) : Nat := (w.extractLsb' 16 16).toNat
def bcTmax (w : BitVec 32) : Nat := (w.extractLsb' 8 8).toNat
def bcCores (w : BitVec 32) : Nat := (w.extractLsb' 0 6).toNat

/-- BOOSTCTL of the partition of a core. -/
def State.boostctl (s : State) (core : Nat) : BitVec 32 := (s.part (s.partOfCore core)).regs.boostctl

/-- X of R379 for a physical core. -/
def State.quote (s : State) (u : Nat) : Int :=
  let ft := s.wear.ft.getD (bits (s.wearOf u).point 26 24) 0
  let at' (col : Nat) : Int := stressSum (s.wear.fv.getD col 0) ft 4 64
  at' 3 - at' (supplyCol (Store.get 750 s.wear.sensors.nominal u))

/-- LBUD of a physical core. -/
def State.lbudOf (s : State) (u : Nat) : Int := Store.get 0 s.wear.lbud u

/-- What a BOOST of d intervals answers (R378): the code, the intervals granted, and the state. -/
def State.boost (s : State) (core vdev d : Nat) : Nat × Nat × State :=
  let u := (s.unitOfCore core).getD 0
  let ctl := s.boostctl core
  let refund : Int := match (s.core core).grant with
    | some g => g.x * (g.remaining : Int)
    | none => 0
  let holders := (s.cores.filter fun c => quadOfCore c.1 == quadOfCore core && c.2.grant.isSome).length
  let enabled := ((Store.find s.vdevs vdev).map (·.boosten)).getD false
  let x := s.quote u
  if d = 0 then (0, 0, s.endGrant core)
  else if !enabled || ((s.core core).grant.isNone && decide (bcCores ctl < holders + 1)) then (3, 0, s)
  else if bcTmax ctl < Store.get 55 s.wear.sensors.lastTemp u then (4, 0, s)
  else if x ≤ 0 then (5, 0, s)
  else
    let k := min (min d (bcMaxDur ctl)) ((s.lbudOf u + refund) / x).toNat
    if k = 0 then (2, 0, s)
    else
      let on := (s.core core).boost
      let s1 := ((s.endGrant core).addLbud u (-(x * (k : Int)))).modCore core fun c => { c with grant := some ⟨k, x, vdev⟩, boost := on }
      ((if k = d then 0 else 1), k, s1)

/-- BOOST (R378). -/
def execBoost (d : BitVec 7) (a : BitVec 7) (s : State) : Host.Outcome State Fault Refusal :=
  issue s (.boost d a) fun s x g =>
    let n := (g.regs.sc a.toNat).toNat
    if 65535 < n then .trap (x.trap .illegalOperand)
    else
      let vdev := ((Store.find s.teams x.tid).map (·.id.vdev)).getD 0
      let (code, k, s1) := s.boost x.core vdev n
      .done (s1.modRegs x.gid fun r => (r.setSc d.toNat (BitVec.ofNat 32 code)).setSc (d.toNat + 1) (BitVec.ofNat 32 k))

/-- Whether a core that is boosted, or holds a grant, is hotter than BOOSTTMAX allows (R380). -/
def State.tooHot (s : State) (core : Nat) : Bool :=
  ((s.core core).boost || (s.core core).grant.isSome) &&
  (match s.unitOfCore core with
   | some u => decide (bcTmax (s.boostctl core) < Store.get 55 s.wear.sensors.temp u)
   | none => false)

/-- BOOST_THERMAL_DROP (R380): the clock drops at once, and the present interval keeps its X. -/
def execBoostThermalDrop (core : Nat) (s : State) : Host.Outcome State Fault Refusal :=
  if !s.tooHot core then .next s
  else .next ((s.endGrant core).modCore core fun c => { c with boost := false })

/-! ### RDWEAR and RDLIFE (R382, R383) -/

/-- The unit that RDWEAR names, from its kind and index. -/
def State.wearUnit (s : State) (core kind n : Nat) : Option Nat :=
  let u := (s.unitOfCore core).getD 0
  match kind with
  | 0 => some u
  | 1 => some (u + 208)
  | 2 => if n < 16 then some (416 + 16 * quadOfCore core + n) else none
  | _ => if n < 5 then some (480 + 5 * quadOfCore core + n) else none

/-- A field of a wear record (R382). -/
def WearRecord.read (r : WearRecord) (f : Nat) : Nat := match f with
  | 0 => r.b
  | 1 => r.h
  | 2 => r.e
  | 3 => r.w
  | 4 => r.p
  | 5 => r.mon
  | 6 => r.rests
  | 7 => r.lastW
  | _ => r.point

/-- RDWEAR (R382): of the records of the most recent boundary. -/
def execRdwear (d : BitVec 7) (a : BitVec 7) (k : BitVec 3) (f : BitVec 4) (s : State) : Host.Outcome State Fault Refusal :=
  issue s (.rdwear d a k f) fun s x g =>
    match s.wearUnit x.core k.toNat (g.regs.sc a.toNat).toNat with
    | none => .trap (x.trap .illegalOperand)
    | some u => .done (s.modRegs x.gid fun r => r.setSc64 d.toNat (BitVec.ofNat 64 ((Store.get {} s.wear.boundary u).read f.toNat)))

/-- The value that an RDLIFE selector reads (R383). -/
def State.lifeValue (s : State) (core sel : Nat) : BitVec 64 :=
  let u := (s.unitOfCore core).getD 0
  match sel with
  | 0 => BitVec.ofInt 64 (s.lbudOf u)
  | 1 => BitVec.ofNat 64 (allowance s.wear.lifectl)
  | 2 => BitVec.ofInt 64 s.wear.lbudcap
  | 3 => BitVec.ofNat 64 s.wear.nextLifectl
  | 4 => match (s.core core).grant with
    | some g => BitVec.ofInt 32 g.x ++ BitVec.ofNat 32 g.remaining
    | none => 0
  | 5 => BitVec.ofNat 64 s.wear.intervals
  | _ => BitVec.ofInt 64 (s.quote u)

/-- RDLIFE (R383). -/
def execRdlife (d : BitVec 7) (i : BitVec 11) (s : State) : Host.Outcome State Fault Refusal :=
  issue s (.rdlife d i) fun s x _ => .done (s.modRegs x.gid fun r => r.setSc64 d.toNat (s.lifeValue x.core i.toNat))

/-! ### The commands (R366, R376, R377, R387) -/

/-- Whether a WEARCTL holds values in their ranges (R376). -/
def wearctlOk (w : BitVec 64) : Bool := decide (wcRestMax w ≤ 48) && decide (1 ≤ wcRestN w) && decide (wcRestN w ≤ 16) && decide (100 ≤ wcRetire w)

/-- SET_LIFE (R374, R376, R408). -/
def execSetLife (src : CommandSource) (s : State) : Host.Outcome State Fault Refusal :=
  s.runCommand src 0x09 0 fun c s =>
    let target := c.get 0 4
    let life (s : State) : State := if target = 0 then s else s.modWear fun w => { w with nextLifectl := target }
    if !c.expert then (if target = 0 then .refused 1 0 else .done (life s) [])
    else
      let cap := c.get 8 8
      let mask := c.get 16 1
      let ctl := BitVec.ofNat 64 (c.get 24 8)
      if 16 ≤ mask ∨ (mask ≠ 0 ∧ !wearctlOk ctl) then .refused 1 0
      else
        let s1 := if cap = 0 then life s else (life s).modWear fun w => { w with lbudcap := cap }
        let s2 := (upTo 4).foldl (fun (s : State) (q : Nat) =>
          if bit mask q then s.modWear fun w => { w with nextWearctl := Store.put w.nextWearctl q ctl } else s) s1
        .done (if s2.wear = (life s).wear then s2 else s2.measureSettings) []

/-- BOOST_POLICY (R377, R408); a change is measured (R411). -/
def execBoostPolicy (src : CommandSource) (s : State) : Host.Outcome State Fault Refusal :=
  s.runCommand src 0x0A 0 fun c s =>
    if !c.expert then
      if 2 ≤ c.get 1 1 then .refused 1 0 else .done (s.modVdev (c.get 0 1) fun v => { v with boosten := c.get 1 1 == 1 }) []
    else
      let w := BitVec.ofNat 32 (c.get 4 4)
      if !Store.has s.parts (c.get 0 1) ∨ bcMaxDur w = 0 ∨ bcTmax w < 55 ∨ 95 < bcTmax w ∨ w.extractLsb' 6 2 ≠ 0 ∨ 48 < bcCores w then .refused 1 0
      else if (s.part (c.get 0 1)).regs.boostctl = w then .done s []
      else .done (s.modPart (c.get 0 1) fun p => { p with regs := { p.regs with boostctl := w } }).measureSettings []

/-- Whether five factors are in range and not decreasing (R366). -/
def factorsOk (t : List Nat) : Bool := t.all (fun x => decide (1 ≤ x)) && (t.zip (t.drop 1)).all fun x => decide (x.1 ≤ x.2)

/-- FACTOR_TABLES (R366, R408); a change is measured (R411). -/
def execFactorTables (src : CommandSource) (s : State) : Host.Outcome State Fault Refusal :=
  s.runCommand src 0x11 0 fun c s =>
    let fv := (upTo 5).map fun i => c.get i 1
    let ft := (upTo 5).map fun i => c.get (5 + i) 1
    if !factorsOk fv ∨ !factorsOk ft then .refused 1 0
    else if s.wear.nextFv = fv ∧ s.wear.nextFt = ft then .done s []
    else .done (s.modWear fun w => { w with nextFv := fv, nextFt := ft }).measureSettings []

/-! ### Refresh and scrub -/

/-- BANK_REFRESH (R83): the bank refreshes one row, at a clk; the slip of a vector read of that clk is part of its issue. -/
def State.refreshBank (s : State) (core bench bank : Nat) : State :=
  s.modBench (core * 16 + bench) fun b => { b with refreshed := Store.put b.refreshed bank (s.core core).clk }

/-- BANK_REFRESH (R83). -/
def execBankRefresh (core : Nat) (bench : Nat) (bank : Nat) (s : State) : Host.Outcome State Fault Refusal :=
  if 192 ≤ core ∨ 16 ≤ bench ∨ 4 ≤ bank then .next s else .next (s.refreshBank core bench bank)

/-- The LLC that holds a sector, by its quadrant, and whether its copy is lost (R217). -/
def State.cachedSector (s : State) (k : Nat) : Option (Nat × Bool) :=
  let hi := k % 2 == 1
  s.quads.findSome? fun kv => (Store.find kv.2.llc.lines (k / 2 * 128)).bind fun l => if l.valid hi then some (kv.1, l.bad hi) else none

/-- The pass of the scrub has found the error of a sector. -/
def ScrubPass.mark (p : ScrubPass) (k : Nat) : ScrubPass := { p with found := if p.found.contains k then p.found else p.found ++ [k] }

/-- The scrub has found an error in the copy of a sector that an LLC holds. -/
def State.foundInLlc (s : State) (k : Nat) : State := (s.detect (.sector (64 * k))).modMod fun m => { m with llcScrub := m.llcScrub.mark k }
/-- The scrub has found an error in a sector of memory, whether or not an LLC holds it. -/
def State.foundInMemory (s : State) (k : Nat) : State := (s.detect (.memory (64 * k))).modMod fun m => { m with dramScrub := m.dramScrub.mark k }

/-- A sector holds an error from now on that no code corrects: in its copy in an LLC, else in memory. -/
def State.spoilSector (s : State) (k : Nat) : State := match s.cachedSector k with
  | some (q, _) => s.strikeLlc q (k / 2 * 128) (k % 2)
  | none => if s.mod.frames.bad.contains k then s else s.modMod fun m => { m with frames := { m.frames with bad := m.frames.bad ++ [k] } }

/-- PATROL_SCRUB (R217, R220, R352, R390): of the sector at an address, or of its copy in an LLC. One that holds an uncorrectable error is found so, in
its copy and then in the memory behind it, whatever else the scrub may find: it raises the interrupt and faults no program. A corrected one is counted, logged and good again. -/
def execPatrolScrub (line : Nat) (finding : ScrubFinding) (s : State) : Host.Outcome State Fault Refusal :=
  let a := line / 64 * 64
  let k := a / 64
  let cached := s.cachedSector k
  if !isDeviceMemory a ∧ cached.isNone then .next s
  else
    let q := match cached with
      | some (q, _) => q
      | none => (homeQuad [] a).getD 0
    let behind := isDeviceMemory a && s.mod.frames.bad.contains k
    if cached.any (·.2) && !(behind && s.mod.llcScrub.found.contains k) then .next (s.foundInLlc k)
    else if behind then .next (s.foundInMemory k)
    else match finding with
      | .clean => .next s
      | .corrected =>
        let code := if cached.isSome then 0x201 else 0x200
        let unit := if cached.isSome then 416 + 16 * q + llcSlice q a else 0xFFFFFFFF
        .next ((s.corrected q (s.frameVdev a) code unit a).count q (s.frameVdev a) 0x205 1)
      | .uncorrectable => .next (if cached.isSome then (s.spoilSector k).foundInLlc k else (s.spoilSector k).foundInMemory k)

/-- The sectors with an uncorrectable error that a pass has still to find: of the LLCs, or of memory. -/
def State.scrubLeft (s : State) (llc : Bool) : List Nat :=
  if llc then
    (s.quads.flatMap fun kv => kv.2.llc.lines.flatMap fun l =>
      (if l.2.valid0 && l.2.bad false then [l.1 / 64] else []) ++ (if l.2.valid1 && l.2.bad true then [l.1 / 64 + 1] else [])).filter fun k => !s.mod.llcScrub.found.contains k
  else s.mod.frames.bad.filter fun k => !s.mod.dramScrub.found.contains k

/-- A pass of the scrub must have read everything by now (R220): once in 24 hours memory, once an hour the LLCs. -/
def State.scrubDue (s : State) : Option Nat :=
  if s.mod.llcScrub.due ≤ s.mod.tick ∧ !(s.scrubLeft true).isEmpty then (s.scrubLeft true).head?
  else if s.mod.dramScrub.due ≤ s.mod.tick then (s.scrubLeft false).head?
  else none

/-- A pass of the scrub that has read everything begins anew. -/
def State.scrubRenewed (s : State) : Option State :=
  if s.mod.llcScrub.due ≤ s.mod.tick ∧ (s.scrubLeft true).isEmpty then
    some (s.modMod fun m => { m with llcScrub := { due := m.llcScrub.due + 302400000000000 } })
  else if s.mod.dramScrub.due ≤ s.mod.tick ∧ (s.scrubLeft false).isEmpty then
    some (s.modMod fun m => { m with dramScrub := { due := m.dramScrub.due + 7257600000000000 } })
  else none

end Sys2Proof.Machine
end

