-- ==== Sys2Proof/Machine/Debug.lean ====
section
/-! DEFINITION. The debugger's commands, samples and triggers (R129, R398, R409, R413, R414), dumps (R331, R332) and the attestation report
(R386, R408, R412). -/

namespace Sys2Proof.Machine

/-! ### DEBUG_ATTACH (R409, R413, R414) -/

/-- Whether a protected context is resident (R413). -/
def State.protectedResident (s : State) : Bool := s.vdevs.any fun v => v.2.ctx.prot && s.isResident v.1 v.2

/-- The number of groups of a device that are stopped now (R408): all of them when it is halted. -/
def State.stoppedNow (s : State) (vdev : Nat) : Nat :=
  let halted := ((Store.find s.vdevs vdev).map fun v => v.ctx.halted).getD false
  ((s.groupsOfVdev vdev).filter fun kv => !kv.2.flow.exited && (halted || kv.2.stops.stop.isSome)).length +
  (((Store.find s.vdevs vdev).map fun v => (v.saved.teams.flatMap (·.groups)).filter fun g => g.stops.stop.isSome).getD []).length

/-- The reply of DEBUG_ATTACH. -/
def State.stoppedReply (s : State) (vdev : Nat) : List Byte := bytesOf 4 (s.stoppedNow vdev)

/-- A DEBUG_ATTACH with its operation, of a device that is not protected; the stop policy and the attach kind are in their ranges (R408). -/
def debugWith (s : State) (src : CommandSource) (op : Nat) (body : Command → Nat → Vdev → State → Reply) : Host.Outcome State Fault Refusal :=
  s.runCommand src 0x0E op fun c s =>
    let vdev := c.get 0 1
    match Store.find s.vdevs vdev with
    | none => .refused 1 0
    | some v => if v.ctx.prot then .refused 3 0 else if 2 < c.get 2 1 ∨ 1 < c.get 3 1 then .refused 1 0 else body c vdev v s

/-- A DEBUG_ATTACH operation that needs an attached debugger. -/
def debugOn (s : State) (src : CommandSource) (op : Nat) (body : Command → Nat → Vdev → Debugger → State → Reply) : Host.Outcome State Fault Refusal :=
  debugWith s src op fun c vdev v s => match v.debugger with
    | none => .refused 3 0
    | some d => body c vdev v d s

/-- A vendor attach in the provisioned state erases the context key of every protected context (R311, R413). -/
def State.eraseKeys (s : State) : State :=
  let erase (v : Vdev) : Vdev := if v.ctx.prot then { v with ctx := { v.ctx with key := none, keyErased := true } } else v
  { s with vdevs := Store.mapVals s.vdevs fun _ v => erase v }

/-- Whether a vendor token names this device's identity and carries the vendor's signature over it (R408, R413). -/
def State.tokenGood (s : State) (c : Command) : Bool := c.bytes 256 32 == digestOf s.mod.ident.publicKey && Config.vendorToken (c.bytes 256 2452)

/-- DEBUG_ATTACH, attach (R409, R411, R413, R414). -/
def execDebugAttachAttach (src : CommandSource) (s : State) : Host.Outcome State Fault Refusal :=
  debugWith s src 0 fun c vdev v s =>
    let vendor := c.get 3 1 == 1
    if v.debugger.isSome then .refused 3 0
    else if vendor ∧ (s.protectedResident ∨ !s.tokenGood c) then .refused 3 0
    else
      let s1 := if vendor ∧ s.mod.ident.security = .provisioned then s.eraseKeys else s
      let s2 := s1.modVdev vdev fun v => { v with debugger := some { policy := c.get 2 1, vendor := vendor } }
      let s3 := s2.extendMr 7 (digestOf [0, if vendor then 1 else 0])
      .done s3 (s3.stoppedReply vdev)

/-- A group that the debugger stopped goes on. -/
def Group.released (g : Group) (clk : Nat) : Group :=
  match g.stops.stop with
  | some t =>
    let h := if t.code = .breakpoint then g.resumed clk else g
    { h with stops := { h.stops with stepOne := false } }
  | none => { g with stops := { g.stops with stepOne := false } }

/-- DEBUG_ATTACH, detach (R409): every group that the debugger stopped resumes, and a halt of its own is cleared. -/
def execDebugAttachDetach (src : CommandSource) (s : State) : Host.Outcome State Fault Refusal :=
  debugOn s src 1 fun _ vdev _ d s =>
    let gids := (s.groupsOfVdev vdev).map (·.1)
    let s1 := gids.foldl (fun (s : State) (g : Nat) => s.modGroup g fun x => x.released (s.core (coreOf g)).clk) s
    let free (t : SavedTeam) : SavedTeam := { t with groups := t.groups.map fun g => g.released 0 }
    let s2 := s1.modVdev vdev fun v =>
      { v with
        debugger := none
        saved := { v.saved with teams := v.saved.teams.map free }
        ctx := if v.ctx.haltFault.isNone then { v.ctx with halted := false } else v.ctx }
    let quiet (p : Part) : Part := match p.sampling with
      | some x => if x.vdev = vdev then { p with sampling := none } else p
      | none => p
    let s3 : State := { s2 with parts := Store.mapVals s2.parts fun _ p => quiet p }
    let s4 := s3.extendMr 7 (digestOf [1, if d.vendor then 1 else 0])
    .done s4 (s4.stoppedReply vdev)

/-- DEBUG_ATTACH, stop (R408, R409): the group, team or device that the policy of the command names. -/
def execDebugAttachStop (src : CommandSource) (s : State) : Host.Outcome State Fault Refusal :=
  debugOn s src 2 fun c vdev _ _ s =>
    let policy := c.get 2 1
    let team := c.get 4 4; let group := c.get 8 1
    let tid := ((s.teamsOf vdev).find? fun t => t.2.id.number == team).map (·.1)
    let gid := ((s.named vdev team group).head?).map (·.1)
    if (policy = 0 ∧ gid.isNone) ∨ (policy = 1 ∧ tid.isNone) then .refused 3 0
    else
      let s1 := s.stopUnder policy vdev (tid.getD 0) gid
      .done s1 (s1.stoppedReply vdev)

/-- DEBUG_ATTACH, step (R409): one stopped group goes on for one instruction; in a halted device no other group does. -/
def execDebugAttachStep (src : CommandSource) (s : State) : Host.Outcome State Fault Refusal :=
  debugOn s src 3 fun c vdev v _ s =>
    let may (g : Group) : Bool := match g.stops.stop with
      | some _ => g.answerable v.ctx.trapsvc
      | none => v.ctx.halted && v.ctx.haltFault.isNone && !g.flow.exited
    match (s.named vdev (c.get 4 4) (c.get 8 1)).find? fun kv => may kv.2 with
    | none => .refused 3 0
    | some kv =>
      let s1 := s.modGroup kv.1 fun g =>
        let h := g.resumed (s.core (coreOf kv.1)).clk
        { h with stops := { h.stops with stepOne := true } }
      .done s1 (s1.stoppedReply vdev)

/-- DEBUG_ATTACH, set sampling (R409). -/
def execDebugAttachSetSampling (src : CommandSource) (s : State) : Host.Outcome State Fault Refusal :=
  debugOn s src 4 fun c vdev v _ s =>
    let buf := c.get 16 8; let len := c.get 24 4; let k := c.get 28 1
    let low := c.get 40 8; let high := c.get 48 8
    if k < 4 ∨ 24 < k ∨ !(s.hostRange buf (max 1 len)) ∨ (32 ≤ c.get 36 1 ∧ c.get 36 1 ≠ 0xFF) ∨ 2 ^ 56 ≤ low ∨ 2 ^ 56 ≤ high then .refused 1 0
    else
      let sm : Sampling := { vdev := vdev, buffer := buf, length := len, rate := k, team := c.get 32 4, group := c.get 36 1, low := low, high := high }
      let s1 := s.modPart (descPart v.desc) fun p => { p with sampling := some sm }
      .done s1 (s1.stoppedReply vdev)

/-- The counter selectors of R390. -/
def isCounter (n : Nat) : Bool := decide (n ≤ 0x009) || (decide (0x100 ≤ n) && decide (n ≤ 0x105)) || (decide (0x200 ≤ n) && decide (n ≤ 0x206))

/-- A trigger stage of 32 bytes (R408); one of zeros is absent. -/
def Command.stage (c : Command) (i : Nat) : Option Trigger :=
  let o := 64 + 32 * i
  let kind := c.get o 1
  let sel := c.get (o + 4) 4
  if (c.bytes o 32).all (· == 0) then none
  else some { kind := kind, selector := sel, value := if kind = 1 then sel else c.get (o + 8) 8 }

/-- DEBUG_ATTACH, set triggers (R409): up to four stages, of which the first is armed. -/
def execDebugAttachSetTriggers (src : CommandSource) (s : State) : Host.Outcome State Fault Refusal :=
  debugOn s src 5 fun c vdev _ d s =>
    let stages := (upTo 4).filterMap c.stage
    let bad (t : Trigger) : Bool := decide (2 < t.kind) || (t.kind == 0 && decide (2 ^ 56 ≤ t.value)) ||
      (t.kind == 1 && (t.value == 0 || decide (0x1B < t.value))) || (t.kind == 2 && !isCounter t.selector)
    if stages.any bad then .refused 1 0
    else
      let s1 := s.modVdev vdev fun v => { v with debugger := some { d with triggers := stages, armed := 0, hit := none } }
      .done s1 (s1.stoppedReply vdev)

/-! ### Triggers and samples -/

/-- Whether a counter of a device has passed the threshold of the stage that is armed (R409): in some quadrant of its partition. -/
def State.counterHit (s : State) (vdev : Nat) (v : Vdev) : Bool :=
  match v.debugger with
  | none => false
  | some d => match d.triggers[d.armed]? with
    | some t => t.kind == 2 && (s.quadsOf (descPart v.desc)).any fun q => decide (t.value ≤ s.counter q vdev t.selector)
    | none => false

/-- TRIGGER_STAGE (R409): a stage that matched arms the next; the last stops what the policy names, or the device when no group that is there matched
it. -/
def execTriggerStage (vdev : Nat) (s : State) : Host.Outcome State Fault Refusal :=
  match Store.find s.vdevs vdev with
  | none => .next s
  | some v => match v.debugger with
    | none => .next s
    | some d =>
      if d.hit.isNone ∧ !s.counterHit vdev v then .next s
      else
        let s1 := s.modVdev vdev fun v => { v with debugger := some { d with armed := d.armed + 1, hit := none } }
        if d.armed + 1 < d.triggers.length then .next s1
        else match d.hit with
          | some (some gid) => match Store.find s1.groups gid with
            | some g => .next (s1.stopUnder d.policy vdev g.tid (some gid))
            | none => .next (s1.stopUnder 2 vdev 0 none)
          | _ => .next (s1.stopUnder 2 vdev 0 none)

/-- SAMPLE (R398, R409): a record of 64 bytes of the issue that is sampled, the core before the fields that a fault record has, and as its RESUME the PC at
which its slot now stands, while the buffer has room and is reached (DEDUCED, log 30). -/
def execSample (gid : Nat) (s : State) : Host.Outcome State Fault Refusal :=
  match Store.find s.groups gid, s.callerOf gid with
  | some g, some t => match (s.part t.part).sampling with
    | none => .next s
    | some sm => match sm.sampled with
      | none => .next s
      | some (from', r) =>
        let put (x : Sampling) (s : State) : State := s.modPart t.part fun p => { p with sampling := some { x with sampled := none } }
        if from' ≠ gid then .next s
        else if sm.length < sm.written + 64 ∨ !s.hostRange (sm.buffer + sm.written) 64 then .next (put sm s)
        else
          let s1 := s.coherentWrite (s.quadsOf t.part) (sm.buffer + sm.written)
            (bytesOf 4 (coreOf gid) ++ (FaultRecord.bytes { r with resume := (g.flow.slot r.slot).pc }).drop 4)
          .next (put { sm with written := sm.written + 64 } s1)
  | _, _ => .next s

/-! ### DUMP (R331, R332) -/

/-- The header of a dump. -/
def dumpHeader (c : Context) (flags declen written wfaddr : Nat) : List Byte :=
  let f := c.haltFault.getD ⟨0, 0, 0, 0, 0, 0, 0⟩
  bytesOf 4 0x504D444B ++ bytesOf 4 flags ++ bytesOf 4 c.ctxid ++ bytesOf 4 f.code ++ bytesOf 8 declen ++ bytesOf 8 written ++ bytesOf 8 wfaddr ++
    bytesOf 4 f.team ++ bytesOf 4 f.group ++ bytesOf 8 f.pc.toNat ++ bytesOf 4 f.mask.toNat ++ bytesOf 4 0

/-- The bytes of a dump header that the tag covers. -/
def dumpAad (h : List Byte) : List Byte := h.take 4 ++ (h.drop 8).take 16 ++ (h.drop 40).take 20

/-- The sealing block of a dump, with a tag. -/
def dumpSeal (c : Context) (counter : Nat) (tag : List Byte) : List Byte := bytesOf 4 c.ctxid ++ bytesOf 8 (2 ^ 63 + counter) ++ bytesOf 4 0 ++ tag

/-- Sixteen zero bytes. -/
def noTag : List Byte := List.replicate 16 0

/-- DUMP of a halted device by the host (R332): its body is firmware's, and free, and so is whether a page of the buffer refuses a write. -/
def State.dumpTo (s : State) (vdev buf len : Nat) (c0 : Context) : Reply :=
  let c : Context := if c0.prot then { c0 with dumps := c0.dumps + 1 } else c0
  let s1 := s.modCtx vdev fun _ => c
  let flag : Nat := if c.prot then 4 else 0
  let index := s1.sched.free
  let (n, s2) := s1.anyNat (2 ^ 32)
  let declen := 64 + (if c.prot then 32 else 0) + n
  let clear := (upTo n).map (Config.imageByte index)
  let head := dumpHeader c flag declen 0 0
  let (body, tag) := if c.prot then sealed c (sealIV c.ctxid (2 ^ 63 + c.dumps)) (dumpAad head) clear else (clear, [])
  let (refusesHeader, s3) := s2.choose
  if refusesHeader || !s3.hostRange buf 64 then .done s3 (bytesOf 8 0 ++ bytesOf 8 buf)
  else
    let (refusesBody, s4) := s3.choose
    let (page, s5) := s4.anyNat (len / 4096 + 1)
    let room := min len declen
    let wall := max 64 ((buf / 4096 + page + 1) * 4096 - buf)
    let past := (upTo (room / 4096 + 2)).find? fun k => !s5.hostRange buf (min (max 64 room) ((buf / 4096 + k + 1) * 4096 - buf))
    let reach := match past with
      | some k => max 64 ((buf / 4096 + k) * 4096 - buf)
      | none => room
    let stop := if refusesBody then min reach (min wall room) else reach
    let faulted := decide (stop < room)
    let whole := stop = declen
    let flags := flag + (if faulted then 2 else 0) + (if len < declen then 1 else 0)
    let final := dumpHeader c flags declen stop (if faulted then buf + stop else 0)
    let block := if c.prot then dumpSeal c c.dumps (if whole then tag else noTag) else []
    let s6 := s5.coherentWrite (s5.quadsOf (((Store.find s5.vdevs vdev).map fun v => descPart v.desc).getD 0)) buf ((final ++ block ++ body).take stop)
    let s7 := if c.prot ∧ whole then s6.modCtx vdev fun x => { x with sealedDumps := Store.put x.sealedDumps x.dumps (index, n) } else s6
    .done s7 (bytesOf 8 stop ++ bytesOf 8 (if faulted then buf + stop else 0))

/-- DUMP by the host (R332, R408). -/
def State.hostDump (s : State) (c : Command) : Reply :=
  let vdev := c.get 0 1; let buf := c.get 8 8; let len := c.get 16 8
  match Store.find s.vdevs vdev with
  | none => .refused 1 0
  | some v =>
    if v.lost ∨ !v.ctx.halted then .refused 3 0
    else if len < 64 then .refused 1 0
    else s.dumpTo vdev buf len v.ctx

/-- DUMP by a guest (R331, R413): a dump that this device sealed opens, and its clear body is written into the guest's own memory. -/
def State.guestDump (s : State) (c : Command) : Reply :=
  match c.src with
  | .mailbox _ => .refused 3 0
  | .guest gid => match (s.callerOf gid).bind fun t => (Store.find s.vdevs t.vdev).map fun v => (t, v) with
    | none => .refused 1 0
    | some (t, v) =>
      let at' := c.get 8 8; let len := c.get 16 8; let dst := c.get 24 8; let room := c.get 32 8
      if !v.ctx.prot ∨ v.lost then .refused 3 0
      else if len < 96 then .refused 1 0
      else match s.guestRead t.part t.vdev at' (min len (2 ^ 33)) with
        | (_, .error _) => .refused 1 0
        | (s, .ok b) =>
          let counter := field b 68 8 - 2 ^ 63
          match Store.find v.ctx.sealedDumps counter with
          | none => .refused 1 3
          | some (index, n) =>
            let clear := (upTo n).map (Config.imageByte index)
            let (body, tag) := sealed v.ctx (field b 64 12) (dumpAad b) clear
            if field b 68 8 < 2 ^ 63 ∨ field b 16 8 ≠ 96 + n ∨ (b.drop 64).take 32 ≠ dumpSeal v.ctx counter tag ∨ (b.drop 96).take n ≠ body then .refused 1 3
            else
              let out := clear.take room
              let (s1, done, ok) := s.commandWrite c.src dst out
              if ok then .done s1 (bytesOf 8 done) else .refused 1 0

/-- DUMP (R332): the command of the host. -/
def execDump (src : CommandSource) (s : State) : Host.Outcome State Fault Refusal :=
  if isGuest src then .next s else s.runCommand src 0x0F 0 fun c s => s.hostDump c

/-- DUMP_OPEN (R331): the DUMP service of a guest. -/
def execDumpOpen (src : CommandSource) (s : State) : Host.Outcome State Fault Refusal :=
  if isGuest src then s.runCommand src 0x0F 0 fun c s => s.guestDump c else .next s

/-! ### ATTEST (R386, R408, R412) -/

/-- Cut or fill bytes to a length. -/
def fit (n : Nat) (b : List Byte) : List Byte := b.take n ++ List.replicate (n - b.length) 0

/-- The block of a quadrant in the wear block. -/
def State.wearQuad (s : State) (q : Nat) : List Byte :=
  let dies := [s.die (2 * q), s.die (2 * q + 1)]
  bytesOf 8 (s.minW s.coreW q) ++ bytesOf 8 (s.maxW s.coreW q) ++ bytesOf 8 (s.meanW s.coreW q) ++ bytesOf 1 ((s.inService q).filter s.coreRests).length ++
    bytesOf 1 (dies.map fun d => d.spares.length).sum ++ bytesOf 1 (dies.map fun d => d.retired.length).sum ++ bytesOf 5 0

/-- The wear block (R386). -/
def State.wearBlock (s : State) : List Byte :=
  let bank := s.wear.current
  bytesOf 8 bank.intervals ++ bytesOf 4 s.wear.nextLifectl ++ bytesOf 4 0 ++ digestOf bank.image ++ s.setDigest ++
    (upTo 4).flatMap s.wearQuad ++ List.replicate 48 0

/-- The security state of a report (R412). -/
def State.securityByte (s : State) : Nat := if s.protectedResident then 2 else match s.mod.ident.security with
  | .manufacturing => 0
  | .provisioned => 1
/-- The debug state of a report (R408). -/
def State.debugByte (s : State) : Nat :=
  let ds := s.vdevs.filterMap fun v => v.2.debugger
  if ds.any (·.vendor) then 2 else if ds.isEmpty then 0 else 1

/-- The ATTEST report, with or without the current bank, signed by the device's key (R410, R412). -/
def State.report (s : State) (nonce : List Byte) (bank : Bool) : List Byte :=
  let mrs := (upTo 8).flatMap fun i => bytesOf 32 (Store.get 0 s.mod.ident.mr i).toNat
  let body := nonce ++ mrs ++ bytesOf 1 s.securityByte ++ bytesOf 1 s.debugByte ++ List.replicate 14 0 ++ s.wearBlock ++
    (if bank then s.wear.current.image else [])
  body ++ fit 2420 (Config.sign (Config.privateKey Config.identitySeed) body)

/-- ATTEST (R408, R412). -/
def execAttest (src : CommandSource) (s : State) : Host.Outcome State Fault Refusal :=
  s.runCommand src 0x0B 0 fun c s =>
    if !c.expert then .done s (s.report (c.bytes 0 32) false)
    else
      let bank := c.get 32 1 == 1
      let buf := c.get 40 8; let len := c.get 48 8
      if 1 < c.get 32 1 ∨ len < (if bank then 34980 else 2980) then .refused 1 0
      else
        let r := s.report (c.bytes 0 32) bank
        let (s1, n, ok) := s.commandWrite c.src buf r
        if ok then .done s1 (bytesOf 8 n) else .refused 1 0

end Sys2Proof.Machine
end

