-- ==== Sys2Proof/Machine/System.lean ====
section
/-! DEFINITION. Firmware entry and what only firmware runs: ECALL, ERET and TLBI (R400, R401). -/

namespace Sys2Proof.Machine

/-- ECALL (R400): it waits for the open windows of its group; then both slots stop, and firmware starts at the code of the service with the
resume PC at PC + 4. -/
def execEcall (i : BitVec 11) (s : State) : Host.Outcome State Fault Refusal :=
  issueFlow s (.ecall i) fun s x g =>
    if g.ops.any fun o => !o.done then .wait (.order ((g.ops.filter fun o => !o.done).map (·.serial)))
    else
      let frame : FwFrame := { service := i.toNat, resume := x.pc + 4, s0 := g.flow.s0, s1 := g.flow.s1, slot := x.slot, fresh := true }
      .done (s.modFlow x.gid fun f =>
        let sl := f.slot x.slot
        { f.setSlot x.slot { sl with pc := Config.firmwareEntry i.toNat, readyAt := x.clk + 8 } with fw := some frame })

/-- ERET (R400): the slots are as at the ECALL, and the group goes on at its resume PC 8 clk later. -/
def execEret (s : State) : Host.Outcome State Fault Refusal :=
  issueFlow s .eret fun s x g => match g.flow.fw with
    | none => .trap (x.trap .privileged)
    | some w => .done (s.modFlow x.gid fun f =>
        let back := { f with s0 := w.s0, s1 := w.s1, fw := none }
        let sl := back.slot w.slot
        back.setSlot w.slot { sl with pc := w.resume, readyAt := x.clk + 8 })

/-- TLBI (R337, R401): one invalidation, complete before the group's next instruction: it waits for what a lease keeps from being performed. -/
def execTlbi (a : BitVec 7) (k : BitVec 3) (s : State) : Host.Outcome State Fault Refusal :=
  issue s (.tlbi a k) fun s x g =>
    let vdev := (g.regs.sc (a.toNat + 1)).toNat / 2 ^ 24
    let s1 := s.invalidated (s.partOfCore x.core) vdev k.toNat (if k.toNat = 3 then (g.regs.sc a.toNat).toNat else g.regs.scAddr a.toNat)
    if k.toNat ≠ 3 ∧ s1.unsettled vdev then .wait .stall else .done s1

/-- The service of a group that has entered firmware ends with no command (R400): an unknown code, a code that guests may not call, a block
that cannot be read or of which the OPCODE is another, or one that names no command. -/
def State.serviceEnds (s : State) (gid : Nat) (w : FwFrame) : Option State :=
  let src := CommandSource.guest gid
  let s1 := s.taken src
  if w.service = 0 ∨ 0x16 < w.service then some (s1.modRegs gid fun r => (r.setSc 0 0xFFFFFFFF).setSc 1 0)
  else if !((upTo 6).any fun sub => guestListed w.service sub) then some (s1.endCommand src 3 0 [])
  else match s1.blockOf src with
    | none => some (s1.endCommand src 1 0 [])
    | some b =>
      if field b 0 2 ≠ w.service then some (s1.endCommand src 1 0 [])
      else if isCommand w.service (subOf w.service b) then none
      else some (s1.giveCommand src)

end Sys2Proof.Machine
end

