-- ==== Sys2Proof/Machine/Host.lean ====
section
/-! DEFINITION. The host and the module: accesses to exported device memory (R403), power states (R403, R414, R415), the SPDM responder (R412),
module reset, power loss and boot (R5, R385, R411), and what runs the command of a block (R405 to R408). -/

namespace Sys2Proof.Machine

/-! ### HOST_MEMORY_ACCESS (R403) -/

/-- Whether the device that owns a frame holds a window grant for the host window (R333, R403). -/
def State.hostGranted (s : State) (a : Nat) : Bool := (Store.find s.vdevs (s.ownerOf a)).any fun v => v.tab.grants.any fun g => g.2.window == 1

/-- HOST_MEMORY_ACCESS (R403): a frame that firmware has not exported to the host is not reached: its device has a grant for the host window, and which of
its frames firmware has exported by it is a free choice, made once (DESIGN CHOICE, log 19). -/
def execHostMemoryAccess (access : ExternalAccess) (s : State) : Host.Outcome State Fault Refusal :=
  let a := outsideAddr access
  match homeQuad [] a with
  | none => .next s
  | some q =>
    let part := s.partOfQuad q
    if !s.frameHere part a || !s.hostGranted a then .next s
    else
      let (yes, s1) := s.exported part (frameOf a) 0
      .next (if yes then s1.outsideAccess part access else s1)

/-! ### POWER (R372, R414, R415) -/

/-- Whether a device that is resident has a core in a quadrant. -/
def State.quadHeld (s : State) (q : Nat) : Bool := s.parts.any fun p => p.2.disp.resident.any fun r => r.2.any fun c => quadOfCore c == q

/-- Quadrants go to rest (R415): the LLC is written back and emptied, and every core, array, slice and link macro powers down (R372). -/
def State.restQuad (s : State) (q : Nat) (deep : Bool) : State :=
  let z := s.quad q
  if z.power = .rest ∨ z.power = .deepIdle then (if deep then s.modQuad q fun z => { z with power := .deepIdle } else s)
  else
    let marks := s.quadQuarters q
    let s1 := z.llc.lines.foldl (fun (s : State) (l : Nat × LlcLine) => s.dropLine q l.1 0) s
    let s2 := s1.modWear fun w => { w with activity := { w.activity with quarters := Store.put w.activity.quarters q marks } }
    let s3 := s2.modQuad q fun z => { z with power := if deep then .deepIdle else .rest, powerFrom := s.mod.tick }
    (s.quadUnits q).foldl (fun (s : State) (u : Nat) => s.powerDown u) s3

/-- The quadrants of a mask. -/
def quadsIn (mask : Nat) : List Nat := (upTo 4).filter fun q => bit mask q

/-- POWER, quadrant rest (R415, R408). -/
def execPowerQuadrantRest (src : CommandSource) (s : State) : Host.Outcome State Fault Refusal :=
  s.runCommand src 0x15 0 fun c s =>
    let mask := c.get 1 1
    if 16 ≤ mask then .refused 1 0
    else if (quadsIn mask).any fun q => s.quadHeld q || (s.quad q).power == .exiting then .refused 3 0
    else .done ((quadsIn mask).foldl (fun (s : State) (q : Nat) => s.restQuad q false) s) []

/-- POWER, deep idle (R414, R415). -/
def execPowerDeepIdle (src : CommandSource) (s : State) : Host.Outcome State Fault Refusal :=
  s.runCommand src 0x15 1 fun _ s =>
    if s.protectedResident || (upTo 4).any (fun q => s.quadHeld q || (s.quad q).power == .exiting) then .refused 3 0
    else .done ((upTo 4).foldl (fun (s : State) (q : Nat) => s.restQuad q true) s) []

/-- POWER, exit (R415): 200 µs from a quadrant rest, 2 ms from deep idle. -/
def execPowerExit (src : CommandSource) (s : State) : Host.Outcome State Fault Refusal :=
  s.runCommand src 0x15 2 fun c s =>
    let mask := c.get 1 1
    if 16 ≤ mask then .refused 1 0
    else .done ((quadsIn mask).foldl (fun (s : State) (q : Nat) => s.wakeQuad q) s) []

/-- Whether the exit of a quadrant is complete (R415). -/
def State.exitDone (s : State) (q : Nat) : Bool := (s.quad q).power == .exiting && decide ((s.quad q).powerFrom ≤ s.mod.tick)

/-- A unit ends the rest of its quadrant (R371, R372). -/
def State.endQuadRest (s : State) (u : Nat) : State :=
  match (s.wearOf u).rest with
  | some r => if r.left ≠ 0 then s else
      let s1 := s.completeRest u
      match (if u < 208 then s1.logicalOf u else none) with
      | some c => s1.restartClk c
      | none => s1
  | none => s

/-- POWER_EXIT_COMPLETE (R403, R415): the quadrant is active, its units have rested (R372), and the packets that waited enter their queues. -/
def execPowerExitComplete (quad : Nat) (s : State) : Host.Outcome State Fault Refusal :=
  if !s.exitDone quad then .next s
  else
    let z := s.quad quad
    let s1 := (s.quadUnits quad).foldl (fun (s : State) (u : Nat) => s.endQuadRest u) s
    let s2 := s1.modQuad quad fun z => { z with power := .active, powerFrom := s.mod.tick, waiting := [] }
    let s3 := z.waiting.foldl (fun (s : State) (p : Nat × List Byte) => s.portWrite quad p.1 p.2) s2
    .next (s3.modDisp (s3.partOfQuad quad) fun d => { d with decide := true })

/-! ### The SPDM responder (R412) -/

/-- How far a phase has come. -/
def SpdmPhase.rank : SpdmPhase → Nat
  | .idle => 0 | .versioned => 1 | .capable => 2 | .negotiated => 3 | .keyed => 4 | .session => 5

/-- The algorithms of the responder (R412). -/
def spdmAlgorithms : List SpdmAlgorithm := [.mlDsa44, .sha3x256, .secp384r1, .aes256Gcm]

/-- Answer a request of a requester, with which there is an exchange of its own: in a phase that allows it the responder moves on; the bytes of every
response are free (PRESUMED, log 13). -/
def State.spdmAnswer (s : State) (code : Nat) (allowed : SpdmPhase → Bool) (next : SpdmLink → SpdmLink) (request : SpdmRequest) : State :=
  let mrs := (upTo 8).flatMap fun i => bytesOf 32 (Store.get 0 s.mod.ident.mr i).toNat
  let own := bytesOf 32 Config.chainDigest.toNat ++ Config.certificate
  let l := Store.get {} s.mod.ident.spdm request.requester
  if 2050 ≤ request.requester then s
  else s.modIdent fun i =>
    if allowed l.phase then { i with spdm := Store.put i.spdm request.requester (next l), response := Config.spdmResponse code (mrs ++ own ++ request.bytes) }
    else { i with response := Config.spdmResponse 0 request.bytes }

/-- An exchange in a phase. -/
def SpdmLink.at (p : SpdmPhase) (l : SpdmLink) : SpdmLink := { l with phase := p }

/-- GET_VERSION (R412): a new exchange begins. -/
def execGetVersion (request : SpdmRequest) (s : State) : Host.Outcome State Fault Refusal :=
  .next (s.spdmAnswer 1 (fun _ => true) (fun _ => { phase := .versioned }) request)
/-- GET_CAPABILITIES (R412). -/
def execGetCapabilities (request : SpdmRequest) (s : State) : Host.Outcome State Fault Refusal :=
  .next (s.spdmAnswer 2 (fun p => p == .versioned) (.at .capable) request)
/-- NEGOTIATE_ALGORITHMS (R412): a request that offers each of the four algorithms agrees on them; whether one does is a matter of its bytes, which the
spec does not lay out (PRESUMED, log 13). -/
def execNegotiateAlgorithms (request : SpdmRequest) (s : State) : Host.Outcome State Fault Refusal :=
  let offered := (upTo 4).all fun k => Config.spdmOffers k request.bytes
  .next (s.spdmAnswer 3 (fun p => p == .capable && offered) (fun _ => { phase := .negotiated, algorithms := spdmAlgorithms }) request)
/-- GET_DIGESTS (R410, R412): the digest of the certificate chain. -/
def execGetDigests (request : SpdmRequest) (s : State) : Host.Outcome State Fault Refusal :=
  .next (s.spdmAnswer 4 (fun p => decide (3 ≤ p.rank)) id request)
/-- GET_CERTIFICATE (R410, R412). -/
def execGetCertificate (request : SpdmRequest) (s : State) : Host.Outcome State Fault Refusal :=
  .next (s.spdmAnswer 5 (fun p => decide (3 ≤ p.rank)) id request)
/-- CHALLENGE (R412): signed by the device key. -/
def execChallenge (request : SpdmRequest) (s : State) : Host.Outcome State Fault Refusal :=
  .next (s.spdmAnswer 6 (fun p => decide (3 ≤ p.rank)) id request)
/-- GET_MEASUREMENTS (R411, R412): MR0 to MR7. -/
def execGetMeasurements (request : SpdmRequest) (s : State) : Host.Outcome State Fault Refusal :=
  .next (s.spdmAnswer 7 (fun p => decide (3 ≤ p.rank)) id request)
/-- KEY_EXCHANGE (R412). -/
def execKeyExchange (request : SpdmRequest) (s : State) : Host.Outcome State Fault Refusal :=
  .next (s.spdmAnswer 8 (fun p => p == .negotiated) (.at .keyed) request)
/-- FINISH (R412): the session is open. -/
def execFinish (request : SpdmRequest) (s : State) : Host.Outcome State Fault Refusal :=
  .next (s.spdmAnswer 9 (fun p => p == .keyed) (.at .session) request)
/-- END_SESSION (R412). -/
def execEndSession (request : SpdmRequest) (s : State) : Host.Outcome State Fault Refusal :=
  .next (s.spdmAnswer 10 (fun p => p == .session) (.at .negotiated) request)

/-! ### Reset, power and boot (R5, R13, R362, R385, R411, R413) -/

/-- Whether an address belongs to the companion processor or to a CXL device, which a reset of the module leaves alone. -/
def outsideModule (a : Nat) : Bool := match regionOf a with
  | .host _ | .cxl _ => true
  | _ => false

/-- The state after a reset: what is Preserved stays (R5, R13, R333, R362, R413), everything else is as State.reset has it; boot comes next. -/
def State.afterReset (s : State) : State :=
  let w := s.wear
  let keep (q : Nat) (z : Quad) : Quad := { z with wearctl := Store.get (s.quad q).wearctl w.nextWearctl q }
  let r := State.reset
  { r with
    mem := s.mem.filter fun c => outsideModule c.1
    quads := Store.mapVals r.quads keep
    wear := { lifectl := w.nextLifectl, nextLifectl := w.nextLifectl, lbudcap := w.lbudcap, fv := w.nextFv, ft := w.nextFt, nextFv := w.nextFv,
              nextFt := w.nextFt, bankA := w.bankA, bankB := w.bankB }
    mod := { r.mod with
      dies := s.mod.dies
      frames := { owner := [], retired := s.mod.frames.retired }
      ident := { r.mod.ident with security := s.mod.ident.security }
      outbox := s.mod.outbox }
    sched := { r.sched with free := s.sched.free } }

/-- MODULE_RESET (R5). -/
def execModuleReset (s : State) : Host.Outcome State Fault Refusal := .next s.afterReset

/-- POWER_LOSS (R385): what is not preserved is lost; a bank of the wear store that was being written may fail its checks. Boot comes when power
returns. -/
def execPowerLoss (s : State) : Host.Outcome State Fault Refusal :=
  let (torn, s1) := s.choose
  let tear (w : Wear) : Wear := if w.bankAIsCurrent then { w with bankB := { w.bankB with intact := false } } else { w with bankA := { w.bankA with intact := false } }
  let s2 := s1.afterReset
  .next ((if torn then s2.modWear tear else s2).modMod fun m => { m with powered := false })

/-- The charge of a boot for one unit (R385): the largest increments of an interval; then a rest that was in progress completes with the
intervals recorded. -/
def State.bootCharge (s : State) (u : Nat) : State :=
  let a : Int := allowance s.wear.lifectl
  let s1 := s.modWear fun w => { w with records := Store.modify {} w.records u fun r =>
    { r with b := r.b + 2916, h := r.h + 729, e := r.e + 729, p := r.p + 2916, lastW := 0, point := 0 } }
  (if u < 208 then s1.addLbud u (a - 4374) else s1).completeRest u

/-- The nominal base supply of each core is firmware's (R379): a free value from 700 to 900 mV. -/
def State.setNominal (s : State) : State :=
  (upTo 208).foldl (fun (s : State) (u : Nat) =>
    let (x, s1) := s.anyNat 201
    s1.modWear fun w => { w with sensors := { w.sensors with nominal := Store.put w.sensors.nominal u (700 + x) } }) s

/-- What boot measures (R411): the ROM, the fuses with the certificate and its chain's digest, and the patch; what the ROM, the other fuses and the patch
hold is free. -/
def State.measureBoot (s : State) : State :=
  let one (s : State) (n : Nat) (more : List Byte) : State :=
    let (d, s1) := s.anyBytes 32
    s1.extendMr n (digestOf (d ++ more))
  (one (one (one s 0 []) 1 (Config.certificate ++ bytesOf 32 Config.chainDigest.toNat)) 2 []).measureSettings

/-- The ROM derives the device's key pair (R410), and finds the module provisioned when its fuses say so: once it is, it stays so (R413, DESIGN CHOICE,
log 33). -/
def State.bootIdentity (s : State) : State :=
  let (done, s1) := s.choose
  s1.modIdent fun i =>
    { i with
      publicKey := fit 1312 (Config.publicKey Config.identitySeed)
      security := if done then .provisioned else i.security }

/-- Firmware programs the HDM decoder of each CXL port from the capacity of what is there, which is free (R404, DESIGN CHOICE, log 33). -/
def State.bootDecoders (s : State) : State :=
  (upTo 2).foldl (fun s p =>
    let (n, s1) := s.anyNat (2 ^ 47 + 1)
    s1.modMod fun m => { m with hdm := Store.put m.hdm p n }) s

/-- Firmware sets the map of each die (R12, R13): a spare that was called backs the core that it was called for; the rest of the map is as it was
preserved (DESIGN CHOICE, log 32). -/
def State.bootMap (s : State) : State :=
  (upTo 8).foldl (fun (s : State) (die : Nat) => (s.die die).pendingSwap.foldl (fun s x => s.swapIn die x.1 x.2) s) s

/-- BOOT (R12, R385, R404, R410, R411): firmware sets the core maps, loads the current bank of the wear store, charges one interval, derives the device's
keys, measures, programs the CXL ports, and reads the sensors. -/
def execBoot (s : State) : Host.Outcome State Fault Refusal :=
  let bank := s.wear.current
  let s1 := s.bootMap.modWear fun w => { w with records := bank.records, lbud := bank.lbud, intervals := bank.intervals }
  let s2 := (upTo unitCount).foldl (fun (s : State) (u : Nat) => s.bootCharge u) s1
  let s3 := s2.recordBoundary
  .next ((s3.setNominal.bootIdentity.measureBoot.bootDecoders.readSensors).modMod fun m => { m with powered := true })

end Sys2Proof.Machine
end

