-- ==== Sys2Proof/Machine/Commands.lean ====
section
/-! DEFINITION. What runs the command of a block (R400, R405 to R408): a step takes the command that a source has given. -/

namespace Sys2Proof.Machine

/-- The command that an opcode and an operation name (R407, R408). -/
def commandOf (op sub : Nat) (src : CommandSource) (s : State) : Host.Outcome State Fault Refusal :=
  match op, sub with
  | 0x01, _ => execCreateVdev src s
  | 0x02, _ => execDestroyVdev src s
  | 0x03, _ => execLaunchCommand src s
  | 0x04, _ => execSave src s
  | 0x05, _ => execRestore src s
  | 0x06, _ => execMigrateOut src s
  | 0x07, _ => execMigrateIn src s
  | 0x08, 0 => execCheckpointDisable src s
  | 0x08, 1 => execCheckpointRun src s
  | 0x08, _ => execCheckpointCloseNow src s
  | 0x09, _ => execSetLife src s
  | 0x0A, _ => execBoostPolicy src s
  | 0x0B, _ => execAttest src s
  | 0x0C, _ => execPartition src s
  | 0x0D, _ => execCarve src s
  | 0x0E, 0 => execDebugAttachAttach src s
  | 0x0E, 1 => execDebugAttachDetach src s
  | 0x0E, 2 => execDebugAttachStop src s
  | 0x0E, 3 => execDebugAttachStep src s
  | 0x0E, 4 => execDebugAttachSetSampling src s
  | 0x0E, _ => execDebugAttachSetTriggers src s
  | 0x0F, _ => if isGuest src then execDumpOpen src s else execDump src s
  | 0x10, _ => execRetirePage src s
  | 0x11, _ => execFactorTables src s
  | 0x12, 0 => execAnswerResume src s
  | 0x12, 1 => execAnswerAbort src s
  | 0x12, 2 => execAnswerReplay src s
  | 0x12, _ => execAnswerDecline src s
  | 0x13, 0 => execTablesSetS1root src s
  | 0x13, 1 => execTablesSetS2root src s
  | 0x13, 2 => execTablesInvalidate src s
  | 0x13, 3 => execTablesSetWindowGrant src s
  | 0x13, 4 => execTablesSetReplicaEntry src s
  | 0x13, _ => execTablesExtendMeasurement src s
  | 0x14, 0 => execCommsSetCommunicator src s
  | 0x14, 1 => execCommsRemoveCommunicator src s
  | 0x14, 2 => execCommsSetReductionGroup src s
  | 0x14, _ => execCommsRemoveReductionGroup src s
  | 0x15, 0 => execPowerQuadrantRest src s
  | 0x15, 1 => execPowerDeepIdle src s
  | 0x15, _ => execPowerExit src s
  | 0x16, 0 => execLogsFaultQueueState src s
  | 0x16, 1 => execLogsAdvanceTail src s
  | 0x16, 2 => execLogsReadEventLog src s
  | 0x16, 3 => execLogsSetEventInterrupt src s
  | 0x16, 4 => execLogsClearCounters src s
  | _, _ => .next s

/-- Firmware takes what a source has given (R400, R405): a service that ends with no command, or the command of the block. -/
def commandStep (src : CommandSource) (s : State) : Host.Outcome State Fault Refusal :=
  let ended : Option State := match src with
    | .mailbox _ => none
    | .guest gid => match (Store.find s.groups gid).bind fun g => g.flow.fw with
      | some w => s.serviceEnds gid w
      | none => none
  match ended, s.blockOf src with
  | some s1, _ => .next s1
  | none, some b =>
    let op := field b 0 2
    let sub := subOf op b
    if isCommand op sub then commandOf op sub src s else .next ((s.taken src).giveCommand src)
  | none, none => .next ((s.taken src).endCommand src 1 0 [])

/-- Whether firmware runs for a group that has entered it (R400): from the 8th clk after the ECALL on. -/
def State.inFirmware (s : State) (gid : Nat) (g : Group) : Bool := g.flow.fw.any fun w => decide ((g.flow.slot w.slot).readyAt ≤ (s.core (coreOf gid)).clk)

/-- A source of which the command waits for firmware: a mailbox, in the order of the GO writes (R406), else a group that has entered
firmware. -/
def State.commandDue (s : State) : Option CommandSource :=
  match (s.mod.goOrder ++ s.quads.map (·.1)).find? fun q => (s.quad q).mailbox.fresh with
  | some q => some (.mailbox q)
  | none => (s.groups.find? fun g => g.2.flow.fw.any (·.fresh) && s.inFirmware g.1 g.2).map fun g => .guest g.1

end Sys2Proof.Machine
end

