-- ==== Sys2Proof/Machine/Scalar.lean ====
section
/-! DEFINITION. The scalar instructions that touch registers only (R131 to R137, R142). -/

namespace Sys2Proof.Machine

/-- x + y modulo 2^32. -/
def scalarAdd (x y : Word) : Word := x + y
/-- x - y modulo 2^32. -/
def scalarSub (x y : Word) : Word := x - y
/-- The low 32 bits of the product. -/
def scalarMul (x y : Word) : Word := x * y
/-- Bits [63:32] of the signed 64-bit product. -/
def scalarMulh (x y : Word) : Word := BitVec.ofInt 32 (x.toInt * y.toInt / 2 ^ 32)
/-- A shift left by the whole unsigned count: 0 from 32 on. -/
def scalarShl (x y : Word) : Word := x <<< y.toNat
/-- A zero-filled shift right by the whole unsigned count. -/
def scalarShr (x y : Word) : Word := x >>> y.toNat
/-- A sign-filled shift right by the whole unsigned count. -/
def scalarSra (x y : Word) : Word := BitVec.sshiftRight x y.toNat
/-- The signed minimum. -/
def scalarMin (x y : Word) : Word := if y.slt x then y else x
/-- The signed maximum. -/
def scalarMax (x y : Word) : Word := if x.slt y then y else x
/-- The unsigned minimum. -/
def scalarMinn (x y : Word) : Word := if y.ult x then y else x
/-- The unsigned maximum. -/
def scalarMaxn (x y : Word) : Word := if x.ult y then y else x

/-- The scalar ALU (R133): s[D] becomes the operation of s[A] and s[B]. -/
def Regs.scalarAlu (r : Regs) (f : Word → Word → Word) (d a b : BitVec 7) : Regs :=
  r.setSc d.toNat (f (r.sc a.toNat) (r.sc b.toNat))

/-- SADD (R133): x + y wrapped. -/
def execSadd (d : BitVec 7) (a : BitVec 7) (b : BitVec 7) (s : State) : Host.Outcome State Fault Refusal :=
  issueRegs s (.sadd d a b) fun _ r => .ok (r.scalarAlu scalarAdd d a b)

/-- SSUB (R133): x - y wrapped. -/
def execSsub (d : BitVec 7) (a : BitVec 7) (b : BitVec 7) (s : State) : Host.Outcome State Fault Refusal :=
  issueRegs s (.ssub d a b) fun _ r => .ok (r.scalarAlu scalarSub d a b)

/-- SMUL (R133): low 32 bits of the product. -/
def execSmul (d : BitVec 7) (a : BitVec 7) (b : BitVec 7) (s : State) : Host.Outcome State Fault Refusal :=
  issueRegs s (.smul d a b) fun _ r => .ok (r.scalarAlu scalarMul d a b)

/-- SMULH (R133): bits [63:32] of the signed product. -/
def execSmulh (d : BitVec 7) (a : BitVec 7) (b : BitVec 7) (s : State) : Host.Outcome State Fault Refusal :=
  issueRegs s (.smulh d a b) fun _ r => .ok (r.scalarAlu scalarMulh d a b)

/-- SAND (R133): x AND y. -/
def execSand (d : BitVec 7) (a : BitVec 7) (b : BitVec 7) (s : State) : Host.Outcome State Fault Refusal :=
  issueRegs s (.sand d a b) fun _ r => .ok (r.scalarAlu (· &&& ·) d a b)

/-- SOR (R133): x OR y. -/
def execSor (d : BitVec 7) (a : BitVec 7) (b : BitVec 7) (s : State) : Host.Outcome State Fault Refusal :=
  issueRegs s (.sor d a b) fun _ r => .ok (r.scalarAlu (· ||| ·) d a b)

/-- SXOR (R133): x XOR y. -/
def execSxor (d : BitVec 7) (a : BitVec 7) (b : BitVec 7) (s : State) : Host.Outcome State Fault Refusal :=
  issueRegs s (.sxor d a b) fun _ r => .ok (r.scalarAlu (· ^^^ ·) d a b)

/-- SSHL (R133): left shift. -/
def execSshl (d : BitVec 7) (a : BitVec 7) (b : BitVec 7) (s : State) : Host.Outcome State Fault Refusal :=
  issueRegs s (.sshl d a b) fun _ r => .ok (r.scalarAlu scalarShl d a b)

/-- SSHR (R133): logical right shift. -/
def execSshr (d : BitVec 7) (a : BitVec 7) (b : BitVec 7) (s : State) : Host.Outcome State Fault Refusal :=
  issueRegs s (.sshr d a b) fun _ r => .ok (r.scalarAlu scalarShr d a b)

/-- SSRA (R133): arithmetic right shift. -/
def execSsra (d : BitVec 7) (a : BitVec 7) (b : BitVec 7) (s : State) : Host.Outcome State Fault Refusal :=
  issueRegs s (.ssra d a b) fun _ r => .ok (r.scalarAlu scalarSra d a b)

/-- SMIN (R133): signed minimum. -/
def execSmin (d : BitVec 7) (a : BitVec 7) (b : BitVec 7) (s : State) : Host.Outcome State Fault Refusal :=
  issueRegs s (.smin d a b) fun _ r => .ok (r.scalarAlu scalarMin d a b)

/-- SMAX (R133): signed maximum. -/
def execSmax (d : BitVec 7) (a : BitVec 7) (b : BitVec 7) (s : State) : Host.Outcome State Fault Refusal :=
  issueRegs s (.smax d a b) fun _ r => .ok (r.scalarAlu scalarMax d a b)

/-- SMINN (R133): unsigned minimum. -/
def execSminn (d : BitVec 7) (a : BitVec 7) (b : BitVec 7) (s : State) : Host.Outcome State Fault Refusal :=
  issueRegs s (.sminn d a b) fun _ r => .ok (r.scalarAlu scalarMinn d a b)

/-- SMAXN (R133): unsigned maximum. -/
def execSmaxn (d : BitVec 7) (a : BitVec 7) (b : BitVec 7) (s : State) : Host.Outcome State Fault Refusal :=
  issueRegs s (.smaxn d a b) fun _ r => .ok (r.scalarAlu scalarMaxn d a b)

/-- SADDI (R134): s[A] plus the sign-extended immediate, wrapped. -/
def execSaddi (d a : BitVec 7) (i : BitVec 11) (s : State) : Host.Outcome State Fault Refusal :=
  issueRegs s (.saddi d a i) fun _ r => .ok (r.setSc d.toNat (r.sc a.toNat + i.signExtend 32))

/-- SANDI (R134): s[A] AND the sign-extended immediate. -/
def execSandi (d a : BitVec 7) (i : BitVec 11) (s : State) : Host.Outcome State Fault Refusal :=
  issueRegs s (.sandi d a i) fun _ r => .ok (r.setSc d.toNat (r.sc a.toNat &&& i.signExtend 32))

/-- SORI (R134): s[A] OR the zero-extended immediate. -/
def execSori (d a : BitVec 7) (i : BitVec 11) (s : State) : Host.Outcome State Fault Refusal :=
  issueRegs s (.sori d a i) fun _ r => .ok (r.setSc d.toNat (r.sc a.toNat ||| i.zeroExtend 32))

/-- LIT (R79, R135): the following word. -/
def execLit (d : BitVec 7) (lit : Word) (s : State) : Host.Outcome State Fault Refusal :=
  issueRegs s (.lit d lit) fun _ r => .ok (r.setSc d.toNat lit)

/-- SCMP (R136): all four fields of scc. -/
def execScmp (a b : BitVec 7) (c : ScmpCond) (s : State) : Host.Outcome State Fault Refusal :=
  issueRegs s (.scmp a b c) fun _ r => .ok { r with scc := sccOf c (r.sc a.toNat) (r.sc b.toNat) }

/-- SSEL (R137): s[A] or s[B] by scc.SEL. -/
def execSsel (d a b : BitVec 7) (s : State) : Host.Outcome State Fault Refusal :=
  issueRegs s (.ssel d a b) fun _ r => .ok (r.setSc d.toNat (if sccSel r.scc then r.sc a.toNat else r.sc b.toNat))

/-! ### MFS (R142) -/

/-- The launch packet of a team. -/
def State.packetOf (s : State) (t : TeamId) : List Byte :=
  ((Store.find (s.part t.part).disp.launches t.launch).map (·.packet)).getD []

/-- A scalar special value. -/
def State.specialScalar (s : State) (x : Issue) (g : Group) (t : TeamId) (sel : Nat) : Word :=
  let p := s.packetOf t
  let gx := pkGrid p 0
  let gy := pkGrid p 1
  let n : Nat := match sel with
    | 0x00 => g.number
    | 0x01 => t.number
    | 0x02 => t.cluster
    | 0x03 => t.rank
    | 0x04 => gx
    | 0x05 => gy
    | 0x06 => pkGrid p 2
    | 0x07 => t.height
    | 0x08 => t.width
    | 0x09 => t.cluster % gx
    | 0x0A => t.cluster / gx % gy
    | 0x0B => t.cluster / (gx * gy)
    | 0x0C => t.groups
    | 0x0D => x.core
    | 0x0E => x.core / 24 * 2 ^ 16 + x.core % 24 / 6 * 2 ^ 8 + x.core % 6
    | 0x0F => x.gid / 8 % 16 + x.gid % 8 * 16
    | 0x10 => x.mask.toNat
    | 0x11 => x.clk
    | _ => g.regs.ext
  BitVec.ofNat 32 n

/-- A vector special value: the home lane, or the lane's own group number * 32 + home lane. -/
def State.specialVector (s : State) (gid sel l : Nat) : Word :=
  if sel = 0x100 then BitVec.ofNat 32 l else BitVec.ofNat 32 (s.homeGroup gid l * 32 + l)

/-- MFS (R142). -/
def execMfs (d : BitVec 7) (i : BitVec 11) (s : State) : Host.Outcome State Fault Refusal :=
  issue s (.mfs d i) fun s x g =>
    let sel := i.toNat
    if sel < 0x100 then
      match Store.find s.teams g.tid with
      | none => .done s
      | some t => .done (s.modRegs x.gid fun r => r.setSc d.toNat (s.specialScalar x g t.id sel))
    else .done (s.modRegs x.gid fun r => r.setVec x.act x.ready d.toNat (lanesBy (s.specialVector x.gid sel)))

end Sys2Proof.Machine
end

