-- ==== Sys2Proof/Machine/Dispatch.lean ====
section
/-! DEFINITION. The one dispatch from instructions to their meanings. -/

namespace Sys2Proof.Machine

/-- What an instruction or event does at a state. -/
def exec (i : Instr) (s : State) : Host.Outcome State Fault Refusal :=
  match i with
  | .nop => Sys2Proof.Machine.execNop s
  | .setmode sg w a ix => Sys2Proof.Machine.execSetmode sg w a ix s
  | .setgrd sg a ix => Sys2Proof.Machine.execSetgrd sg a ix s
  | .setmem sg w a ix => Sys2Proof.Machine.execSetmem sg w a ix s
  | .bra j => Sys2Proof.Machine.execBra j s
  | .brc p j => Sys2Proof.Machine.execBrc p j s
  | .bru c j => Sys2Proof.Machine.execBru c j s
  | .mark j => Sys2Proof.Machine.execMark j s
  | .join => Sys2Proof.Machine.execJoin s
  | .brp a ix => Sys2Proof.Machine.execBrp a ix s
  | .brpSynchronise tid => Sys2Proof.Machine.execBrpSynchronise tid s
  | .regroupReturn core bench => Sys2Proof.Machine.execRegroupReturn core bench s
  | .call j => Sys2Proof.Machine.execCall j s
  | .ret a => Sys2Proof.Machine.execRet a s
  | .jmpr a => Sys2Proof.Machine.execJmpr a s
  | .exit => Sys2Proof.Machine.execExit s
  | .groupExitRelease gid => Sys2Proof.Machine.execGroupExitRelease gid s
  | .flashpt ix => Sys2Proof.Machine.execFlashpt ix s
  | .trap ix => Sys2Proof.Machine.execTrap ix s
  | .bkpt ix => Sys2Proof.Machine.execBkpt ix s
  | .yield ix => Sys2Proof.Machine.execYield ix s
  | .yieldCountExpiry gid => Sys2Proof.Machine.execYieldCountExpiry gid s
  | .sadd d a b => Sys2Proof.Machine.execSadd d a b s
  | .ssub d a b => Sys2Proof.Machine.execSsub d a b s
  | .smul d a b => Sys2Proof.Machine.execSmul d a b s
  | .smulh d a b => Sys2Proof.Machine.execSmulh d a b s
  | .sand d a b => Sys2Proof.Machine.execSand d a b s
  | .sor d a b => Sys2Proof.Machine.execSor d a b s
  | .sxor d a b => Sys2Proof.Machine.execSxor d a b s
  | .sshl d a b => Sys2Proof.Machine.execSshl d a b s
  | .sshr d a b => Sys2Proof.Machine.execSshr d a b s
  | .ssra d a b => Sys2Proof.Machine.execSsra d a b s
  | .smin d a b => Sys2Proof.Machine.execSmin d a b s
  | .smax d a b => Sys2Proof.Machine.execSmax d a b s
  | .sminn d a b => Sys2Proof.Machine.execSminn d a b s
  | .smaxn d a b => Sys2Proof.Machine.execSmaxn d a b s
  | .saddi d a ix => Sys2Proof.Machine.execSaddi d a ix s
  | .sandi d a ix => Sys2Proof.Machine.execSandi d a ix s
  | .sori d a ix => Sys2Proof.Machine.execSori d a ix s
  | .lit d lit => Sys2Proof.Machine.execLit d lit s
  | .scmp a b c => Sys2Proof.Machine.execScmp a b c s
  | .ssel d a b => Sys2Proof.Machine.execSsel d a b s
  | .sld d a l z f => Sys2Proof.Machine.execSld d a l z f s
  | .sst d a l z f => Sys2Proof.Machine.execSst d a l z f s
  | .mfs d ix => Sys2Proof.Machine.execMfs d ix s
  | .iadd d a b => Sys2Proof.Machine.execIadd d a b s
  | .isub d a b => Sys2Proof.Machine.execIsub d a b s
  | .imul d a b => Sys2Proof.Machine.execImul d a b s
  | .imulh d a b => Sys2Proof.Machine.execImulh d a b s
  | .imin d a b => Sys2Proof.Machine.execImin d a b s
  | .imax d a b => Sys2Proof.Machine.execImax d a b s
  | .iabs d a => Sys2Proof.Machine.execIabs d a s
  | .ineg d a => Sys2Proof.Machine.execIneg d a s
  | .iand d a b => Sys2Proof.Machine.execIand d a b s
  | .ior d a b => Sys2Proof.Machine.execIor d a b s
  | .ixor d a b => Sys2Proof.Machine.execIxor d a b s
  | .inot d a => Sys2Proof.Machine.execInot d a s
  | .ishl d a b => Sys2Proof.Machine.execIshl d a b s
  | .ishr d a b => Sys2Proof.Machine.execIshr d a b s
  | .iaddScalarB d a b => Sys2Proof.Machine.execIaddScalarB d a b s
  | .isubScalarB d a b => Sys2Proof.Machine.execIsubScalarB d a b s
  | .imulScalarB d a b => Sys2Proof.Machine.execImulScalarB d a b s
  | .imulhScalarB d a b => Sys2Proof.Machine.execImulhScalarB d a b s
  | .iminScalarB d a b => Sys2Proof.Machine.execIminScalarB d a b s
  | .imaxScalarB d a b => Sys2Proof.Machine.execImaxScalarB d a b s
  | .iandScalarB d a b => Sys2Proof.Machine.execIandScalarB d a b s
  | .iorScalarB d a b => Sys2Proof.Machine.execIorScalarB d a b s
  | .ixorScalarB d a b => Sys2Proof.Machine.execIxorScalarB d a b s
  | .ishlScalarB d a b => Sys2Proof.Machine.execIshlScalarB d a b s
  | .ishrScalarB d a b => Sys2Proof.Machine.execIshrScalarB d a b s
  | .imad d a b => Sys2Proof.Machine.execImad d a b s
  | .icmp d a b c => Sys2Proof.Machine.execIcmp d a b c s
  | .isel d a b p => Sys2Proof.Machine.execIsel d a b p s
  | .popc d a => Sys2Proof.Machine.execPopc d a s
  | .clz d a => Sys2Proof.Machine.execClz d a s
  | .ctz d a => Sys2Proof.Machine.execCtz d a s
  | .brev d a => Sys2Proof.Machine.execBrev d a s
  | .bfe d a b sg => Sys2Proof.Machine.execBfe d a b sg s
  | .bfi d a b => Sys2Proof.Machine.execBfi d a b s
  | .lea d a b x => Sys2Proof.Machine.execLea d a b x s
  | .iaddi d a ix => Sys2Proof.Machine.execIaddi d a ix s
  | .ishli d a ix => Sys2Proof.Machine.execIshli d a ix s
  | .ishri d a ix => Sys2Proof.Machine.execIshri d a ix s
  | .vmov d a => Sys2Proof.Machine.execVmov d a s
  | .vli d ix => Sys2Proof.Machine.execVli d ix s
  | .fadd d a b => Sys2Proof.Machine.execFadd d a b s
  | .fsub d a b => Sys2Proof.Machine.execFsub d a b s
  | .fmul d a b => Sys2Proof.Machine.execFmul d a b s
  | .fmin d a b => Sys2Proof.Machine.execFmin d a b s
  | .fmax d a b => Sys2Proof.Machine.execFmax d a b s
  | .fabs d a => Sys2Proof.Machine.execFabs d a s
  | .fneg d a => Sys2Proof.Machine.execFneg d a s
  | .fcopysign d a b => Sys2Proof.Machine.execFcopysign d a b s
  | .faddScalarB d a b => Sys2Proof.Machine.execFaddScalarB d a b s
  | .fsubScalarB d a b => Sys2Proof.Machine.execFsubScalarB d a b s
  | .fmulScalarB d a b => Sys2Proof.Machine.execFmulScalarB d a b s
  | .fminScalarB d a b => Sys2Proof.Machine.execFminScalarB d a b s
  | .fmaxScalarB d a b => Sys2Proof.Machine.execFmaxScalarB d a b s
  | .fcopysignScalarB d a b => Sys2Proof.Machine.execFcopysignScalarB d a b s
  | .ffma d a b => Sys2Proof.Machine.execFfma d a b s
  | .ffms d a b => Sys2Proof.Machine.execFfms d a b s
  | .fnfma d a b => Sys2Proof.Machine.execFnfma d a b s
  | .fcmp d a b c => Sys2Proof.Machine.execFcmp d a b c s
  | .frcp d a => Sys2Proof.Machine.execFrcp d a s
  | .frsq d a => Sys2Proof.Machine.execFrsq d a s
  | .fsqrt d a => Sys2Proof.Machine.execFsqrt d a s
  | .fexp2 d a => Sys2Proof.Machine.execFexp2 d a s
  | .flog2 d a => Sys2Proof.Machine.execFlog2 d a s
  | .fsin d a => Sys2Proof.Machine.execFsin d a s
  | .fcos d a => Sys2Proof.Machine.execFcos d a s
  | .fdiv d a b => Sys2Proof.Machine.execFdiv d a b s
  | .fcvt d a t => Sys2Proof.Machine.execFcvt d a t s
  | .fround d a => Sys2Proof.Machine.execFround d a s
  | .fclass d a => Sys2Proof.Machine.execFclass d a s
  | .pand d a b => Sys2Proof.Machine.execPand d a b s
  | .por d a b => Sys2Proof.Machine.execPor d a b s
  | .pxor d a b => Sys2Proof.Machine.execPxor d a b s
  | .pnot d a => Sys2Proof.Machine.execPnot d a s
  | .pmov d a => Sys2Proof.Machine.execPmov d a s
  | .ballot d a => Sys2Proof.Machine.execBallot d a s
  | .pfroms d a => Sys2Proof.Machine.execPfroms d a s
  | .vote d a v => Sys2Proof.Machine.execVote d a v s
  | .shfl d a b v => Sys2Proof.Machine.execShfl d a b v s
  | .vtos d a f n => Sys2Proof.Machine.execVtos d a f n s
  | .stov d a => Sys2Proof.Machine.execStov d a s
  | .gred d a o => Sys2Proof.Machine.execGred d a o s
  | .gscan d a e o => Sys2Proof.Machine.execGscan d a e o s
  | .hmul d a b => Sys2Proof.Machine.execHmul d a b s
  | .hconj d a => Sys2Proof.Machine.execHconj d a s
  | .hnorm d a => Sys2Proof.Machine.execHnorm d a s
  | .hfma d a b => Sys2Proof.Machine.execHfma d a b s
  | .pnpk d a => Sys2Proof.Machine.execPnpk d a s
  | .pnunpk d a c p => Sys2Proof.Machine.execPnunpk d a c p s
  | .pnexp d a b c p => Sys2Proof.Machine.execPnexp d a b c p s
  | .algld d a => Sys2Proof.Machine.execAlgld d a s
  | .ld d a l z f => Sys2Proof.Machine.execLd d a l z f s
  | .st d a l z f => Sys2Proof.Machine.execSt d a l z f s
  | .lds d a z f => Sys2Proof.Machine.execLds d a z f s
  | .sts d a z f => Sys2Proof.Machine.execSts d a z f s
  | .ldl d a z f => Sys2Proof.Machine.execLdl d a z f s
  | .stl d a z f => Sys2Proof.Machine.execStl d a z f s
  | .pref h a l z f => Sys2Proof.Machine.execPref h a l z f s
  | .atom d a l z o => Sys2Proof.Machine.execAtom d a l z o s
  | .atoms d a z o => Sys2Proof.Machine.execAtoms d a z o s
  | .fence f ix => Sys2Proof.Machine.execFence f ix s
  | .acqrm d a l z f => Sys2Proof.Machine.execAcqrm d a l z f s
  | .mcst d a l z f => Sys2Proof.Machine.execMcst d a l z f s
  | .redld d a l z f => Sys2Proof.Machine.execRedld d a l z f s
  | .bar m a b => Sys2Proof.Machine.execBar m a b s
  | .barc => Sys2Proof.Machine.execBarc s
  | .sigwait d a l f => Sys2Proof.Machine.execSigwait d a l f s
  | .sigwaitSatisfied gid => Sys2Proof.Machine.execSigwaitSatisfied gid s
  | .sigadd a b => Sys2Proof.Machine.execSigadd a b s
  | .waitc k sg n => Sys2Proof.Machine.execWaitc k sg n s
  | .xacq r a ix => Sys2Proof.Machine.execXacq r a ix s
  | .xacqGrant gid => Sys2Proof.Machine.execXacqGrant gid s
  | .xrel => Sys2Proof.Machine.execXrel s
  | .recld d a sg => Sys2Proof.Machine.execRecld d a sg s
  | .cpin d a l sg t g => Sys2Proof.Machine.execCpin d a l sg t g s
  | .cpout d a l sg t g => Sys2Proof.Machine.execCpout d a l sg t g s
  | .cpst d a l sg t g => Sys2Proof.Machine.execCpst d a l sg t g s
  | .cpgath d a l sg t g => Sys2Proof.Machine.execCpgath d a l sg t g s
  | .clampld d a sg e c l => Sys2Proof.Machine.execClampld d a sg e c l s
  | .clampFillStart core => Sys2Proof.Machine.execClampFillStart core s
  | .clampFillComplete core => Sys2Proof.Machine.execClampFillComplete core s
  | .mma d a p b => Sys2Proof.Machine.execMma d a p b s
  | .mmar d a p b => Sys2Proof.Machine.execMmar d a p b s
  | .arrayStreamStart core => Sys2Proof.Machine.execArrayStreamStart core s
  | .arrayLastRowRead core => Sys2Proof.Machine.execArrayLastRowRead core s
  | .arrayLastAccumulatorWrite core => Sys2Proof.Machine.execArrayLastAccumulatorWrite core s
  | .accz a => Sys2Proof.Machine.execAccz a s
  | .accld d a q c => Sys2Proof.Machine.execAccld d a q c s
  | .accst d a q c => Sys2Proof.Machine.execAccst d a q c s
  | .omap d a sg => Sys2Proof.Machine.execOmap d a sg s
  | .launch d a l => Sys2Proof.Machine.execLaunch d a l s
  | .launchPacketEntry gid => Sys2Proof.Machine.execLaunchPacketEntry gid s
  | .coll d a l g => Sys2Proof.Machine.execColl d a l g s
  | .collComplete gid outcome => Sys2Proof.Machine.execCollComplete gid outcome s
  | .ckfold d a x => Sys2Proof.Machine.execCkfold d a x s
  | .cktest a x => Sys2Proof.Machine.execCktest a x s
  | .ckclr => Sys2Proof.Machine.execCkclr s
  | .boost d a => Sys2Proof.Machine.execBoost d a s
  | .rdwear d a k f => Sys2Proof.Machine.execRdwear d a k f s
  | .rdlife d ix => Sys2Proof.Machine.execRdlife d ix s
  | .rdcnt d ix => Sys2Proof.Machine.execRdcnt d ix s
  | .rdtime d => Sys2Proof.Machine.execRdtime d s
  | .tileb a => Sys2Proof.Machine.execTileb a s
  | .tilee => Sys2Proof.Machine.execTilee s
  | .stampRecordWrite core slot => Sys2Proof.Machine.execStampRecordWrite core slot s
  | .mfsr d ix => Sys2Proof.Machine.execMfsr d ix s
  | .mtsr a ix => Sys2Proof.Machine.execMtsr a ix s
  | .ecall ix => Sys2Proof.Machine.execEcall ix s
  | .eret => Sys2Proof.Machine.execEret s
  | .tlbi a k => Sys2Proof.Machine.execTlbi a k s
  | .longLatencyComplete gid op => Sys2Proof.Machine.execLongLatencyComplete gid op s
  | .releaseLogProbe core line => Sys2Proof.Machine.execReleaseLogProbe core line s
  | .replicaLockTimeout part entry => Sys2Proof.Machine.execReplicaLockTimeout part entry s
  | .stashLineFill tid line => Sys2Proof.Machine.execStashLineFill tid line s
  | .directoryRecall line => Sys2Proof.Machine.execDirectoryRecall line s
  | .patrolScrub line finding => Sys2Proof.Machine.execPatrolScrub line finding s
  | .bankRefresh core bench bank => Sys2Proof.Machine.execBankRefresh core bench bank s
  | .groupGuarded gid => Sys2Proof.Machine.execGroupGuarded gid s
  | .watchdogExpiry gid => Sys2Proof.Machine.execWatchdogExpiry gid s
  | .registerWaitDeadlock tid => Sys2Proof.Machine.execRegisterWaitDeadlock tid s
  | .copyStart core => Sys2Proof.Machine.execCopyStart core s
  | .copyComplete core => Sys2Proof.Machine.execCopyComplete core s
  | .mcstDestinationWrite gid rank => Sys2Proof.Machine.execMcstDestinationWrite gid rank s
  | .redldResponse gid lane value reachable => Sys2Proof.Machine.execRedldResponse gid lane value reachable s
  | .algldComplete gid => Sys2Proof.Machine.execAlgldComplete gid s
  | .launchPortWrite quad port data => Sys2Proof.Machine.execLaunchPortWrite quad port data s
  | .packetAccept quad queue => Sys2Proof.Machine.execPacketAccept quad queue s
  | .dispatchDecision part => Sys2Proof.Machine.execDispatchDecision part s
  | .gangFence part => Sys2Proof.Machine.execGangFence part s
  | .teamRetire tid => Sys2Proof.Machine.execTeamRetire tid s
  | .dependencyTimeout part launch => Sys2Proof.Machine.execDependencyTimeout part launch s
  | .intervalBoundary => Sys2Proof.Machine.execIntervalBoundary s
  | .spareSwapOut die => Sys2Proof.Machine.execSpareSwapOut die s
  | .monitorMeasurement readings => Sys2Proof.Machine.execMonitorMeasurement readings s
  | .boostThermalDrop core => Sys2Proof.Machine.execBoostThermalDrop core s
  | .sliceEnd vdev => Sys2Proof.Machine.execSliceEnd vdev s
  | .unrwlimExpiry tid => Sys2Proof.Machine.execUnrwlimExpiry tid s
  | .saveImageTaken vdev => Sys2Proof.Machine.execSaveImageTaken vdev s
  | .admission vdev part => Sys2Proof.Machine.execAdmission vdev part s
  | .coreSetReplacement vdev old new => Sys2Proof.Machine.execCoreSetReplacement vdev old new s
  | .carveApply core => Sys2Proof.Machine.execCarveApply core s
  | .epochClose vdev => Sys2Proof.Machine.execEpochClose vdev s
  | .checkpointPageStream vdev page => Sys2Proof.Machine.execCheckpointPageStream vdev page s
  | .framePullComplete vdev frame data => Sys2Proof.Machine.execFramePullComplete vdev frame data s
  | .migrationSwitch vdev => Sys2Proof.Machine.execMigrationSwitch vdev s
  | .migrationNotice part old new handle => Sys2Proof.Machine.execMigrationNotice part old new handle s
  | .migrationAcknowledgement part handle peer => Sys2Proof.Machine.execMigrationAcknowledgement part handle peer s
  | .forwardingExpiry part handle => Sys2Proof.Machine.execForwardingExpiry part handle s
  | .forwardedAccess part handle frame => Sys2Proof.Machine.execForwardedAccess part handle frame s
  | .migrationSourceLost vdev => Sys2Proof.Machine.execMigrationSourceLost vdev s
  | .fabricRequest part access => Sys2Proof.Machine.execFabricRequest part access s
  | .fabricLinkDown part endpoints => Sys2Proof.Machine.execFabricLinkDown part endpoints s
  | .cxlLinkDown port => Sys2Proof.Machine.execCxlLinkDown port s
  | .moduleReset => Sys2Proof.Machine.execModuleReset s
  | .boot => Sys2Proof.Machine.execBoot s
  | .powerExitComplete quad => Sys2Proof.Machine.execPowerExitComplete quad s
  | .sample gid => Sys2Proof.Machine.execSample gid s
  | .triggerStage vdev => Sys2Proof.Machine.execTriggerStage vdev s
  | .counterLowRead offset => Sys2Proof.Machine.execCounterLowRead offset s
  | .counterHighRead offset => Sys2Proof.Machine.execCounterHighRead offset s
  | .hostRegisterWrite offset data => Sys2Proof.Machine.execHostRegisterWrite offset data s
  | .createVdev src => Sys2Proof.Machine.execCreateVdev src s
  | .destroyVdev src => Sys2Proof.Machine.execDestroyVdev src s
  | .launchCommand src => Sys2Proof.Machine.execLaunchCommand src s
  | .save src => Sys2Proof.Machine.execSave src s
  | .restore src => Sys2Proof.Machine.execRestore src s
  | .migrateOut src => Sys2Proof.Machine.execMigrateOut src s
  | .migrateIn src => Sys2Proof.Machine.execMigrateIn src s
  | .checkpointDisable src => Sys2Proof.Machine.execCheckpointDisable src s
  | .checkpointRun src => Sys2Proof.Machine.execCheckpointRun src s
  | .checkpointCloseNow src => Sys2Proof.Machine.execCheckpointCloseNow src s
  | .setLife src => Sys2Proof.Machine.execSetLife src s
  | .boostPolicy src => Sys2Proof.Machine.execBoostPolicy src s
  | .attest src => Sys2Proof.Machine.execAttest src s
  | .partition src => Sys2Proof.Machine.execPartition src s
  | .carve src => Sys2Proof.Machine.execCarve src s
  | .debugAttachAttach src => Sys2Proof.Machine.execDebugAttachAttach src s
  | .debugAttachDetach src => Sys2Proof.Machine.execDebugAttachDetach src s
  | .debugAttachStop src => Sys2Proof.Machine.execDebugAttachStop src s
  | .debugAttachStep src => Sys2Proof.Machine.execDebugAttachStep src s
  | .debugAttachSetSampling src => Sys2Proof.Machine.execDebugAttachSetSampling src s
  | .debugAttachSetTriggers src => Sys2Proof.Machine.execDebugAttachSetTriggers src s
  | .dump src => Sys2Proof.Machine.execDump src s
  | .dumpOpen src => Sys2Proof.Machine.execDumpOpen src s
  | .retirePage src => Sys2Proof.Machine.execRetirePage src s
  | .factorTables src => Sys2Proof.Machine.execFactorTables src s
  | .answerResume src => Sys2Proof.Machine.execAnswerResume src s
  | .answerAbort src => Sys2Proof.Machine.execAnswerAbort src s
  | .answerReplay src => Sys2Proof.Machine.execAnswerReplay src s
  | .answerDecline src => Sys2Proof.Machine.execAnswerDecline src s
  | .tablesSetS1root src => Sys2Proof.Machine.execTablesSetS1root src s
  | .tablesSetS2root src => Sys2Proof.Machine.execTablesSetS2root src s
  | .tablesInvalidate src => Sys2Proof.Machine.execTablesInvalidate src s
  | .tablesSetWindowGrant src => Sys2Proof.Machine.execTablesSetWindowGrant src s
  | .tablesSetReplicaEntry src => Sys2Proof.Machine.execTablesSetReplicaEntry src s
  | .tablesExtendMeasurement src => Sys2Proof.Machine.execTablesExtendMeasurement src s
  | .commsSetCommunicator src => Sys2Proof.Machine.execCommsSetCommunicator src s
  | .commsRemoveCommunicator src => Sys2Proof.Machine.execCommsRemoveCommunicator src s
  | .commsSetReductionGroup src => Sys2Proof.Machine.execCommsSetReductionGroup src s
  | .commsRemoveReductionGroup src => Sys2Proof.Machine.execCommsRemoveReductionGroup src s
  | .powerQuadrantRest src => Sys2Proof.Machine.execPowerQuadrantRest src s
  | .powerDeepIdle src => Sys2Proof.Machine.execPowerDeepIdle src s
  | .powerExit src => Sys2Proof.Machine.execPowerExit src s
  | .logsFaultQueueState src => Sys2Proof.Machine.execLogsFaultQueueState src s
  | .logsAdvanceTail src => Sys2Proof.Machine.execLogsAdvanceTail src s
  | .logsReadEventLog src => Sys2Proof.Machine.execLogsReadEventLog src s
  | .logsSetEventInterrupt src => Sys2Proof.Machine.execLogsSetEventInterrupt src s
  | .logsClearCounters src => Sys2Proof.Machine.execLogsClearCounters src s
  | .getVersion request => Sys2Proof.Machine.execGetVersion request s
  | .getCapabilities request => Sys2Proof.Machine.execGetCapabilities request s
  | .negotiateAlgorithms request => Sys2Proof.Machine.execNegotiateAlgorithms request s
  | .getDigests request => Sys2Proof.Machine.execGetDigests request s
  | .getCertificate request => Sys2Proof.Machine.execGetCertificate request s
  | .challenge request => Sys2Proof.Machine.execChallenge request s
  | .getMeasurements request => Sys2Proof.Machine.execGetMeasurements request s
  | .keyExchange request => Sys2Proof.Machine.execKeyExchange request s
  | .finish request => Sys2Proof.Machine.execFinish request s
  | .endSession request => Sys2Proof.Machine.execEndSession request s
  | .hostMemoryAccess access => Sys2Proof.Machine.execHostMemoryAccess access s
  | .pullRequest part handle frame => Sys2Proof.Machine.execPullRequest part handle frame s
  | .fabricRouteRestored part endpoint => Sys2Proof.Machine.execFabricRouteRestored part endpoint s
  | .powerLoss => Sys2Proof.Machine.execPowerLoss s
  | .haltRelease vdev => Sys2Proof.Machine.execHaltRelease vdev s
  | .coreRetirement die position => Sys2Proof.Machine.execCoreRetirement die position s

end Sys2Proof.Machine
end

