-- ==== Sys2Proof/Machine/Sched.lean ====
section
/-! DEFINITION. Which instruction or event happens next: fetching and decoding an instruction (R68, R79), the readiness of a
group and the choice of a bench (R26, R284, R285), and what a clk of a core brings. -/

namespace Sys2Proof.Machine

/-! ### Fetch (R68, R79) -/

/-- What the fetch at a PC finds: an instruction, a word that is none (R78 row 1), or a page, a fault or a wait of the fetch, at the address of
the word that fails. -/
inductive Fetched where
  | instr (i : Instr) (s : State)
  | reject (c : FaultCode)
  | fail (f : AccessFail) (addr : VA)

/-- The fault of a word that the decoder rejects (R78, R142, R293). -/
def rejectCode : DecodeReject → FaultCode
  | .mfsSource | .sigwaitSize => .illegalOperand
  | _ => .illegalOpcode

/-- The word at a PC, through the core's translations (R68). -/
def State.fetchWord (s : State) (core vdev : Nat) (pc : VA) : Except AccessFail (Word × State) :=
  match s.translate core vdev pc.toNat .exec with
  | .error f => .error f
  | .ok (t, s1) =>
    match s1.badSite (t.physAddr pc.toNat) 4 with
    | some site => .error (.lost site)
    | none => .ok (BitVec.ofNat 32 (numOf (s1.seen (t.physAddr pc.toNat) 4)), s1)

/-- Fetch and decode the instruction at a PC; a LIT takes the word that follows it (R79). The fetch of both words comes before the checks of rows 3 and
4 of R78 on the first (DESIGN CHOICE, log 45). -/
def State.fetch (s : State) (core vdev : Nat) (pc : VA) : Fetched :=
  match s.fetchWord core vdev pc with
  | .error f => .fail f pc
  | .ok (w, s1) =>
    if isLit w then
      match s1.fetchWord core vdev (pc + 4) with
      | .error f => .fail f (pc + 4)
      | .ok (l, s2) => match decodeWord w l with
        | .ok i => .instr i s2
        | .error r => .reject (rejectCode r)
    else match decodeWord w 0 with
      | .ok i => .instr i s1
      | .error r => .reject (rejectCode r)

/-! ### Readiness (R284) -/

/-- Whether a group may not issue whatever its slots hold: it waits (R36), is parked or stopped, counts down a yield (R130), holds a
fault record that has no room (R314), or an instruction of which the lookahead window has ended has not completed (R85). -/
def Group.blocked (g : Group) (clk : Nat) : Bool :=
  g.flow.exited || g.flow.atReturn || g.flow.fw.isSome || g.stops.saving.isSome || g.stops.parked.isSome || g.stops.stop.isSome || g.stops.stopNext.isSome || !g.stops.pending.isEmpty ||
  decide (clk < g.flow.yieldEnd) || decide (clk < g.time.nextClk) ||
  (g.ops.any fun o => !o.done && o.window == 0) ||
  (match g.stops.wait with
   | .none | .reacquire => false
   | .waitc k n _ => decide (n < g.eng.count k)
   | w => !w.atIssue)

/-- Whether the group's team keeps it from issuing: a team that is to start later (R24, R273), an abort (R42), or no team. -/
def State.teamHolds (s : State) (tid : Nat) : Bool :=
  match Store.find s.teams tid with
  | none => true
  | some t => t.sync.aborted || decide (s.mod.tick < t.sync.startTick)

/-- Whether the device of a group is halted, which keeps every group from issuing but one that a debugger steps (R311, R409). -/
def State.haltHolds (s : State) (g : Group) : Bool :=
  !g.stops.stepOne &&
  (match Store.find s.teams g.tid with
   | none => true
   | some t => ((Store.find s.vdevs t.id.vdev).map fun v => v.ctx.halted).getD true)

/-- A slot that could issue: live, not held, and past the clks that its last move cost. -/
def PcSlot.open (x : PcSlot) (clk : Nat) : Bool := x.live && !x.isHeld && decide (x.readyAt ≤ clk)

/-- The resources that a group's work in the array still holds: the status registers of its CLAMPLDs (R188). An algebra slot is none: an instruction
that issues before an ALGLD has replaced its slot uses what the slot holds (R181, R187). -/
def State.pendingOf (s : State) (gid : Nat) : List Nat :=
  ((s.core (coreOf gid)).arr.fills.filter fun f => f.gid == gid).map fun f => resourceOf .S f.dest

/-- Whether the scoreboard has released what an instruction reads (R80). -/
def State.sourcesReady (s : State) (gid : Nat) (g : Group) (dim : Nat) (i : Instr) (clk : Nat) : Bool :=
  let pending := s.pendingOf gid
  (readsOf g.regs.gmode dim i).all fun r => decide (Store.get 0 g.time.board r ≤ clk) && !pending.contains r

/-- What a group offers: a slot with what its fetch found, and the unit that it needs when it needs one. -/
structure Offer where
  gid : Nat
  slot : Nat
  what : Fetched
  unit : Option Nat

/-- What a slot offers, when its instruction's sources are released. -/
def State.slotOffer (s : State) (gid : Nat) (g : Group) (vdev slot : Nat) : Option Offer :=
  let core := coreOf gid
  match s.fetch core vdev (g.flow.slot slot).pc with
  | .instr i s' =>
    if s.sourcesReady gid g (dimOf (s.core core) g.regs.gmode) i (s.core core).clk then some ⟨gid, slot, .instr i s', some (unitNo i)⟩ else none
  | .reject c => some ⟨gid, slot, .reject c, none⟩
  | .fail .wait _ => none
  | .fail f a => some ⟨gid, slot, .fail f a, none⟩

/-- Whether the unit that an offer needs is free (R284, R192). -/
def State.unitFree (s : State) (o : Offer) : Bool :=
  match o.unit with
  | none => true
  | some u =>
    let c := s.core (coreOf o.gid)
    decide (Store.get 0 (s.bench (o.gid / 8)).busy u ≤ c.clk)

/-- What holds an offered instruction at its issue (R284): a lease, a full counter, a full queue, a pending fill, or earlier accesses of its group. It is
found by running the instruction, which has no effect when it stalls. A fault of the fetch is a stop, which waits for the open operations (R316). -/
def State.stallOf (s : State) (o : Offer) : Option Wait :=
  match o.what with
  | .instr i s' =>
    match exec i { s' with sched := { s'.sched with issuer := some (o.gid, o.slot) } }, Store.find s.groups o.gid with
    | .next t, some g => match Store.find t.groups o.gid with
      | some h => if h.issued = g.issued && h.stops.wait.atIssue && h.eng.tag == g.eng.tag then some h.stops.wait else none
      | none => none
    | _, _ => none
  | _ => match (Store.find s.groups o.gid).map Group.openOps with
    | some (k :: ks) => some (.order (k :: ks))
    | _ => none

/-- What the open slots of a group offer at the present clk of its core, the one that R26 takes next first. -/
def State.slotOffers (s : State) (gid : Nat) (g : Group) : List Offer :=
  let clk := (s.core (coreOf gid)).clk
  if g.blocked clk || s.teamHolds g.tid || s.haltHolds g then []
  else
    let vdev := ((Store.find s.teams g.tid).map (·.id.vdev)).getD 0
    [1 - g.flow.last, g.flow.last].filterMap fun n => if (g.flow.slot n).open clk then s.slotOffer gid g vdev n else none

/-- What a group offers at the present clk of its core (R26, R284): the instruction of a slot that is ready, else one that only an occupied unit
holds. -/
def State.offer (s : State) (gid : Nat) (g : Group) : Option Offer :=
  let os := (s.slotOffers gid g).filter fun o => (s.stallOf o).isNone
  match os.find? s.unitFree with
  | some o => some o
  | none => os.head?

/-- The stall at issue that holds a group at the present clk, when each of its open slots that has its sources is held by one. -/
def State.stallWait (s : State) (gid : Nat) (g : Group) : Option Wait :=
  match s.slotOffers gid g with
  | [] => none
  | o :: os => if (o :: os).all fun x => (s.stallOf x).isSome then s.stallOf o else none

/-- Whether the unit of an offer was free before the issue of the present clk, which may be what has taken it. -/
def State.unitWasFree (s : State) (o : Offer) : Bool :=
  let b := s.bench (o.gid / 8)
  s.unitFree o || (b.lastIssue == some (s.core (coreOf o.gid)).clk && o.unit == some b.lastUnit)

/-! ### The choice of a bench (R285) -/

/-- The oldest of some offers, ties going to the lower bench slot. -/
def State.oldest (s : State) : List Offer → Option Offer
  | [] => none
  | x :: rest => match s.oldest rest with
    | none => some x
    | some y =>
      let age (o : Offer) : Nat := ((Store.find s.groups o.gid).map (·.time.age)).getD 0
      if age y < age x ∨ (age y = age x ∧ y.gid < x.gid) then some y else some x

/-- The offer that a bench issues at the present clk. -/
def State.benchChoice (s : State) (bench : Nat) : Option Offer :=
  if (s.bench bench).lastIssue = some (s.core (bench / 16)).clk then none
  else
    let gs := s.groups.filter fun kv => kv.1 / 8 == bench
    let offers := gs.filterMap fun kv => (s.offer kv.1 kv.2).map fun o => (o, kv.2.time.guarded, s.unitFree o)
    let guarded := offers.filter fun x => x.2.1
    match s.oldest ((guarded.filter fun x => x.2.2).map (·.1)) with
    | some o => some o
    | none =>
      let held := guarded.filterMap fun x => x.1.unit
      s.oldest ((offers.filter fun x => !x.2.1 && x.2.2 && !(match x.1.unit with
        | some u => held.contains u
        | none => false)).map (·.1))

/-- The first bench that issues: benches are independent, and are taken in order. -/
def State.choice (s : State) : List Nat → Option Offer
  | [] => none
  | b :: rest => match s.benchChoice b with
    | some o => some o
    | none => s.choice rest

/-- The benches that hold a group. -/
def State.benchesInUse (s : State) : List Nat := distinct (s.groups.map fun kv => kv.1 / 8)

/-- The trap of a word that is no instruction, at a slot (R78, R314). -/
def rejectTrap (sl : PcSlot) (slot : Nat) (c : FaultCode) : Trap := { code := c, pc := sl.pc, resume := sl.pc, slot := slot, mask := sl.mask }

/-- The trap of a fetch that fails at an address, at a slot (R79, R314). -/
def fetchTrap (sl : PcSlot) (slot : Nat) (f : AccessFail) (addr : VA) : Option Trap :=
  let t (c : FaultCode) : Trap := { rejectTrap sl slot c with addr := addr.toNat }
  match f with
  | .page h => some { t .pageFault with aux1 := sl.mask, hyper := h }
  | .unpulled _ => some { t .pageFault with aux1 := sl.mask, hyper := true }
  | .fault c => some (t c)
  | .lost site => some { t .uncorrectable with sites := [site] }
  | .wait => none

/-! ### The clks of a core -/

/-- A group of which no slot is ready stalls at issue, or no longer does (R284, R321). -/
def Stops.stalled (x : Stops) (w : Option Wait) : Stops :=
  match w with
  | some w => { x with wait := w }
  | none => if x.wait.atIssue then { x with wait := .none } else x

/-- The ready counts of the groups of a core as its clk ends (R285): a group that was not ready starts again, and loses its guard
unless only an occupied unit held it. A stall at issue is noted. -/
def State.refreshGuards (s : State) (core : Nat) : State :=
  let clk := (s.core core).clk
  { s with groups := s.groups.map fun kv =>
      if coreOf kv.1 != core then kv
      else match s.offer kv.1 kv.2 with
        | none => (kv.1, { kv.2 with
            time := { kv.2.time with guarded := false, readySince := max kv.2.time.readySince (clk + 1) }
            stops := kv.2.stops.stalled (s.stallWait kv.1 kv.2) })
        | some o => if s.unitWasFree o || kv.2.time.guarded then kv
          else (kv.1, { kv.2 with time := { kv.2.time with readySince := max kv.2.time.readySince (clk + 1) } }) }

/-- The wait of a group at a clk (R36, R311): its wait time counts while it waits, and starts anew when it does not; what a rewind has carried stays
until the group waits again (R321, DEDUCED, log 28). -/
def Group.tickWait (g : Group) (tick : Nat) : Group :=
  if g.counts then
    { g with stops := { g.stops with waitFrom := if g.stops.waitFrom = 0 then tick else g.stops.waitFrom, carried := false } }
  else if g.stops.carried || (g.stops.waitFrom = 0 && g.stops.waitUs = 0) then g
  else { g with stops := { g.stops with waitFrom := 0, waitUs := 0 } }

/-- Whether a group is in a wait of R36 at a clk. -/
def Group.inWait (g : Group) : Bool := !g.flow.exited && (g.waits || g.stops.parked.isSome)

/-- The groups of a core at a clk: wait times, and the waitclk counter (R390). -/
def State.tickGroups (s : State) (core : Nat) : State :=
  let gs := s.groupsOn core
  let s1 := gs.foldl (fun (s : State) (kv : Nat × Group) => s.modGroup kv.1 fun g => g.tickWait s.mod.tick) s
  (gs.filter fun kv => kv.2.inWait).foldl (fun (s : State) (kv : Nat × Group) => s.countTeam kv.2.tid 0x002 1) s1

/-- The deadlock timers of a core's teams at a clk (R100). -/
def State.tickTeams (s : State) (core : Nat) : State :=
  (s.teamsOn core).foldl (fun (s : State) (kv : Nat × Team) =>
    let n := if s.deadlocked kv.1 then kv.2.sync.deadlockTimer + 1 else 0
    if n = kv.2.sync.deadlockTimer then s else s.modSync kv.1 fun y => { y with deadlockTimer := n }) s

/-- Whether the array reads A data or fills a bank at a clk (R368). -/
def CoreArray.activeAt (a : CoreArray) (clk : Nat) : Bool :=
  (a.queue.any fun o => match o.start with
    | some b => decide (b ≤ clk) && decide (clk < b + o.jig.rowsBusy)
    | none => false) ||
  (a.fills.any fun f => match f.start with
    | some b => decide (b ≤ clk) && decide (clk < b + 72)
    | none => false)

/-- What the array of a core does at a clk, for its wear (R368): it is powered in this quarter while it has a holder. -/
def State.tickArray (s : State) (core : Nat) : State :=
  let c := s.core core
  let s1 := if c.arr.activeAt c.clk then s.modCore core fun c => { c with arrayClk := c.arrayClk + 1 } else s
  match c.arr.holder, s.unitOfCore core with
  | some _, some u =>
    let m := Store.get 0 s.wear.activity.quarters (u + 208)
    let k := s.quarterOf s.mod.tick
    if bit m k then s1
    else s1.modWear fun w => { w with activity := { w.activity with quarters := Store.put w.activity.quarters (u + 208) (m + 2 ^ k) } }
  | _, _ => s1

/-- The refreshes of a core's benches at a clk (R83). -/
def State.tickRefresh (s : State) (core : Nat) : State :=
  let clk := (s.core core).clk
  let hot := s.hot core
  let due := if hot then decide (clk % 4 = 0) else decide (clk % 8 = 0)
  let bank := if hot then clk % 16 / 4 else clk % 32 / 8
  if !due then s
  else (distinct ((s.groupsOn core).map fun kv => kv.1 / 8 % 16)).foldl (fun (s : State) (b : Nat) => s.refreshBank core b bank) s

/-- One clk of a core ends (R14, R15). -/
def State.tickCore (s : State) (core : Nat) : State :=
  let s1 := ((((s.refreshGuards core).tickGroups core).tickTeams core).tickArray core).tickRefresh core
  (s1.streamClk core).modCore core fun c => { c with clk := c.clk + 1, nextTick := c.nextTick + c.period }

/-- The cores that hold a group or a team. -/
def State.coresInUse (s : State) : List Nat := distinct (s.groups.map (fun kv => coreOf kv.1) ++ s.teams.map fun kv => kv.1 / 16)

/-- The instants after the present one at which an event falls due with no clk of a core: the boundary, the exits of quadrants, the expiry of
forwarding entries, the fence, dependency timeouts and the pages of a checkpoint. -/
def State.instants (s : State) : List Nat :=
  let exits := (s.quads.filter fun q => q.2.power == .exiting).map fun q => q.2.powerFrom
  let parts := s.parts.flatMap fun p =>
    p.2.fab.forwarding.map (fun f => f.2.expiry) ++ p.2.disp.gangs.map (fun g => g.2.since + s.gangFence p.1) ++
    p.2.locks.flatMap (fun l => l.stalled.map fun x => x.2.2 + 168000) ++
    p.2.disp.launches.filterMap (fun e => e.2.depFrom.map fun t => t + s.watchdogTicks e.2.vdev)
  let vdevs := s.vdevs.flatMap fun v => [v.2.ckpt.nextPage, v.2.mig.nextPull, v.2.ctx.sliceFrom + v.2.ctx.sliceLen * 8400000] ++ v.2.savedDues.map fun x => x.2.2
  (s.mod.nextBoundary :: s.mod.dramScrub.due :: s.mod.llcScrub.due :: (exits ++ parts ++ vdevs)).filter fun t => decide (s.mod.tick < t)

/-- Let time run to the next clk of a core that is in use, or to the next instant at which something else falls due. -/
def State.advanceTime (s : State) : State :=
  let edges := s.coresInUse.map fun c => (s.core c).nextTick
  match leastOf (edges ++ s.instants) with
  | none => s.modMod fun m => { m with tick := m.tick + 1 }
  | some t =>
    let s0 := s.modMod fun m => { m with tick := max m.tick t }
    (s0.coresInUse.filter fun c => decide ((s0.core c).nextTick ≤ t)).foldl (fun (s : State) (c : Nat) => s.tickCore c) s0

end Sys2Proof.Machine
end

