-- ==== Sys2Proof/Machine/Due.lean ====
section
/-! DEFINITION. What happens next: the events that are due, and the plan of a step (DESIGN CHOICE, log 1). -/

namespace Sys2Proof.Machine

/-! ### Events of groups -/

/-- The operation of a group that is performed, completes or reports now (R85 to R87): no earlier one holds it. -/
def State.opDue (s : State) (gid : Nat) (g : Group) : Option LongOp :=
  let clk := (s.core (coreOf gid)).clk
  g.ops.find? fun o =>
    !o.done && !o.reported && (match o.kind with
      | .copy | .coll | .launch | .sigwait => o.failure.isSome
      | _ => true) &&
    !s.held g gid o &&
    (match o.failure with
     | some _ => g.awaits o && g.reportable o
     | none => decide (o.dueClk ≤ clk) && (o.kind != .mcst || decide (o.issueClk + 4 ≤ clk)))

/-- The rank to which a multicast of a group writes now (R263). -/
def State.mcstDue (s : State) (g : Group) (clk : Nat) : Option Nat := (upTo 24).find? fun r => g.ops.any (s.mcstOpen g clk r)

/-- Whether a SIGWAIT of a group reads or completes now (R293). -/
def State.sigwaitDue (s : State) (gid : Nat) (g : Group) (clk : Nat) : Bool := (g.sigwaitDone clk).isSome || (s.sigwaitReady gid g clk).isSome

/-- A group that has been ready for 32 clk without issuing becomes guarded (R285). -/
def State.guardDue (s : State) (gid : Nat) (g : Group) : Bool :=
  !g.time.guarded && !g.flow.exited && decide (g.time.readySince + 32 ≤ (s.core (coreOf gid)).clk)

/-- The event of a group that is due. -/
def State.groupEvent (s : State) (gid : Nat) (g : Group) : Option Instr :=
  let clk := (s.core (coreOf gid)).clk
  match s.opDue gid g with
  | some o => some (.longLatencyComplete gid o.serial)
  | none =>
    if s.sigwaitDue gid g clk then some (.sigwaitSatisfied gid)
    else match s.mcstDue g clk with
      | some r => some (.mcstDestinationWrite gid r)
      | none =>
        if (s.launchEnters gid g).isSome then some (.launchPacketEntry gid)
        else if s.overdue g then some (.watchdogExpiry gid)
        else if g.releasable then some (.groupExitRelease gid)
        else if g.flow.yieldEnd ≠ 0 ∧ g.flow.yieldEnd ≤ clk then some (.yieldCountExpiry gid)
        else if s.guardDue gid g then some (.groupGuarded gid)
        else none

/-! ### Events of cores and teams -/

/-- The event of a core's array, streamer, benches or budget that is due. -/
def State.coreEvent (s : State) (core : Nat) : Option Instr :=
  let c := s.core core
  if c.arr.fillReady.isSome then some (.clampFillStart core)
  else if (c.arr.fillDone c.clk).isSome then some (.clampFillComplete core)
  else if (c.arr.rowsRead c.clk).isSome then some (.arrayLastRowRead core)
  else if (c.arr.lastWrite c.clk).isSome then some (.arrayLastAccumulatorWrite core)
  else if (c.arr.streamReady c.clk).isSome then some (.arrayStreamStart core)
  else match c.arr.algLoads.find? fun l => decide (l.dueClk ≤ c.clk) with
  | some l => some (.algldComplete l.gid)
  | none =>
  if (s.copyCompletes core).isSome then some (.copyComplete core)
  else if (s.copyStarts core).isSome then some (.copyStart core)
  else match (c.stamps.map (fun (x : Nat × StampSlot) => x.1)).find? fun n => s.stampDue core n with
    | some n => some (.stampRecordWrite core n)
    | none => match (upTo 16).findSome? fun b => ((s.bench (core * 16 + b)).nextGrant c.clk).map (fun (r : XacqRequest) => r.gid) with
      | some g => some (.xacqGrant g)
      | none => match (upTo 16).find? fun b => !(s.returnReady core b).isEmpty with
        | some b => some (.regroupReturn core b)
        | none =>
          if s.tooHot core then some (.boostThermalDrop core)
          else if s.carveStale core then some (.carveApply core)
          else none

/-- The event of a team that is due. -/
def State.teamEvent (s : State) (tid : Nat) (t : Team) : Option Instr :=
  if s.retires tid then some (.teamRetire tid)
  else if s.brpReady tid then some (.brpSynchronise tid)
  else if 1024 ≤ t.sync.deadlockTimer then some (.registerWaitDeadlock tid)
  else if s.runOnOver t then some (.unrwlimExpiry tid)
  else none

/-! ### Events of partitions, devices and the module -/

/-- The event of a partition's dispatcher, fabric or replicas that is due. -/
def State.partEvent (s : State) (part : Nat) (p : Part) : Option Instr :=
  match p.regs.members.findSome? fun q => ((upTo 64).find? fun n => s.acceptable q n).map fun n => (q, n) with
  | some (q, n) => some (.packetAccept q n)
  | none =>
    if p.disp.decide then some (.dispatchDecision part)
    else if (s.fenceDue part).isSome then some (.gangFence part)
    else match p.disp.launches.find? fun e => s.depOverdue e.2 && s.orphaned part e.2 with
      | some e => some (.dependencyTimeout part e.1)
      | none => match p.locks.find? s.lockOverdue with
        | some l => some (.replicaLockTimeout part l.entry)
        | none => match p.fab.forwarding.find? fun f => decide (f.2.expiry ≤ s.mod.tick) with
          | some f => some (.forwardingExpiry part f.1)
          | none => (s.nextAdmission part).map fun v => .admission v part

/-- The event of a device that is due. -/
def State.vdevEvent (s : State) (vdev : Nat) (v : Vdev) : Option Instr :=
  let part := descPart v.desc
  let stopped := match v.saved.phase with
    | .stopping _ => s.drained vdev
    | _ => false
  if stopped then some (.saveImageTaken vdev)
  else if s.sliceDue vdev v then some (.sliceEnd vdev)
  else match if s.streams vdev v then s.nextStreamed vdev v else none with
  | some page => some (.checkpointPageStream vdev page)
  | none =>
  if s.closes vdev v then some (.epochClose vdev)
  else if s.switchDue v then some (.migrationSwitch vdev)
  else if s.sourceGone v then some (.migrationSourceLost vdev)
  else if (s.pullDue v).isSome then some (.framePullComplete vdev ((s.pullDue v).getD 0) [])
  else if ((v.debugger.map fun d => d.hit.isNone).getD false) && s.counterHit vdev v then some (.triggerStage vdev)
  else match (s.coreSet part vdev).findSome? fun old => (s.replacement part vdev old v).map fun new => (old, new) with
    | some (old, new) => some (.coreSetReplacement vdev old new)
    | none => none

/-- The event of the module that is due: an interval boundary, what a pass of the scrub must have found (R220), the exit of a quadrant, a spare that takes its place. -/
def State.moduleEvent (s : State) : Option Instr :=
  if s.mod.nextBoundary ≤ s.mod.tick then some .intervalBoundary
  else match s.scrubDue with
  | some k => some (.patrolScrub (64 * k) .uncorrectable)
  | none =>
    match (upTo 4).find? s.exitDone with
    | some q => some (.powerExitComplete q)
    | none => ((upTo 8).find? fun d => (s.swapReady d).isSome).map fun d => .spareSwapOut d

/-- The event that is due, if any is. -/
def State.dueEvent (s : State) : Option Instr :=
  match s.moduleEvent with
  | some e => some e
  | none => match s.cores.findSome? fun kv => s.coreEvent kv.1 with
    | some e => some e
    | none => match s.groups.findSome? fun kv => s.groupEvent kv.1 kv.2 with
      | some e => some e
      | none => match s.teams.findSome? fun kv => s.teamEvent kv.1 kv.2 with
        | some e => some e
        | none => match s.parts.findSome? fun kv => s.partEvent kv.1 kv.2 with
          | some e => some e
          | none => s.vdevs.findSome? fun kv => s.vdevEvent kv.1 kv.2

/-! ### What firmware and the hardware do between events -/

/-- The oldest record that waits for a device enters its fault queue when that has room (R314). -/
def State.pendingEnters (s : State) : Option State := s.vdevs.findSome? fun kv => s.enterPending (descPart kv.2.desc) kv.1

/-- A replicated commit of which the store has completed takes its second step (R235), unless a lease holds it. -/
def State.commitNow (s : State) : Option State :=
  let storing (gid : Nat) : Bool := ((Store.find s.groups gid).map fun g => g.ops.any fun o => !o.done && o.failure.isNone && (match o.kind with
    | .st | .sst | .atom _ => true
    | _ => false)).getD false
  s.parts.findSome? fun p => (p.2.locks.find? fun l => !storing l.gid && !s.lockWaits p.1 l).map fun l => s.commitLock p.1 l

/-- The replay of a parked group is complete (R21, R318): what was to be performed again is done. -/
def Group.replayOver (g : Group) : Bool := g.stops.parked.any fun p => p.answered && p.replaying.all fun n => g.ops.all fun o => o.serial != n || o.done

/-- A group of which the replay is complete is parked no longer. -/
def State.replayEnds (s : State) : Option State :=
  (s.groups.find? fun kv => kv.2.replayOver).map fun kv => s.modStops kv.1 fun x => { x with parked := none }

/-- A stop by the debugger comes when what its group has open has completed (R316, R409). -/
def State.debugStops (s : State) : Option State :=
  s.groups.findSome? fun kv => match kv.2.stops.stopNext with
    | some n => if kv.2.settling || kv.2.stops.wait == .xacq then none else some (s.debugStopAt kv.1 n)
    | none => none

/-- A group that is held at a barrier arrives, its accesses being done (R227). -/
def State.arrivalNow (s : State) : Option State :=
  (s.groups.find? fun kv => s.arrivesNow kv.1 kv.2).map fun kv => s.arrive kv.1

/-- A group of a device that stops for a save has come to where it can stop (R325). -/
def State.savesNow (s : State) : Option State :=
  s.vdevs.findSome? fun kv => match kv.2.saved.phase with
    | .stopping _ => (s.stopsNow kv.1).map fun x => s.stopForSave x.1 x.2
    | _ => none

/-- A slice that runs out with no other device to admit starts anew (R350). -/
def State.sliceRenewed (s : State) : Option State :=
  (s.vdevs.find? fun kv => s.sliceOver kv.1 kv.2 && !s.contended (descPart kv.2.desc) kv.1).map fun kv =>
    s.modCtx kv.1 fun c => { c with sliceFrom := s.mod.tick }

/-- An OWNERSHIP event of a discarded write-back is taken at the next instruction boundary of its team (R214). -/
def State.ownershipTaken (s : State) : Option State :=
  (s.teams.find? fun kv => kv.2.sync.ownershipEvent).map fun kv => s.ownershipFault kv.1

/-- A barrier completes when what an exited group had still to write is performed (R38, R227). -/
def State.exitsNow (s : State) : Option State :=
  (s.teams.find? fun kv => s.barrierDue kv.1).map fun kv => (s.tryBarriers kv.1).tryCluster kv.1

/-- The device halts under DUMPHOLD, or a launch aborts, when the period of 2.4 GHz in which its first fatal fault was reported is over, so that the
faults of one period are compared (R42, R311). -/
def State.abortsNow (s : State) : Option State :=
  s.parts.findSome? fun kv => kv.2.disp.launches.findSome? fun e => match e.2.phase, e.2.fatal with
    | .faulted, some f =>
      let ctx := ((Store.find s.vdevs e.2.vdev).map (·.ctx)).getD {}
      if s.mod.tick / 35 ≤ f.period then none
      else if !ctx.dumphold then some (s.abortLaunch kv.1 e.1 f)
      else if ctx.halted && ctx.haltFault.isSome then none
      else some (s.modCtx e.2.vdev fun c => { c with halted := true, haltFault := (s.faultedLaunches kv.1 e.2.vdev).foldl (fun acc x => some (x.2.firstOf acc)) none })
    | _, _ => none

/-- A change of state that comes with no row of the table: each is a part of what the rules above say. -/
def State.quietChange (s : State) : Option State :=
  match s.replayEnds <|> s.debugStops <|> s.exitsNow <|> s.arrivalNow <|> s.ownershipTaken <|> s.heldApplies <|> s.commitNow <|> s.drainEnds <|> s.retireNow <|> s.checkpointStalls <|> s.scrubRenewed <|> s.setShrinks with
  | some x => some x
  | none => match s.condemnedFrame with
    | some x => some x
    | none => match s.pendingEnters with
      | some x => some x
      | none => match s.idleVdev with
        | some (part, v) => some (s.leave part v)
        | none => s.sliceRenewed

/-! ### The plan -/

/-- What a step does: run an instruction or event at a state, run the command of a source, or only change the state. -/
inductive Plan where
  | run (i : Instr) (s : State)
  | command (src : CommandSource) (s : State)
  | rest (s : State)

/-- What an offer leads to: its instruction runs, or the fault of its fetch is taken, of which the walk has read at the LLC (R334). -/
def State.take (s : State) (o : Offer) : Plan :=
  match Store.find s.groups o.gid with
  | none => .rest s
  | some g =>
    let sl := g.flow.slot o.slot
    match o.what with
    | .instr i s' => .run i { s' with sched := { s'.sched with issuer := some (o.gid, o.slot) } }
    | .reject c => .rest (s.takeFault o.gid (rejectTrap sl o.slot c))
    | .fail f a => match fetchTrap sl o.slot f a with
      | some t => .rest ((s.walked (coreOf o.gid) (((Store.find s.teams g.tid).map (·.id.vdev)).getD 0) a.toNat .exec).takeFault o.gid t)
      | none => .rest s

/-- The collectives that complete now, at the members of this module together (R309): the first of their events, with the rest on the agenda. -/
def State.collPlan (s : State) : Option (Instr × State) :=
  s.groups.findSome? fun kv =>
    if !s.collDue kv.1 then none
    else match s.collOf kv.1 with
      | none => none
      | some c => match (s.collPeers c).bind (s.collEnds c) with
        | some (e :: rest, s1) => some (e, { s1 with sched := { s1.sched with agenda := rest } })
        | _ => none

/-- A group of which firmware has ended the service runs firmware's next instruction (R400, R401): none while what it has invalidated is not complete. -/
def State.firmwareReady (s : State) (gid : Nat) (g : Group) : Bool := match g.flow.fw with
  | none => false
  | some w =>
    !w.fresh && s.inFirmware gid g && g.stops.parked.isNone && g.stops.stop.isNone && decide (g.time.nextClk ≤ (s.core (coreOf gid)).clk) &&
    !(s.mod.drains.any fun d => d.1 == .guest gid) &&
    (match w.tlbi with
     | some (a, k) => (s.stallOf ⟨gid, w.slot, .instr (.tlbi a k) s, none⟩).isNone
     | none => true)

/-- What firmware does next for a group: the TLBI that it is at; else, by a free choice, another TLBI or the ERET with which it returns. Which
invalidations firmware makes of its own is not stated (R400, R401, DESIGN CHOICE, log 14). -/
def State.firmwareStep (s : State) (gid : Nat) (w : FwFrame) : Plan :=
  let at' (s : State) : State := { s with sched := { s.sched with issuer := some (gid, w.slot) } }
  let set (s : State) (t : Option (BitVec 7 × BitVec 3)) : State := s.modFlow gid fun f => { f with fw := some { w with tlbi := t } }
  match w.tlbi with
  | some (a, k) => .run (.tlbi a k) (at' (set s none))
  | none =>
    let (more, s1) := s.choose
    if !more then .run .eret (at' s1)
    else
      let (a, s2) := s1.anyNat 31
      let (k, s3) := s2.anyNat 4
      .rest (set s3 (some (BitVec.ofNat 7 (2 * a), BitVec.ofNat 3 k)))

/-- The group for which firmware does something now. -/
def State.firmwareDue (s : State) : Option Plan :=
  (s.groups.find? fun kv => s.firmwareReady kv.1 kv.2).bind fun kv => kv.2.flow.fw.map fun w => s.firmwareStep kv.1 w

/-- The plan of a step: the head of the agenda, else an abort, else an event that is due, else a quiet change, else a command, else the instruction of a
bench, else time passes. -/
def State.plan (s : State) : Plan :=
  match s.sched.agenda with
  | e :: rest => .run e { s with sched := { s.sched with agenda := rest } }
  | [] => match s.abortsNow with
  | some s' => .rest s'
  | none => match s.dueEvent with
    | some e => .run e s
    | none => match s.collPlan with
      | some (e, s') => .run e s'
      | none => match s.quietChange with
        | some s' => .rest s'
        | none => match s.commandDue with
          | some src => .command src s
          | none => match s.savesNow with
            | some s' => .rest s'
            | none => match s.firmwareDue with
              | some p => p
              | none => match s.choice s.benchesInUse with
                | some o => s.take o
                | none => .rest s.advanceTime

end Sys2Proof.Machine
end

