-- ==== Sys2Proof/Machine/Step.lean ====
section
/-! DEFINITION. One step of the module, and a state that is ready to fetch a given instruction. -/

namespace Sys2Proof.Machine

/-- One step: what the plan names happens. -/
def step (s : State) : Host.Outcome State Fault Refusal :=
  match s.plan with
  | .run i s' => exec i s'
  | .command src s' => commandStep src s'
  | .rest s' => .next s'

/-- The physical address at which withFetchWord places its instruction. -/
def fetchHome : Nat := 0x10000

/-- A state with an instruction placed where step fetches its next one (DESIGN CHOICE, log 2): device 1 is resident on core 0 and holds a team of one group
there, its S0 at the address of the bytes, the page translated in the core's TLB, and nothing else due. -/
def State.withFetchWord (s : State) (nbits w : Nat) : State :=
  let bits := w % 2 ^ nbits
  let data := bytesOfWord (BitVec.ofNat 32 bits) ++ bytesOfWord (BitVec.ofNat 32 (bits / 2 ^ 32))
  let page : Translation := { vdev := 1, page := 0x10, phys := 0x10, gpa := 0x10, r := true, w := true, x := true, repl := false, wrote := [0] }
  { s with
    mem := memWrites s.mem fetchHome data
    groups := [(0, { tid := 0, number := 0, flow := { s0 := { pc := 0x10000, mask := 0xFFFFFFFF } } })]
    benches := []
    teams := [(0, { id := { vdev := 1, part := 0, launch := 0, number := 0, cluster := 0, rank := 0, groups := 1, entry := 0x10000 } })]
    cores := [(0, { vdev := 1, nextTick := s.mod.tick + 35, mem := { tlb := [page] } })]
    parts := Store.put s.parts 0 { s.part 0 with disp := { resident := [(1, [0])] } }
    vdevs := [(1, { desc := List.replicate 64 0 })]
    mod := { s.mod with frames := { s.mod.frames with owner := [(1, 1)] } }
    sched := { agenda := [], issuer := none, free := s.sched.free } }

end Sys2Proof.Machine
end

