-- ==== Sys2Proof/Safety.lean ====
section
/-! DEFINITION. The terms in which claims are stated: the invariants of a state, when an instruction issues without a fault, and what an
instruction leaves as it was. -/

namespace Sys2Proof.Machine

/-- The memory of a state is in its canonical form. -/
def State.memOk (s : State) : Prop := Memory.wf s.mem = true

/-- An instruction is the one that a group issues now, and no check of R78 that all instructions share stops it: it is allowed in recipe
mode or the group is not in it, it is not privileged or the group is in a firmware entry, its operands are valid and its registers
are in no open window, are held, and hold what it reads. -/
structure Issues (s : State) (i : Instr) (x : Issue) (g : Group) : Prop where
  issuing : s.issuing i = some (x, g)
  clear : precheck s x g i = none

/-- Nothing but the instruction itself acts at an issue of a group: its device has no debugger attached, it is not in a step of one (R409), and no
word of its registers or of its team's spill areas holds an error for the issue to correct or to report (R105, R107). -/
structure Undisturbed (s : State) (g : Group) : Prop where
  step : g.stops.stepOne = false
  none : s.debugged g.tid = false
  soft : g.regs.soft = []
  spill : ∀ t, Store.find s.teams g.tid = some t → t.mem.spillUpset = []

/-- The registers of a group, when it is resident. -/
def State.regsOf (s : State) (gid : Nat) : Option Regs := (Store.find s.groups gid).map (·.regs)
/-- The slots and the stack of a group. -/
def State.flowOf (s : State) (gid : Nat) : Option Flow := (Store.find s.groups gid).map (·.flow)
/-- The operations of a group that are not over. -/
def State.opsOf (s : State) (gid : Nat) : Option (List LongOp) := (Store.find s.groups gid).map (·.ops)
/-- The engine side of a group. -/
def State.engOf (s : State) (gid : Nat) : Option EngineSide := (Store.find s.groups gid).map (·.eng)
/-- The stops of a group that an instruction does not end: a park, a stop, and records that wait. -/
def State.stoppedOf (s : State) (gid : Nat) : Option (Option Parked × Option StopState × List FaultRecord) :=
  (Store.find s.groups gid).map fun g => (g.stops.parked, g.stops.stop, g.stops.pending)

/-- What the issue of an instruction always leaves, outside its own group: memory, the other groups, the teams with their stashes and lane
stores, the cluster barriers, the devices with their exception and table registers, wear, and the module's own state; of a core all but the
clks that count issues, of a quadrant all but the counters, of a partition all but the sample control, and of a bench all but its
units. -/
structure Apart (s t : State) (gid : Nat) : Prop where
  mem : ∀ a, memRead t.mem a = memRead s.mem a
  groups : ∀ k, k ≠ gid → Store.find t.groups k = Store.find s.groups k
  teams : t.teams = s.teams
  clusters : t.clusters = s.clusters
  vdevs : t.vdevs = s.vdevs
  wear : t.wear = s.wear
  mod : t.mod = s.mod
  cores : ∀ c, { t.core c with lastActive := 0, activeClk := 0 } = { s.core c with lastActive := 0, activeClk := 0 }
  quads : ∀ q, { t.quad q with counters := [] } = { s.quad q with counters := [] }
  parts : ∀ p, { t.part p with sampling := none } = { s.part p with sampling := none }
  benches : ∀ b, { t.bench b with busy := [], lastIssue := none, lastUnit := 0 } = { s.bench b with busy := [], lastIssue := none, lastUnit := 0 }

/-- The slots and the stack of a group after an instruction that does not branch (R26, R68): the issuing slot stands at the next
instruction. -/
def Flow.stepped (f : Flow) (x : Issue) (i : Instr) : Flow :=
  f.setSlot x.slot { f.slot x.slot with pc := (f.slot x.slot).pc + BitVec.ofNat 56 i.size, readyAt := x.clk + 1 }

/-- The operations of a group once an instruction has issued: each open window is one instruction shorter (R85), and what is over is
forgotten. -/
def stepWindows (l : List LongOp) : List LongOp := (l.map fun o => { o with window := o.window - 1 }).filter fun o => !o.over

/-- An instruction has written its group's registers, slots and stack and nothing else: what R26, R68 and R85 give every instruction
apart. -/
structure Writes (s t : State) (x : Issue) (g : Group) (r : Regs) (f : Flow) : Prop extends Apart s t x.gid where
  regs : t.regsOf x.gid = some r
  flow : t.flowOf x.gid = some { f with last := x.slot }
  ops : t.opsOf x.gid = some (stepWindows g.ops)
  eng : t.engOf x.gid = some g.eng
  stopped : t.stoppedOf x.gid = s.stoppedOf x.gid

/-- An instruction completes with its group's registers, slots and stack as given, and leaves the rest. -/
def CompletesAs (s : State) (i : Instr) (x : Issue) (g : Group) (r : Regs) (f : Flow) : Prop :=
  ∃ t, exec i s = .next t ∧ Writes s t x g r f

/-- An instruction that does not branch completes with its group's registers as given, and leaves the rest (R27, R68). -/
def Completes (s : State) (i : Instr) (x : Issue) (g : Group) (r : Regs) : Prop := CompletesAs s i x g r (g.flow.stepped x i)

/-- An access has been issued: memory, the registers and everything outside the group are as they were, the group has stepped past the
instruction and holds its operation, which will be performed at a clk that the manual leaves open (R85 to R87). -/
structure Opens (s t : State) (x : Issue) (g : Group) (i : Instr) (e : EngineSide) (store : Bool) (o : LongOp) : Prop
    extends Apart s t x.gid where
  regs : t.regsOf x.gid = some g.regs
  flow : t.flowOf x.gid = some { g.flow.stepped x i with last := x.slot, unrew := store || g.flow.unrew }
  ops : ∃ k, t.opsOf x.gid = some (stepWindows g.ops ++ [{ o with dueClk := k }])
  eng : t.engOf x.gid = some e
  stopped : t.stoppedOf x.gid = s.stoppedOf x.gid

/-- An instruction that does not branch completes: a state has its effect, the group steps past it, and what R85 and R390 count is
counted. -/
def Steps (s : State) (i : Instr) (x : Issue) (g : Group) (t : State) : Prop := exec i s = .next ((t.advance x i).commit x g i)

/-- An instruction that moves its group's slots itself completes. -/
def Moves (s : State) (i : Instr) (x : Issue) (g : Group) (t : State) : Prop := exec i s = .next (t.commit x g i)

/-- An instruction takes a fault (R312). A stop ends the open windows of the group, so that while an operation of one is neither complete nor
reported the instruction waits for it and has no effect (R316; log 25: DEDUCED). -/
def Traps (s : State) (i : Instr) (x : Issue) (g : Group) (t : Trap) : Prop :=
  exec i s = .next (if g.openOps = [] then s.takeFault x.gid t else s.stall x (.order g.openOps))

/-- An instruction issues, which counts it as R85 and R390 count every one, and then stops its group with a fault (R128, R129, R312), once the
operations of open windows are over (R316; log 25: DEDUCED). -/
def IssuesAndTraps (s : State) (i : Instr) (x : Issue) (g : Group) (t : Trap) : Prop :=
  exec i s = .next (if g.openOps = [] then ((s.openIssue x).commitIssue x g i).takeFault x.gid t else s.stall x (.order g.openOps))

/-- An instruction waits at its issue (R36). -/
def Waits (s : State) (i : Instr) (x : Issue) (w : Wait) : Prop := exec i s = .next (s.stall x w)

/-! ### The operations that tables of the manual list -/

/-- An instruction of three register fields, and of two. -/
abbrev Instr3 := BitVec 7 → BitVec 7 → BitVec 7 → Instr
abbrev Instr2 := BitVec 7 → BitVec 7 → Instr

/-- The scalar ALU (R133): each instruction with its result on integers. -/
def scalarAluTable : List (Instr3 × (Word → Word → Word)) :=
  [(.sadd, fun x y => BitVec.ofInt 32 (x.toInt + y.toInt)),
   (.ssub, fun x y => BitVec.ofInt 32 (x.toInt - y.toInt)),
   (.smul, fun x y => BitVec.ofNat 32 (x.toNat * y.toNat)),
   (.smulh, fun x y => BitVec.ofInt 32 (x.toInt * y.toInt / 2 ^ 32)),
   (.sand, fun x y => x &&& y),
   (.sor, fun x y => x ||| y),
   (.sxor, fun x y => x ^^^ y),
   (.sshl, fun x y => BitVec.ofNat 32 (x.toNat * 2 ^ y.toNat)),
   (.sshr, fun x y => BitVec.ofNat 32 (x.toNat / 2 ^ y.toNat)),
   (.ssra, fun x y => BitVec.ofInt 32 (x.toInt / 2 ^ y.toNat)),
   (.smin, fun x y => BitVec.ofInt 32 (min x.toInt y.toInt)),
   (.smax, fun x y => BitVec.ofInt 32 (max x.toInt y.toInt)),
   (.sminn, fun x y => BitVec.ofNat 32 (min x.toNat y.toNat)),
   (.smaxn, fun x y => BitVec.ofNat 32 (max x.toNat y.toNat))]

/-- The vector ALU (R143): each instruction with vector B and with scalar B, and its exact result z with whether it saturates. -/
def vectorAluTable : List (Instr3 × Instr3 × (IntShape → Int → Int → OpResult)) :=
  [(.iadd, .iaddScalarB, fun _ x y => ⟨x + y, true⟩),
   (.isub, .isubScalarB, fun _ x y => ⟨x - y, true⟩),
   (.imul, .imulScalarB, fun _ x y => ⟨x * y, true⟩),
   (.imulh, .imulhScalarB, fun h x y => ⟨x * y / 2 ^ h.width, false⟩),
   (.imin, .iminScalarB, fun _ x y => ⟨min x y, false⟩),
   (.imax, .imaxScalarB, fun _ x y => ⟨max x y, false⟩),
   (.iand, .iandScalarB, fun h x y => ⟨Num.wrapNat h.width x &&& Num.wrapNat h.width y, false⟩),
   (.ior, .iorScalarB, fun h x y => ⟨Num.wrapNat h.width x ||| Num.wrapNat h.width y, false⟩),
   (.ixor, .ixorScalarB, fun h x y => ⟨Num.wrapNat h.width x ^^^ Num.wrapNat h.width y, false⟩),
   (.ishl, .ishlScalarB, fun h x y => ⟨x * 2 ^ min (Num.wrapNat h.width y) h.width, true⟩),
   (.ishr, .ishrScalarB, fun h x y => ⟨x / 2 ^ min (Num.wrapNat h.width y) h.width, false⟩)]

/-- The one-operand forms of the vector ALU (R143). -/
def vectorAluOneTable : List (Instr2 × (IntShape → Int → OpResult)) :=
  [(.iabs, fun _ x => ⟨x.natAbs, true⟩),
   (.ineg, fun _ x => ⟨-x, true⟩),
   (.inot, fun h x => ⟨2 ^ h.width - 1 - Num.wrapNat h.width x, false⟩)]

/-- The floating ALU (R153, R154): each instruction with vector B and with scalar B, and its result on element codes. -/
def floatAluTable : List (Instr3 × Instr3 × (Num.Fmt → Num.Ctl → Nat → Nat → Nat)) :=
  [(.fadd, .faddScalarB, Num.fadd), (.fsub, .fsubScalarB, Num.fsub), (.fmul, .fmulScalarB, Num.fmul), (.fmin, .fminScalarB, Num.fmin),
   (.fmax, .fmaxScalarB, Num.fmax), (.fcopysign, .fcopysignScalarB, fun f _ x y => x % f.signBit + y / f.signBit % 2 * f.signBit)]

/-- The one-operand forms on floating elements (R153, R157, R160). -/
def floatOneTable : List (Instr2 × (Num.Fmt → Num.Ctl → Nat → Nat)) :=
  [(.fabs, fun f _ x => x % f.signBit), (.fneg, fun f _ x => (x + f.signBit) % (2 * f.signBit)), (.fround, Num.fround),
   (.fsqrt, fun f c x => Num.fsqrt f f c x),
   (.frcp, Special.onElem .frcp), (.frsq, Special.onElem .frsq), (.fexp2, Special.onElem .fexp2), (.flog2, Special.onElem .flog2),
   (.fsin, Special.onElem .fsin), (.fcos, Special.onElem .fcos)]

/-- The fused forms (R155): whether the product and the addend are negated. -/
def fusedTable : List (Instr3 × Bool × Bool) := [(.ffma, false, false), (.ffms, false, true), (.fnfma, true, false)]

/-- The predicate operations of two sources (R162). -/
def predicateTable : List (Instr3 × (Mask → Mask → Mask)) :=
  [(.pand, fun x y => x &&& y), (.por, fun x y => x ||| y), (.pxor, fun x y => x ^^^ y)]

/-! ### Commands -/

/-- A source has given a command that names an opcode and an operation, and firmware has not taken it (R405 to R408). -/
structure Gives (s : State) (src : CommandSource) (op sub : Nat) (c : Command) : Prop where
  given : s.given src = true
  block : (s.blockOf src).map (commandFrom src) = some c
  op : c.op = op
  sub : subOf c.op c.block = sub

/-- The command that a source has given passes the checks that all commands share (R406 to R408). -/
structure Runs (s : State) (src : CommandSource) (op sub : Nat) (c : Command) : Prop extends Gives s src op sub c where
  clear : (s.taken src).commonRefusal c = none

/-- A command ends with STATUS 0 and a result (R405). -/
def Ends (s : State) (i : Instr) (src : CommandSource) (t : State) (result : List Byte) : Prop :=
  exec i s = .next (t.endCommand src 0 0 result)

/-- A command is refused with a STATUS, and changes no state (R406). -/
def Refuses (s : State) (i : Instr) (src : CommandSource) (status : Nat) : Prop :=
  exec i s = .next ((s.taken src).endCommand src status 0 [])

/-- The source, the opcode and the operation of a command (R407, R408); DUMP has one event for the host and one for guests. -/
def commandNames : Instr → Option (CommandSource × Nat × Nat)
  | .createVdev src => some (src, 0x01, 0)
  | .destroyVdev src => some (src, 0x02, 0)
  | .launchCommand src => some (src, 0x03, 0)
  | .save src => some (src, 0x04, 0)
  | .restore src => some (src, 0x05, 0)
  | .migrateOut src => some (src, 0x06, 0)
  | .migrateIn src => some (src, 0x07, 0)
  | .checkpointDisable src => some (src, 0x08, 0)
  | .checkpointRun src => some (src, 0x08, 1)
  | .checkpointCloseNow src => some (src, 0x08, 2)
  | .setLife src => some (src, 0x09, 0)
  | .boostPolicy src => some (src, 0x0A, 0)
  | .attest src => some (src, 0x0B, 0)
  | .partition src => some (src, 0x0C, 0)
  | .carve src => some (src, 0x0D, 0)
  | .debugAttachAttach src => some (src, 0x0E, 0)
  | .debugAttachDetach src => some (src, 0x0E, 1)
  | .debugAttachStop src => some (src, 0x0E, 2)
  | .debugAttachStep src => some (src, 0x0E, 3)
  | .debugAttachSetSampling src => some (src, 0x0E, 4)
  | .debugAttachSetTriggers src => some (src, 0x0E, 5)
  | .retirePage src => some (src, 0x10, 0)
  | .factorTables src => some (src, 0x11, 0)
  | .answerResume src => some (src, 0x12, 0)
  | .answerAbort src => some (src, 0x12, 1)
  | .answerReplay src => some (src, 0x12, 2)
  | .answerDecline src => some (src, 0x12, 3)
  | .tablesSetS1root src => some (src, 0x13, 0)
  | .tablesSetS2root src => some (src, 0x13, 1)
  | .tablesInvalidate src => some (src, 0x13, 2)
  | .tablesSetWindowGrant src => some (src, 0x13, 3)
  | .tablesSetReplicaEntry src => some (src, 0x13, 4)
  | .tablesExtendMeasurement src => some (src, 0x13, 5)
  | .commsSetCommunicator src => some (src, 0x14, 0)
  | .commsRemoveCommunicator src => some (src, 0x14, 1)
  | .commsSetReductionGroup src => some (src, 0x14, 2)
  | .commsRemoveReductionGroup src => some (src, 0x14, 3)
  | .powerQuadrantRest src => some (src, 0x15, 0)
  | .powerDeepIdle src => some (src, 0x15, 1)
  | .powerExit src => some (src, 0x15, 2)
  | .logsFaultQueueState src => some (src, 0x16, 0)
  | .logsAdvanceTail src => some (src, 0x16, 1)
  | .logsReadEventLog src => some (src, 0x16, 2)
  | .logsSetEventInterrupt src => some (src, 0x16, 3)
  | .logsClearCounters src => some (src, 0x16, 4)
  | .dump src => if isGuest src then none else some (src, 0x0F, 0)
  | .dumpOpen src => if isGuest src then some (src, 0x0F, 0) else none
  | _ => none

end Sys2Proof.Machine
end

