-- ==== Sys2Proof/Certificates/Slice0/Obligations.lean ====
section
/-! DEFINITION. The statements of this model: what its instructions and events do, as the rules of the manual say. -/

open Sys2Proof Sys2Proof.Machine

/-! ### Registers -/

/-- R133: each scalar ALU instruction writes s[D] with the result that the table gives, and nothing else changes. -/
def Obligations.ScalarAluResult : Prop :=
  ∀ op ∈ scalarAluTable, ∀ (s : State) (x : Issue) (g : Group) (d a b : BitVec 7), Issues s (op.1 d a b) x g → Undisturbed s g →
    Completes s (op.1 d a b) x g (g.regs.setSc d.toNat (op.2 (g.regs.sc a.toNat) (g.regs.sc b.toNat)))

/-- R134 to R137: the scalar immediates, LIT and SSEL; SCMP writes SEL by its condition, and EQ, LTS and LTU by the comparison of s[A] with
s[B]. -/
def Obligations.ScalarMoveResult : Prop :=
  (∀ (s : State) (x : Issue) (g : Group) (d a b : BitVec 7) (i : BitVec 11) (w : Word), Undisturbed s g →
    (Issues s (.saddi d a i) x g →
      Completes s (.saddi d a i) x g (g.regs.setSc d.toNat (BitVec.ofInt 32 ((g.regs.sc a.toNat).toInt + i.toInt)))) ∧
    (Issues s (.sandi d a i) x g → Completes s (.sandi d a i) x g (g.regs.setSc d.toNat (g.regs.sc a.toNat &&& i.signExtend 32))) ∧
    (Issues s (.sori d a i) x g → Completes s (.sori d a i) x g (g.regs.setSc d.toNat (g.regs.sc a.toNat ||| i.zeroExtend 32))) ∧
    (Issues s (.lit d w) x g → Completes s (.lit d w) x g (g.regs.setSc d.toNat w)) ∧
    (Issues s (.ssel d a b) x g →
      Completes s (.ssel d a b) x g (g.regs.setSc d.toNat (if g.regs.scc.getLsbD 3 then g.regs.sc a.toNat else g.regs.sc b.toNat)))) ∧
  (∀ (s : State) (x : Issue) (g : Group) (a b : BitVec 7) (c : ScmpCond), Issues s (.scmp a b c) x g → Undisturbed s g →
    ∃ f : BitVec 4, Completes s (.scmp a b c) x g { g.regs with scc := f } ∧
      (let p := g.regs.sc a.toNat
       let q := g.regs.sc b.toNat
       f.getLsbD 2 = decide (p = q) ∧ f.getLsbD 1 = decide (p.toInt < q.toInt) ∧ f.getLsbD 0 = decide (p.toNat < q.toNat) ∧
       f.getLsbD 3 = match c with
         | .eq => decide (p = q)
         | .ne => decide (p ≠ q)
         | .lt => decide (p.toInt < q.toInt)
         | .ge => decide (q.toInt ≤ p.toInt)
         | .le => decide (p.toInt ≤ q.toInt)
         | .gt => decide (q.toInt < p.toInt)
         | .ltu => decide (p.toNat < q.toNat)
         | .geu => decide (q.toNat ≤ p.toNat)
         | .leu => decide (p.toNat ≤ q.toNat)
         | .gtu => decide (q.toNat < p.toNat)))

/-- R27, R101: a write of a V-class register changes it in the lanes of the mask alone; a brine register then holds its clk, and those lanes
alone are valid. Registers of other numbers keep their lanes. A scalar register and a predicate read what was written to them, and every
other one what it held (R93, R162). -/
def Obligations.RegisterWrites : Prop :=
  (∀ (r : Regs) (m : Mask) (w n : Nat) (v : Lanes) (l : Nat), n < 128 → l < 32 →
     ((r.setVec m w n v).vec n).at l = (if m.getLsbD l then v.at l else (r.vec n).at l) ∧
     (∀ k, k < 128 → k ≠ n → ((r.setVec m w n v).vec k) = r.vec k) ∧
     (120 ≤ n → Store.get 0 (r.setVec m w n v).eValid (n - 120) = m ∧ Store.get 0 (r.setVec m w n v).eClk (n - 120) = w) ∧
     (r.setVec m w n v).s = r.s ∧ (r.setVec m w n v).p = r.p ∧ (r.setVec m w n v).gmode = r.gmode ∧ (r.setVec m w n v).scc = r.scc) ∧
  (∀ (r : Regs) (n k : Nat) (w : Word) (m v : Mask),
     (r.setSc n w).sc k = (if k = n then w else r.sc k) ∧ (r.setSc n w).vec = r.vec ∧ (r.setSc n w).pred = r.pred ∧
     (r.setPred m n v).pred k = (if k = n then (r.pred n &&& ~~~m) ||| (v &&& m) else r.pred k) ∧
     (r.setPred m n v).vec = r.vec ∧ (r.setPred m n v).sc = r.sc)

/-- R132, R143: the vector ALU with vector B and with scalar B writes d in the active lanes, element by element. R132, R44: the elements of a
result: element k of a lane is the exact result of the elements of the operands, saturated to the element's range when SAT is set and the
operation saturates, else taken modulo 2^w. -/
def Obligations.VectorAluResult : Prop :=
  (∀ op ∈ vectorAluTable, ∀ (s : State) (x : Issue) (g : Group) (d a b : BitVec 7), Undisturbed s g →
     (Issues s (op.1 d a b) x g → Completes s (op.1 d a b) x g (g.regs.vecAlu x op.2.2 d (g.regs.vec a.toNat) (g.regs.vec b.toNat))) ∧
     (Issues s (op.2.1 d a b) x g →
       Completes s (op.2.1 d a b) x g (g.regs.vecAlu x op.2.2 d (g.regs.vec a.toNat) (lanesBy fun _ => g.regs.sc b.toNat)))) ∧
  (∀ (t : ElemType) (sat : Bool) (f : IntShape → Int → Int → OpResult) (a b : Word) (k : Nat), k < 32 / (intShape t).width →
     let h := intShape t
     let z := f h (Num.readInt h.sgn h.width (elemAt h.width a k)) (Num.readInt h.sgn h.width (elemAt h.width b k))
     elemAt h.width (onElems t sat f a b) k =
       (if sat ∧ z.saturates then Num.wrapNat h.width (max (Num.loEnd h.sgn h.width) (min z.z (Num.hiEnd h.sgn h.width)))
        else Num.wrapNat h.width z.z))

/-- R143, R145, R146: IABS, INEG, INOT; IMAD; and the immediate forms. -/
def Obligations.VectorAluOtherResult : Prop :=
  (∀ op ∈ vectorAluOneTable, ∀ (s : State) (x : Issue) (g : Group) (d a : BitVec 7), Issues s (op.1 d a) x g → Undisturbed s g →
    Completes s (op.1 d a) x g (g.regs.vecAlu x (fun h e _ => op.2 h e) d (g.regs.vec a.toNat) zeroLanes)) ∧
  ∀ (s : State) (x : Issue) (g : Group) (d a b : BitVec 7) (i : BitVec 11), Undisturbed s g →
    (Issues s (.imad d a b) x g → Completes s (.imad d a b) x g (g.regs.putVec x d fun l =>
      madElems (elemType g.regs.gmode) (satOn g.regs.gmode) ((g.regs.vec a.toNat).at l) ((g.regs.vec b.toNat).at l) ((g.regs.vec d.toNat).at l))) ∧
    (Issues s (.iaddi d a i) x g →
      Completes s (.iaddi d a i) x g (g.regs.vecAlu x (fun _ e _ => ⟨e + i.toInt, true⟩) d (g.regs.vec a.toNat) zeroLanes)) ∧
    (Issues s (.ishli d a i) x g → Completes s (.ishli d a i) x g
      (g.regs.vecAlu x (fun h e _ => ⟨e * 2 ^ min i.toNat h.width, true⟩) d (g.regs.vec a.toNat) zeroLanes)) ∧
    (Issues s (.ishri d a i) x g → Completes s (.ishri d a i) x g
      (g.regs.vecAlu x (fun h e _ => ⟨e / 2 ^ min i.toNat h.width, false⟩) d (g.regs.vec a.toNat) zeroLanes))

/-- R147 to R151: comparison, selection, bit operations, bit fields, LEA and moves, in the active lanes. R149: CLZ and CTZ count the 0 bits
above the highest and below the lowest 1 bit, 32 for 0. -/
def Obligations.VectorBitResult : Prop :=
  (∀ (s : State) (x : Issue) (g : Group) (d a b : BitVec 7), Undisturbed s g →
     let av (l : Nat) : Word := (g.regs.vec a.toNat).at l
     let bv (l : Nat) : Word := (g.regs.vec b.toNat).at l
     let dv (l : Nat) : Word := (g.regs.vec d.toNat).at l
     let pos (l : Nat) : Nat := min ((bv l).toNat % 256) 32
     let len (l : Nat) : Nat := min ((bv l).toNat / 256 % 256) (32 - pos l)
     (∀ c, Issues s (.icmp d a b c) x g → Completes s (.icmp d a b c) x g (g.regs.setPred x.act d.toNat (maskOf fun l =>
       let sgn := (intShape (elemType g.regs.gmode)).sgn
       icmpHolds c (if sgn then (av l).toInt else (av l).toNat) (if sgn then (bv l).toInt else (bv l).toNat)))) ∧
     (∀ p, Issues s (.isel d a b p) x g →
       Completes s (.isel d a b p) x g (g.regs.putVec x d fun l => if (g.regs.pred p.toNat).getLsbD l then av l else bv l)) ∧
     (Issues s (.popc d a) x g → Completes s (.popc d a) x g (g.regs.putVec x d fun l =>
       BitVec.ofNat 32 (((List.range 32).filter fun i => (av l).getLsbD i).length))) ∧
     (Issues s (.clz d a) x g → Completes s (.clz d a) x g (g.regs.putVec x d fun l => BitVec.ofNat 32 (clzCount (av l)))) ∧
     (Issues s (.ctz d a) x g → Completes s (.ctz d a) x g (g.regs.putVec x d fun l => BitVec.ofNat 32 (ctzCount (av l)))) ∧
     (Issues s (.brev d a) x g → Completes s (.brev d a) x g (g.regs.putVec x d fun l => maskOf fun i => (av l).getLsbD (31 - i))) ∧
     (∀ sg, Issues s (.bfe d a b sg) x g → Completes s (.bfe d a b sg) x g (g.regs.putVec x d fun l =>
       let f := (av l).toNat / 2 ^ pos l % 2 ^ len l
       if len l = 0 then 0 else if sg ∧ 2 ^ (len l - 1) ≤ f then BitVec.ofInt 32 ((f : Int) - 2 ^ len l) else BitVec.ofNat 32 f)) ∧
     (Issues s (.bfi d a b) x g → Completes s (.bfi d a b) x g (g.regs.putVec x d fun l =>
       let m : Word := BitVec.ofNat 32 ((2 ^ len l - 1) * 2 ^ pos l)
       (dv l &&& ~~~m) ||| ((av l <<< pos l) &&& m))) ∧
     (∀ k, Issues s (.lea d a b k) x g →
       Completes s (.lea d a b k) x g (g.regs.putVec x d fun l => BitVec.ofNat 32 ((av l).toNat + (bv l).toNat * 2 ^ k.toNat))) ∧
     (Issues s (.vmov d a) x g → Completes s (.vmov d a) x g (g.regs.putVec x d av)) ∧
     (∀ i : BitVec 18, Issues s (.vli d i) x g → Completes s (.vli d i) x g (g.regs.putVec x d fun _ => BitVec.ofInt 32 i.toInt))) ∧
  (clzCount 0 = 32 ∧ ctzCount 0 = 32 ∧
   ∀ a : Word, a ≠ 0 →
     clzCount a < 32 ∧ a.getLsbD (31 - clzCount a) = true ∧ (∀ i, 31 - clzCount a < i → a.getLsbD i = false) ∧
     ctzCount a < 32 ∧ a.getLsbD (ctzCount a) = true ∧ ∀ i, i < ctzCount a → a.getLsbD i = false)

/-- R152 to R155, R157, R160: the floating ALU, the one-operand forms, the fused forms and FDIV, element by element in the active lanes, with
the rounding, saturation and FTZ of gmode. R156, R159, R161: FCMP writes the bits of p[D] in the active lanes; FCLASS one mask per element;
FCVT converts every element, all of which it reads before it writes.
Points that the manual leaves open follow the model's reading (log 10). -/
def Obligations.FloatResult : Prop :=
  (∀ (s : State) (x : Issue) (g : Group) (d a b : BitVec 7), Undisturbed s g →
     let fmt := fmtOf (elemType g.regs.gmode)
     let ctl := floatCtl g.regs.gmode
     (∀ op ∈ floatAluTable,
       (Issues s (op.1 d a b) x g → Completes s (op.1 d a b) x g
         (g.regs.putElems x d fun l k => op.2.2 fmt ctl (g.regs.elemV a.toNat l k) (g.regs.elemV b.toNat l k))) ∧
       (Issues s (op.2.1 d a b) x g → Completes s (op.2.1 d a b) x g
         (g.regs.putElems x d fun l k => op.2.2 fmt ctl (g.regs.elemV a.toNat l k) (g.regs.elemS b.toNat l k)))) ∧
     (∀ op ∈ floatOneTable, Issues s (op.1 d a) x g →
       Completes s (op.1 d a) x g (g.regs.putElems x d fun l k => op.2 fmt ctl (g.regs.elemV a.toNat l k))) ∧
     (∀ op ∈ fusedTable, Issues s (op.1 d a b) x g → Completes s (op.1 d a b) x g (g.regs.putElems x d fun l k =>
       Num.ffma fmt ctl op.2.1 op.2.2 (g.regs.elemV a.toNat l k) (g.regs.elemV b.toNat l k) (g.regs.elemV d.toNat l k))) ∧
     (Issues s (.fdiv d a b) x g → Completes s (.fdiv d a b) x g
       (g.regs.putElems x d fun l k => Num.fdiv fmt fmt ctl (g.regs.elemV a.toNat l k) (g.regs.elemV b.toNat l k)))) ∧
  (∀ (s : State) (x : Issue) (g : Group) (d a b : BitVec 7), Undisturbed s g →
     let t := elemType g.regs.gmode
     (∀ c, Issues s (.fcmp d a b c) x g → Completes s (.fcmp d a b c) x g (g.regs.setPred x.act d.toNat (maskOf fun l =>
       Num.fcmp (fmtOf t) (ftzOn g.regs.gmode) c (g.regs.elemV a.toNat l 0) (g.regs.elemV b.toNat l 0)))) ∧
     (Issues s (.fclass d a) x g → Completes s (.fclass d a) x g (g.regs.putVec x d fun l =>
       if floatElems t = 2 then elemsBy 16 fun k => Num.fclass (fmtOf t) (g.regs.elemV a.toNat l k)
       else BitVec.ofNat 32 (Num.fclass (fmtOf t) (g.regs.elemV a.toNat l 0)))) ∧
     (∀ src, Issues s (.fcvt d a src) x g → Completes s (.fcvt d a src) x g
       ((List.range (cvtShape src t).2.2).foldl (fun q i => q.setVec x.act x.ready (d.toNat + i) (lanesBy fun l =>
         footWord t (fun j => convertElem src t (floatCtl g.regs.gmode) (g.regs.footElem src a.toNat l j)) i)) g.regs)))

/-- R162 to R165: predicates, BALLOT, PFROMS, VOTE, SHFL, VTOS and STOV. A brine lane that SHFL or VTOS reads must be valid. R166 to R168: GRED
writes s[D] with the reduction of the active lanes; GSCAN writes in each active lane the running result, inclusive or exclusive.
Points that the manual leaves open follow the model's reading (logs 15 and 38). -/
def Obligations.LaneExchange : Prop :=
  (∀ (s : State) (x : Issue) (g : Group) (d a b : BitVec 7), Undisturbed s g →
     let av (l : Nat) : Word := (g.regs.vec a.toNat).at l
     (∀ op ∈ predicateTable, Issues s (op.1 d a b) x g →
       Completes s (op.1 d a b) x g (g.regs.setPred x.act d.toNat (op.2 (g.regs.pred a.toNat) (g.regs.pred b.toNat)))) ∧
     (Issues s (.pnot d a) x g → Completes s (.pnot d a) x g (g.regs.setPred x.act d.toNat (~~~g.regs.pred a.toNat))) ∧
     (Issues s (.pmov d a) x g → Completes s (.pmov d a) x g (g.regs.setPred x.act d.toNat (g.regs.pred a.toNat))) ∧
     (Issues s (.ballot d a) x g → Completes s (.ballot d a) x g (g.regs.setSc d.toNat (g.regs.pred a.toNat &&& x.act))) ∧
     (Issues s (.pfroms d a) x g → Completes s (.pfroms d a) x g (g.regs.setPred x.act d.toNat (g.regs.sc a.toNat))) ∧
     (∀ v, Issues s (.vote d a v) x g → Completes s (.vote d a v) x g (g.regs.setPred x.act d.toNat
       (if voteOf v x.act (g.regs.pred a.toNat) then BitVec.allOnes 32 else 0))) ∧
     (∀ v, Issues s (.shfl d a b v) x g →
       let src (l : Nat) : Nat := shflSource v l ((g.regs.vec b.toNat).at l) (g.regs.sc b.toNat)
       (∀ l ∈ lanesIn x.act, g.regs.laneValid a.toNat (src l) = true) →
       Completes s (.shfl d a b v) x g (g.regs.putVec x d fun l => av (src l))) ∧
     (∀ n, Issues s (.vtos d a false n) x g → g.regs.laneValid a.toNat n.toNat = true →
       Completes s (.vtos d a false n) x g (g.regs.setSc d.toNat (av n.toNat))) ∧
     (∀ n, Issues s (.vtos d a true n) x g → lanesIn x.act = [] → Completes s (.vtos d a true n) x g (g.regs.setSc d.toNat 0)) ∧
     (∀ n l rest, Issues s (.vtos d a true n) x g → lanesIn x.act = l :: rest → g.regs.laneValid a.toNat l = true →
       Completes s (.vtos d a true n) x g (g.regs.setSc d.toNat (av l))) ∧
     (Issues s (.stov d a) x g → Completes s (.stov d a) x g (g.regs.putVec x d fun _ => g.regs.sc a.toNat))) ∧
  (∀ (s : State) (x : Issue) (g : Group) (d a : BitVec 7) (o : RedOp), Undisturbed s g →
     let t := elemType g.regs.gmode
     let c := floatCtl g.regs.gmode
     (Issues s (.gred d a o) x g → Completes s (.gred d a o) x g (g.regs.setSc d.toNat (reduceLanes t c o x.act (g.regs.vec a.toNat)))) ∧
     (Issues s (.gscan d a false o) x g → Completes s (.gscan d a false o) x g (g.regs.putVec x d fun l =>
       Store.get 0 (scanLanes t c o x.act (g.regs.vec a.toNat)) l)) ∧
     (Issues s (.gscan d a true o) x g → Completes s (.gscan d a true o) x g (g.regs.putVec x d fun l =>
       Store.get 0 (shiftScan (redIdentity t o) (scanLanes t c o x.act (g.regs.vec a.toNat))) l)))

/-- R197 to R199: the algebra instructions use the slot of gmode.ALG when it is valid, each component the exact sum of its terms rounded once;
the plane instructions pack, unpack and scale. R199: PNPK packs the bytes of A into planks, PNUNPK gives their integer forms, and PNEXP the
scaled binary32 values.
Points that the manual leaves open follow the model's reading (log 17). -/
def Obligations.AlgebraResult : Prop :=
  (∀ (s : State) (x : Issue) (g : Group) (d a b : BitVec 7) (al : AlgebraSlot), Undisturbed s g →
     (s.core x.core).algebra (algSlot g.regs.gmode) = some al →
     let r := g.regs
     let pa (l k n : Nat) : Num.FVal := r.component a.toNat n l k
     let pb (l k n : Nat) : Num.FVal := r.component b.toNat n l k
     (Issues s (.hmul d a b) x g → Completes s (.hmul d a b) x g (r.putComponents x d al.dim fun i l k => productTerms al (pa l k) (pb l k) i)) ∧
     (Issues s (.hfma d a b) x g → Completes s (.hfma d a b) x g (r.putComponents x d al.dim fun i l k =>
       productTerms al (pa l k) (pb l k) i ++ [r.component d.toNat i l k])) ∧
     (Issues s (.hconj d a) x g →
       Completes s (.hconj d a) x g (r.putComponents x d al.dim fun i l k => [signedVal (al.conj i) (pa l k i)])) ∧
     (Issues s (.hnorm d a) x g → Completes s (.hnorm d a) x g (r.putComponents x d 1 fun _ l k => normTerms al (pa l k)))) ∧
  (∀ (s : State) (x : Issue) (g : Group) (d a b : BitVec 7) (c : Bool) (p : BitVec 3), Undisturbed s g →
     let bytes := plankByte (g.regs.vec a.toNat)
     (Issues s (.pnpk d a) x g → Completes s (.pnpk d a) x g (g.regs.putVec x d (wordOfPositions (packByte bytes)))) ∧
     (Issues s (.pnunpk d a c p) x g → Completes s (.pnunpk d a c p) x g
       (g.regs.putVec x d (wordOfPositions fun e => BitVec.ofInt 8 (plankElem bytes (p.toNat + 1) c e)))) ∧
     (Issues s (.pnexp d a b c p) x g → Completes s (.pnexp d a b c p) x g
       ((List.range 4).foldl (fun q k => q.setVec x.act x.ready (d.toNat + k) (lanesBy fun l => BitVec.ofNat 32
         (scaledElem (floatCtl g.regs.gmode) (plankElem bytes (p.toNat + 1) c (4 * l + k)) ((g.regs.sc b.toNat).toNat % 256)))) g.regs)))

/-- R113, R114: SETMODE, SETGRD and SETMEM write the selected fields of gmode and leave the others; a reserved value of a selected field faults
with ILLEGAL_OPERAND and writes nothing. R73, R113: the fields that the mode instructions write, bit by bit. R112: NOP changes no register. -/
def Obligations.ModeWrites : Prop :=
  (∀ (s : State) (x : Issue) (g : Group) (src : Bool) (a : BitVec 7), Undisturbed s g →
     let reg := (g.regs.sc a.toNat).extractLsb' 0 11
     (∀ w i, Issues s (.setmode src w a i) x g →
       let v := if src then reg else i
       if modeReserved w v then Traps s (.setmode src w a i) x g (x.trap .illegalOperand)
       else Completes s (.setmode src w a i) x g { g.regs with gmode := setModeFields g.regs.gmode w v }) ∧
     (∀ i, Issues s (.setgrd src a i) x g →
       Completes s (.setgrd src a i) x g { g.regs with gmode := setGuardFields g.regs.gmode (if src then reg.extractLsb' 0 5 else i) }) ∧
     (∀ w i, Issues s (.setmem src w a i) x g →
       let v := if src then reg.extractLsb' 0 5 else i
       if memReserved w v then Traps s (.setmem src w a i) x g (x.trap .illegalOperand)
       else Completes s (.setmem src w a i) x g { g.regs with gmode := setMemFields g.regs.gmode w v })) ∧
  (∀ (g : BitVec 32) (w : BitVec 5) (v : BitVec 11) (u : BitVec 5) (q : BitVec 2) (i : Nat), i < 32 →
     (setModeFields g w v).getLsbD i =
       (if 5 ≤ i ∧ i < 9 ∧ w.getLsbD 0 ∨ 9 ≤ i ∧ i < 12 ∧ w.getLsbD 1 ∨ i = 12 ∧ w.getLsbD 2 ∨ i = 13 ∧ w.getLsbD 3 ∨
           14 ≤ i ∧ i < 16 ∧ w.getLsbD 4 then v.getLsbD (i - 5) else g.getLsbD i) ∧
     (setGuardFields g u).getLsbD i = (if i < 5 then u.getLsbD i else g.getLsbD i) ∧
     (setMemFields g q u).getLsbD i =
       (if 16 ≤ i ∧ i < 19 ∧ q.getLsbD 0 ∨ 19 ≤ i ∧ i < 21 ∧ q.getLsbD 1 then u.getLsbD (i - 16) else g.getLsbD i)) ∧
  (∀ (s : State) (x : Issue) (g : Group), Issues s .nop x g → Undisturbed s g → Completes s .nop x g g.regs)

/-- R389: CKFOLD folds the active lanes of A into a check register, CKCLR clears both, and CKTEST changes nothing when the pair
agrees and raises CHECK_FAIL when it does not. -/
def Obligations.CheckRegisters : Prop :=
  ∀ (s : State) (x : Issue) (g : Group) (d a : BitVec 7) (int : Bool), Undisturbed s g →
    (Issues s (.ckfold d a int) x g → Completes s (.ckfold d a int) x g
      (if d = 0 then { g.regs with k0 := foldLanes g.regs x.act a.toNat int g.regs.k0 }
       else { g.regs with k1 := foldLanes g.regs x.act a.toNat int g.regs.k1 })) ∧
    (Issues s .ckclr x g → Completes s .ckclr x g { g.regs with k0 := 0, k1 := 0 }) ∧
    (Issues s (.cktest a true) x g → g.regs.k0 = g.regs.k1 → Completes s (.cktest a true) x g g.regs) ∧
    (Issues s (.cktest a true) x g → g.regs.k0 ≠ g.regs.k1 → Traps s (.cktest a true) x g (x.trap .checkFail)) ∧
    (Issues s (.cktest a false) x g → badTolerance (g.regs.sc64 a.toNat) = true →
      Traps s (.cktest a false) x g (x.trap .illegalOperand)) ∧
    (Issues s (.cktest a false) x g → badTolerance (g.regs.sc64 a.toNat) = false →
      pairClose g.regs.k0 g.regs.k1 (g.regs.sc64 a.toNat) = true → Completes s (.cktest a false) x g g.regs) ∧
    (Issues s (.cktest a false) x g → badTolerance (g.regs.sc64 a.toNat) = false →
      pairClose g.regs.k0 g.regs.k1 (g.regs.sc64 a.toNat) = false → Traps s (.cktest a false) x g (x.trap .checkFail))

/-! ### Control -/

/-- R70, R116 to R118: BRA, BRU and CALL move the issuing slot with all its lanes to the target of J22, or BRU past itself when its
condition on scc does not hold; CALL writes its return address in v30 and v31 in every lane of the slot mask. -/
def Obligations.BranchResult : Prop :=
  ∀ (s : State) (x : Issue) (g : Group) (j : BitVec 22), Undisturbed s g → x.mask ≠ 0 →
    let target : VA := x.pc + BitVec.ofInt 56 (4 * j.toInt)
    let goes (pc : VA) : Flow := (g.flow.setSlot x.slot { pc := pc, mask := x.mask, hold := .none, readyAt := x.ready }).settle x.clk
    (Issues s (.bra j) x g → CompletesAs s (.bra j) x g g.regs (goes target)) ∧
    (∀ c, Issues s (.bru c j) x g → CompletesAs s (.bru c j) x g g.regs (goes (if bruHolds c g.regs.scc then target else x.pc + 4))) ∧
    (Issues s (.call j) x g → CompletesAs s (.call j) x g
      ((g.regs.setVec x.mask x.ready 30 (lanesBy fun _ => (x.pc + 4).extractLsb' 0 32)).setVec x.mask x.ready 31
        (lanesBy fun _ => ((x.pc + 4).extractLsb' 32 24).zeroExtend 32)) (goes target))

/-- R29, R118: BRC sends the lanes of the slot whose predicate is set to the target and the others past itself. When both are found, the
other slot is pushed when it is live and takes the lanes that go to the target; with no room for it on the stack JOIN_STACK_OVERFLOW is
taken. MARK pushes the other slot when it is live and a join entry with the lanes of the slot.
Points that the manual leaves open follow the model's reading (log 22). -/
def Obligations.DivergenceResult : Prop :=
  ∀ (s : State) (x : Issue) (g : Group) (p : BitVec 3) (j : BitVec 22), Undisturbed s g → x.mask ≠ 0 →
    let target : VA := x.pc + BitVec.ofInt 56 (4 * j.toInt)
    let t := x.mask &&& g.regs.pred p.toNat
    let n := x.mask &&& ~~~g.regs.pred p.toNat
    let o := g.flow.slot (1 - x.slot)
    let path : List StackEntry := if o.live then [.path o.pc o.mask] else []
    let slot (extra : Nat) (pc : VA) (m : Mask) : PcSlot := { pc := pc, mask := m, hold := .none, readyAt := x.ready + extra }
    let spills (k : Nat) : Nat := 20 * ((List.range k).filter fun i => decide (4 ≤ g.flow.stack.length + i)).length
    let entry : StackEntry := .join target x.mask 0
    (Issues s (.brc p j) x g → t = 0 ∨ n = 0 → CompletesAs s (.brc p j) x g g.regs
      ((g.flow.setSlot x.slot (slot 0 (if t = 0 then x.pc + 4 else target) x.mask)).settle x.clk)) ∧
    (Issues s (.brc p j) x g → t ≠ 0 → n ≠ 0 → g.flow.stack.length + path.length ≤ 32 → CompletesAs s (.brc p j) x g g.regs
      (({ g.flow with stack := path ++ g.flow.stack }.setSlot (1 - x.slot) (slot (spills path.length) target t)).setSlot x.slot
        (slot (spills path.length) (x.pc + 4) n))) ∧
    (Issues s (.brc p j) x g → t ≠ 0 → n ≠ 0 → 32 < g.flow.stack.length + path.length →
      Traps s (.brc p j) x g (x.trap .joinStackOverflow)) ∧
    (Issues s (.mark j) x g → g.flow.stack.length + path.length + 1 ≤ 32 → CompletesAs s (.mark j) x g g.regs
      (({ g.flow with stack := entry :: path ++ g.flow.stack }.setSlot (1 - x.slot) {}).setSlot x.slot
        (slot (spills (path.length + 1)) (x.pc + 4) x.mask))) ∧
    (Issues s (.mark j) x g → 32 < g.flow.stack.length + path.length + 1 → Traps s (.mark j) x g (x.trap .joinStackOverflow))

/-- R29, R121: JOIN with no join entry goes on; otherwise the lanes that are members of the topmost join entry arrive there and leave the
slot. While some member is missing, the entry remembers those that came; when all have come it is removed, and its members go on behind the
rejoin address: in this slot when it is free, else in the other one when that is free, else as a path entry. R105, R217: a spilled entry that it
reads and that holds an uncorrectable error faults.
Points that the manual leaves open follow the model's reading (log 22). -/
def Obligations.JoinResult : Prop :=
  ∀ (s : State) (x : Issue) (g : Group), Issues s .join x g →
    let s0 := s.openIssue x
    (s0.spillBad x.gid (joinFlow g.flow x).stack = false →
      Moves s .join x g (((s0.setFlow x.gid (joinFlow g.flow x)).afterFlow x.gid).waitReturn x.gid)) ∧
    (s0.spillBad x.gid (joinFlow g.flow x).stack = true → Traps s .join x g (x.trap .uncorrectable)) ∧
    (splitJoin g.flow.stack = none →
      joinFlow g.flow x = g.flow.setSlot x.slot { pc := x.pc + 4, mask := x.mask, hold := .none, readyAt := x.ready }) ∧
    ∀ above below rejoin member arrived, splitJoin g.flow.stack = some (above, (rejoin, member, arrived), below) →
      g.flow.stack = above ++ .join rejoin member arrived :: below ∧
      (∀ e ∈ above, ∃ pc m, e = .path pc m) ∧
      ((arrived ||| (x.mask &&& member)) ≠ member →
        (joinFlow g.flow x).stack = above ++ .join rejoin member (arrived ||| (x.mask &&& member)) :: below ∧
        (joinFlow g.flow x).slot (1 - x.slot) = g.flow.slot (1 - x.slot) ∧
        ((joinFlow g.flow x).slot x.slot).mask = x.mask &&& ~~~member) ∧
      (∀ (o : PcSlot), o = g.flow.slot (1 - x.slot) → g.flow.isRegion below = false → (arrived ||| (x.mask &&& member)) = member →
        let f := joinFlow g.flow x
        if x.mask &&& ~~~member = 0 then
          f.stack = above ++ below ∧ f.slot (1 - x.slot) = o ∧ (f.slot x.slot).mask = member ∧ (f.slot x.slot).pc = rejoin + 4
        else if o.live = false then
          f.stack = above ++ below ∧ (f.slot x.slot).mask = x.mask &&& ~~~member ∧ (f.slot (1 - x.slot)).mask = member ∧
          (f.slot (1 - x.slot)).pc = rejoin + 4
        else
          f.stack = .path (rejoin + 4) member :: (above ++ below) ∧ (f.slot x.slot).mask = x.mask &&& ~~~member ∧ f.slot (1 - x.slot) = o)

/-- R119: RET and JMPR read their targets in the lanes of the slot mask. One that is not a multiple of 4 faults with MISALIGNED; one
target for all moves the slot; with more, the lowest goes on in this slot, the next in the other one, which is pushed when it is live, and
the rest in path entries.
Points that the manual leaves open follow the model's reading (log 22). -/
def Obligations.IndirectJumpResult : Prop :=
  ∀ (s : State) (x : Issue) (g : Group) (a : BitVec 7), Undisturbed s g → x.mask ≠ 0 → ∀ i ∈ [Instr.ret a, Instr.jmpr a], Issues s i x g →
    let t (l : Nat) : VA := BitVec.ofNat 56 (g.regs.vecAddr a.toNat l)
    let o := g.flow.slot (1 - x.slot)
    let path : List StackEntry := if o.live then [.path o.pc o.mask] else []
    let slot (extra : Nat) (u : VA × Mask) : PcSlot := { pc := u.1, mask := u.2, hold := .none, readyAt := x.ready + extra }
    ((∃ l ∈ lanesIn x.mask, (t l).toNat % 4 ≠ 0) → Traps s i x g (x.trap .misaligned)) ∧
    ((∀ l ∈ lanesIn x.mask, (t l).toNat % 4 = 0) →
      (∀ u, byTarget x.mask t = [u] →
        CompletesAs s i x g g.regs ((g.flow.setSlot x.slot (slot 0 (u.1, x.mask))).settle x.clk)) ∧
      (∀ (u1 u2 : VA × Mask) (more : List (VA × Mask)), byTarget x.mask t = u1 :: u2 :: more →
        (32 < g.flow.stack.length + path.length + more.length → Traps s i x g (x.trap .joinStackOverflow)) ∧
        (g.flow.stack.length + path.length + more.length ≤ 32 → u1.2 ≠ 0 → u2.2 ≠ 0 → ∃ extra,
          CompletesAs s i x g g.regs
            (({ g.flow with stack := (more.map fun (u : VA × Mask) => StackEntry.path u.1 u.2) ++ path ++ g.flow.stack }.setSlot x.slot
              (slot extra u1)).setSlot (1 - x.slot) (slot extra u2)))))

/-- R31, R40, R120: EXIT frees the issuing slot and takes its lanes out of the join entries, which may complete them; with a slot left to go on,
the group goes on with it, and with no lane left it exits. A spilled entry that it rewrites and that holds an uncorrectable error faults (R105,
R217). GROUP_EXIT_RELEASE frees the slot of an exited group of which the engine counters are 0 outside a regrouped region and that has no write or fault report
left to make, and gives its extended blocks back.
Points that the manual leaves open follow the model's reading (log 22). -/
def Obligations.ExitResult : Prop :=
  (∀ (s : State) (x : Issue) (g : Group), Issues s .exit x g →
    let s0 := s.openIssue x
    let f := (g.flow.setSlot x.slot { readyAt := x.ready + g.flow.removalCost x.mask }).removeLanes x.mask x.ready
    (s0.spillBad x.gid f.stack = false → Moves s .exit x g (((s0.setFlow x.gid f).afterFlow x.gid).waitReturn x.gid)) ∧
    (s0.spillBad x.gid f.stack = true → Traps s .exit x g (x.trap .uncorrectable)) ∧
    (∀ n, Undisturbed s g → f.atReturn = false → (f.slot n).live = true → (f.slot n).hold = .none →
      CompletesAs s .exit x g g.regs (f.settle x.clk))) ∧
  (∀ (f : Flow) (gone : Mask) (ready : Nat), (f.s0.live = true ∨ f.s1.live = true) → f.stack = [] → f.removeLanes gone ready = f) ∧
  (∀ (f : Flow) (gone member arrived : Mask) (pc : VA) (below : List StackEntry) (ready : Nat), f.region = false →
    f.stack = .join pc member arrived :: below → below.length < 4 → (∀ e ∈ below, ∃ pc m, e = .path pc m) → f.s0.live = false →
    let left := member &&& ~~~gone
    (left = 0 → (f.removeLanes gone ready).stack = below ∧ (f.removeLanes gone ready).s0 = f.s0) ∧
    (left ≠ 0 → arrived = left → (f.removeLanes gone ready).stack = below ∧
      (f.removeLanes gone ready).s0 = { pc := pc + 4, mask := left, hold := .none, readyAt := ready }) ∧
    (left ≠ 0 → arrived ≠ left → (f.removeLanes gone ready).stack = .join pc left arrived :: below ∧ (f.removeLanes gone ready).s0 = f.s0)) ∧
  (∀ (s : State) (gid : Nat) (g : Group), Store.find s.groups gid = some g → g.flow.exited = true → g.flow.region = false → g.eng.out = [] →
    g.unwritten = false → (∀ o ∈ g.ops, o.probing = none) →
    ∃ t, exec (.groupExitRelease gid) s = .next t ∧ Store.find t.groups gid = none ∧
      (∀ k, k ≠ gid → Store.find t.groups k = Store.find s.groups k) ∧ t.mem = s.mem ∧ t.teams = s.teams ∧
      t.bench (gid / 8) = (s.bench (gid / 8)).release g.regs.ext (s.core (coreOf gid)).clk)

/-- R128, R129, R316, R317: TRAP issues, and counts as an instruction that issues, and faults with SOFTWARE_TRAP, its immediate in AUX2 and the next instruction as its resume address; BKPT faults
with BREAKPOINT in the same way when a debugger is attached, and is a NOP otherwise. R130: YIELD starts a count of n clk; YIELD_COUNT_EXPIRY
ends a count that is over, and the group is ready again.
Points that the manual leaves open follow the model's reading (log 34). -/
def Obligations.TrapAndYieldResult : Prop :=
  (∀ (s : State) (x : Issue) (g : Group) (i : BitVec 11),
     (Issues s (.trap i) x g → IssuesAndTraps s (.trap i) x g
       { code := .softwareTrap, pc := x.pc, resume := x.pc + 4, slot := x.slot, mask := x.mask, aux2 := i.zeroExtend 32 }) ∧
     (Issues s (.bkpt i) x g → Undisturbed s g → Completes s (.bkpt i) x g g.regs) ∧
     (Issues s (.bkpt i) x g → s.debugged g.tid = true → IssuesAndTraps s (.bkpt i) x g
       { code := .breakpoint, pc := x.pc, resume := x.pc + 4, slot := x.slot, mask := x.mask, aux2 := i.zeroExtend 32, spread := true })) ∧
  ((∀ (s : State) (x : Issue) (g : Group) (i : BitVec 11), Undisturbed s g → Issues s (.yield i) x g →
     CompletesAs s (.yield i) x g g.regs ({ g.flow with yieldEnd := x.clk + i.toNat }.stepped x (.yield i))) ∧
   (∀ (s : State) (gid : Nat) (g : Group), Store.find s.groups gid = some g → g.flow.yieldEnd ≠ 0 →
     g.flow.yieldEnd ≤ (s.core (coreOf gid)).clk →
     ∃ t h, exec (.yieldCountExpiry gid) s = .next t ∧ Apart s t gid ∧ Store.find t.groups gid = some h ∧ h.regs = g.regs ∧
       h.flow = { g.flow with yieldEnd := 0 } ∧ h.ops = g.ops ∧ h.stops = g.stops ∧ h.eng = g.eng))

/-- R126, R323: FLASHPT keeps its own address, both slots, the stack, gmode, scc and the check pair as the group's flashback point; in recipe
mode it puts that point's slots, stack, gmode and scc back; inside a regrouped region it does nothing. -/
def Obligations.FlashbackPoint : Prop :=
  ∀ (s : State) (x : Issue) (g : Group) (i : BitVec 11), Undisturbed s g → Issues s (.flashpt i) x g →
    (g.flow.recipe = none → g.flow.region = true → Completes s (.flashpt i) x g g.regs) ∧
    (g.flow.recipe = none → g.flow.region = false → CompletesAs s (.flashpt i) x g g.regs ({ g.flow with
      flash := some { pc := x.pc, recipe := i.toNat, s0 := g.flow.s0, s1 := g.flow.s1, stack := g.flow.stack, gmode := g.regs.gmode,
                      scc := g.regs.scc, k0 := g.regs.k0, k1 := g.regs.k1, serial := g.issued },
      unrew := false }.stepped x (.flashpt i))) ∧
    (∀ p, g.flow.recipe = some ⟨p⟩ → CompletesAs s (.flashpt i) x g { g.regs.dropBrine with gmode := p.gmode, scc := p.scc }
      { g.flow with s0 := { p.s0 with readyAt := x.clk + 1 }, s1 := { p.s1 with readyAt := x.clk + 1 },
                    stack := p.stack, recipe := none })

/-- R32 to R36, R122 to R125: BRP holds its slot, with the target words that its lanes read, joining the other slot when that is held at the same BRP;
inside a regrouped region it is a branch with a target for each lane. BRP_SYNCHRONISE regroups each bench of the team when all its groups have
arrived or exited, and all benches issue again 10 clk and the largest of their spill costs later; REGROUP_RETURN undoes it for a bench of which all groups have come to
the end of the region or exited: each lane goes back with its registers to its home group, which goes on behind the JOIN with its lanes that have not
exited, 10 clk later. At each position the lanes that the groups supply go to one new group each, the live ones first, in order of
their targets and then of their groups, and carry their vector registers.
Points that the manual leaves open follow the model's reading (log 22). -/
def Obligations.RegroupResult : Prop :=
  (∀ (s : State) (x : Issue) (g : Group) (a : BitVec 7) (i : BitVec 11), Issues s (.brp a i) x g → Undisturbed s g →
    let rejoin := x.pc + BitVec.ofNat 56 (4 * i.toNat)
    let words := g.regs.vec a.toNat
    let o := g.flow.slot (1 - x.slot)
    let goes (f : Flow) : State := ((s.openIssue x).modFlow x.gid fun _ => f).afterFlow x.gid
    let split := splitByTarget g.flow (pathOf o) rejoin x.mask (fun l => x.pc + BitVec.ofInt 56 (4 * (words.at l).toInt)) x.ready
    (g.flow.region = true → split = none → Traps s (.brp a i) x g (x.trap .joinStackOverflow)) ∧
    (∀ f c, g.flow.region = true → split = some (f, c) → Moves s (.brp a i) x g (goes f)) ∧
    (∀ b r, g.flow.region = false → o.live = true → o.hold = .brp x.pc b r → Moves s (.brp a i) x g
      (goes ((g.flow.setSlot (1 - x.slot) { o with mask := o.mask ||| x.mask, hold := .brp x.pc (b.merge words x.mask) r }).setSlot x.slot {}))) ∧
    (g.flow.region = false → o.live = false ∨ (∀ b r, o.hold ≠ .brp x.pc b r) → Moves s (.brp a i) x g
      (goes (g.flow.setSlot x.slot { (g.flow.slot x.slot) with hold := .brp x.pc words rejoin }))) ∧
    (g.flow.region = false → o.live = true → o.hold = .none → CompletesAs s (.brp a i) x g g.regs
      ((g.flow.setSlot x.slot { (g.flow.slot x.slot) with hold := .brp x.pc words rejoin }).settle x.clk))) ∧
  (∀ (s : State) (tid : Nat), s.brpReady tid = true →
    let plans := (distinct ((s.groupsOf tid).map fun kv => kv.1 / 8)).map fun b => s.regrouping tid b
    exec (.brpSynchronise tid) s = .next (plans.foldl
      (fun s p => s.regroupBench p ((s.core (tid / 16)).clk + 10 + (plans.map (·.cost)).foldl max 0))
      (s.modSync tid fun y => { y with brpArrived := 0, brpPc := none }))) ∧
  (∀ (gs : List (Nat × Group)) (l : Nat),
    let target (i : Nat) : Option Nat := (gs[i]?.bind fun kv => kv.2.brpHold).bind fun h =>
      if h.2.2.2.getLsbD l then some (brpTarget h.1 (h.2.1.at l)).toNat else none
    let from' := regroupOrder gs l
    from'.1.Perm (List.range gs.length) ∧ from'.2 = ((List.range gs.length).filter fun i => (target i).isSome).length ∧
    (∀ j, j < gs.length → ((target (from'.1.getD j 0)).isSome = decide (j < from'.2))) ∧
    ∀ j k u v, j < k → k < from'.2 → target (from'.1.getD j 0) = some u → target (from'.1.getD k 0) = some v →
      u < v ∨ (u = v ∧ from'.1.getD j 0 < from'.1.getD k 0)) ∧
  (∀ (gs : List (Nat × Group)) (r : Regs) (src : Nat → Nat) (l : Nat) (kv : Nat × Group), l < 32 → gs[src l]? = some kv →
    (∀ n, n < 120 → ((gatherRegs gs r src).vec n).at l = (kv.2.regs.vec n).at l) ∧
    (∀ n, n < 8 → ((gatherRegs gs r src).pred n).getLsbD l = (kv.2.regs.pred n).getLsbD l) ∧
    (gatherRegs gs r src).s = r.s ∧ (gatherRegs gs r src).gmode = r.gmode ∧ (gatherRegs gs r src).scc = r.scc) ∧
  (∀ (s : State) (core bench : Nat), exec (.regroupReturn core bench) s =
    .next ((s.returnReady core bench).foldl (fun s t => s.returnBench t bench) s)) ∧
  (∀ (s : State) (tid bench gid : Nat) (g : Group) (join : VA),
    let gs := s.regionGroups tid bench
    let names (l : Nat) : List Nat := regroupSources gs l
    let running (kv : Nat × Group) : Mask := if kv.2.flow.exited then 0 else kv.2.flow.s0.mask ||| kv.2.flow.s1.mask
    (∀ t, Store.find s.teams tid = some t → t.mem.spillUpset = []) →
    (gs.map (·.1)).Nodup → (gs.map fun kv => kv.2.number).Nodup → (∀ kv ∈ gs, Store.find s.groups kv.1 = some kv.2 ∧ coreOf kv.1 = tid / 16) →
    (∀ l, l < 32 → (names l).Perm (gs.map fun kv => kv.2.number)) →
    (∀ kv ∈ gs, kv.2.flow.exited = false → (if kv.2.flow.s0.live then kv.2.flow.s0.pc else kv.2.flow.s1.pc) = join) →
    (∀ kv ∈ gs, kv.2.flow.stack = [] ∧ ∃ (l j : Nat) (new : Nat × Group), l < 32 ∧ gs[j]? = some new ∧ (names l)[j]? = some kv.2.number ∧ (running new).getLsbD l = true) →
    (gid, g) ∈ gs → ∃ h, Store.find (s.returnBench tid bench).groups gid = some h ∧ h.flow.region = false ∧ h.flow.home = [] ∧ h.flow.stack = [] ∧
      h.flow.exited = false ∧ h.flow.s0.pc = join + 4 ∧ h.flow.s0.readyAt = (s.core (tid / 16)).clk + 10 ∧ h.flow.s1.live = false ∧
      h.stops.wait ≠ .regroupJoin ∧
      ∀ (l j : Nat) (new : Nat × Group), l < 32 → gs[j]? = some new → (names l)[j]? = some g.number →
        h.flow.s0.mask.getLsbD l = (running new).getLsbD l ∧ (∀ n, n < 120 → (h.regs.vec n).at l = (new.2.regs.vec n).at l) ∧
        ∀ n, n < 8 → (h.regs.pred n).getLsbD l = (new.2.regs.pred n).getLsbD l) ∧
  (∀ (gs : List (Nat × Group)) (l j n : Nat) (kv : Nat × Group), gs[j]? = some kv → Store.get 32 kv.2.flow.home l = n → n ≠ 32 →
    (regroupSources gs l)[j]? = some n) ∧
  (∀ (s : State) (core bench tid : Nat) (gid : Nat) (g : Group), tid ∈ s.returnReady core bench → Store.find s.groups gid = some g → g.tid = tid →
    g.flow.region = true → g.flow.regionBench = bench → g.flow.atReturn = true ∨ g.flow.exited = true)

/-! ### Memory -/

/-- R138, R139, R247, R249, R252, R255 to R258, R261, R264: an access to global memory issues with one access for each active lane, or one for
the whole group, of the size and at the address that its operands give, and with the bytes that it stores; nothing of memory or of the
registers changes at issue. When the address of some lane is not a multiple of the size, no lane makes an access and the operation ends with
MISALIGNED; a PREF drops the request of a lane of which the address is no multiple of 128. It waits while an engine operation of the group holds a line of it (R305), and a REDLD while c2 is full.
Points that the manual leaves open follow the model's reading (logs 8 and 20). -/
def Obligations.AccessIssue : Prop :=
  ∀ (s : State) (x : Issue) (g : Group) (d a : BitVec 7) (la f : BitVec 4) (z : BitVec 3), Undisturbed s g →
    let n := sizeBytes z
    let s0 := s.openIssue x
    let off : Int := f.toInt * n
    let op (kind : LongKind) (cls : RegClass) (k : Nat) (m : Mask) (acc : List LaneAccess) : LongOp :=
      { kind := kind, serial := g.issued, pc := x.pc, slot := x.slot, mask := x.mask, issueClk := x.clk, window := la.toNat,
        regs := [⟨cls, d.toNat, k⟩], gmode := g.regs.gmode, sz := z.toNat, dest := d.toNat, destMask := m, accesses := acc, la := la.toNat,
        tile := g.eng.tag.map fun _ => g.eng.tagSlot }
    let lanes (o : Int) (data : Nat → List Byte) : List LaneAccess := (lanesIn x.act).map fun l =>
      { lane := l, addr := (((g.regs.vecAddr a.toNat l : Int) + o) % 2 ^ 56).toNat, data := data l }
    let one (data : List Byte) : List LaneAccess := [{ lane := 0, addr := (((g.regs.scAddr a.toNat : Int) + off) % 2 ^ 56).toNat, data := data }]
    let result (i : Instr) (o : LongOp) (store : Bool) (e : EngineSide) : Prop := Issues s i x g →
      let holders := s0.engineHolders x.gid (o.accesses.flatMap fun b => s0.globalLines x.core (s0.party x.tid x.gid).vdev b.addr n) store
      if holders ≠ [] then Waits s i x (.order holders)
      else ∃ t, exec i s = .next t ∧ Opens s t x g i e store
        (match o.accesses.find? fun b => b.addr % n != 0 with
          | some b => { o with accesses := [], failure := some (.misaligned, b.addr) }
          | none => o)
    let none' : Nat → List Byte := fun _ => []
    result (.ld d a la z f) (op .ld .V (sizeRegs z) x.act (lanes off none')) false g.eng ∧
    result (.st d a la z f) (op .st .V (sizeRegs z) x.act (lanes off fun l => storeBytes n (g.regs.laneWords d.toNat (sizeRegs z) l))) true g.eng ∧
    result (.sld d a la z f) (op .sld .S (sizeRegs z) x.mask (one [])) false g.eng ∧
    result (.sst d a la z f) (op .sst .S (sizeRegs z) x.mask (one (storeBytes n (g.regs.scWords d.toNat (sizeRegs z))))) true g.eng ∧
    (∀ u, result (.atom d a la z u) (op (.atom u) .V (atomRegs z u) x.act
      (lanes 0 fun l => storeBytes (4 * atomRegs z u) (g.regs.laneWords d.toNat (atomRegs z u) l))) true g.eng) ∧
    result (.acqrm d a la z f) (op .acqrm .V (sizeRegs z) x.act (lanes off none')) false g.eng ∧
    (g.eng.count 2 < 255 →
      result (.redld d a la z f) (op .redld .V (sizeRegs z) x.act (lanes off none')) false (g.eng.begin 2 g.issued)) ∧
    (255 ≤ g.eng.count 2 → Issues s (.redld d a la z f) x g → Waits s (.redld d a la z f) x (.full 2)) ∧
    (Issues s (.pref d a la z f) x g →
      let va (l : Nat) : Nat := (((g.regs.vecAddr a.toNat l : Int) + f.toInt * 128) % 2 ^ 56).toNat
      ∃ t, exec (.pref d a la z f) s = .next t ∧ Opens s t x g (.pref d a la z f) g.eng false
      { kind := .pref d.toNat, serial := g.issued, pc := x.pc, slot := x.slot, mask := x.mask, issueClk := x.clk, window := la.toNat,
        regs := [], gmode := g.regs.gmode, la := la.toNat, tile := g.eng.tag.map fun _ => g.eng.tagSlot,
        accesses := ((lanesIn x.act).filter fun l => va l % 128 == 0).flatMap fun l => (List.range (2 ^ z.toNat)).map fun k =>
          { lane := l, addr := (va l + 128 * k) % 2 ^ 56 } })

/-- R85 to R87, R225, R250, R251: LONG_LATENCY_COMPLETE performs an operation that is neither done nor reported once no earlier operation of the
group holds it back, and reports its fault when the group has come to wait for it; in any other case it changes nothing. R264, R265: the
answer of the switches for a lane of a REDLD: its bytes are written for that lane, PERMISSION when the address names no reduction group,
REMOTE_UNREACHABLE when no answer comes.
Points that the manual leaves open follow the model's reading (logs 8 and 9). -/
def Obligations.LongLatencyResult : Prop :=
  (∀ (s : State) (gid n : Nat) (g : Group) (o : LongOp), Store.find s.groups gid = some g → (g.ops.find? fun o => o.serial == n) = some o →
     let held := o.done || o.reported || s.held g gid o
     (held = true → exec (.longLatencyComplete gid n) s = .next s) ∧
     (held = false → o.failure = none → exec (.longLatencyComplete gid n) s = .next (s.runOp gid g o)) ∧
     (∀ c addr, held = false → o.failure = some (c, addr) →
       exec (.longLatencyComplete gid n) s =
         .next (if g.awaits o && g.reportable o then s.reportOp gid g o c addr else s))) ∧
  (∀ (s s1 : State) (gid lane : Nat) (v : BitVec 64) (reach : Bool) (g : Group) (o : LongOp) (a : LaneAccess) (t : Translation),
     Store.find s.groups gid = some g →
     (g.ops.find? fun o => o.kind == .redld && !o.done && o.failure.isNone && !s.held g gid o && o.accesses.any fun a => a.lane == lane) = some o →
     (o.accesses.find? fun a => a.lane == lane) = some a →
     s.translate (s.party g.tid gid).core (s.party g.tid gid).vdev a.addr .read = .ok (t, s1) →
     exec (.redldResponse gid lane v reach) s = .next (s1.endPass (s.party g.tid gid) o
       (if (s1.reductionGroup (s.party g.tid gid) (t.physAddr a.addr)).isNone then { s := s1, fault := some (lane, .permission, a.addr) }
        else if reach then { s := s1, got := [(lane, bytesOf o.bytes v.toNat)] }
        else { s := s1, fault := some (lane, .remoteUnreachable, a.addr) })
       (o.accesses.filter fun b => b.lane != lane)))

/-- R253, R254, R256: the accesses to the stash and to the lane store. A stash access faults with MISALIGNED or with the fault of the first
lane whose offset word names no place, waits for what it must not pass and for leases and fills, and otherwise is performed at issue: STS and ATOMS
write the stash, LDS and ATOMS the registers of d; lanes of which the line is on a page that is not present are left unfinished, in an operation that ends with PAGE_FAULT
(R213). LDL and STL read and write the slices of the lane store.
Points that the manual leaves open follow the model's reading (logs 20, 25 and 43): that the lanes on a page that is not present stand in an operation of
window 0 that ends with PAGE_FAULT is log 25 (DEDUCED). -/
def Obligations.StashResult : Prop :=
  ∀ (s : State) (x : Issue) (g : Group) (d a : BitVec 7) (z : BitVec 3) (f : BitVec 4),
    let n := sizeBytes z
    let off : Int := f.toInt * n
    let s0 := s.openIssue x
    (∀ (i : Instr) (kind : LongKind) (o : Int) (k : Nat) (accs : List LaneAccess) (op : LongOp) (r : Pass),
      (i = .lds d a z f ∧ kind = .lds ∧ o = off ∧ k = sizeRegs z) ∨ (i = .sts d a z f ∧ kind = .sts ∧ o = off ∧ k = sizeRegs z) ∨
        (∃ u, i = .atoms d a z u ∧ kind = .atoms u ∧ o = 0 ∧ k = atomRegs z u) →
      Issues s i x g →
      let store : Bool := kind != .lds
      let data (l : Nat) : List Byte := if store then storeBytes (4 * k) (g.regs.laneWords d.toNat k l) else []
      let mis := (lanesIn x.act).any fun l => !offsetAligned ((g.regs.vec a.toNat).at l) o n
      let tgt := s0.stashTargets x.tid g.regs a o n data (lanesIn x.act)
      (mis = true → Traps s i x g (x.trap .misaligned)) ∧
      (∀ c, mis = false → tgt = .error c → Traps s i x g (x.trap c)) ∧
      (mis = false → tgt = .ok accs →
        op = { kind := kind, serial := g.issued, pc := x.pc, slot := x.slot, mask := x.mask, issueClk := x.clk, window := 0, regs := [],
               gmode := g.regs.gmode, sz := z.toNat, dest := d.toNat, destMask := x.act, dueClk := x.clk + 1, tile := g.eng.tag.map fun _ => g.eng.tagSlot,
               accesses := accs.map fun b => if kind = .sts then { b with data := b.data.take n } else b } →
        let rel := op.releases && !op.idle
        let scope := s0.stashScope op n
        let places := s0.opPlaces g x.gid op
        let settled := s0.settlePath x.core places
        let after := (g.ops.filter (s0.follows g x.gid op)).map (·.serial) ++ s0.engineHolders x.gid (accs.flatMap (s0.accessLines n)) store
        let holds := !after.isEmpty || (rel && decide (2 ≤ scope) && s0.pathWaits x.core) || (store && settled.pathTouches x.core places && !accs.isEmpty)
        let leased := store && accs.any fun b => s0.leasedBytes (b.addr / 2 ^ 32) (b.addr % 2 ^ 32) n
        (holds = true → Waits s i x (if after = [] ∧ leased = true then .lease else .order after)) ∧
        (holds = false → leased = true → Waits s i x .lease) ∧
        (holds = false → leased = false →
          r = Pass.run (s0.party x.tid x.gid) op op.accesses { s := if rel then settled.releaseAt x.core x.tid scope else settled } →
          (∀ l c addr, r.fault = some (l, c, addr) → Traps s i x g { x.trap c with addr := addr, sites := r.sites }) ∧
          (r.fault = none → r.left ≠ [] → ∃ w, Waits s i x w ∧ (w = .stall ∨ ∃ l, w = .lock l)) ∧
          (r.fault = none → r.left = [] →
            let s1 := if kind = .lds ∨ kind = .sts then r.s else r.s.setUnrew x.gid
            let s2 := if kind = .sts then s1 else s1.modRegs x.gid fun q =>
              q.putLanes d.toNat (sizeRegs z) (x.act &&& ~~~op.lanesOf r.pages) x.ready (r.got.map fun b => (b.1, loadWords z.toNat b.2))
            (r.pages = [] → Steps s i x g (if op.acquires && !op.idle then s2.acquireAt x.core scope else s2)) ∧
            (∀ b rest, r.pages = b :: rest → Steps s i x g (s2.modOps x.gid fun l => l ++
              [{ op with failure := some (.pageFault, s2.accessVa op b), accesses := r.pages, unfinished := op.lanesOf r.pages, hyper := r.hyper }])))))) ∧
    (let at' (l : Nat) : Int := ((g.regs.vec a.toNat).at l + BitVec.ofInt 32 off).toInt
     let bad : Option FaultCode :=
      if ∃ l ∈ lanesIn x.act, at' l % (n : Int) ≠ 0 then some .misaligned
      else if ∃ l ∈ lanesIn x.act, at' l < 0 ∨ ((s.core x.core).lane * 16 : Int) < at' l + n then some .permission
      else none
     let place (l : Nat) : Nat := (Store.get g.number g.flow.home l * 32 + l) * 512 + (at' l).toNat
     (∀ c, bad = some c → (Issues s (.ldl d a z f) x g → Traps s (.ldl d a z f) x g (x.trap c)) ∧
        (Issues s (.stl d a z f) x g → Traps s (.stl d a z f) x g (x.trap c))) ∧
     (bad = none → ∀ t, Store.find s.teams x.tid = some t →
        let lost := (lanesIn x.act).any fun l => upsetIn t.mem.laneUpset (place l) n
        (lost = true → Issues s (.ldl d a z f) x g → Traps s (.ldl d a z f) x g (x.trap .uncorrectable)) ∧
        (lost = false → Undisturbed s g → Issues s (.ldl d a z f) x g → Completes s (.ldl d a z f) x g (g.regs.putLanes d.toNat (sizeRegs z) x.act x.ready
          ((lanesIn x.act).map fun l => (l, loadWords z.toNat (stashReads t.mem.lane (place l) n))))) ∧
        (Issues s (.stl d a z f) x g → Steps s (.stl d a z f) x g (s0.modTeamMem x.tid fun m => { m with
          lane := (lanesIn x.act).foldl (fun (st : Store Byte) l =>
            stashWrites st (place l) (storeBytes n (g.regs.laneWords d.toNat (sizeRegs z) l))) m.lane
          laneUpset := (lanesIn x.act).foldl (fun (bad : List Nat) l => rewritten bad (place l) n) m.laneUpset }))))

/-- R259, R260: a relaxed FENCE does nothing; any other one waits until the group's own accesses are done and no lease holds a store that it
releases, then releases and acquires at its scope, and the next instruction issues 2 clk later.
Points that the manual leaves open follow the model's reading (log 9). -/
def Obligations.FenceResult : Prop :=
  ∀ (s : State) (x : Issue) (g : Group) (own : Bool) (i : BitVec 5), Issues s (.fence own i) x g →
    let ord := if own then i.toNat / 8 else memOrder g.regs.gmode
    let scope := if own then i.toNat % 8 else memScope g.regs.gmode
    let s0 := s.openIssue x
    let rel := decide (ord = 2 ∨ ord = 3)
    let open' := (g.ops.any fun e => !e.done && e.isAccess) || (rel && decide (2 ≤ scope) && s0.pathWaits x.core)
    let s1 := if rel then s0.releaseAt x.core x.tid scope else s0
    (ord = 0 → Undisturbed s g → Completes s (.fence own i) x g g.regs) ∧
    (ord ≠ 0 → open' = true → Waits s (.fence own i) x (.order ((g.ops.filter fun e => !e.done && e.isAccess).map (·.serial)))) ∧
    (ord ≠ 0 → open' = false → Steps s (.fence own i) x g
      ((if ord = 1 ∨ ord = 3 then s1.acquireAt x.core scope else s1).modGroup x.gid fun g => { g with time := { g.time with nextClk := x.clk + 2 } }))

/-- R262, R263, R289: MCST takes its values at issue and counts in c2; its checks fail it with a code, with no destination it is over at once,
and otherwise MCST_DESTINATION_WRITE writes the stash of a destination whose time has come, and the last of them ends it. A write that fails gives the MCST its code.
Points that the manual leaves open follow the model's reading (logs 20 and 26). -/
def Obligations.MulticastResult : Prop :=
  (∀ (s : State) (x : Issue) (g : Group) (d a : BitVec 7) (la f : BitVec 4) (z : BitVec 3) (t : Team), Issues s (.mcst d a la z f) x g →
    Store.find (s.openIssue x).teams x.tid = some t →
    let i : Instr := .mcst d a la z f
    let s0 := s.openIssue x
    let n := sizeBytes z
    let w := g.regs.sc a.toNat
    let m := (g.regs.sc (a.toNat + 1)).toNat % 4096
    let off : Int := (w.toNat % 2 ^ 21 : Nat) + f.toInt * n
    let rel := releases (memOrder g.regs.gmode)
    let o : LongOp :=
      { kind := .mcst, serial := g.issued, pc := x.pc, slot := x.slot, mask := x.mask, issueClk := x.clk, window := la.toNat,
        regs := [⟨.V, d.toNat, sizeRegs z⟩], gmode := g.regs.gmode, sz := z.toNat, dest := d.toNat, dueClk := x.clk + 4, la := la.toNat,
        tile := g.eng.tag.map fun _ => g.eng.tagSlot }
    let bytes : List (Nat × Nat) := (lanesIn (BitVec.ofNat 32 m)).flatMap fun r => match s0.peerTeam t.id r with
      | some u => (lanesIn x.act).flatMap fun k => s0.stashPlaces u.1 (off + k * n).toNat n
      | none => []
    let places : List Nat := (lanesIn (BitVec.ofNat 32 m)).flatMap fun r => match s0.peerTeam t.id r with
      | some u => (lanesIn x.act).flatMap fun k => s0.stashLines u.1 (off + k * n).toNat n
      | none => []
    let s1 := (s0.setUnrew x.gid).modEng x.gid fun e => e.begin 2 g.issued
    let full := decide (255 ≤ g.eng.count 2)
    let earlier := (if x.act = 0 then [] else s0.before x.gid g { serial := g.issued, writes := true, releases := rel, places := bytes }) ++
      s0.engineHolders x.gid places true
    let after := earlier ≠ [] ∨ (rel = true ∧ x.act ≠ 0 ∧ s0.pathWaits x.core = true)
    (full = true → Waits s i x (.full 2)) ∧
    (full = false → after → Waits s i x (.order earlier)) ∧
    (∀ c, full = false → ¬ after → mcstFault t.id n off w m x.act = some c →
      Steps s i x g (s1.modOps x.gid fun q => q ++ [{ o with failure := some (c, 0) }])) ∧
    (full = false → ¬ after → mcstFault t.id n off w m x.act = none → m = 0 ∨ x.act = 0 →
      Steps s i x g ((s1.modOps x.gid fun q => q ++ [{ o with done := true }]).finishWork x.gid 2 g.issued)) ∧
    (full = false → ¬ after → mcstFault t.id n off w m x.act = none → m ≠ 0 → x.act ≠ 0 →
      Steps s i x g ((if rel then s1.releaseAt x.core x.tid 2 else s1).modOps x.gid fun q => q ++
        [{ o with destMask := BitVec.ofNat 32 m, accesses := (lanesIn x.act).map fun k =>
            { lane := k, addr := (off + k * n).toNat, data := storeBytes n (g.regs.laneWords d.toNat (sizeRegs z) k) } }]))) ∧
  (∀ (s s1 : State) (gid rank tid : Nat) (g : Group) (o : LongOp) (rest : List LongOp) (t u : Team) (bad : Option (FaultCode × Nat)),
    Store.find s.groups gid = some g →
    g.ops.filter (s.mcstOpen g (s.core (coreOf gid)).clk rank) = o :: rest → Store.find s.teams g.tid = some t →
    s.peerTeam t.id rank = some (tid, u) → s.mcstLanes tid o.bytes (fun l => o.covers (128 * l) 128) o.accesses = some (s1, bad) →
    let left := o.destMask &&& ~~~BitVec.ofNat 32 (2 ^ rank)
    let s2 := match bad with
      | some (c, addr) => s1.engineFault gid 2 c (BitVec.ofNat 32 c.code) o addr
      | none => s1
    let s3 := s2.modOp gid o.serial fun o => { o with destMask := left }
    exec (.mcstDestinationWrite gid rank) s = .next (if left = 0 then s3.finishWork gid 2 o.serial else s3))

/-! ### Synchronisation -/

/-- R290 to R292: BAR and BARC hold their slot once the group's earlier accesses are done, BARC also once no lease holds a store of its core;
a participant mask that leaves the group itself out faults with ILLEGAL_OPERAND.
Points that the manual leaves open follow the model's reading (log 21). -/
def Obligations.BarrierResult : Prop :=
  ∀ (s : State) (x : Issue) (g : Group) (m : Bool) (a : BitVec 7) (b : BitVec 2) (t : Team), Store.find (s.openIssue x).teams x.tid = some t →
    let shown := (if m then g.regs.sc a.toNat else BitVec.allOnes 32) &&& allGroups t.id.groups
    let far := g.mustWait true || (s.openIssue x).pathWaits x.core
    let holds (h : Hold) : State :=
      ((s.openIssue x).modFlow x.gid fun f => f.setSlot x.slot { (g.flow.slot x.slot) with hold := h }).afterFlow x.gid
    (Issues s (.bar m a b) x g → shown &&& groupBit g.number = 0 → Traps s (.bar m a b) x g (x.trap .illegalOperand)) ∧
    (Issues s (.bar m a b) x g → shown &&& groupBit g.number ≠ 0 → g.mustWait true = true → Waits s (.bar m a b) x (.order (g.before true))) ∧
    (Issues s (.bar m a b) x g → shown &&& groupBit g.number ≠ 0 → g.mustWait true = false →
      Moves s (.bar m a b) x g (holds (.bar b.toNat shown))) ∧
    (Issues s .barc x g → far = true → Waits s .barc x (.order (g.before true))) ∧
    (Issues s .barc x g → far = false → Moves s .barc x g (holds .barc))

/-- R290: a team barrier completes when every participant has arrived or exited. It is then empty, and each group of which all live slots
are held at it departs 2 clk later; a barrier that some participant has not reached, or for which an exited group has still to write (R227), changes nothing.
Points that the manual leaves open follow the model's reading (log 21). -/
def Obligations.BarrierCompletes : Prop :=
  ∀ (s : State) (tid id : Nat) (t : Team), Store.find s.teams tid = some t →
    let b := Store.get {} t.sync.barriers id
    (b.participants &&& ~~~(b.arrived ||| t.sync.exited) ≠ 0 → s.tryBarrier tid id = s) ∧
    (s.exitsWrite tid = true → s.tryBarrier tid id = s) ∧
    (b.arrived ≠ 0 → b.participants &&& ~~~(b.arrived ||| t.sync.exited) = 0 → s.exitsWrite tid = false →
      (s.groups.map (·.1)).Nodup → ∀ gid g, Store.find s.groups gid = some g → g.tid = tid → g.flow.exited = false → g.flow.allHeld (atBar id) = true →
        ∃ h, Store.find (s.tryBarrier tid id).groups gid = some h ∧ h.regs = g.regs ∧ h.stops.wait = .none ∧
          (g.flow.s0.live = true → h.flow.s0 = { g.flow.s0 with pc := g.flow.s0.pc + 4, hold := .none, readyAt := (s.core (tid / 16)).clk + 2 }) ∧
          (g.flow.s1.live = true → h.flow.s1 = { g.flow.s1 with pc := g.flow.s1.pc + 4, hold := .none, readyAt := (s.core (tid / 16)).clk + 2 }))

/-- R293: SIGWAIT opens an operation on the word that its offset word names, with the threshold of s[D]; it fails with MISALIGNED or with the
fault of that place, and waits while an engine operation of the group writes that word (R305); in a tile whose threshold is not met yet it stamps point 3 (R395).
SIGWAIT_SATISFIED reads the word when the operation is due, and once it has met the threshold writes it to s[D]. R293:
a word meets a threshold when their difference modulo 2^32, read as signed, is 0 or more.
Points that the manual leaves open follow the model's reading (log 21). -/
def Obligations.SignalWaitResult : Prop :=
  ((∀ (s : State) (x : Issue) (g : Group) (d a : BitVec 7) (l f : BitVec 4), Issues s (.sigwait d a l f) x g →
     let s0 := s.openIssue x
     let w := g.regs.sc a.toNat
     let off : Int := f.toInt * 4
     let o : LongOp :=
       { kind := .sigwait, serial := g.issued, pc := x.pc, slot := x.slot, mask := x.mask, issueClk := x.clk, window := l.toNat,
         regs := [⟨.S, d.toNat, 1⟩], gmode := g.regs.gmode, dest := d.toNat, threshold := g.regs.sc d.toNat, dueClk := x.clk, la := l.toNat,
         tile := g.eng.tag.map fun _ => g.eng.tagSlot }
     let opens (o : LongOp) : Prop := Steps s (.sigwait d a l f) x g (s0.modOps x.gid fun q => q ++ [o])
     (offsetAligned w off 4 = false → opens { o with failure := some (.misaligned, 0) }) ∧
     (∀ c, offsetAligned w off 4 = true → s0.stashTarget x.tid w off 4 = .error c → opens { o with failure := some (c, 0) }) ∧
     (∀ t k, offsetAligned w off 4 = true → s0.stashTarget x.tid w off 4 = .ok (t, k) → k < 2 ^ 32 →
       let holders := s0.engineHolders x.gid (s0.stashLines t k 4) false
       let met := signalMet (BitVec.ofNat 32 (numOf (s0.stashBytes t k 4))) (g.regs.sc d.toNat)
       let stamped : State := if g.eng.tag = none ∨ met = true then s0 else s0.stampPoint x.core g.eng.tagSlot 3
       (holders ≠ [] → Waits s (.sigwait d a l f) x (.order holders)) ∧
       (holders = [] → Steps s (.sigwait d a l f) x g
         (stamped.modOps x.gid fun q => q ++ [{ o with accesses := [{ lane := 0, addr := t * 2 ^ 32 + k }] }])))) ∧
   (∀ (s : State) (gid : Nat) (g : Group), Store.find s.groups gid = some g →
     let clk := (s.core (coreOf gid)).clk
     (∀ o, g.sigwaitDone clk = some o → exec (.sigwaitSatisfied gid) s = .next
       ((((s.modRegs gid fun r => r.setSc o.dest (BitVec.ofNat 32 (o.probing.getD 0))).modOp gid o.serial fun o =>
         { o with done := true, accesses := [] }).acquireAt (coreOf gid) o.scope))) ∧
     (∀ o t k b s1, g.sigwaitDone clk = none → s.sigwaitReady gid g clk = some o → o.signal = some (t, k) →
       s.stashAccess .lds o.gmode t k 4 [] = .ok (b, s1) →
       exec (.sigwaitSatisfied gid) s = .next (s1.modOp gid o.serial fun p =>
         if signalMet (BitVec.ofNat 32 (numOf b)) o.threshold then { p with probing := some (numOf b), dueClk := clk + 20 + s.farClks g.tid t }
         else { p with dueClk := clk + 1 })))) ∧
  (∀ (w t : Word), signalMet w t = decide ((w.toNat + 2 ^ 32 - t.toNat) % 2 ^ 32 < 2 ^ 31))

/-- R294: SIGADD adds s[B] to the word that its offset word names: its faults, what it waits for, and the addition.
Points that the manual leaves open follow the model's reading (logs 20 and 21). -/
def Obligations.SignalAddResult : Prop :=
  ∀ (s : State) (x : Issue) (g : Group) (a b : BitVec 7), Issues s (.sigadd a b) x g →
    let i : Instr := .sigadd a b
    let s0 := s.openIssue x
    let w := g.regs.sc a.toNat
    let ord := memOrder g.regs.gmode
    (offsetAligned w 0 4 = false → Traps s i x g (x.trap .misaligned)) ∧
    (∀ c, offsetAligned w 0 4 = true → s0.stashTarget x.tid w 0 4 = .error c → Traps s i x g (x.trap c)) ∧
    (∀ t k, offsetAligned w 0 4 = true → s0.stashTarget x.tid w 0 4 = .ok (t, k) →
      let scope := if s0.unbound t k 4 then min 2 (memScope g.regs.gmode) else memScope g.regs.gmode
      let peer := t != x.tid
      let o : LongOp :=
        { kind := .atoms .add, serial := g.issued, pc := x.pc, slot := x.slot, mask := x.mask, issueClk := x.clk, window := 0, regs := [],
          gmode := g.regs.gmode, sz := 4, destMask := 1, accesses := [{ lane := 0, addr := t * 2 ^ 32 + k }],
          tile := g.eng.tag.map fun _ => g.eng.tagSlot }
      let full := peer && decide (255 ≤ g.eng.count 3)
      let places := s0.opPlaces g x.gid o
      let settled := s0.settlePath x.core places
      let earlier := (g.ops.filter (s0.follows g x.gid o)).map (·.serial) ++ s0.engineHolders x.gid (s0.stashLines t k 4) true
      let after := !earlier.isEmpty || (releases ord && decide (2 ≤ scope) && s0.pathWaits x.core) ||
        (settled.pathTouches x.core places && !s0.leasedBytes t k 4)
      let s1 := if releases ord then settled.releaseAt x.core x.tid scope else settled
      (full = true → Waits s i x (.full 3)) ∧
      (full = false → after = true → Waits s i x (.order earlier)) ∧
      (full = false → after = false → s0.leasedBytes t k 4 = true → Waits s i x .lease) ∧
      (∀ old s2, full = false → after = false → s0.leasedBytes t k 4 = false →
        s1.stashAccess (.atoms .add) g.regs.gmode t k 4 (bytesOf 4 (g.regs.sc b.toNat).toNat) = .ok (old, s2) →
        let s3 := if peer then (s2.modEng x.gid fun e => e.begin 3 g.issued).finishWork x.gid 3 g.issued else s2
        Steps s i x g ((if acquires ord then s3.acquireAt x.core scope else s3).setUnrew x.gid)))

/-- R295: WAITC waits while more than n operations of its class are outstanding; then it takes ENGINE_FAULT with the status that
the class holds, or, with none, acquires at its scope, and the next instruction issues 2 clk later. -/
def Obligations.WaitCountResult : Prop :=
  ∀ (s : State) (x : Issue) (g : Group) (k : BitVec 2) (sc : BitVec 3) (n : BitVec 8), Issues s (.waitc k sc n) x g →
    (n.toNat < g.eng.count k.toNat → Waits s (.waitc k sc n) x (.waitc k.toNat n.toNat sc.toNat)) ∧
    (∀ status, g.eng.count k.toNat ≤ n.toNat → Store.find g.eng.f k.toNat = some status →
      Traps s (.waitc k sc n) x g { x.trap .engineFault with aux1 := status, clears := some k.toNat }) ∧
    (g.eng.count k.toNat ≤ n.toNat → Store.find g.eng.f k.toNat = none →
      Steps s (.waitc k sc n) x g (((s.openIssue x).acquireAt x.core sc.toNat).departLater x))

/-- R96 to R98, R296: XACQ asks for 1 to 11 blocks of extended registers: a count out of range faults, so does one above the team's
ceiling or while the group holds some; it is granted at once when the bench may grant it, and else the group waits in the queue, from which
XACQ_GRANT takes the next request that fits. XREL gives the blocks back, and faults when the group holds none. -/
def Obligations.ExtendedRegisters : Prop :=
  (∀ (s : State) (x : Issue) (g : Group) (r : Bool) (a : BitVec 7) (i : BitVec 11), Issues s (.xacq r a i) x g →
    let s0 := s.openIssue x
    let n := if r then (g.regs.sc a.toNat).toNat else i.toNat
    let ceil := ((Store.find s0.teams x.tid).map (·.id.extCeil)).getD 0
    let b := s0.bench (x.gid / 8)
    let legal := 1 ≤ n ∧ n ≤ 11 ∧ n ≤ ceil / 8 ∧ g.regs.ext = 0
    (¬ (1 ≤ n ∧ n ≤ 11) → Traps s (.xacq r a i) x g (x.trap .illegalOperand)) ∧
    (1 ≤ n → n ≤ 11 → ceil / 8 < n ∨ g.regs.ext ≠ 0 → Traps s (.xacq r a i) x g (x.trap .extensionFault)) ∧
    (legal → mayGrant (b.freeAt x.clk) n (b.acq.head?.map (·.n)) = true → Moves s (.xacq r a i) x g
      ((((s0.modBench (x.gid / 8) fun b => b.grant n x.clk).modRegs x.gid fun r => r.granted n).advance x (.xacq r a i)).departLater x)) ∧
    (legal → mayGrant (b.freeAt x.clk) n (b.acq.head?.map (·.n)) = false → Moves s (.xacq r a i) x g
      ((s0.modBench (x.gid / 8) fun b => { b with acq := b.acq ++ [⟨x.gid, n, x.clk⟩] }).startWait x.gid .xacq))) ∧
  (∀ (s : State) (x : Issue) (g : Group), Issues s .xrel x g →
    (g.regs.ext = 0 → Traps s .xrel x g (x.trap .extensionFault)) ∧
    (g.regs.ext ≠ 0 → Steps s .xrel x g
      ((((s.openIssue x).modBench (x.gid / 8) fun b => b.release g.regs.ext x.clk).modRegs x.gid fun r => r.granted 0).departLater x))) ∧
  (∀ (s : State) (gid : Nat) (g : Group) (q : XacqRequest), Store.find s.groups gid = some g → q.gid = gid →
    (s.bench (gid / 8)).nextGrant (s.core (coreOf gid)).clk = some q →
    ∃ t h, exec (.xacqGrant gid) s = .next t ∧ Store.find t.groups gid = some h ∧ h.regs = g.regs.granted q.n ∧
      (h.flow.slot g.flow.last).pc = (g.flow.slot g.flow.last).pc + 4 ∧ h.stops.wait = .none ∧ t.mem = s.mem ∧ t.teams = s.teams ∧
      ∀ k, k ≠ gid → Store.find t.groups k = Store.find s.groups k)

/-- R99, R100, R285, R321: a team whose register requests have been stuck for 1024 clk takes REGISTER_WAIT_DEADLOCK in each group that
waits for registers; a group that has waited for as long as its device allows takes WAIT_TIMEOUT; and a group that has been ready for 32 clk
without issuing is guarded.
Points that the manual leaves open follow the model's reading (log 21). -/
def Obligations.WaitEvents : Prop :=
  (∀ (s : State) (tid : Nat) (t : Team), Store.find s.teams tid = some t → 1024 ≤ t.sync.deadlockTimer →
    exec (.registerWaitDeadlock tid) s = .next (((s.groupsOf tid).filter fun kv => kv.2.stops.wait == .xacq).foldl
      (fun s kv => s.takeFault kv.1 (kv.2.waitTrap .registerWaitDeadlock)) (s.modSync tid fun y => { y with deadlockTimer := 0 }))) ∧
  (∀ (s : State) (gid : Nat) (g : Group), Store.find s.groups gid = some g →
    (s.overdue g = true → exec (.watchdogExpiry gid) s = .next (s.takeFault gid (g.waitTrap .waitTimeout))) ∧
    (s.overdue g = false → exec (.watchdogExpiry gid) s = .next s)) ∧
  (∀ (s : State) (gid : Nat) (g : Group), Store.find s.groups gid = some g → g.time.readySince + 32 ≤ (s.core (coreOf gid)).clk →
    g.flow.exited = false → ∃ t h, exec (.groupGuarded gid) s = .next t ∧ Apart s t gid ∧ Store.find t.groups gid = some h ∧
      h = { g with time := { g.time with guarded := true } })

/-! ### Copies, collectives and the array -/

/-- R298 to R300, R394: CPIN, CPOUT, CPST and CPGATH enter the copy queue of the core with the operand block and the record that they read at
issue, and count in c0; in a tile they stamp point 6 when they write out and point 1 when they read in (R395); only the producer group may issue one, and a place that the checks refuse faults. A record that is not there, or of
rank 1 for CPGATH, makes a copy that will end with RECORD_INVALID. R172, R297, R298: RECLD reads a record of 64 bytes at an aligned offset
of the team's stash and gives it to a slot, ready 12 clk later, with its status in s[D]; an offset that is not aligned faults with
MISALIGNED, and one past the stash or a record that is not valid with RECORD_INVALID.
Points that the manual leaves open follow the model's reading (log 20). -/
def Obligations.CopyIssue : Prop :=
  (∀ (s : State) (x : Issue) (g : Group) (d a : BitVec 7) (l sl : BitVec 4) (st sg : Bool) (t : Team),
     Store.find (s.openIssue x).teams x.tid = some t →
     ∀ (i : Instr) (kind : CopyKind), (i, kind) ∈ [(Instr.cpin d a l sl st sg, CopyKind.cpin), (.cpout d a l sl st sg, .cpout),
       (.cpst d a l sl st sg, .cpst), (.cpgath d a l sl st sg, .cpgath)] → Issues s i x g →
     let s0 := s.openIssue x
     let block := g.regs.scWords a.toNat 8
     let r := t.mem.recordAt x.clk sl.toNat
     let bad := r.bind fun r => s0.copyFault x.tid (copyPlaces kind block r sg)
     let full := decide (32 ≤ (s0.core x.core).copies.length) || decide (255 ≤ g.eng.count 0)
     (t.sync.producer ≠ some x.gid → Traps s i x g (x.trap .streamerRights)) ∧
     (∀ c, t.sync.producer = some x.gid → bad = some c → Traps s i x g (x.trap c)) ∧
     (t.sync.producer = some x.gid → bad = none → full = true → Waits s i x (.full 0)) ∧
     (t.sync.producer = some x.gid → bad = none → full = false → g.mustWait false = true → Waits s i x (.order (g.before false))) ∧
     (t.sync.producer = some x.gid → bad = none → full = false → g.mustWait false = false →
       let lost : Bool := match r with
         | none => true
         | some r => kind == .cpgath && decide (r.rank < 2)
       let s1 := ((s0.modCore x.core fun c =>
         { c with
           copies := c.copies ++ [{ kind := kind, serial := c.copySerial, gid := x.gid, tid := x.tid, opSerial := g.issued, dest := d.toNat,
                                    stream := st, sig := sg, record := if lost then none else r, block := block, issueClk := x.clk }]
           copySerial := c.copySerial + 1 }).modEng x.gid fun e => e.begin 0 g.issued).modOps x.gid fun q =>
         q ++ [{ kind := .copy, serial := g.issued, pc := x.pc, slot := x.slot, mask := x.mask, issueClk := x.clk, window := l.toNat,
                 regs := [⟨.S, d.toNat, 1⟩], gmode := g.regs.gmode, dest := d.toNat, la := l.toNat,
                 tile := g.eng.tag.map fun _ => g.eng.tagSlot }]
       let s2 := if kind = .cpout ∨ kind = .cpst then s1.setUnrew x.gid else s1
       Steps s i x g (if g.eng.tag = none then s2 else s2.stampPoint x.core g.eng.tagSlot (if kind = .cpout ∨ kind = .cpst then 6 else 1)))) ∧
  (∀ (s : State) (x : Issue) (g : Group) (d a : BitVec 7) (sl : BitVec 4) (t : Team), Issues s (.recld d a sl) x g →
     Store.find (s.openIssue x).teams x.tid = some t →
     let s0 := s.openIssue x
     let i : Instr := .recld d a sl
     let off := (g.regs.sc a.toNat).toNat
     let full := decide (32 ≤ (s0.core x.core).copies.length) || decide (255 ≤ g.eng.count 0)
     let places := s0.stashPlaces x.tid off 64
     let after := s0.before x.gid g { serial := g.issued, reads := true, places := places } ++ s0.engineHolders x.gid (s0.stashLines x.tid off 64) false
     (off % 64 ≠ 0 → Traps s i x g (x.trap .misaligned)) ∧
     (off % 64 = 0 → t.id.stashBytes < off + 64 → Traps s i x g (x.trap .recordInvalid)) ∧
     (off % 64 = 0 → off + 64 ≤ t.id.stashBytes → full = true → Waits s i x (.full 0)) ∧
     (off % 64 = 0 → off + 64 ≤ t.id.stashBytes → full = false → after ≠ [] → Waits s i x (.order after)) ∧
     (∀ s1, off % 64 = 0 → off + 64 ≤ t.id.stashBytes → full = false → after = [] →
       (s0.settlePath x.core places).touch x.tid off 64 false = (s1, none) →
       let b := s1.stashBytes x.tid off 64
       (validRecord b = false → Traps s i x g (x.trap .recordInvalid)) ∧
       (validRecord b = true → Steps s i x g
         (((((s1.modTeamMem x.tid fun m => m.putRecord x.clk sl.toNat (recordOf b) (x.clk + 12)).modRegs x.gid fun r =>
           r.setSc d.toNat (statusWord 64 false 0)).modEng x.gid fun e => e.begin 0 g.issued).modCore x.core fun c =>
             { c with
               copies := c.copies ++ [{ kind := .recld, serial := c.copySerial, gid := x.gid, tid := x.tid, opSerial := g.issued, dest := d.toNat,
                                        stream := false, sig := false, record := none, block := [], issueClk := x.clk }]
               copySerial := c.copySerial + 1 })))))

/-- R299, R301, R302, R305: COPY_START lets the copy that may start begin its transfer; COPY_COMPLETE ends one: its signal is added when it asks
for one and has no fault, its status goes to the register of its issue, a fault of it, or of its signal, is recorded, and it leaves the queue and c0.
Points that the manual leaves open follow the model's reading (log 26). -/
def Obligations.CopyEvents : Prop :=
  (∀ (s : State) (core : Nat) (c : CopyOp), s.copyStarts core = some c →
    exec (.copyStart core) s = .next (s.modCopy core c.serial fun c => { c with start := some (s.core core).clk })) ∧
  (∀ (s : State) (core : Nat) (c : CopyOp), s.copyCompletes core = some c →
    let leave (s : State) : State :=
      (s.modCore core fun k => { k with copies := k.copies.filter fun o => o.serial != c.serial }).finishWork c.gid 0 c.opSerial
    let done (s1 : State) (sigd : Bool) (code : Option FaultCode) (addr : Nat) : State :=
      let status := statusWord c.bytes sigd ((code.map (·.code)).getD 0)
      let s2 := (s1.countTeam c.tid 0x009 c.bytes).modRegs c.gid fun r => r.setSc c.dest status
      let s3 := match code, s1.opOf c.gid c.opSerial with
        | some e, some o => s2.engineFault c.gid 0 e status o addr
        | _, _ => s2
      (leave (s3.stampOp c.gid 0 c.opSerial (if c.kind = .cpout ∨ c.kind = .cpst then 7 else 2))).modOp c.gid c.opSerial fun o => { o with done := true }
    (c.kind = .recld → exec (.copyComplete core) s = .next (leave s)) ∧
    (c.kind ≠ .recld → c.sig = false ∨ c.code.isSome = true → exec (.copyComplete core) s = .next (done s false c.code c.failAddr)) ∧
    (∀ s1, c.kind ≠ .recld → c.sig = true → c.code = none → s.signalAdd c = .ok s1 →
      exec (.copyComplete core) s = .next (done s1 true none c.failAddr)) ∧
    (∀ e a, c.kind ≠ .recld → c.sig = true → c.code = none → s.signalAdd c = .error (.fault e, a) →
      exec (.copyComplete core) s = .next (done s false (some e) a)) ∧
    (∀ a, c.kind ≠ .recld → c.sig = true → c.code = none → s.signalAdd c = .error (.wait, a) →
      exec (.copyComplete core) s = .next (s.modCopy core c.serial fun c => { c with endClk := some ((s.core core).clk - 1) })))

/-- R307 to R309: COLL reads its descriptor of 64 bytes from the team's stash, checks it against its communicator, and enters the collective
queue of the quadrant with what it names, counting in c2; COLL_COMPLETE ends the operation: RECORD_INVALID when the members do not match, REMOTE_UNREACHABLE when
one is lost, and else with the result of every member's input, written to its destination. R308: the reduction of all-reduce goes element by element, in ascending rank.
Points that the manual leaves open follow the model's reading (logs 8, 19, 20 and 26). -/
def Obligations.CollectiveResult : Prop :=
  (∀ (s s1 : State) (x : Issue) (g : Group) (d a : BitVec 7) (l : BitVec 4) (o : CollOp) (t : Team), Issues s (.coll d a l o) x g →
    Store.find (s.openIssue x).teams x.tid = some t →
    let s0 := s.openIssue x
    let i : Instr := .coll d a l o
    let off := (g.regs.sc a.toNat).toNat
    let b := s1.stashBytes x.tid off 64
    let members := ((s1.part t.id.part).fab.comms.find? fun kv => kv.2.id == field b 20 2 && kv.2.vdev == t.id.vdev).map (·.2.members.length)
    let c : Collective :=
      { gid := x.gid, tid := x.tid, opSerial := g.issued, dest := d.toNat, op := o, src := field b 0 8 % 2 ^ 56, dst := field b 8 8 % 2 ^ 56,
        count := field b 16 4, comm := field b 20 2, root := field b 22 2, red := field b 24 1 / 16 % 16, etype := field b 24 1 % 16, core := x.core,
        vdev := t.id.vdev }
    let places := s0.stashPlaces x.tid off 64
    let after := s0.before x.gid g { serial := g.issued, reads := true, places := places } ++ s0.engineHolders x.gid (s0.stashLines x.tid off 64) false
    (off % 64 ≠ 0 → Traps s i x g (x.trap .misaligned)) ∧
    (off % 64 = 0 → t.id.stashBytes < off + 64 → Traps s i x g (x.trap .permission)) ∧
    (off % 64 = 0 → off + 64 ≤ t.id.stashBytes → after ≠ [] → Waits s i x (.order after)) ∧
    (off % 64 = 0 → off + 64 ≤ t.id.stashBytes → after = [] → (s0.settlePath x.core places).touch x.tid off 64 false = (s1, none) →
      (∀ c, collFault b o members = some c → Traps s i x g (x.trap c)) ∧
      (collFault b o members = none →
        let full := decide (16 ≤ (s1.quad (quadOfCore x.core)).colls.length) || decide (255 ≤ g.eng.count 2)
        (full = true → Waits s i x (.full 2)) ∧
        (full = false → ∃ k,
          Steps s i x g (((((s1.modQuad (quadOfCore x.core) fun z => { z with colls := z.colls ++ [c] }).modEng x.gid fun e =>
            e.begin 2 g.issued).anyNat (2 ^ 32)).2.modOps x.gid fun q => q ++
              [{ kind := .coll, serial := g.issued, pc := x.pc, slot := x.slot, mask := x.mask, issueClk := x.clk, window := l.toNat,
                 regs := [⟨.S, d.toNat, 1⟩], gmode := g.regs.gmode, dest := d.toNat, dueClk := x.clk + 1 + k, la := l.toNat,
                 tile := g.eng.tag.map fun _ => g.eng.tagSlot }]).setUnrew x.gid))))) ∧
  (∀ (s : State) (gid : Nat) (c : Collective), s.collOf gid = some c →
    exec (.collComplete gid .mismatch) s = .next (s.endColl c (some .recordInvalid) 0) ∧
    exec (.collComplete gid .remoteError) s = .next (s.endColl c (some .remoteUnreachable) 0) ∧
    (∀ inputs s1, s.collMove c inputs = (s1, none) → exec (.collComplete gid (.done inputs)) s = .next (s1.endColl c none 0)) ∧
    (∀ inputs s1 e a, s.collMove c inputs = (s1, some (.fault e, a)) → exec (.collComplete gid (.done inputs)) s = .next (s1.endColl c (some e) a)) ∧
    ∀ (inputs : List (List Byte)) mine s1,
      let n := (s.collLengths c).1
      let rank := s.collRank c
      let all := (List.range (max 1 (s.collMembers c))).map fun r => if r = rank then mine else sized n (inputs.getD r [])
      let out := collResult c rank all
      (if (inputs.getD rank []).length = n then .ok (inputs.getD rank [], s)
       else if c.op = .broadcast ∧ c.root ≠ rank then .ok (sized n [], s)
       else s.collRead (s.party c.tid c.gid) (n / 128 + 2) c.src n) = .ok (mine, s1) →
      s.collMove c inputs = s1.collWrite (s.party c.tid c.gid) (out.length / 128 + 2) c.dst out) ∧
  (∀ (c : Collective) (rank : Nat) (x y : List Byte), c.op = .allReduce → c.etype = 1 → c.red = 0 → x.length = y.length → x.length % 4 = 0 →
    ∀ k, k < x.length / 4 → field (collResult c rank [x, y]) (4 * k) 4 = (field x (4 * k) 4 + field y (4 * k) 4) % 2 ^ 32)

/-- R182, R186 to R193: CLAMPLD enters the fill queue and MMA and MMAR the stream queue of the core's array, counting in c1 and, for a stream,
leasing the lines of its jig; their checks fault, an uncorrectable error in what a stream reads faults too (R193), and a full queue holds them. R184, R185: OMAP reads a jig of 32 bytes from the team's
stash into a slot, ready 12 clk later; an array that the team does not hold faults with ACCUM_RANGE, an offset that is not aligned with
MISALIGNED, and a jig past the stash or not valid with MAP_INVALID.
Points that the manual leaves open follow the model's reading (logs 20 and 43). -/
def Obligations.ArrayIssue : Prop :=
  (∀ (s s1 : State) (x : Issue) (g : Group) (d a : BitVec 7) (j : BitVec 4) (e c l : Bool) (b : BitVec 2),
     let s0 := s.openIssue x
     let arr := (s0.core x.core).arr
     let jig := (Store.find s0.teams x.tid).bind fun t => t.mem.jigAt x.clk j.toNat
     let alg := if e then (s0.core x.core).algebra (algSlot g.regs.gmode) else none
     let streamBad (left : Bool) (slot : Nat) := streamFault (s0.tilesOf x.tid)
       ((Store.find s0.teams x.tid).bind fun t => t.mem.jigAt x.clk slot) arr.descOf d.toNat j.toNat b.toNat left
     (Issues s (.clampld d a j e c l) x g →
       (∀ f, clampFault (s0.tilesOf x.tid) jig alg a.toNat e l = some f → Traps s (.clampld d a j e c l) x g (x.trap f)) ∧
       (∀ jg, clampFault (s0.tilesOf x.tid) jig alg a.toNat e l = none → jig = some jg →
         (255 ≤ g.eng.count 1 → Waits s (.clampld d a j e c l) x (.full 1)) ∧
         (g.eng.count 1 < 255 → s0.arrayTouch x g (jg.pieces 0) = .ok s1 → Steps s (.clampld d a j e c l) x g
           ((s1.modArr x.core fun r => { r with
             fills := r.fills ++ [{ serial := arr.serial, opSerial := g.issued, gid := x.gid, tid := x.tid, dest := d.toNat, slotJig := jg,
                                    bank := a.toNat, desc := clampDesc jg alg (algSlot g.regs.gmode) a.toNat c l, algebra := alg,
                                    pc := x.pc, slot := x.slot, mask := x.mask, issueClk := x.clk }],
             serial := r.serial + 1 }).modEng x.gid fun y => y.begin 1 g.issued)))) ∧
     (∀ (i : Instr) (left : Bool), (i, left) ∈ [(Instr.mma d a j b, false), (.mmar d a j b, true)] → Issues s i x g →
       (∀ f, streamBad left a.toNat = some f → Traps s i x g (x.trap f)) ∧
       (∀ jg, streamBad left a.toNat = none → ((Store.find s0.teams x.tid).bind fun t => t.mem.jigAt x.clk a.toNat) = some jg →
         let full := decide (16 ≤ (arr.queue.filter fun o => !o.readDone).length) || decide (16 ≤ arr.leases.length) || decide (255 ≤ g.eng.count 1)
         let lost := (banksOf jg.fmt b.toNat).any arr.latchUpset
         (full = true → Waits s i x (.full 1)) ∧
         (full = false → s0.arrayTouch x g (jg.pieces j.toNat) = .ok s1 → lost = true →
           Traps s i x g { x.trap .uncorrectable with sites := [.core x.core] }) ∧
         (full = false → s0.arrayTouch x g (jg.pieces j.toNat) = .ok s1 → lost = false → Steps s i x g
           ((s1.modArr x.core fun q => { q with
             leases := q.leases ++ [⟨arr.serial, x.gid, x.tid, jg.lines⟩],
             queue := q.queue ++ [{ serial := arr.serial, opSerial := g.issued, gid := x.gid, tid := x.tid, left := left, tile := d.toNat,
                                    jig := jg, bank := b.toNat, psel := j.toNat, lanes := x.act, pc := x.pc, slot := x.slot, mask := x.mask,
                                    issueClk := x.clk }],
             pending := Store.modify 0 q.pending d.toNat (· + 1),
             serial := q.serial + 1 }).modEng x.gid fun y => y.begin 1 g.issued))))) ∧
  (∀ (s s1 : State) (x : Issue) (g : Group) (d a : BitVec 7) (j : BitVec 4) (t : Team), Issues s (.omap d a j) x g →
     Store.find (s.openIssue x).teams x.tid = some t →
     let s0 := s.openIssue x
     let i : Instr := .omap d a j
     let off := (g.regs.sc a.toNat).toNat
     let held := (s0.tilesOf x.tid).isSome
     let b := s1.stashBytes x.tid off 32
     (held = false → Traps s i x g (x.trap .accumRange)) ∧
     (held = true → off % 32 ≠ 0 → Traps s i x g (x.trap .misaligned)) ∧
     (held = true → off % 32 = 0 → t.id.stashBytes < off + 32 → Traps s i x g (x.trap .mapInvalid)) ∧
     (held = true → off % 32 = 0 → off + 32 ≤ t.id.stashBytes → s0.arrayTouch x g [(off, 32)] = .ok s1 →
       (validJig b t.id.stashBytes = false → Traps s i x g (x.trap .mapInvalid)) ∧
       (validJig b t.id.stashBytes = true → Steps s i x g
         ((s1.modTeamMem x.tid fun m => m.putJig x.clk j.toNat (jigOf b) (x.clk + 12)).modRegs x.gid fun r => r.setSc d.toNat 0x00200000))))

/-- R188 to R193: what the array does by itself, one event after the other: a fill takes its banks and ends with its status; the first stream
that may start does so with the banks that it names; it has read its last row, and gives its lease up; it has written its last accumulator. R217,
R218: one that meets an uncorrectable error after its issue completes with that code for its class; such a fill leaves its banks, and such a
stream writes no accumulator.
Points that the manual leaves open follow the model's reading (logs 20 and 43). -/
def Obligations.ArrayEvents : Prop :=
  ∀ (s : State) (core : Nat),
    let clk := (s.core core).clk
    let arr := (s.core core).arr
    (∀ f, arr.fillReady = some f → exec (.clampFillStart core) s = .next (s.modArr core fun a => { a with
      banks := if s.piecesUpset f.tid (f.slotJig.pieces 0) then a.banks
        else (s.fillBanks f (clk + 72)).foldl (fun st b => Store.put st b.1 b.2) a.banks,
      fills := a.fills.map fun g =>
        if g.serial = f.serial then { g with start := some clk, spoiled := s.piecesUpset f.tid (f.slotJig.pieces 0) } else g })) ∧
    (∀ f, arr.fillDone clk = some f →
      let w : Word := BitVec.ofNat 32 ((f.slotJig.rows + 1) * 65536)
      let s1 := (s.modArr core fun a => { a with fills := a.fills.filter fun g => g.serial != f.serial }).modRegs f.gid fun r => r.setSc f.dest w
      exec (.clampFillComplete core) s = .next
        ((if f.spoiled then s1.arrayError f.gid f.opSerial f.pc f.slot f.mask w else s1).finishWork f.gid 1 f.opSerial)) ∧
    (∀ o, arr.streamReady clk = some o → exec (.arrayStreamStart core) s = .next
      ((s.modArr core fun a => a.modOp o.serial fun q =>
        { q with start := some clk, banks := o.banksUsed.map fun b => Store.get {} a.banks b }).stampOp o.gid 1 o.opSerial 4)) ∧
    (∀ o, arr.rowsRead clk = some o → exec (.arrayLastRowRead core) s = .next
      ((s.countTeam o.tid 0x005 (o.jig.rows + 1)).modArr core fun a =>
        { a.modOp o.serial (fun q => { q with
            readDone := true,
            spoiled := s.piecesUpset o.tid (o.jig.pieces o.psel),
            rowBytes := (List.range (o.jig.rows + 1)).map fun m => s.stashBytes o.tid (o.jig.base + m * o.jig.stride) o.jig.rowBytes,
            rowScales := if o.jig.scaled then (s.stashBytes o.tid o.jig.scaleBase ((o.jig.rows + 1) * o.jig.kpl)).map (·.toNat) else [] }) with
          leases := a.leases.filter fun l => l.serial != o.serial
          lastRow := clk })) ∧
    (∀ o, arr.lastWrite clk = some o →
      let lost := arr.failed o
      let s1 := (s.countTeam o.tid 0x006 1).modArr core fun a => { a with
        acc := if lost then a.acc else o.keys.foldl (fun (st : Store Word) k => Store.set 0 st (accKey o.tile k.1 k.2)
          (BitVec.ofNat 32 (o.accumulate k.1 k.2 (Store.get 0 st (accKey o.tile k.1 k.2)).toNat))) a.acc,
        pending := Store.set 0 a.pending o.tile (Store.get 0 a.pending o.tile - 1),
        queue := a.queue.filter fun q => q.serial != o.serial }
      exec (.arrayLastAccumulatorWrite core) s = .next
        (((if lost then s1.arrayError o.gid o.opSerial o.pc o.slot o.mask 0x08 else s1).stampOp o.gid 1 o.opSerial 5).finishWork o.gid 1 o.opSerial))

/-- R194, R195: the accumulators of a tile that the team holds and no stream still adds to: ACCZ clears the rows of the active lanes, ACCLD
reads four columns of a quarter into four registers, and ACCST writes four registers there. A tile that the team does not hold faults with
ACCUM_RANGE, and one with streams holds the instruction; an accumulator with an uncorrectable error faults when it is read (R217, R218). R179, R180, R196: ALGLD reads an image of 80 bytes; it faults with MISALIGNED when
its address is not a multiple of 16, and with ALGEBRA_TABLE_INVALID when the image is not valid. ALGLD_COMPLETE puts the image in its slot
25 clk after the issue.
Points that the manual leaves open follow the model's reading (logs 20 and 43). -/
def Obligations.AccumulatorResult : Prop :=
  (∀ (s : State) (x : Issue) (g : Group) (d a : BitVec 7) (q : BitVec 2) (c : BitVec 5),
     let s0 := s.openIssue x
     let arr := (s0.core x.core).arr
     (∀ i ∈ [Instr.accz a, .accld d a q c, .accst d a q c], Issues s i x g →
       ((s0.tilesOf x.tid = none ∨ ∃ n, s0.tilesOf x.tid = some n ∧ n ≤ a.toNat) → Traps s i x g (x.trap .accumRange)) ∧
       (∀ n, s0.tilesOf x.tid = some n → a.toNat < n → Store.get 0 arr.pending a.toNat ≠ 0 → Waits s i x (.full 1))) ∧
     (∀ n, s0.tilesOf x.tid = some n → a.toNat < n → Store.get 0 arr.pending a.toNat = 0 →
       let lost := arr.accUpset.any (quarterKeys a.toNat q.toNat c.toNat x.act).contains
       (Issues s (.accz a) x g → ∃ acc : Store Word,
         (∀ row n, n < 128 → row < 128 → Store.get 0 acc (accKey a.toNat row n) =
           if x.act.getLsbD (row % 32) then 0 else Store.get 0 arr.acc (accKey a.toNat row n)) ∧
         Steps s (.accz a) x g ((s0.modArr x.core fun r =>
           { r with acc := acc, accUpset := r.accUpset.filter fun k => !(rowKeys a.toNat x.act).contains k }).modRegs x.gid fun r => r)) ∧
       (lost = true → Issues s (.accld d a q c) x g → Traps s (.accld d a q c) x g (x.trap .uncorrectable)) ∧
       (lost = false → Undisturbed s g → Issues s (.accld d a q c) x g →
         ∃ t, exec (.accld d a q c) s = .next t ∧ t.regsOf x.gid = some ((List.range 4).foldl (fun (r : Regs) k =>
           r.setVec x.act x.ready (d.toNat + k) (lanesBy fun l => Store.get 0 arr.acc (accKey a.toNat (32 * q.toNat + l) (4 * c.toNat + k)))) g.regs) ∧
         t.mem = s.mem ∧ t.teams = s.teams) ∧
       (Issues s (.accst d a q c) x g → ∃ acc : Store Word,
         (∀ l k, l < 32 → k < 4 → Store.get 0 acc (accKey a.toNat (32 * q.toNat + l) (4 * c.toNat + k)) =
           if x.act.getLsbD l then (g.regs.vec (d.toNat + k)).at l
           else Store.get 0 arr.acc (accKey a.toNat (32 * q.toNat + l) (4 * c.toNat + k))) ∧
         Steps s (.accst d a q c) x g ((s0.modArr x.core fun r =>
           { r with acc := acc, accUpset := r.accUpset.filter fun k => !(quarterKeys a.toNat q.toNat c.toNat x.act).contains k }).modRegs x.gid fun r => r)))) ∧
  ((∀ (s s1 : State) (x : Issue) (g : Group) (d a : BitVec 7) (img : List Byte), Issues s (.algld d a) x g →
     let s0 := s.openIssue x
     let va := g.regs.scAddr a.toNat
     let after := s0.before x.gid g { serial := g.issued, reads := true, places := s0.globalPlaces x.core (s0.vdevOf g) va 80 } ++
       s0.engineHolders x.gid (s0.globalLines x.core (s0.vdevOf g) va 80) false
     (va % 16 ≠ 0 → Traps s (.algld d a) x g (x.trap .misaligned)) ∧
     (va % 16 = 0 → after ≠ [] → Waits s (.algld d a) x (.order after)) ∧
     (va % 16 = 0 → after = [] → s0.preciseRead (s0.party x.tid x.gid) va 5 = .error .wait →
       ∃ w, Waits s (.algld d a) x w ∧ (w = .full 4 ∨ ∃ l, w = .lock l)) ∧
     (va % 16 = 0 → after = [] → s0.preciseRead (s0.party x.tid x.gid) va 5 = .ok (img, s1) →
       (validImage img = false → Traps s (.algld d a) x g (x.trap .algebraTableInvalid)) ∧
       (validImage img = true → Steps s (.algld d a) x g
         (s1.modArr x.core fun r => { r with algLoads := r.algLoads ++ [⟨x.gid, d.toNat, img, leftBit img, x.clk + 25⟩] })))) ∧
   (∀ (s : State) (gid : Nat) (l : AlgLoad),
     ((s.core (coreOf gid)).arr.algLoads.find? fun l => l.gid == gid && decide (l.dueClk ≤ (s.core (coreOf gid)).clk)) = some l →
     exec (.algldComplete gid) s = .next (s.modArr (coreOf gid) fun a =>
       { a with alg := Store.put a.alg l.slot ⟨l.image, l.left⟩, algLoads := a.algLoads.erase l })))

/-! ### Special values, observation, firmware -/

/-- R142: MFS writes s[D] with the special scalar that its selector names, or d with the home lane of each active lane or the team-wide
number of its lane. -/
def Obligations.SpecialValueResult : Prop :=
  ∀ (s : State) (x : Issue) (g : Group) (t : Team) (d : BitVec 7) (i : BitVec 11), Undisturbed s g → Store.find s.teams g.tid = some t →
    Issues s (.mfs d i) x g →
    let p := s.packetOf t.id
    let gx := pkGrid p 0
    let gy := pkGrid p 1
    let is (n : Nat) (v : Nat) : Prop := i.toNat = n → Completes s (.mfs d i) x g (g.regs.setSc d.toNat (BitVec.ofNat 32 v))
    is 0 g.number ∧ is 1 t.id.number ∧ is 2 t.id.cluster ∧ is 3 t.id.rank ∧ is 4 gx ∧ is 5 gy ∧ is 6 (pkGrid p 2) ∧
    is 7 t.id.height ∧ is 8 t.id.width ∧ is 9 (t.id.cluster % gx) ∧ is 10 (t.id.cluster / gx % gy) ∧ is 11 (t.id.cluster / (gx * gy)) ∧
    is 12 t.id.groups ∧ is 13 x.core ∧ is 14 (x.core / 24 * 65536 + x.core % 24 / 6 * 256 + x.core % 6) ∧
    is 15 (x.gid / 8 % 16 + x.gid % 8 * 16) ∧ is 16 x.mask.toNat ∧ is 17 x.clk ∧ is 18 g.regs.ext ∧
    (i.toNat = 0x100 → Completes s (.mfs d i) x g (g.regs.setVec x.act x.ready d.toNat (lanesBy fun l => BitVec.ofNat 32 l))) ∧
    (i.toNat = 0x101 → Completes s (.mfs d i) x g
      (g.regs.setVec x.act x.ready d.toNat (lanesBy fun l => BitVec.ofNat 32 (Store.get g.number g.flow.home l * 32 + l))))

/-- R382, R383, R385, R391, R392: RDCNT, RDTIME, RDWEAR, RDLIFE and BOOST read a counter of the team's device in the quadrant, the time, a
field of a wear record as the most recent boundary left it, a life register, and the outcome of a boost request, each into a pair of scalar registers; a count above 65535 and a
unit that is not there fault with ILLEGAL_OPERAND. R393: a host read of the low half of a counter answers it and latches the high half of the same
value; a read of the high half answers the latch when it holds this counter, which clears it, and else the half as it is now. R402: any other
offset answers what the window holds there, the bytes of a command block or a GO word.
Points that the manual leaves open follow the model's reading (log 32). -/
def Obligations.ObservationReads : Prop :=
  (∀ (s : State) (x : Issue) (g : Group) (d a : BitVec 7) (i : BitVec 11) (k : BitVec 3) (f : BitVec 4), Undisturbed s g →
    let s0 := s.openIssue x
    let vdev := ((Store.find s.teams x.tid).map (·.id.vdev)).getD 0
    let pair (v : BitVec 64) : Regs := (g.regs.setSc d.toNat (v.extractLsb' 0 32)).setSc (d.toNat + 1) (v.extractLsb' 32 32)
    (Issues s (.rdcnt d i) x g →
      Completes s (.rdcnt d i) x g (pair (BitVec.ofNat 64 (Store.get 0 (s.quad (quadOfCore x.core)).counters (counterKey vdev i.toNat))))) ∧
    (Issues s (.rdtime d) x g → Completes s (.rdtime d) x g (pair (BitVec.ofNat 64 s.now))) ∧
    (Issues s (.rdlife d i) x g → Completes s (.rdlife d i) x g (pair (s0.lifeValue x.core i.toNat))) ∧
    (Issues s (.rdwear d a k f) x g →
      (s0.wearUnit x.core k.toNat (g.regs.sc a.toNat).toNat = none → Traps s (.rdwear d a k f) x g (x.trap .illegalOperand)) ∧
      ∀ u, s0.wearUnit x.core k.toNat (g.regs.sc a.toNat).toNat = some u →
        Completes s (.rdwear d a k f) x g (pair (BitVec.ofNat 64 ((Store.get {} s0.wear.boundary u).read f.toNat)))) ∧
    (Issues s (.boost d a) x g →
      (65535 < (g.regs.sc a.toNat).toNat → Traps s (.boost d a) x g (x.trap .illegalOperand)) ∧
      ∀ code grant s1, (g.regs.sc a.toNat).toNat ≤ 65535 → s0.boost x.core vdev (g.regs.sc a.toNat).toNat = (code, grant, s1) →
        Steps s (.boost d a) x g (s1.modRegs x.gid fun r => (r.setSc d.toNat (BitVec.ofNat 32 code)).setSc (d.toNat + 1) (BitVec.ofNat 32 grant)))) ∧
  (∀ (s : State) (off q v sel : Nat),
    let c := s.counter q v sel
    let high : Word := BitVec.ofNat 32 (c / 2 ^ 32)
    (counterOffset off = some (q, v, sel, 0) → ∃ t, exec (.counterLowRead off) s = .next t ∧
      t.mod.hostReply = some (BitVec.ofNat 32 c) ∧ (t.quad q).latch = some (counterKey v sel, high) ∧ t.mem = s.mem ∧ t.groups = s.groups) ∧
    (∀ w, counterOffset off = some (q, v, sel, 1) → (s.quad q).latch = some (counterKey v sel, w) → ∃ t,
      exec (.counterHighRead off) s = .next t ∧ t.mod.hostReply = some w ∧ (t.quad q).latch = none ∧ t.mem = s.mem ∧ t.groups = s.groups) ∧
    (counterOffset off = some (q, v, sel, 1) → (∀ w, (s.quad q).latch ≠ some (counterKey v sel, w)) → ∃ t,
      exec (.counterHighRead off) s = .next t ∧ t.mod.hostReply = some high ∧ (t.quad q).latch = (s.quad q).latch ∧ t.mem = s.mem ∧
      t.groups = s.groups) ∧
    (counterOffset off = none → exec (.counterLowRead off) s = .next (s.reply (s.windowWord off)) ∧
      exec (.counterHighRead off) s = .next (s.reply (s.windowWord off)))) ∧
  (∀ (s : State) (q o : Nat), q < 4 →
    (o ≤ 0xFFC → s.windowWord (q * 0x1000000 + 0x4000 + o) =
      BitVec.ofNat 32 (numOf ((List.range 4).map fun i => Store.get 0 (s.quad q).mailbox.block (o + i)))) ∧
    s.windowWord (q * 0x1000000 + 0x5000) = if (s.quad q).mailbox.go then 1 else 0)

/-- R394 to R397: TILEB closes the tag that its group holds and joins the slot of its tile, opening one when there is room, and else waits with
its old tag closed; TILEE closes the tag; STAMP_RECORD_WRITE closes a slot that is due.
Points that the manual leaves open follow the model's reading (log 27). -/
def Obligations.TileResult : Prop :=
  (∀ (s : State) (x : Issue) (g : Group) (a : BitVec 7),
    let s1 := (s.openIssue x).closeTile x.gid
    let tile := g.regs.sc a.toNat
    let room := (List.range 16).find? fun n => !Store.has (s1.core x.core).stamps n
    (∀ n, Issues s (.tileb a) x g → (s1.core x.core).stampOf x.tid tile = some n → Steps s (.tileb a) x g (s1.joinTile x g tile n)) ∧
    (∀ n, Issues s (.tileb a) x g → (s1.core x.core).stampOf x.tid tile = none → room = some n →
      Steps s (.tileb a) x g (s1.joinTile x g tile n)) ∧
    (Issues s (.tileb a) x g → (s1.core x.core).stampOf x.tid tile = none → room = none →
      exec (.tileb a) s = .next (s1.stall x .stall)) ∧
    (Issues s .tilee x g → Steps s .tilee x g s1)) ∧
  (∀ (s : State) (core slot : Nat), s.stampDue core slot = true → exec (.stampRecordWrite core slot) s = .next (s.closeStamp core slot))

/-- R212, R215, R398, R399: MFSR reads a system register of the team or its device, MTSR writes one: a stamp register, with ILLEGAL_OPERAND for a
value that it may not take, or a stash window, unbound by all ones and else bound by the 16 bytes at an offset of the stash. A firmware
register reads what was last written to it, and some value before the first write.
Points that the manual leaves open follow the model's reading (logs 14 and 35). -/
def Obligations.SystemRegisterResult : Prop :=
  ∀ (s : State) (x : Issue) (g : Group) (t : Team) (d a : BitVec 7) (i : BitVec 11), Undisturbed s g →
    Store.find s.teams x.tid = some t →
    let s0 := s.openIssue x
    let v := g.regs.sc a.toNat
    let vdev := t.id.vdev
    let off := v.toNat
    (Issues s (.mfsr d i) x g → isFirmwareSel i.toNat = false →
      Completes s (.mfsr d i) x g (g.regs.setSc d.toNat (s0.sysReg x.tid i.toNat))) ∧
    (Issues s (.mfsr d i) x g → isFirmwareSel i.toNat = true → ∃ w, Completes s (.mfsr d i) x g (g.regs.setSc d.toNat w)) ∧
    (∀ w, Issues s (.mfsr d i) x g → isFirmwareSel i.toNat = true → Store.find s.mod.fwRegs i.toNat = some w →
      Completes s (.mfsr d i) x g (g.regs.setSc d.toNat w)) ∧
    (Issues s (.mtsr a i) x g → isWindowSel i.toNat = false → isFirmwareSel i.toNat = true →
      Steps s (.mtsr a i) x g (s0.modMod fun m => { m with fwRegs := Store.put m.fwRegs i.toNat v })) ∧
    (Issues s (.mtsr a i) x g → isWindowSel i.toNat = false → isFirmwareSel i.toNat = false →
      if (i.toNat = 0x10 ∧ off % 64 ≠ 0) ∨ (i.toNat = 0x12 ∧ 2 ^ 24 < off) ∨ (i.toNat = 0x14 ∧ v ≠ 0) then
        Traps s (.mtsr a i) x g (x.trap .illegalOperand)
      else Steps s (.mtsr a i) x g (s0.modVdev vdev fun z => { z with stamp := z.stamp.put i.toNat v })) ∧
    (Issues s (.mtsr a i) x g → isWindowSel i.toNat = true →
      (v = 0xFFFFFFFF → Steps s (.mtsr a i) x g (s0.unbind x.tid (i.toNat % 8))) ∧
      (v ≠ 0xFFFFFFFF → off % 16 ≠ 0 → Traps s (.mtsr a i) x g (x.trap .misaligned)) ∧
      (v ≠ 0xFFFFFFFF → off % 16 = 0 → t.id.stashBytes < off + 16 → Traps s (.mtsr a i) x g (x.trap .permission)) ∧
      let holders := s0.engineHolders x.gid (s0.stashLines x.tid off 16) false
      (v ≠ 0xFFFFFFFF → off % 16 = 0 → off + 16 ≤ t.id.stashBytes → holders ≠ [] → Waits s (.mtsr a i) x (.order holders)) ∧
      (∀ s1, v ≠ 0xFFFFFFFF → off % 16 = 0 → off + 16 ≤ t.id.stashBytes → holders = [] → s0.touch x.tid off 16 false = (s1, some .wait) →
        Waits s (.mtsr a i) x (.full 4)) ∧
      (∀ s1, v ≠ 0xFFFFFFFF → off % 16 = 0 → off + 16 ≤ t.id.stashBytes → holders = [] →
        s0.touch x.tid off 16 false = (s1, none) →
        let b := s1.stashBytes x.tid off 16
        if badWindow b t.id.stashBytes ((t.mem.windows.filter fun kv => kv.1 != i.toNat % 8).map (·.2)) then
          Traps s (.mtsr a i) x g (x.trap .recordInvalid)
        else Steps s (.mtsr a i) x g ((s1.unbind x.tid (i.toNat % 8)).modTeamMem x.tid fun m =>
          { m with windows := Store.put m.windows (i.toNat % 8) (windowOf v b) })))

/-- R400, R401: ECALL waits until the group's operations are done; then it keeps both slots and the next address, and its slot goes to the
firmware's entry for its service after 8 clk. ERET, which only firmware runs, puts the slots back and goes on behind the ECALL, and faults with
PRIVILEGED outside firmware. TLBI drops the translations that its operands name, once what they have translated is performed (R337).
Points that the manual leaves open follow the model's reading (logs 14 and 23). -/
def Obligations.FirmwareCalls : Prop :=
  ∀ (s : State) (x : Issue) (g : Group) (i : BitVec 11) (a : BitVec 7) (k : BitVec 3), Undisturbed s g →
    (Issues s (.ecall i) x g → (g.ops.any fun o => !o.done) = true → Waits s (.ecall i) x (.order ((g.ops.filter fun o => !o.done).map (·.serial)))) ∧
    (Issues s (.ecall i) x g → (g.ops.any fun o => !o.done) = false → CompletesAs s (.ecall i) x g g.regs
      { g.flow.setSlot x.slot { g.flow.slot x.slot with pc := Config.firmwareEntry i.toNat, readyAt := x.clk + 8 } with
        fw := some { service := i.toNat, resume := x.pc + 4, s0 := g.flow.s0, s1 := g.flow.s1, slot := x.slot, fresh := true } }) ∧
    (∀ w, Issues s .eret x g → g.flow.fw = some w →
      let back := { g.flow with s0 := w.s0, s1 := w.s1, fw := none }
      CompletesAs s .eret x g g.regs (back.setSlot w.slot { back.slot w.slot with pc := w.resume, readyAt := x.clk + 8 })) ∧
    (s.issuing .eret = some (x, g) → g.flow.fw = none → g.flow.recipe = none → Traps s .eret x g (x.trap .privileged)) ∧
    let vdev := (g.regs.sc (a.toNat + 1)).toNat / 2 ^ 24
    let s1 := (s.openIssue x).invalidated (s.partOfCore x.core) vdev k.toNat
      (if k.toNat = 3 then (g.regs.sc a.toNat).toNat else g.regs.scAddr a.toNat)
    (Issues s (.tlbi a k) x g →
      (k.toNat = 3 ∨ s1.unsettled vdev = false → Steps s (.tlbi a k) x g s1) ∧
      (k.toNat ≠ 3 → s1.unsettled vdev = true → Waits s (.tlbi a k) x .stall))

/-- R266 to R276, R306: LAUNCH is a release at device scope and opens an operation that counts in c3: it fails with MISALIGNED or PERMISSION, and
else holds the 128 bytes of its packet, which LAUNCH_PACKET_ENTRY puts into the queue that it names. LAUNCH_PORT_WRITE posts a packet of the
host. PACKET_ACCEPT takes the head of a queue: a packet that is not valid ends at once, and a valid one gets an entry of the launch table.
Points that the manual leaves open follow the model's reading (logs 20 and 27). -/
def Obligations.LaunchResult : Prop :=
  (∀ (s : State) (x : Issue) (g : Group) (d a : BitVec 7) (l : BitVec 4) (t : Team), Issues s (.launch d a l) x g →
    Store.find (s.openIssue x).teams x.tid = some t →
    let s0 := s.openIssue x
    let off := (g.regs.sc a.toNat).toNat
    let w := (g.regs.sc (a.toNat + 1)).toNat
    let q := w / 64 % 4
    let n := w % 64
    let holds := decide (255 ≤ g.eng.count 3) || g.mustWait true || s0.pathWaits x.core
    let holders := s0.engineHolders x.gid (s0.stashLines x.tid off 128) false
    let o : LongOp :=
      { kind := .launch, serial := g.issued, pc := x.pc, slot := x.slot, mask := x.mask, issueClk := x.clk, window := l.toNat,
        regs := [⟨.S, d.toNat, 1⟩], gmode := g.regs.gmode, dest := d.toNat, dueClk := s.mod.tick, la := l.toNat,
        tile := g.eng.tag.map fun _ => g.eng.tagSlot }
    let begun (s : State) (o : LongOp) : State :=
      (((s.releaseAt x.core x.tid 3).setUnrew x.gid).modEng x.gid fun e => e.begin 3 g.issued).modOps x.gid fun q => q ++ [o]
    let denied := t.id.stashBytes < off + 128 ∨ (s0.part t.id.part).regs.members.contains q = false ∨ (s0.queue q n).owner ≠ t.id.vdev
    (holds = true → Waits s (.launch d a l) x (if 255 ≤ g.eng.count 3 then .full 3 else .order (g.before true))) ∧
    (holds = false → off % 128 ≠ 0 → Steps s (.launch d a l) x g (begun s0 { o with failure := some (.misaligned, 0) })) ∧
    (holds = false → off % 128 = 0 → denied → Steps s (.launch d a l) x g (begun s0 { o with failure := some (.permission, 0) })) ∧
    (holds = false → off % 128 = 0 → ¬ denied → holders ≠ [] → Waits s (.launch d a l) x (.order holders)) ∧
    (∀ s1, holds = false → off % 128 = 0 → ¬ denied → holders = [] → s0.touch x.tid off 128 false = (s1, some .wait) →
      Waits s (.launch d a l) x (.full 4)) ∧
    (∀ s1 c, holds = false → off % 128 = 0 → ¬ denied → holders = [] → s0.touch x.tid off 128 false = (s1, some (.fault c)) →
      Steps s (.launch d a l) x g (begun s0 { o with failure := some (c, s0.stashVa x.tid off) })) ∧
    (∀ s1 site, holds = false → off % 128 = 0 → ¬ denied → holders = [] → s0.touch x.tid off 128 false = (s1, some (.lost site)) →
      Steps s (.launch d a l) x g (begun (s0.detect site) { o with failure := some (.uncorrectable, s0.stashVa x.tid off) })) ∧
    (∀ s1, holds = false → off % 128 = 0 → ¬ denied → holders = [] →
      s0.touch x.tid off 128 false = (s1, none) → Steps s (.launch d a l) x g
        (begun s1 { o with accesses := [{ lane := 0, addr := q * 64 + n, data := s1.stashBytes x.tid off 128 }] }))) ∧
  (∀ (s : State) (gid : Nat) (g : Group) (o : LongOp) (qn : Nat) (data : List Byte), Store.find s.groups gid = some g →
    s.launchEnters gid g = some (o, qn, data) → exec (.launchPacketEntry gid) s = .next
      ((((s.enqueue (qn / 64) (qn % 64) data).modOp gid o.serial fun o => { o with probing := some 1 }).finishWork gid 3 o.serial).reportLaunches gid)) ∧
  (∀ (s : State) (gid : Nat) (g : Group) (o : LongOp) (qn : Nat) (data : List Byte), Store.find s.groups gid = some g →
    s.launchEnters gid g = some (o, qn, data) → (s.queue (qn / 64) (qn % 64)).packets.length < 32 ∧
      ∀ k g2 o2 data2, Store.find s.groups k = some g2 → (o2, qn, data2) ∈ g2.waitingLaunches → launchBefore k o2 gid o = false) ∧
  (∀ (s : State) (q n : Nat) (data : List Byte), q < 4 → n < 64 → exec (.launchPortWrite q n data) s = .next (s.postPacket q n data)) ∧
  (∀ (s : State) (q n : Nat) (p : Packet) (rest : List Packet) (v : Vdev) (k : Nat),
    let part := s.partOfQuad q
    let owner := (s.queue q n).owner
    let why := packetReason p.bytes (s.part part).regs.members (descRh v.desc) (descRw v.desc) (carveStash v.vcarve)
    s.acceptable q n = true → (s.queue q n).packets = p :: rest → Store.find s.vdevs owner = some v →
    freeIndex (s.part part).disp.launches 256 = some k →
    (∀ r, why = some r → exec (.packetAccept q n) s = .next
      (((s.modQueue q n fun w => { w with packets := rest }).writeCompletion part owner p.bytes (if r = 16 then 5 else 4) r none).cancelDependents
        part owner (pkCompBmp p.bytes))) ∧
    (why = none → exec (.packetAccept q n) s = .next ((s.modDisp part fun d => { d with
      launches := Store.put d.launches k
        { quad := q, queue := n, vdev := owner, packet := p.bytes, accepted := s.mod.tick, order := d.acceptOrder, prev := (s.queue q n).last },
      acceptOrder := d.acceptOrder + 1, decide := true }).modQueue q n fun w => { w with last := some (s.part part).disp.acceptOrder })))

/-- R38, R274 to R283: what the dispatcher does: a decision settles what is over and places what it may, device by device and launch by launch;
a gang that has waited its time fences; a dependency that nothing will meet ends its launch with the code 3; a team of which every group is
gone retires: its windows are written back, its slot is free, its done bit is set, and its launch counts it.
Points that the manual leaves open follow the model's reading (logs 1 and 27). -/
def Obligations.DispatchEvents : Prop :=
  (∀ (s : State) (part : Nat),
    let s0 := (s.settleLaunches part).modDisp part fun d => { d with decide := false }
    let s1 := s0.serveSaved part
    exec (.dispatchDecision part) s = .next (((s1.launchOrder part).foldl (fun s i => s.serveLaunch part i) s1).markOrphans part)) ∧
  (∀ (s : State) (part k : Nat), s.fenceDue part = some k →
    exec (.gangFence part) s = .next (s.modDisp part fun d => { d with fence := some k, decide := true })) ∧
  (∀ (s : State) (part launch : Nat) (e : LaunchEntry), Store.find (s.part part).disp.launches launch = some e →
    s.depOverdue e = true → s.orphaned part e = true → exec (.dependencyTimeout part launch) s = .next
      ((s.modDisp part fun d => { (d.dropGangs fun g => g.launch == launch && !g.restored) with
        launches := Store.put d.launches launch { e with phase := .cancelled 3, depFrom := none } }).settleLaunch part launch)) ∧
  (∀ (s : State) (tid : Nat) (t : Team) (e : LaunchEntry), Store.find s.teams tid = some t → s.retires tid = true →
    let s2 := (((s.drainPath (tid / 16) none).writeBackTeam tid).ownershipFault tid).freeTeamSlot tid
    Store.find (s2.part t.id.part).disp.launches t.id.launch = some e →
    let s3 := (if e.phase = LaunchPhase.aborted ∨ e.phase = LaunchPhase.faulted then s2 else s2.setDoneBit t.id.part e t.id.number).modDisp t.id.part fun d =>
      { d with launches := Store.put d.launches t.id.launch { e with retired := e.retired + 1 }, decide := true }
    exec (.teamRetire tid) s = .next ((if (s3.clusterTeams t.id).isEmpty then { s3 with clusters := Store.erase s3.clusters (clusterKey t.id) }
      else s3).settleLaunch t.id.part t.id.launch))

/-! ### Events of the machine -/

/-- R366 to R381: the boundary of an interval charges stress, steps the rests, adopts what was set, keeps the records for placement and RDWEAR until the next (R277, R382), draws the sensors again and the errors that strike, and
has firmware read and clear drop counts (R266), with a measurement of the monitors every 1024 intervals. A spare swaps in for a core that holds no team:
the map names it, the old core becomes a spare unless it is retired, and every record stays. A measurement gives each unit its reading, and retires exactly
the cores over RETIREPPM. A boost that is too hot ends, with its intervals to come refunded. A core that retires completes its rest, is no spare and
unavailable from then on, and no gang keeps it.
Points that the manual leaves open follow the model's reading (logs 24, 32 and 43). -/
def Obligations.WearEvents : Prop :=
  ∀ (s : State),
    (s.mod.tick < s.mod.nextBoundary → exec .intervalBoundary s = .next s) ∧
    (s.mod.nextBoundary ≤ s.mod.tick →
      let s2 := (s.adoptWearctl.boundaryStress.boundaryRests s.intervalStart).modWear fun w =>
        ({ w with intervals := w.intervals + 1, lifectl := w.nextLifectl, fv := w.nextFv, ft := w.nextFt, activity := {} }).store
      let s2 := s2.modWear fun w => { w with boundary := w.records }
      let s3 : State := { s2 with parts := Store.mapVals s2.parts fun _ p => { p with disp := { p.disp with decide := true } } }
      let s4 := (s3.modMod fun m => { m with nextBoundary := m.nextBoundary + 84000000 }).readSensors.strikes.readDrops
      exec .intervalBoundary s = .next (if s4.wear.intervals % 1024 = 0 then s4.measureAll else s4)) ∧
    (∀ die spare l, s.swapReady die = some (spare, l) →
      let old := (s.die die).map.getD l none
      let back : List Nat := (old.toList).filter fun p => !(s.die die).retired.contains p
      ∃ t, exec (.spareSwapOut die) s = .next t ∧ (spare, l) ∈ (s.die die).pendingSwap ∧ s.teamsOn (die * 24 + l) = [] ∧
        (t.die die).map = (s.die die).map.set l (some spare) ∧ (t.die die).spares = (s.die die).spares ++ back ∧
        (t.die die).retired = (s.die die).retired ∧ (∀ x ∈ (t.die die).pendingSwap, x.2 ≠ l) ∧ t.wear.records = s.wear.records ∧
        t.wear.lbud = s.wear.lbud ∧ (t.core (die * 24 + l)).paid = none ∧ (t.core (die * 24 + l)).boost = false ∧ t.groups = s.groups ∧
        t.teams = s.teams ∧ t.mem = s.mem) ∧
    (∀ readings, ∃ t, exec (.monitorMeasurement readings) s = .next t ∧
      (∀ u r, u < 500 → readings[u]? = some r → (t.wearOf u).mon = r % 2 ^ 32) ∧
      ∀ die pos, die < 8 → pos < 26 →
        let worn := ∃ r, readings[26 * die + pos]? = some r ∧ wcRetire (s.quad (die / 2)).wearctl < r % 2 ^ 32
        (pos ∈ (t.die die).retired ↔ pos ∈ (s.die die).retired ∨ worn)) ∧
    (∀ core, s.tooHot core = true → ∃ t, exec (.boostThermalDrop core) s = .next t ∧ (t.core core).grant = none ∧ (t.core core).boost = false ∧
      t.wear.records = s.wear.records ∧
      ∀ q u, (s.core core).grant = some q → s.unitOfCore core = some u →
        Store.get 0 t.wear.lbud u = Store.get 0 s.wear.lbud u + q.x * (q.remaining : Int)) ∧
    (∀ die pos, die < 8 → pos < 26 → pos ∉ (s.die die).retired →
      let u := die * 26 + pos
      let r := s.wearOf u
      ∃ t : State, exec (.coreRetirement die pos) s = .next (t.logEvent (t.partOfQuad (die / 2)) { type := 4, quad := die / 2, unit := u, time := s.now }) ∧
        (t.die die).retired = (s.die die).retired ++ [pos] ∧ (t.die die).spares = (s.die die).spares.filter (· != pos) ∧
        (∀ x ∈ (t.die die).pendingSwap, x.1 ≠ pos) ∧ (r.rest = none → t.wearOf u = r) ∧
        (∀ q, r.rest = some q → t.wearOf u = { r with
          b := r.b - restCredit r.p (if q.left = 0 then min q.completed 16 else q.completed) q.poweredDown, p := 0, rests := r.rests + 1, rest := none }) ∧
        ∀ c, s.logicalOf u = some c → c % 24 ∈ (t.die die).retiredSince ∧ t.coreUp c = false ∧
          ∀ g ∈ (t.part (t.partOfCore c)).disp.gangs, c ∉ g.2.cores)

/-- R205, R213, R214, R217, R220, R229, R232 to R237: what the memory system does by itself: a probe of a release log performs the stores that the
log has for the line, unless a lease defers it; a stash line is filled from memory; a directory recall takes every copy of its line back, unless
one is leased; a lock of a replicated line on which a load has been stalled for 2 µs is broken; a refresh takes a bank; a scrub finds its sector, or
the copy of it in an LLC, clean, corrected, or lost, and finds an uncorrectable error that is there, in the copy and in the memory behind it.
Points that the manual leaves open follow the model's reading (logs 11, 36, 37 and 43). -/
def Obligations.MemoryEvents : Prop :=
  ∀ (s : State),
    (∀ core line, (s.probeWaits core (lineOf line) = false → exec (.releaseLogProbe core line) s = .next (s.probeCore core (lineOf line))) ∧
      (s.probeWaits core (lineOf line) = true → exec (.releaseLogProbe core line) s = .next s)) ∧
    (∀ tid line s1, s.touchLine tid line false false = .ok s1 → exec (.stashLineFill tid line) s = .next s1) ∧
    (∀ line, (s.lineLeased (lineOf line) = false → s.backHeld (lineOf line) = false → exec (.directoryRecall line) s = .next
        ((s.holders (lineOf line)).foldl (fun s h => s.recallLine h.1 h.2) s)) ∧
      (s.lineLeased (lineOf line) = true ∨ s.backHeld (lineOf line) = true → exec (.directoryRecall line) s = .next s)) ∧
    (∀ core bench bank, core < 192 → bench < 16 → bank < 4 →
      exec (.bankRefresh core bench bank) s = .next (s.refreshBank core bench bank)) ∧
    (∀ a, a % 64 = 0 → isDeviceMemory a = true ∨ (s.cachedSector (a / 64)).isSome = true →
      let k := a / 64
      let q := match s.cachedSector k with
        | some (q, _) => q
        | none => (homeQuad [] a).getD 0
      let cached := s.cachedSector k
      let behind := isDeviceMemory a && s.mod.frames.bad.contains k
      let inLlc (s : State) : State := (s.detect (.sector a)).modMod fun m => { m with llcScrub := m.llcScrub.mark k }
      let inMemory (s : State) : State := (s.detect (.memory a)).modMod fun m => { m with dramScrub := m.dramScrub.mark k }
      (∀ f, cached.any (·.2) = true → behind = false ∨ k ∉ s.mod.llcScrub.found → exec (.patrolScrub a f) s = .next (inLlc s)) ∧
      (∀ f, behind = true → cached.any (·.2) = false ∨ k ∈ s.mod.llcScrub.found → exec (.patrolScrub a f) s = .next (inMemory s)) ∧
      (cached.any (·.2) = false → behind = false → exec (.patrolScrub a .clean) s = .next s ∧
        exec (.patrolScrub a .corrected) s = .next ((s.corrected q (s.frameVdev a) (if cached.isSome then 0x201 else 0x200)
          (if cached.isSome then 416 + 16 * q + llcSlice q a else 0xFFFFFFFF) a).count q (s.frameVdev a) 0x205 1) ∧
        (cached.isSome = true → exec (.patrolScrub a .uncorrectable) s = .next (inLlc (s.strikeLlc q (lineOf a) (k % 2)))) ∧
        (cached = none → exec (.patrolScrub a .uncorrectable) s = .next
          (inMemory (s.modMod fun m => { m with frames := { m.frames with bad := m.frames.bad ++ [k] } }))))) ∧
    (∀ part entry l, ((s.part part).locks.find? fun l => l.entry == entry && s.lockOverdue l) = some l →
      let s1 := s.choose.2
      let quad := (homeQuad (s1.part part).regs.members l.addr).getD 0
      let s2 := (s1.count quad 0 0x206 1).logEvent part { type := 5, quad := quad, paddr := lineOf l.addr, time := s1.now }
      let line := lineOf l.addr
      let lost := l.stalled.foldl (fun s x => s.loseLoad x.1 x.2.1 line)
        ((s2.modPart part fun p => { p with locks := p.locks.filter (· != l) }).loseOps l.gid .uncorrectable l.va fun o => o.serial == l.serial)
      let marked : State := match Store.find (s2.part part).replicas entry with
        | none => s2
        | some e =>
          let r := e.replicas.foldl (fun (acc : List Replica × State) (r : Replica) =>
            (acc.1 ++ [if acc.2.choose.1 then { r with valid := false } else r], acc.2.choose.2)) ([], s2)
          r.2.modPart part fun p => { p with replicas := Store.put p.replicas entry { e with replicas := r.1 } }
      (s.choose.1 = true → exec (.replicaLockTimeout part entry) s = .next
        ((lost.groups.filter fun kv => kv.2.stops.wait == .lock line).foldl (fun s kv => s.takeFault kv.1 (kv.2.waitTrap .uncorrectable)) lost)) ∧
      (s.choose.1 = false → exec (.replicaLockTimeout part entry) s = .next (if marked.lockWaits part l then marked else marked.commitLock part l)))

/-- R324 to R332, R345 to R352: admission gives a device its cores and starts its slice; a core of the set is replaced; the end of a slice starts
a save; run-on that has lasted its limit ends in a whole save of its groups; what a save leaves; and the release of a halted device, with the launches
that a fatal fault has stopped (R42). The model keeps an image beside its opaque bytes (log 12, DESIGN CHOICE).
Points that the manual leaves open follow the model's reading (logs 1 and 28). -/
def Obligations.PreemptionEvents : Prop :=
  ∀ (s : State),
    (∀ vdev part v cs, s.nextAdmission part = some vdev → Store.find s.vdevs vdev = some v → s.coreSetFor part v.desc = some cs →
      exec (.admission vdev part) s = .next
        ((s.modPart part fun p => { p with
          regs := { p.regs with lastAdmitted := vdev },
          disp := { p.disp with resident := Store.put p.disp.resident vdev cs, decide := true } }).modVdev vdev fun v => { v with
          ctx := { v.ctx with sliceFrom := s.mod.tick },
          saved := { v.saved with teams := v.saved.teams.map fun t => { t with restoredAt := s.mod.tick } } })) ∧
    (∀ vdev old new v, Store.find s.vdevs vdev = some v → s.replacement (descPart v.desc) vdev old v = some new →
      exec (.coreSetReplacement vdev old new) s = .next (s.modDisp (descPart v.desc) fun d => { d with
        resident := Store.put d.resident vdev ((s.coreSet (descPart v.desc) vdev).map fun c => if c = old then new else c), decide := true })) ∧
    (∀ vdev v, Store.find s.vdevs vdev = some v → s.sliceDue vdev v = true →
      exec (.sliceEnd vdev) s = .next (s.startSave vdev (if v.ckpt.mode = 0 then .slice else .epoch))) ∧
    (∀ tid t, Store.find s.teams tid = some t → s.runOnOver t = true → exec (.unrwlimExpiry tid) s = .next
      ((s.groupsOf tid).foldl (fun (s : State) kv =>
        if kv.2.stops.saving.isSome || (kv.2.flow.exited && !kv.2.flow.region) then s else s.stopForSave kv.1 .whole)
        (s.modSync tid fun y => { y with runOnFrom := none }))) ∧
    (∀ vdev v, Store.find s.vdevs vdev = some v → s.drained vdev = true →
      let s0 := s.settleMemory vdev
      (s0.teamsOf vdev).find? (fun t => t.2.sync.ownershipEvent) = none →
      (v.saved.phase = .stopping .slice → exec (.saveImageTaken vdev) s = .next
        ((s0.takeImage (descPart v.desc) vdev).modVdev vdev fun v => { v with saved := { v.saved with phase := .running } })) ∧
      (∀ n s1 w, v.saved.phase = .stopping .epoch → s0.imageLength = (n, s1) →
        let s2 := s1.takeImage (descPart v.desc) vdev
        Store.find s2.vdevs vdev = some w → exec (.saveImageTaken vdev) s = .next (s2.modVdev vdev fun u =>
          { u with saved := { u.saved with phase := .saved, image := some (s2.imageOf (descPart v.desc) vdev w n (some w.ckpt.epoch)) },
                   ckpt := { u.ckpt with closing := true } })) ∧
      (∀ m buf len n s1, v.saved.phase = .stopping (.save m buf len) → s0.imageLength = (n, s1) → (len < n ∨ s1.hostRange buf (max n 1) = false) →
        exec (.saveImageTaken vdev) s = .next ((s1.continueInPlace vdev).endCommand (.mailbox m) 1 0 (bytesOf 8 n ++ bytesOf 8 0))) ∧
      (∀ m buf len n s1 w, v.saved.phase = .stopping (.save m buf len) → s0.imageLength = (n, s1) → n ≤ len → s1.hostRange buf (max n 1) = true →
        Store.find (s1.takeImage (descPart v.desc) vdev).vdevs vdev = some w →
        let s2 := s1.takeImage (descPart v.desc) vdev
        let img := s2.imageOf (descPart v.desc) vdev w n none
        exec (.saveImageTaken vdev) s = .next
          ((((s2.moveOut (descPart v.desc) vdev).coherentWrite (s2.quadsOf (descPart v.desc)) buf (imageBytes w.ctx img)).modVdev vdev fun v =>
            { v with saved := { phase := .saved, teams := [], image := some img } }).endCommand (.mailbox m) 0 0
            (bytesOf 8 n ++ bytesOf 8 w.ctx.saves)))) ∧
    (∀ vdev v, Store.find s.vdevs vdev = some v → v.ctx.halted = true →
      exec (.haltRelease vdev) s = .next ((s.faultedLaunches (descPart v.desc) vdev).foldl (fun s e => s.abortLaunch (descPart v.desc) e.1 e.2)
        (s.modCtx vdev fun c => { c with halted := false, haltFault := none }))) ∧
    (∀ core, s.carveStale core = true →
      let w := ((Store.find s.vdevs (s.core core).vdev).map (·.vcarve)).getD 0
      exec (.carveApply core) s = .next ((s.modCore core fun c => { c with stash := carveStash w, lane := carveLane w }).l1Clear core))

/-! ### Commands of the firmware -/

/-- R406 to R408: a command that fails a check that all commands share ends with that status, and its event does nothing when no source has
given it. CREATE_VDEV, DESTROY_VDEV, CARVE and PARTITION: what they check, and what they change (R200, R207, R312, R347 to R349, R411, R413).
The bytes that MR4 takes are the model's (log 13, PRESUMED), and so is what a replaced partition loses and the quota after CARVE (log 46, DESIGN
CHOICE). Points that the manual leaves open follow the model's reading (log 29). -/
def Obligations.DeviceCommands : Prop :=
  ∀ (s : State) (src : CommandSource) (c : Command),
    let s0 := s.taken src
    (∀ i op sub st, commandNames i = some (src, op, sub) → Gives s src op sub c → s0.commonRefusal c = some st → Refuses s i src st) ∧
    (∀ i op sub, commandNames i = some (src, op, sub) → (∀ c, ¬ Gives s src op sub c) → exec i s = .next s) ∧
    (Runs s src 0x01 0 c →
      let d := if c.expert then c.bytes 0 64 else (c.bytes 0 64).take 4 ++ bytesOf 8 defaultCtl ++ (c.bytes 0 64).drop 12
      let n := field d 0 1
      let ctl := BitVec.ofNat 64 (field d 4 8)
      let bad := Store.has s0.vdevs n || !s0.descriptorOk d || !s0.canHold d
      let unsafePlace := ctl.getLsbD 2 && s0.mod.ident.security == .manufacturing
      (bad = true → Refuses s (.createVdev src) src 1) ∧
      (bad = false → unsafePlace = true → Refuses s (.createVdev src) src 3) ∧
      (bad = false → unsafePlace = false → ∃ key v, v.desc = d ∧ v.ctx.ctl = ctl ∧ v.ctx.ctxid = s0.mod.ident.ctxNext ∧ v.ctx.key = key ∧
        key.isSome = ctl.getLsbD 2 ∧ v.faults.base = field d 32 8 ∧ v.tab.dirtyBase = field d 40 8 ∧ v.tab.dirtyLen = field d 48 4 ∧
        v.vcarve = BitVec.ofNat 32 (field d 16 4) ∧ v.saved = {} ∧
        Ends s (.createVdev src) src (((s0.anyNat (2 ^ 256)).2.modIdent fun i => { i with ctxNext := s0.mod.ident.ctxNext + 1 }).enterVdev d v)
          (bytesOf 4 s0.mod.ident.ctxNext ++ bytesOf 4 0))) ∧
    (Runs s src 0x02 0 c → Ends s (.destroyVdev src) src (s0.removeVdev (c.get 0 1) (some 6)) []) ∧
    (∀ v, Runs s src 0x0D 0 c → Store.find s0.vdevs (c.get 0 1) = some v →
      let own := (s0.part (descPart v.desc)).regs.carvelim
      let w := BitVec.ofNat 32 (c.get 4 4)
      let p := c.get 8 1
      let given := BitVec.ofNat 32 (c.get 12 4)
      let lim := if given = 0 then (s0.part p).regs.carvelim else given
      let fits := Store.has s0.parts p && carvelimOk lim && carveOk w (if p = descPart v.desc then lim else own) &&
        (given == 0 || s0.vdevs.all fun kv => kv.1 == c.get 0 1 || !Store.has (s0.part p).disp.resident kv.1 || carveOk kv.2.vcarve lim)
      (∀ w, c.expert = false → carvePreset (c.get 1 1) = some w → carveOk w own = true →
        Ends s (.carve src) src (s0.modVdev (c.get 0 1) fun v => { v with vcarve := w }) (bytesOf 4 w.toNat)) ∧
      (c.expert = false → (∀ w, carvePreset (c.get 1 1) = some w → carveOk w own = false) → Refuses s (.carve src) src 1) ∧
      (c.expert = true → isGuest src = true → given ≠ 0 → Refuses s (.carve src) src 3) ∧
      (c.expert = true → (isGuest src = false ∨ given = 0) → fits = false → Refuses s (.carve src) src 1) ∧
      (c.expert = true → (isGuest src = false ∨ given = 0) → fits = true → Ends s (.carve src) src
        (((s0.requota (descPart v.desc) (c.get 0 1)).modVdev (c.get 0 1) fun v => { v with vcarve := w }).modPart p fun x => { x with regs := { x.regs with carvelim := lim } })
        (bytesOf 4 w.toNat ++ bytesOf 4 lim.toNat))) ∧
    (Runs s src 0x0C 0 c →
      let code := c.get 0 1
      let keep := c.expert && code == 0xFF
      let formed := if keep then s0 else (s0.repartition code).modMod fun m => { m with code := code }
      let place := BitVec.ofNat 32 (c.get 4 4)
      let placed := placectlOk place && Store.has formed.parts (c.get 1 1)
      let measured := (if c.expert then formed.modPart (c.get 1 1) fun x => { x with regs := { x.regs with placectl := place } } else formed)
      let extended := measured.extendMr 4 (digestOf [BitVec.ofNat 8 measured.mod.code])
      (keep = false → (4 < code ∨ s0.codeBlocked code = true) → Refuses s (.partition src) src 1) ∧
      ((keep = true ∨ (code ≤ 4 ∧ s0.codeBlocked code = false)) →
        (c.expert = true → placed = false → Refuses s (.partition src) src 1) ∧
        ((c.expert = true → placed = true) → Ends s (.partition src) src
          (if extended.parts.map (fun q => q.2.regs.boostctl) = s0.parts.map (fun q => q.2.regs.boostctl) then extended else extended.measureSettings) [])))

/-- R327, R330, R354 to R356, R360, R406, R408: SAVE stops the device and goes on until its image is taken; RESTORE takes an image that nothing refuses, with its launches and its
packets; CHECKPOINT sets CKCTL, starts epoch 1, or closes an epoch; MIGRATE_OUT stops the device for its image and MIGRATE_IN makes an entry.
RESTORE knows an image by the one that the model remembers beside its bytes (log 12, DESIGN CHOICE), and whether another module's firmware has
accepted a MIGRATE_IN is free (log 19, DESIGN CHOICE). Points that the manual leaves open follow the model's reading (logs 28, 29, 31 and 46). -/
def Obligations.ContextCommands : Prop :=
  ∀ (s : State) (src : CommandSource) (c : Command),
    let s0 := s.taken src
    let vdev := c.get 0 1
    (∀ m v, src = .mailbox m → Runs s src 0x04 0 c → Store.find s0.vdevs vdev = some v →
      let ok := c.get 8 8 % 4096 = 0 ∧ s0.hostRange (c.get 8 8) (max (c.get 16 8) 1) = true
      (¬ ok → Refuses s (.save src) src 1) ∧
      (∀ st, ok → v.cannotSave = some st → Refuses s (.save src) src st) ∧
      (ok → v.cannotSave = none → exec (.save src) s = .next (s0.startSave vdev (.save m (c.get 8 8) (c.get 16 8))))) ∧
    (∀ v, Runs s src 0x05 0 c → Store.find s0.vdevs vdev = some v →
      let part := descPart v.desc
      let asked := s0.commandRead src (c.get 8 8) (max (c.get 16 8) 1)
      (v.lost = true → Refuses s (.restore src) src 3) ∧
      (v.lost = false → s0.isResident vdev v = true → v.saved.phase = .running → Refuses s (.restore src) src 3) ∧
      (∀ s1 b, v.lost = false → s0.isResident vdev v = false → v.cannotSave ≠ some 2 → asked = (s1, some b) →
        (∀ r, s1.imageRefusal v (b.take (c.get 16 8)) = some r → exec (.restore src) s = .next (s0.endCommand src 1 r [])) ∧
        (∀ i, s1.imageRefusal v (b.take (c.get 16 8)) = none → v.saved.image = some i →
          (s1.launchRoom part vdev i = false → Refuses s (.restore src) src 2) ∧
          (s1.launchRoom part vdev i = true →
            (i.epoch = none → Ends s (.restore src) src (s1.moveIn part vdev i) []) ∧
            (∀ e, i.epoch = some e → Ends s (.restore src) src ((s1.writePages part vdev v e).moveIn part vdev i) []))))) ∧
    (∀ v w, Store.find s0.vdevs vdev = some v → c.ckctl = some w →
      let set (k : Checkpoint) : State := s0.modVdev vdev fun v => { v with ckpt := k }
      let off : Checkpoint := { v.ckpt with ctl := w, length := c.get 16 8 }
      let run : Checkpoint := { ctl := w, epoch := 1, length := c.get 16 8, nextPage := s0.mod.tick }
      let close : Checkpoint := { v.ckpt with ctl := w - (1 <<< 56), length := c.get 16 8 }
      (∀ i sub st, v.cannotCheckpoint = some st → commandNames i = some (src, 0x08, sub) → Runs s src 0x08 sub c → Refuses s i src st) ∧
      (v.cannotCheckpoint = none → Runs s src 0x08 0 c → Ends s (.checkpointDisable src) src (set off) off.reply) ∧
      (v.cannotCheckpoint = none → Runs s src 0x08 1 c →
        (s0.regionOk (descPart v.desc) vdev run.region (c.get 16 8) = true → Ends s (.checkpointRun src) src (set run) run.reply) ∧
        (s0.regionOk (descPart v.desc) vdev run.region (c.get 16 8) = false → Refuses s (.checkpointRun src) src 1)) ∧
      (v.cannotCheckpoint = none → Runs s src 0x08 2 c →
        ((v.ckpt.mode ≠ 1 ∨ v.saved.phase = .saved) → Refuses s (.checkpointCloseNow src) src 3) ∧
        (v.ckpt.mode = 1 → v.saved.phase ≠ .saved → close.region ≠ v.ckpt.region → Refuses s (.checkpointCloseNow src) src 1) ∧
        (v.ckpt.mode = 1 → v.saved.phase ≠ .saved → close.region = v.ckpt.region →
          Ends s (.checkpointCloseNow src) src ((set close).startSave vdev .epoch) close.reply))) ∧
    (∀ m v, src = .mailbox m → Runs s src 0x06 0 c → Store.find s0.vdevs vdev = some v →
      let rate := c.get 4 4
      let bad := 2048 ≤ c.get 2 2 ∨ (c.expert = false ∧ rate ≠ 0) ∨ c.get 8 4 ≠ v.ctx.ctxid
      (bad → Refuses s (.migrateOut src) src 1) ∧
      let done := v.mig.phase = 4 ∧ v.mig.incoming = false
      (¬ bad → v.lost = true → Refuses s (.migrateOut src) src 3) ∧
      (¬ bad → v.lost = false → done → Ends s (.migrateOut src) src s0 (bytesOf 1 4 ++ bytesOf 7 0 ++ bytesOf 8 v.mig.sent.length)) ∧
      (∀ st, ¬ bad → v.lost = false → ¬ done → v.cannotSave = some st → Refuses s (.migrateOut src) src st) ∧
      (∀ s1, ¬ bad → v.lost = false → ¬ done → v.cannotSave = none → s0.mayMigrate v (c.get 2 2) = (false, s1) → Refuses s (.migrateOut src) src 3) ∧
      (∀ s1, ¬ bad → v.lost = false → ¬ done → v.cannotSave = none → s0.mayMigrate v (c.get 2 2) = (true, s1) →
        let mig : Migration := { phase := 1, peer := c.get 2 2, mailbox := some m, rate := if rate = 0 then 4096 else rate }
        exec (.migrateOut src) s = .next ((s1.modVdev vdev fun v => { v with mig := mig }).startSave vdev (.migrate m)))) ∧
    (Runs s src 0x07 0 c →
      let d := c.bytes 0 64
      let bad := 2048 ≤ c.get 64 2 ∨ Store.has s0.vdevs (field d 0 1) = true ∨ s0.descriptorOk d = false ∨ s0.canHold d = false
      (bad → Refuses s (.migrateIn src) src 1) ∧
      (¬ bad → ∃ v, v.desc = d ∧ v.ctx.ctl = BitVec.ofNat 64 (field d 4 8) ∧ v.ctx.ctxid = c.get 68 4 ∧ v.ctx.key = none ∧ v.saved.phase = .saved ∧
        v.mig.incoming = true ∧ v.mig.peer = c.get 64 2 ∧ Ends s (.migrateIn src) src (s0.enterVdev d v) []))

/-- R374 to R377, R366, R403, R414, R415: SET_LIFE, BOOST_POLICY, FACTOR_TABLES and POWER: what they check and what they set, with the measurement of R411 after a
change of what it covers. R317, R318, R303: the answers to a stopped, parked or suspended group, resident or saved. R269, R286, R400, R408:
LAUNCH_COMMAND makes the write of a launch port for a queue with room, once for a command that a rewound group repeats. R343: RETIRE_PAGE retires a
frame of device memory, when no lease holds a line of it. POWER answers STATUS 3 while a quadrant is exiting (log 33, DEDUCED), and a host's LAUNCH
to a queue that no device owns STATUS 1 (log 47, DEDUCED). Points that the manual leaves open follow the model's reading (logs 23 and 29). -/
def Obligations.ServiceCommands : Prop :=
  ∀ (s : State) (src : CommandSource) (c : Command),
    let s0 := s.taken src
    let vdev := c.get 0 1
    (Runs s src 0x09 0 c →
      let life : State := s0.modWear fun w => { w with nextLifectl := c.get 0 4 }
      (c.expert = false → c.get 0 4 = 0 → Refuses s (.setLife src) src 1) ∧
      (c.expert = false → c.get 0 4 ≠ 0 → Ends s (.setLife src) src life []) ∧
      (c.expert = true → (16 ≤ c.get 16 1 ∨ (c.get 16 1 ≠ 0 ∧ wearctlOk (BitVec.ofNat 64 (c.get 24 8)) = false)) → Refuses s (.setLife src) src 1) ∧
      (c.expert = true → c.get 16 1 < 16 → (c.get 16 1 = 0 ∨ wearctlOk (BitVec.ofNat 64 (c.get 24 8)) = true) →
        let target : State := if c.get 0 4 = 0 then s0 else life
        let t := target.modWear fun w => { w with
          lbudcap := if c.get 8 8 = 0 then w.lbudcap else c.get 8 8
          nextWearctl := (quadsIn (c.get 16 1)).foldl (fun m q => Store.put m q (BitVec.ofNat 64 (c.get 24 8))) w.nextWearctl }
        Ends s (.setLife src) src (if t.wear = target.wear then t else t.measureSettings) [])) ∧
    (Runs s src 0x0A 0 c →
      let w := BitVec.ofNat 32 (c.get 4 4)
      let bad := Store.has s0.parts vdev = false ∨ bcMaxDur w = 0 ∨ bcTmax w < 55 ∨ 95 < bcTmax w ∨ w.extractLsb' 6 2 ≠ 0 ∨ 48 < bcCores w
      (c.expert = false → 2 ≤ c.get 1 1 → Refuses s (.boostPolicy src) src 1) ∧
      (c.expert = false → c.get 1 1 < 2 → Ends s (.boostPolicy src) src (s0.modVdev vdev fun v => { v with boosten := c.get 1 1 == 1 }) []) ∧
      (c.expert = true → bad → Refuses s (.boostPolicy src) src 1) ∧
      (c.expert = true → ¬ bad → (s0.part vdev).regs.boostctl = w → Ends s (.boostPolicy src) src s0 []) ∧
      (c.expert = true → ¬ bad → (s0.part vdev).regs.boostctl ≠ w →
        Ends s (.boostPolicy src) src (s0.modPart vdev fun p => { p with regs := { p.regs with boostctl := w } }).measureSettings [])) ∧
    (Runs s src 0x11 0 c →
      let fv := (List.range 5).map fun i => c.get i 1
      let ft := (List.range 5).map fun i => c.get (5 + i) 1
      ((factorsOk fv = false ∨ factorsOk ft = false) → Refuses s (.factorTables src) src 1) ∧
      (factorsOk fv = true → factorsOk ft = true → s0.wear.nextFv = fv → s0.wear.nextFt = ft → Ends s (.factorTables src) src s0 []) ∧
      (factorsOk fv = true → factorsOk ft = true → ¬ (s0.wear.nextFv = fv ∧ s0.wear.nextFt = ft) →
        Ends s (.factorTables src) src (s0.modWear fun w => { w with nextFv := fv, nextFt := ft }).measureSettings [])) ∧
    (Runs s src 0x15 0 c →
      let held := (quadsIn (c.get 1 1)).any fun q => s0.quadHeld q || (s0.quad q).power == .exiting
      (16 ≤ c.get 1 1 → Refuses s (.powerQuadrantRest src) src 1) ∧
      (c.get 1 1 < 16 → held = true → Refuses s (.powerQuadrantRest src) src 3) ∧
      (c.get 1 1 < 16 → held = false →
        Ends s (.powerQuadrantRest src) src ((quadsIn (c.get 1 1)).foldl (fun s q => s.restQuad q false) s0) [])) ∧
    (Runs s src 0x15 1 c →
      let held := s0.protectedResident || (List.range 4).any fun q => s0.quadHeld q || (s0.quad q).power == .exiting
      (held = true → Refuses s (.powerDeepIdle src) src 3) ∧
      (held = false → Ends s (.powerDeepIdle src) src ((List.range 4).foldl (fun s q => s.restQuad q true) s0) [])) ∧
    (Runs s src 0x15 2 c →
      (16 ≤ c.get 1 1 → Refuses s (.powerExit src) src 1) ∧
      (c.get 1 1 < 16 → Ends s (.powerExit src) src ((quadsIn (c.get 1 1)).foldl (fun s q => s.wakeQuad q) s0) [])) ∧
    (∀ v, Store.find s0.vdevs vdev = some v →
      let team := c.get 4 4
      let group := c.get 8 1
      let answered (g : Group) : Bool := g.answerable v.ctx.trapsvc
      let named := s0.named vdev team group
      let stopped := named.find? fun kv => kv.2.answerable v.ctx.trapsvc
      let parked := named.find? fun kv => kv.2.isParked || s0.hasSuspended kv.1
      let clk (gid : Nat) : Nat := (s0.core (coreOf gid)).clk
      (∀ kv, Runs s src 0x12 0 c → stopped = some kv →
        Ends s (.answerResume src) src (s0.modGroup kv.1 fun g => g.resumed (clk kv.1)) []) ∧
      (Runs s src 0x12 0 c → stopped = none → v.savedNamed team group answered = true → Ends s (.answerResume src) src
        (s0.modSaved vdev team group fun g => if g.answerable v.ctx.trapsvc then g.resumed 0 else g) []) ∧
      (Runs s src 0x12 0 c → stopped = none → v.savedNamed team group answered = false → Refuses s (.answerResume src) src 3) ∧
      (∀ kv t, Runs s src 0x12 1 c → stopped = some kv → kv.2.stops.stop = some t →
        Ends s (.answerAbort src) src (s0.abortOf kv.2 (s0.summary kv.2 t.code t.slot)) []) ∧
      (∀ u g t, Runs s src 0x12 1 c → stopped = none → v.findSaved team group answered = some (u, g) → g.stops.stop = some t →
        Ends s (.answerAbort src) src (s0.abortSaved vdev u g t.code t.slot) []) ∧
      (Runs s src 0x12 1 c → stopped = none → v.findSaved team group answered = none → Refuses s (.answerAbort src) src 3) ∧
      (∀ kv, Runs s src 0x12 2 c → parked = some kv → Ends s (.answerReplay src) src
        ((s0.modGroup kv.1 fun g => if g.isParked then g.replayed (clk kv.1) else g).resumeCopies kv.1) []) ∧
      (Runs s src 0x12 2 c → parked = none → v.savedNamed team group (·.isParked) = true → Ends s (.answerReplay src) src
        (s0.modSaved vdev team group fun g => if g.isParked then g.replayed 0 else g) []) ∧
      (Runs s src 0x12 2 c → parked = none → v.savedNamed team group (·.isParked) = false → Refuses s (.answerReplay src) src 3) ∧
      (∀ kv p, Runs s src 0x12 3 c → parked = some kv → kv.2.isParked = true → kv.2.stops.parked = some p →
        Ends s (.answerDecline src) src (s0.abortOf kv.2 (s0.summary kv.2 .pageFault p.slot)) []) ∧
      (∀ kv, Runs s src 0x12 3 c → parked = some kv → kv.2.isParked = false →
        Ends s (.answerDecline src) src (s0.declineCopies kv.1) []) ∧
      (∀ u g, Runs s src 0x12 3 c → parked = none → v.findSaved team group (·.isParked) = some (u, g) →
        Ends s (.answerDecline src) src (s0.abortSaved vdev u g .pageFault ((g.stops.parked.map (·.slot)).getD 0)) []) ∧
      (Runs s src 0x12 3 c → parked = none → v.findSaved team group (·.isParked) = none → Refuses s (.answerDecline src) src 3)) ∧
    (Runs s src 0x03 0 c →
      let p := c.bytes 0 128
      let n := c.get 128 1
      let q := c.get 129 1
      let owner := (s0.queue q n).owner
      let bad := 64 ≤ n ∨ 4 ≤ q ∨ (c.expert = false ∧ pkHmode p ≠ 0)
      let mine : Prop := ∀ gid, src = .guest gid → (s0.callerOf gid).map (·.vdev) = some owner
      let held := (s0.queue q n).packets.length + ((s0.quad q).waiting.filter fun w => w.1 == n).length
      (bad → Refuses s (.launchCommand src) src 1) ∧
      (¬ bad → ¬ mine ∨ owner = 255 → Refuses s (.launchCommand src) src 1) ∧
      (¬ bad → mine → owner ≠ 255 → (s0.repeated c).isSome = true → Ends s (.launchCommand src) src (s0.noteService c []) []) ∧
      (¬ bad → mine → owner ≠ 255 → s0.repeated c = none → 32 ≤ held → Refuses s (.launchCommand src) src 2) ∧
      (¬ bad → mine → owner ≠ 255 → s0.repeated c = none → held < 32 → Ends s (.launchCommand src) src ((s0.postPacket q n p).noteService c []) [])) ∧
    (Runs s src 0x10 0 c →
      let a := c.get 0 8
      let ok := a % 65536 = 0 ∧ isDeviceMemory a = true ∧ a / 65536 ∉ s0.mod.frames.retired
      let full := 65536 ≤ s0.mod.frames.retired.length
      (¬ ok → Refuses s (.retirePage src) src 1) ∧ (ok → full → Refuses s (.retirePage src) src 2) ∧
      (ok → ¬ full → s0.frameLeased (a / 65536) = true →
        exec (.retirePage src) s = .next (s0.modMod fun m => { m with retiring := m.retiring ++ [(src, a / 65536)] })) ∧
      (ok → ¬ full → s0.frameLeased (a / 65536) = false → Ends s (.retirePage src) src (s0.retireFrame (a / 65536)) []))

/-- R333, R337, R341, R344, R411, R288, R264, R311, R315, R431, R388, R408: TABLES, COMMS and LOGS: what each operation checks, sets and answers.
Points that the manual leaves open follow the model's reading (logs 23 and 29). -/
def Obligations.TableCommands : Prop :=
  ∀ (s : State) (src : CommandSource) (c : Command),
    let s0 := s.taken src
    let vdev := c.get 0 1
    let a := c.get 8 8
    let root := if c.get 16 1 = 1 then some a else none
    (Runs s src 0x13 0 c →
      let ok := a < 2 ^ 56 ∧ a % 4096 = 0 ∧ c.get 16 1 ≤ 1
      (¬ ok → Refuses s (.tablesSetS1root src) src 1) ∧
      (ok → Ends s (.tablesSetS1root src) src (s0.modVdev vdev fun v => { v with tab := { v.tab with s1root := root } }) [])) ∧
    (Runs s src 0x13 1 c →
      let ok := a < 2 ^ 52 ∧ a % 4096 = 0 ∧ c.get 16 1 ≤ 1
      (¬ ok → Refuses s (.tablesSetS2root src) src 1) ∧
      let s1 := s0.tableStores (((Store.find s0.vdevs vdev).map fun v => descPart v.desc).getD 0)
      (ok → Ends s (.tablesSetS2root src) src (s1.modVdev vdev fun v => { v with tab := { v.tab with s2root := root } }) [])) ∧
    (∀ v, Runs s src 0x13 2 c → Store.find s0.vdevs vdev = some v →
      let kind := c.get 2 1
      let ok := kind ≤ 3 ∧ (kind = 3 → a < 2048) ∧ (kind = 1 → a < 2 ^ 56) ∧ (kind = 2 → a < 2 ^ 52)
      (¬ ok → Refuses s (.tablesInvalidate src) src 1) ∧
      let s1 := (if kind = 2 ∧ isGuest src = false then s0.tableStores (descPart v.desc) else s0).invalidated (descPart v.desc) vdev kind a
      (ok → (kind = 3 ∨ s1.unsettled vdev = false) → Ends s (.tablesInvalidate src) src s1 []) ∧
      (ok → kind ≠ 3 → s1.unsettled vdev = true → exec (.tablesInvalidate src) s =
        .next (s1.modMod fun m => { m with drains := m.drains ++ [(src, vdev)] }))) ∧
    (Runs s src 0x13 3 c →
      let n := c.get 2 1
      let len := c.get 16 8
      let w := c.get 24 1
      let ok := n < 16 ∧ 1 ≤ w ∧ w ≤ 3 ∧ a % 65536 = 0 ∧ len % 65536 = 0 ∧ a + len ≤ windowSize w
      (¬ ok → Refuses s (.tablesSetWindowGrant src) src 1) ∧
      (ok → len ≠ 0 → Ends s (.tablesSetWindowGrant src) src
        (s0.modVdev vdev fun v => { v with tab := { v.tab with grants := Store.put v.tab.grants n ⟨w, a, len⟩ } }) []) ∧
      (ok → len = 0 → Ends s (.tablesSetWindowGrant src) src
        (s0.modVdev vdev fun v => { v with tab := { v.tab with grants := Store.erase v.tab.grants n } }) [])) ∧
    (∀ v, Runs s src 0x13 4 c → Store.find s0.vdevs vdev = some v →
      let qs := s0.quadsOf (descPart v.desc)
      let reps := [c.get 16 8, c.get 24 8, c.get 32 8].filter (· != 0)
      let quads := (a :: reps).map fun f => (homeQuad qs f).getD 4
      let ok := c.get 2 1 < 256 ∧ (∀ f ∈ a :: reps, f % 65536 = 0 ∧ isDeviceMemory f = true) ∧ (∀ q ∈ quads, q ∈ qs) ∧
        (distinct quads).length = quads.length
      (¬ ok → Refuses s (.tablesSetReplicaEntry src) src 1) ∧
      let e : ReplicaEntry := { primary := a / 65536, vdev := vdev, replicas := reps.map fun f => ⟨f / 65536, (homeQuad qs f).getD 0, true⟩ }
      (ok → Ends s (.tablesSetReplicaEntry src) src
        (s0.modPart (descPart v.desc) fun p => { p with replicas := Store.put p.replicas (c.get 2 1) e }) [])) ∧
    (Runs s src 0x13 5 c →
      let n := c.get 2 1
      let old := bytesOf 32 (Store.get 0 s0.mod.ident.mr n).toNat
      (n ≠ 5 → n ≠ 6 → Refuses s (.tablesExtendMeasurement src) src 1) ∧
      ((n = 5 ∨ n = 6) → Ends s (.tablesExtendMeasurement src) src
        (s0.modIdent fun i => { i with mr := Store.put i.mr n (Config.sha3 (old ++ c.bytes 32 32)) }) [])) ∧
    (∀ v, Store.find s0.vdevs (c.get 1 1) = some v →
      let part := descPart v.desc
      let fab := (s0.part part).fab
      let comm (e : Nat × Communicator) : Bool := e.2.id == c.get 2 2 && e.2.vdev == c.get 1 1
      let entry : Communicator := { id := c.get 2 2, members := c.members, rank := c.get 4 2, vdev := c.get 1 1 }
      let e := c.get 2 2
      let group : ReductionGroup := { endpoint := e, vdev := c.get 1 1, elem := c.get 8 1, red := c.get 9 1, rank := c.get 4 2, members := c.members }
      let groupOk := c.commsBad = false ∧ 0x780 ≤ e ∧ e ≤ 0x7FF ∧ c.get 8 1 ≤ 5 ∧ c.get 9 1 ≤ 2
      let place := (fab.comms.find? comm).map (·.1) <|> freeIndex fab.comms 64
      (Runs s src 0x14 0 c → c.commsBad = true → Refuses s (.commsSetCommunicator src) src 1) ∧
      (Runs s src 0x14 0 c → c.commsBad = false → place = none → Refuses s (.commsSetCommunicator src) src 2) ∧
      (∀ n, Runs s src 0x14 0 c → c.commsBad = false → place = some n →
        Ends s (.commsSetCommunicator src) src (s0.modFab part fun f => { f with comms := Store.put f.comms n entry }) []) ∧
      (Runs s src 0x14 1 c → fab.comms.find? comm = none → Refuses s (.commsRemoveCommunicator src) src 1) ∧
      (∀ k, Runs s src 0x14 1 c → fab.comms.find? comm = some k →
        Ends s (.commsRemoveCommunicator src) src (s0.modFab part fun f => { f with comms := Store.erase f.comms k.1 }) []) ∧
      (Runs s src 0x14 2 c → ¬ groupOk → Refuses s (.commsSetReductionGroup src) src 1) ∧
      (Runs s src 0x14 2 c → groupOk → Ends s (.commsSetReductionGroup src) src
        (s0.modFab part fun f => { f with groups := Store.put f.groups (e * 256 + c.get 1 1) group }) []) ∧
      (Runs s src 0x14 3 c → Store.has fab.groups (e * 256 + c.get 1 1) = false → Refuses s (.commsRemoveReductionGroup src) src 1) ∧
      (Runs s src 0x14 3 c → Store.has fab.groups (e * 256 + c.get 1 1) = true → Ends s (.commsRemoveReductionGroup src) src
        (s0.modFab part fun f => { f with groups := Store.erase f.groups (e * 256 + c.get 1 1) }) []) ∧
      (∀ r, Runs s src 0x16 0 c → s0.repeated c = some r → Ends s (.logsFaultQueueState src) src (s0.noteService c r) r) ∧
      (Runs s src 0x16 0 c → s0.repeated c = none →
        let r := bytesOf 4 v.faults.head.toNat ++ bytesOf 4 v.faults.tail.toNat ++ bytesOf 2 v.faults.overflow ++ bytesOf 6 0
        Ends s (.logsFaultQueueState src) src
          ((s0.modVdev (c.get 1 1) fun v => { v with faults := { v.faults with overflow := 0 } }).noteService c r) r) ∧
      (Runs s src 0x16 1 c →
        let t : Word := BitVec.ofNat 32 (c.get 8 4)
        ((t - v.faults.tail).toNat ≤ (v.faults.head - v.faults.tail).toNat → Ends s (.logsAdvanceTail src) src
          (s0.modVdev (c.get 1 1) fun v => { v with faults := { v.faults with tail := t } }) []) ∧
        ((v.faults.head - v.faults.tail).toNat < (t - v.faults.tail).toNat → Refuses s (.logsAdvanceTail src) src 1))) ∧
    (Runs s src 0x16 2 c →
      let part := s0.partOfQuad (c.get 2 1)
      let log := (s0.part part).log
      (4 ≤ c.get 2 1 → Refuses s (.logsReadEventLog src) src 1) ∧
      (c.get 2 1 < 4 → Ends s (.logsReadEventLog src) src
        (s0.modPart part fun p => { p with log := { records := p.log.records.drop 62, dropped := 0, fresh := false } })
        (bytesOf 4 (min 62 log.records.length) ++ bytesOf 4 log.dropped ++ (log.records.take 62).flatMap (·.bytes)))) ∧
    (Runs s src 0x16 3 c →
      let ok := c.get 2 1 < 4 ∧ (a = 0 ∨ s0.hostRange a 4 = true)
      (¬ ok → Refuses s (.logsSetEventInterrupt src) src 1) ∧
      (ok → Ends s (.logsSetEventInterrupt src) src
        (s0.modQuad (c.get 2 1) fun z => { z with irq := { addr := a, data := BitVec.ofNat 32 (c.get 16 4) } }) [])) ∧
    (Runs s src 0x16 4 c →
      let sel := c.get 8 2
      let ok := c.get 2 1 < 4 ∧ (sel = 0xFFFF ∨ counterAssigned sel = true)
      (¬ ok → Refuses s (.logsClearCounters src) src 1) ∧
      (ok → Ends s (.logsClearCounters src) src (s0.modQuad (c.get 2 1) fun z =>
        { z with counters := z.counters.filter fun k => !(decide (k.1 < 2048) && (sel == 0xFFFF || k.1 == sel)) }) []))

/-- R409, R413, R414: DEBUG_ATTACH is refused on a protected device, and its operations but attach without a debugger: attach, stop, step, sampling and
triggers. R331, R332: DUMP by the host of a halted device, and by a guest that opens what it sealed. R412: ATTEST answers the report.
The body of a dump and what the model remembers of it are log 12 (DESIGN CHOICE), the digests that MR7 takes and the reading of a vendor token log 13
(PRESUMED). Points that the manual leaves open follow the model's reading (log 30). -/
def Obligations.DebugCommands : Prop :=
  ∀ (s : State) (src : CommandSource) (c : Command) (v : Vdev),
    let s0 := s.taken src
    let vdev := c.get 0 1
    let answer (i : Instr) (t : State) : Prop := Ends s i src t (bytesOf 4 (t.stoppedNow vdev))
    let bad := 2 < c.get 2 1 ∨ 1 < c.get 3 1
    (∀ i sub, Store.find s0.vdevs vdev = some v → commandNames i = some (src, 0x0E, sub) → Runs s src 0x0E sub c →
      (v.ctx.prot = true → Refuses s i src 3) ∧
      (v.ctx.prot = false → bad → Refuses s i src 1) ∧
      (v.ctx.prot = false → ¬ bad → v.debugger = none → sub ≠ 0 → Refuses s i src 3)) ∧
    (Store.find s0.vdevs vdev = some v → v.ctx.prot = false → ¬ bad →
      (Runs s src 0x0E 0 c →
        (v.debugger.isSome = true → Refuses s (.debugAttachAttach src) src 3) ∧
        (v.debugger = none → c.get 3 1 = 0 → answer (.debugAttachAttach src)
          ((s0.modVdev vdev fun v => { v with debugger := some { policy := c.get 2 1, vendor := false } }).extendMr 7 (digestOf [0, 0]))) ∧
        (v.debugger = none → c.get 3 1 = 1 →
          if s0.protectedResident = true ∨ s0.tokenGood c = false then Refuses s (.debugAttachAttach src) src 3
          else answer (.debugAttachAttach src)
            (((if s0.mod.ident.security = .provisioned then s0.eraseKeys else s0).modVdev vdev fun v =>
              { v with debugger := some { policy := c.get 2 1, vendor := true } }).extendMr 7 (digestOf [0, 1])))) ∧
      (∀ d, v.debugger = some d →
        let team := (s0.teamsOf vdev).find? fun t => t.2.id.number == c.get 4 4
        let named := s0.named vdev (c.get 4 4) (c.get 8 1)
        let may (g : Group) : Bool := match g.stops.stop with
          | some _ => g.answerable v.ctx.trapsvc
          | none => v.ctx.halted && v.ctx.haltFault.isNone && !g.flow.exited
        let gone : State := (((s0.groupsOfVdev vdev).map (·.1)).foldl (fun s k => s.modGroup k fun g => g.released (s.core (coreOf k)).clk) s0).modVdev
          vdev fun v => { v with
            debugger := none
            saved := { v.saved with teams := v.saved.teams.map fun t => { t with groups := t.groups.map fun g => g.released 0 } }
            ctx := if v.ctx.haltFault.isNone then { v.ctx with halted := false } else v.ctx }
        (Runs s src 0x0E 1 c → answer (.debugAttachDetach src)
          (({ gone with parts := Store.mapVals gone.parts fun _ p =>
              if (p.sampling.map (·.vdev)) = some vdev then { p with sampling := none } else p } : State).extendMr 7
            (digestOf [1, if d.vendor then 1 else 0]))) ∧
        let absent := (c.get 2 1 = 0 ∧ named = []) ∨ (c.get 2 1 = 1 ∧ team = none)
        (Runs s src 0x0E 2 c → absent → Refuses s (.debugAttachStop src) src 3) ∧
        (Runs s src 0x0E 2 c → ¬ absent →
          answer (.debugAttachStop src) (s0.stopUnder (c.get 2 1) vdev ((team.map (·.1)).getD 0) (named.head?.map (·.1)))) ∧
        (Runs s src 0x0E 3 c → (named.find? fun kv => may kv.2) = none → Refuses s (.debugAttachStep src) src 3) ∧
        (∀ kv, Runs s src 0x0E 3 c → (named.find? fun kv => may kv.2) = some kv →
          answer (.debugAttachStep src) (s0.modGroup kv.1 fun g =>
            let h := g.resumed (s0.core (coreOf kv.1)).clk
            { h with stops := { h.stops with stepOne := true } })) ∧
        (Runs s src 0x0E 4 c →
          let k := c.get 28 1
          let ok := 4 ≤ k ∧ k ≤ 24 ∧ s0.hostRange (c.get 16 8) (max 1 (c.get 24 4)) = true ∧ (c.get 36 1 < 32 ∨ c.get 36 1 = 0xFF) ∧
            c.get 40 8 < 2 ^ 56 ∧ c.get 48 8 < 2 ^ 56
          (¬ ok → Refuses s (.debugAttachSetSampling src) src 1) ∧
          let sm : Sampling := { vdev := vdev, buffer := c.get 16 8, length := c.get 24 4, rate := k, team := c.get 32 4, group := c.get 36 1,
                                 low := c.get 40 8, high := c.get 48 8 }
          (ok → answer (.debugAttachSetSampling src) (s0.modPart (descPart v.desc) fun p => { p with sampling := some sm }))) ∧
        (Runs s src 0x0E 5 c →
          let stages := (List.range 4).filterMap c.stage
          let good (t : Trigger) : Prop := t.kind ≤ 2 ∧ (t.kind = 0 → t.value < 2 ^ 56) ∧ (t.kind = 1 → 1 ≤ t.value ∧ t.value ≤ 0x1B) ∧
            (t.kind = 2 → isCounter t.selector = true)
          ((∃ t ∈ stages, ¬ good t) → Refuses s (.debugAttachSetTriggers src) src 1) ∧
          ((∀ t ∈ stages, good t) → answer (.debugAttachSetTriggers src) (s0.modVdev vdev fun v =>
            { v with debugger := some { d with triggers := stages, armed := 0, hit := none } }))))) ∧
    (isGuest src = false → Runs s src 0x0F 0 c → Store.find s0.vdevs vdev = some v →
      let len := c.get 16 8
      ((v.lost = true ∨ v.ctx.halted = false) → Refuses s (.dump src) src 3) ∧
      (v.lost = false → v.ctx.halted = true → len < 64 → Refuses s (.dump src) src 1) ∧
      (v.lost = false → v.ctx.halted = true → 64 ≤ len → ∃ t n at', s0.dumpTo vdev (c.get 8 8) len v.ctx = .done t (bytesOf 8 n ++ bytesOf 8 at') ∧
        Ends s (.dump src) src t (bytesOf 8 n ++ bytesOf 8 at') ∧ (n = 0 ∨ 64 ≤ n) ∧ n ≤ len)) ∧
    (∀ gid id b index n, src = .guest gid → Runs s src 0x0F 0 c → s0.callerOf gid = some id → Store.find s0.vdevs id.vdev = some v →
      let len := c.get 16 8
      let counter := field b 68 8 - 2 ^ 63
      let clear := (List.range n).map (Config.imageByte index)
      let sealed1 := sealed v.ctx (field b 64 12) (dumpAad b) clear
      let good := 2 ^ 63 ≤ field b 68 8 ∧ field b 16 8 = 96 + n ∧ (b.drop 64).take 32 = dumpSeal v.ctx counter sealed1.2 ∧ (b.drop 96).take n = sealed1.1
      let asked := s0.guestRead id.part id.vdev (c.get 8 8) (min len (2 ^ 33))
      ((v.ctx.prot = false ∨ v.lost = true) → Refuses s (.dumpOpen src) src 3) ∧
      (v.ctx.prot = true → v.lost = false → len < 96 → Refuses s (.dumpOpen src) src 1) ∧
      (∀ s1 f, v.ctx.prot = true → v.lost = false → 96 ≤ len → asked = (s1, .error f) → Refuses s (.dumpOpen src) src 1) ∧
      (∀ s1, v.ctx.prot = true → v.lost = false → 96 ≤ len → asked = (s1, .ok b) →
        let w := s1.commandWrite src (c.get 24 8) (clear.take (c.get 32 8))
        (Store.find v.ctx.sealedDumps counter = none → exec (.dumpOpen src) s = .next (s0.endCommand src 1 3 [])) ∧
        (Store.find v.ctx.sealedDumps counter = some (index, n) →
          (¬ good → exec (.dumpOpen src) s = .next (s0.endCommand src 1 3 [])) ∧
          (good → w.2.2 = true → Ends s (.dumpOpen src) src w.1 (bytesOf 8 w.2.1)) ∧
          (good → w.2.2 = false → Refuses s (.dumpOpen src) src 1)))) ∧
    (Runs s src 0x0B 0 c →
      (c.expert = false → Ends s (.attest src) src s0 (s0.report (c.bytes 0 32) false)) ∧
      (c.expert = true →
        let bank := c.get 32 1 == 1
        let r := s0.report (c.bytes 0 32) bank
        let bad := 1 < c.get 32 1 ∨ c.get 48 8 < (if bank then 34980 else 2980)
        (bad → Refuses s (.attest src) src 1) ∧
        (¬ bad → (s0.commandWrite src (c.get 40 8) r).2.2 = true →
          Ends s (.attest src) src (s0.commandWrite src (c.get 40 8) r).1 (bytesOf 8 (s0.commandWrite src (c.get 40 8) r).2.1)) ∧
        (¬ bad → (s0.commandWrite src (c.get 40 8) r).2.2 = false → Refuses s (.attest src) src 1)))

/-- R340, R353 to R361: a page of a running checkpoint is taken, with its bit cleared, and copied; an epoch closes when everything is streamed and fits;
a pulled frame lands whole, and a lost source is marked; the switch moves a context to this module or to another, or ends a refused migration with its
reason; a notice re-points the entries of its partition; an acknowledgement and the expiry remove a forwarding entry; a source sends its frames, and
frees the device after the last. The image beside its bytes, the trailer and what is streamed next are log 12 (DESIGN CHOICE), and what another module
sends or decides is log 19 (DESIGN CHOICE). Points that the manual leaves open follow the model's reading (log 31). -/
def Obligations.MigrationEvents : Prop :=
  ∀ (s : State) (vdev : Nat) (v : Vdev), Store.find s.vdevs vdev = some v →
    let part := descPart v.desc
    (∀ page, s.streams vdev v = true → page ∈ s.dirtyPages vdev →
      let later := s.mod.tick + 4112 * 84000 / max 1 v.ckpt.rate
      let wait (t : State) : State := t.modVdev vdev fun v => { v with ckpt := { v.ckpt with nextPage := later } }
      let s1 := ((s.clearDirty vdev page).dropTranslations fun t =>
        t.vdev == vdev && decide (t.gpa ≤ page) && decide (page < t.gpa + t.span) && t.w).settleVdev vdev
      let home := s1.guestPage part vdev (page * 4096)
      (s1.unsettled vdev = true → exec (.checkpointPageStream vdev page) s = .next (wait s)) ∧
      (∀ s2 f, s1.unsettled vdev = false → home = (s2, .error f) → exec (.checkpointPageStream vdev page) s = .next (wait s)) ∧
      (∀ s2 s3 a site, s1.unsettled vdev = false → home = (s2, .ok a) → s2.servedBytes part vdev a 4096 = (s3, .error (.lost site)) →
        exec (.checkpointPageStream vdev page) s = .next (wait (s.detect site))) ∧
      (∀ s2 s3 a bytes, s1.unsettled vdev = false → home = (s2, .ok a) → s2.servedBytes part vdev a 4096 = (s3, .ok bytes) →
        let data := bytesOf 4 v.ckpt.epoch ++ bytesOf 4 0 ++ bytesOf 8 (page * 4096) ++ bytes
        let at' := v.ckpt.region + v.ckpt.position
        (s3.streamWrite part vdev at' data = none → exec (.checkpointPageStream vdev page) s = .next (wait s)) ∧
        (∀ s4, s3.streamWrite part vdev at' data = some s4 → exec (.checkpointPageStream vdev page) s = .next
          (s4.modVdev vdev fun v => { v with ckpt := { v.ckpt with
            position := v.ckpt.position + 4112
            pages := v.ckpt.pages + 1
            records := v.ckpt.records ++ [⟨v.ckpt.epoch, page * 4096, v.ckpt.position⟩]
            nextPage := later } })))) ∧
    (∀ i, v.saved.image = some i → v.ckpt.closing = true → v.saved.phase = .saved → v.lost = false → s.dirtyPages vdev = [] →
      v.ckpt.position + i.length + 64 ≤ v.ckpt.length →
      let put := s.streamWrite part vdev (v.ckpt.region + v.ckpt.position) (imageBytes v.ctx i ++ epochTrailer v.ckpt i)
      (∀ s1, put = some s1 → exec (.epochClose vdev) s = .next (s1.modVdev vdev fun v =>
        { v with
          ckpt := { v.ckpt with epoch := v.ckpt.epoch + 1, position := v.ckpt.position + i.length + 64, pages := 0, closing := false, fullFrom := none }
          saved := { v.saved with phase := .running } })) ∧
      (put = none → exec (.epochClose vdev) s = .next s)) ∧
    (∀ frame data, frame ∈ v.mig.unpulled → v.mig.sourceLost = false →
      let left := v.mig.unpulled.filter (· != frame)
      (s.endpointPart v.mig.peer = none → data.length = 65536 →
        ∃ t, exec (.framePullComplete vdev frame data) s = .next t ∧ t.mem = memWrites s.mem (frame * 65536) data ∧
          t.regsOf = s.regsOf ∧ (Store.find t.vdevs vdev).map (·.mig) =
            some (if left = [] then {} else { v.mig with unpulled := left, touched := v.mig.touched.filter (· != frame) })) ∧
      (∀ q src w s1 bytes, s.endpointPart v.mig.peer = some q → s.sourceOf v = some (src, w) →
        s.pullPages v src q frame (List.range 16) = (s1, some bytes) →
        exec (.framePullComplete vdev frame data) s = .next ((s1.landFrame vdev frame v bytes).sourceSent vdev src frame w))) ∧
    (v.mig.incoming = true → v.mig.phase = 4 → v.mig.unpulled ≠ [] → ∃ t, exec (.migrationSourceLost vdev) s = .next t ∧
      t.mem = s.mem ∧ t.regsOf = s.regsOf ∧ (Store.find t.vdevs vdev).map (·.mig) = some { v.mig with sourceLost := true }) ∧
    (∀ n i, v.mig.incoming = false → v.mig.phase = 2 → freeIndex (s.part part).fab.forwarding 16 = some n → v.saved.image = some i →
      let refused (t : State) (r : Nat) : State := t.migrationRefused part vdev r v.mig.mailbox
      (∀ ok r s1 s2, s.endpointPart v.mig.peer = none → s.choose = (ok, s1) → s1.anyNat 6 = (r, s2) → exec (.migrationSwitch vdev) s = .next
        (if v.lost = true then refused s2 3 else if ok = true then s2.switchSource part vdev n v.mig.peer v.mig.mailbox else refused s2 (r + 1))) ∧
      (∀ q, s.endpointPart v.mig.peer = some q → s.incoming q v.ctx.ctxid (s.part part).regs.endpoint = none →
        exec (.migrationSwitch vdev) s = .next (refused s 4)) ∧
      (∀ q w dst, s.endpointPart v.mig.peer = some q → s.incoming q v.ctx.ctxid (s.part part).regs.endpoint = some (w, dst) →
        let shaped := i.shape = s.shapeOf dst.desc ∧ s.shapeOffered q dst.desc = true
        (dst.ctx.prot ≠ v.ctx.prot → exec (.migrationSwitch vdev) s = .next (refused s 6)) ∧
        (dst.ctx.prot = v.ctx.prot → v.lost = true → exec (.migrationSwitch vdev) s = .next (refused s 3)) ∧
        (dst.ctx.prot = v.ctx.prot → v.lost = false → ¬ shaped → exec (.migrationSwitch vdev) s = .next (refused s 4)) ∧
        (dst.ctx.prot = v.ctx.prot → v.lost = false → shaped → s.launchRoom q w i = false → exec (.migrationSwitch vdev) s = .next s) ∧
        (dst.ctx.prot = v.ctx.prot → v.lost = false → shaped → s.launchRoom q w i = true → exec (.migrationSwitch vdev) s = .next
          ((s.arriveVdev w v.ctx (some (i.remap (s.queuesOf part vdev) (s.queuesOf q w)))).switchSource part vdev n v.mig.peer v.mig.mailbox)))) ∧
    (v.mig.incoming = true → v.mig.phase = 0 → s.endpointPart v.mig.peer = none →
      let x := s.foreignContext v
      let y := x.2.foreignImage part vdev
      let fits := y.1.shape = s.shapeOf v.desc ∧ y.2.launchRoom part vdev y.1 = true
      (s.shapeOffered part v.desc = true → fits → exec (.migrationSwitch vdev) s = .next (y.2.arriveVdev vdev x.1 (some y.1))) ∧
      (s.shapeOffered part v.desc = true → ¬ fits → exec (.migrationSwitch vdev) s = .next y.2) ∧
      (s.shapeOffered part v.desc = false → exec (.migrationSwitch vdev) s = .next s)) ∧
    (∀ old new handle,
      let s1 := s.modFab part fun f => { f with
        remote := f.remote.filter fun r => r.endpoint != old
        moved := Store.put f.moved old new
        comms := Store.mapVals f.comms fun _ c => { c with members := c.members.map fun e => if e = old then new else e } }
      (s1.endpointPart old = none → exec (.migrationNotice part old new handle) s = .next s1) ∧
      (∀ q, s1.endpointPart old = some q →
        exec (.migrationNotice part old new handle) s = .next (s1.push (.migrationAcknowledgement q handle part)))) ∧
    (∀ handle f, Store.find (s.part part).fab.forwarding handle = some f →
      let gone := s.modFab part fun x => { x with forwarding := Store.erase x.forwarding handle }
      (∀ peer, f.peers &&& ~~~(f.acks ||| BitVec.ofNat 64 (2 ^ peer)) = 0 → exec (.migrationAcknowledgement part handle peer) s = .next gone) ∧
      (∀ peer, f.peers &&& ~~~(f.acks ||| BitVec.ofNat 64 (2 ^ peer)) ≠ 0 → exec (.migrationAcknowledgement part handle peer) s = .next
        (s.modFab part fun x => { x with forwarding := Store.put x.forwarding handle { f with acks := f.acks ||| BitVec.ofNat 64 (2 ^ peer) } })) ∧
      (f.expiry ≤ s.mod.tick → exec (.forwardingExpiry part handle) s = .next gone) ∧
      (s.mod.tick < f.expiry → exec (.forwardingExpiry part handle) s = .next s)) ∧
    (∀ handle frame, ∃ t, exec (.forwardedAccess part handle frame) s = .next t ∧
      t.mem = s.mem ∧ t.groups = s.groups ∧ t.teams = s.teams ∧ t.vdevs = s.vdevs ∧ t.wear.records = s.wear.records) ∧
    (∀ frame, v.mig.incoming = false → v.mig.phase = 4 → s.ownerOf (frame * 65536) = vdev → s.endpointPart v.mig.peer = none →
      let sent := if v.mig.sent.contains frame then v.mig.sent else v.mig.sent ++ [frame]
      let s1 := ((s.takeFrame vdev frame v).edgeFlits part vdev).modVdev vdev fun v => { v with mig := { v.mig with sent := sent } }
      ((∀ f ∈ s1.framesOf vdev, f ∈ sent) → exec (.pullRequest part vdev frame) s = .next (s1.removeVdev vdev none)) ∧
      ((∃ f ∈ s1.framesOf vdev, f ∉ sent) → exec (.pullRequest part vdev frame) s = .next s1))

/-- R5, R345, R362, R385, R398, R402 to R405, R409, R413, R415: what comes from outside. Accesses to device memory are served where the frame is exported, a choice of firmware made
once; links of the fabric and of CXL go down and come back; writes in the host window reach the launch ports, the mailboxes and the GO words;
a quadrant leaves its rest; a reset or a power loss leaves what is Preserved, and boot charges one interval; a sample is written while its
buffer has room; a trigger stage arms the next one or stops what the policy names. The responder answers each request of R412, and nothing else of
the module changes; the order of the requests that it accepts is the model's (PRESUMED, log 13), and so
are what memory reads as after a reset (DESIGN CHOICE, log 3) and the points that the manual leaves open about resets (DEDUCED, log 33). Which frames
are exported, and an access that has to wait, are log 19 (DESIGN CHOICE), the core and the RESUME of a sample and the counter trigger log 30 (DEDUCED). -/
def Obligations.OutsideEvents : Prop :=
  ∀ (s : State),
    (∀ access q yes s1, homeQuad [] (outsideAddr access) = some q →
      let a := outsideAddr access
      let granted := s.frameHere (s.partOfQuad q) a = true ∧ s.hostGranted a = true
      (granted → s.exported (s.partOfQuad q) (frameOf a) 0 = (yes, s1) →
        exec (.hostMemoryAccess access) s = .next (if yes then s1.outsideAccess (s.partOfQuad q) access else s1)) ∧
      (¬ granted → exec (.hostMemoryAccess access) s = .next s)) ∧
    (∀ part access yes s1, let a := fabricHome (outsideAddr access)
      outsideAddr access < 2 ^ 40 → ((s.edgeFlits part 0).frameHere part a = true ∨ frameOf a ∈ ((s.edgeFlits part 0).part part).fab.departed) → (s.edgeFlits part 0).exported part (frameOf a) 256 = (yes, s1) →
      exec (.fabricRequest part access) s = .next (if yes then s1.outsideAccess part (outsideAt access a) else s1)) ∧
    (∀ part endpoints, exec (.fabricLinkDown part endpoints) s = .next (s.modFab part fun f => { f with
      remote := f.remote.filter fun r => !endpoints.contains r.endpoint
      unreachable := distinct (f.unreachable ++ endpoints) })) ∧
    (∀ part endpoint, exec (.fabricRouteRestored part endpoint) s = .next
      (s.modFab part fun f => { f with unreachable := f.unreachable.filter (· != endpoint) })) ∧
    (∀ port, port < 2 → exec (.cxlLinkDown port) s = .next
      (s.modMod fun m => { m with cxlDown := if port ∈ m.cxlDown then m.cxlDown else m.cxlDown ++ [port] })) ∧
    (∀ q n data, q < 4 → n < 64 → exec (.hostRegisterWrite (q * 0x1000000 + n * 128) data) s = .next (s.postPacket q n data)) ∧
    (∀ q n k data, q < 4 → n < 64 → 0 < k → k < 128 →
      exec (.hostRegisterWrite (q * 0x1000000 + n * 128 + k) data) s = .next (s.postPacket q n (data.take 127))) ∧
    (∀ q o data, q < 4 → o < 0x1000 → exec (.hostRegisterWrite (q * 0x1000000 + 0x4000 + o) data) s = .next
      (s.modQuad q fun z => { z with mailbox := z.mailbox.hostPut o (data.take (0x1000 - o)) })) ∧
    (∀ q, q < 4 → (s.quad q).mailbox.go = false → exec (.hostRegisterWrite (q * 0x1000000 + 0x5000) [1, 0, 0, 0]) s = .next
      ((s.modQuad q fun z => { z with mailbox := { z.mailbox with go := true } }).giveCommand (.mailbox q))) ∧
    (∀ q, s.exitDone q = true →
      let s1 := (s.quadUnits q).foldl (fun s u => s.endQuadRest u) s
      let s2 := s1.modQuad q fun z => { z with power := .active, powerFrom := s.mod.tick, waiting := [] }
      let s3 := (s.quad q).waiting.foldl (fun s (p : Nat × List Byte) => s.portWrite q p.1 p.2) s2
      exec (.powerExitComplete q) s = .next (s3.modDisp (s3.partOfQuad q) fun d => { d with decide := true })) ∧
    (let kept (t : State) : Prop := t.groups = [] ∧ t.teams = [] ∧ t.vdevs = [] ∧ t.sched.agenda = [.boot] ∧ t.mod.dies = s.mod.dies ∧
        t.mod.frames.retired = s.mod.frames.retired ∧ t.mod.ident.security = s.mod.ident.security ∧ t.mod.ident.mr = [] ∧
        t.wear.lifectl = s.wear.nextLifectl ∧ t.wear.lbudcap = s.wear.lbudcap ∧ t.wear.fv = s.wear.nextFv ∧ t.wear.ft = s.wear.nextFt ∧
        ∀ a, isDeviceMemory a = true → memRead t.mem a = 0;
      (∃ t, exec .moduleReset s = .next t ∧ kept t ∧ t.wear.bankA = s.wear.bankA ∧ t.wear.bankB = s.wear.bankB ∧ t.mod.powered = true) ∧
      (∃ t, exec .powerLoss s = .next t ∧ kept t ∧ t.mod.powered = false ∧ t.wear.current = s.wear.current)) ∧
    (∃ t, exec .boot s = .next t ∧ t.mod.powered = true ∧ t.mem = s.mem ∧ t.groups = s.groups ∧ t.vdevs = s.vdevs ∧
      t.mod.dies = s.bootMap.mod.dies ∧ t.wear.intervals = s.wear.current.intervals ∧ ∀ u, u < 500 →
        let r := Store.get {} s.wear.current.records u
        (t.wearOf u).h = r.h + 729 ∧ (t.wearOf u).e = r.e + 729 ∧ (t.wearOf u).lastW = 0 ∧ (t.wearOf u).rest = none ∧
        (r.rest = none → (t.wearOf u).b = r.b + 2916 ∧ (t.wearOf u).p = r.p + 2916)) ∧
    (∀ gid g (c : TeamId) sm, Store.find s.groups gid = some g → s.callerOf gid = some c → (s.part c.part).sampling = some sm →
      let keep (x : Sampling) (t : State) : State := t.modPart c.part fun p => { p with sampling := some { x with sampled := none } }
      let at' := sm.buffer + sm.written
      (sm.sampled = none → exec (.sample gid) s = .next s) ∧
      (∀ r, sm.sampled = some (gid, r) →
        ((sm.length < sm.written + 64 ∨ s.hostRange at' 64 = false) → exec (.sample gid) s = .next (keep sm s)) ∧
        (sm.written + 64 ≤ sm.length → s.hostRange at' 64 = true →
          let shown : FaultRecord := { r with resume := (g.flow.slot r.slot).pc }
          exec (.sample gid) s = .next (keep { sm with written := sm.written + 64 }
            (s.coherentWrite (s.quadsOf c.part) at' (bytesOf 4 (coreOf gid) ++ shown.bytes.drop 4)))))) ∧
    (∀ vdev v d, Store.find s.vdevs vdev = some v → v.debugger = some d → (d.hit.isSome = true ∨ s.counterHit vdev v = true) →
      let s1 := s.modVdev vdev fun v => { v with debugger := some { d with armed := d.armed + 1, hit := none } }
      (d.armed + 1 < d.triggers.length → exec (.triggerStage vdev) s = .next s1) ∧
      (∀ gid, d.triggers.length ≤ d.armed + 1 → d.hit = some (some gid) → Store.find s.groups gid = none →
        exec (.triggerStage vdev) s = .next (s1.modCtx vdev fun c => { c with halted := true })) ∧
      (∀ gid g, d.triggers.length ≤ d.armed + 1 → d.hit = some (some gid) → Store.find s.groups gid = some g →
        exec (.triggerStage vdev) s = .next (s1.stopUnder d.policy vdev g.tid (some gid))) ∧
      (d.triggers.length ≤ d.armed + 1 → (d.hit = none ∨ d.hit = some none) → exec (.triggerStage vdev) s = .next (s1.modCtx vdev fun c => { c with halted := true }))) ∧
    (∀ (request : SpdmRequest), request.requester < 2050 →
      let mrs := (List.range 8).flatMap fun k => bytesOf 32 (Store.get 0 s.mod.ident.mr k).toNat
      let own := bytesOf 32 Config.chainDigest.toNat ++ Config.certificate
      let link := Store.get {} s.mod.ident.spdm request.requester
      let answers (i : Instr) (code : Nat) (allowed : Prop) (next : SpdmLink) : Prop :=
        (allowed → exec i s = .next (s.modIdent fun d =>
          { d with spdm := Store.put d.spdm request.requester next, response := Config.spdmResponse code (mrs ++ own ++ request.bytes) })) ∧
        (¬ allowed → exec i s = .next (s.modIdent fun d => { d with response := Config.spdmResponse 0 request.bytes }))
      answers (.getVersion request) 1 True { phase := .versioned } ∧
      answers (.getCapabilities request) 2 (link.phase = .versioned) { link with phase := .capable } ∧
      answers (.negotiateAlgorithms request) 3 (link.phase = .capable ∧ ∀ k < 4, Config.spdmOffers k request.bytes = true)
        { phase := .negotiated, algorithms := [.mlDsa44, .sha3x256, .secp384r1, .aes256Gcm] } ∧
      (∀ k ∈ [(Instr.getDigests request, 4), (.getCertificate request, 5), (.challenge request, 6), (.getMeasurements request, 7)],
        answers k.1 k.2 (link.phase = .negotiated ∨ link.phase = .keyed ∨ link.phase = .session) link) ∧
      answers (.keyExchange request) 8 (link.phase = .negotiated) { link with phase := .keyed } ∧
      answers (.finish request) 9 (link.phase = .keyed) { link with phase := .session } ∧
      answers (.endSession request) 10 (link.phase = .session) { link with phase := .negotiated })

/-! ### Faults, encoding, steps and invariants -/

/-- R78, R312 to R318, R323, R401: an instruction that a check stops takes that check's fault and has no effect; a privileged instruction outside a firmware entry
takes PRIVILEGED, and one that a recipe may not hold ILLEGAL_OPCODE. A replayable fault parks the group, a serviced one stops it with the
resume PC of its record, and a fatal one stops it and marks its launch with its first fault (R42). When the period of 2.4 GHz of that fault is over, the
device halts under DUMPHOLD, or else the launch aborts: that it is then, before anything else of the instant, is log 1 (DESIGN CHOICE).
Points that the manual leaves open follow the model's reading (logs 25 and 34). -/
def Obligations.FaultsTaken : Prop :=
  (∀ (s : State) (i : Instr) (x : Issue) (g : Group), i.isEvent = false → s.issuing i = some (x, g) →
    (∀ c, precheck s x g i = some c → Traps s i x g (x.trap c)) ∧
    (g.flow.recipe.isSome = true → recipeAllows i = false → Traps s i x g (x.trap .illegalOpcode)) ∧
    (g.flow.recipe = none → isPrivileged i = true → g.flow.fw = none → Traps s i x g (x.trap .privileged))) ∧
  (∀ (s : State) (gid : Nat) (t : Trap) (g : Group) (m : Team) (v : Vdev), Store.find s.groups gid = some g →
    Store.find s.teams g.tid = some m → Store.find s.vdevs m.id.vdev = some v → t.spread = false →
    let kind := kindOf v.ctx.trapsvc t.code
    let after := s.takeFault gid t
    (kind = .replayable → ∃ h, Store.find after.groups gid = some h ∧ h.regs = g.regs ∧ h.flow = g.flow ∧
      h.stops.parked = some (match g.stops.parked with
        | some p => { p with unfinished := if p.answered then t.aux1 else p.unfinished ||| t.aux1, answered := false, hyper := p.hyper || t.hyper }
        | none => { unfinished := t.aux1, serial := t.serial, slot := t.slot, hyper := t.hyper })) ∧
    ((kind = .serviced ∨ kind = .debugger ∨ kind = .fatal) → ∃ h idx, Store.find after.groups gid = some h ∧ h.regs = g.regs ∧ h.flow = g.flow ∧
      h.stops.stop = some ⟨t.code, idx, t.resume, t.slot⟩) ∧
    (∀ e, kind = .fatal → Store.find (s.part m.id.part).disp.launches m.id.launch = some e → e.phase ≠ .aborted →
      let f : FatalSummary := ⟨t.code.code, m.id.number, g.number, t.pc, t.mask, s.now, s.mod.tick / 35⟩
      ∃ e', Store.find (after.part m.id.part).disp.launches m.id.launch = some e' ∧ e'.phase = .faulted ∧ e'.fatal = some (f.firstOf e.fatal))) ∧
  (∀ (s t : State), s.sched.agenda = [] → s.abortsNow = some t → step s = .next t ∧
    ∃ p ∈ s.parts, ∃ e ∈ p.2.disp.launches, ∃ f, e.2.phase = .faulted ∧ e.2.fatal = some f ∧ f.period < s.mod.tick / 35 ∧
      let held := ((Store.find s.vdevs e.2.vdev).map (·.ctx.dumphold)).getD false
      (held = false → t = s.abortLaunch p.1 e.1 f) ∧
      (held = true → t = s.modCtx e.2.vdev fun c =>
        { c with halted := true, haltFault := (s.faultedLaunches p.1 e.2.vdev).foldl (fun acc x => some (x.2.firstOf acc)) none })) ∧
  (∀ (s : State) (part launch : Nat) (f : FatalSummary) (e : LaunchEntry), Store.find (s.part part).disp.launches launch = some e →
    e.phase ≠ .aborted → ∃ e', Store.find ((s.abortLaunch part launch f).part part).disp.launches launch = some e' ∧ e'.phase = .aborted)

/-- R68 to R77: the decoder reads a well-formed instruction back from the bytes of its words, and leaves what follows them. -/
def Obligations.DecodeEncodeRoundTrip : Prop :=
  ∀ (i : Instr) (rest : List Byte), i.isEvent = false → i.wellFormed = true →
    decodeBytes ((encode i).flatMap bytesOfWord ++ rest) = .ok (i, rest)

/-- Words that the manual writes out beside the instructions that they encode, one or more of each family (R79, R113, R129, R133, R136, R138, R144, R145,
R153, R157, R163, R166, R179, R186, R194, R255, R256, R291, R293, R299, R307, R378, R389, R401). -/
def Obligations.DecodeReadsTableWords : Prop :=
  decodeTableWord 64 0x12345678281C0000 = some (.lit 7 0x12345678) ∧
  decodeTableWord 32 0x021C0002 = some (.setmode false 7 0 2) ∧
  decodeTableWord 32 0x063FFFFB = some (.bra 0x3FFFFB) ∧
  decodeTableWord 32 0x1C040003 = some (.bkpt 3) ∧
  decodeTableWord 32 0x20102860 = some (.sadd 4 5 6) ∧
  decodeTableWord 32 0x2A000822 = some (.scmp 1 2 .lt) ∧
  decodeTableWord 32 0x2E2821D2 = some (.sld 10 4 3 5 2) ∧
  decodeTableWord 32 0x400C0820 = some (.iadd 3 1 2) ∧
  decodeTableWord 32 0x52141FFC = some (.iaddi 5 3 0x7FC) ∧
  decodeTableWord 32 0x50183883 = some (.lea 6 7 8 3) ∧
  decodeTableWord 32 0x641048E0 = some (.ffma 4 9 14) ∧
  decodeTableWord 32 0x68183887 = some (.fdiv 6 7 8) ∧
  decodeTableWord 32 0x86142833 = some (.shfl 5 5 3 .xor) ∧
  decodeTableWord 32 0x8C105000 = some (.gred 4 10 .add) ∧
  decodeTableWord 32 0x9A34600B = some (.pnunpk 13 12 true 3) ∧
  decodeTableWord 32 0xA228A0DE = some (.st 10 20 1 5 14) ∧
  decodeTableWord 32 0xB81CB240 = some (.redld 7 22 4 4 0) ∧
  decodeTableWord 32 0xC0044802 = some (.bar true 9 2) ∧
  decodeTableWord 32 0xC8040202 = some (.waitc 1 2 2) ∧
  decodeTableWord 32 0xD0584181 = some (.cpin 22 8 3 0 false true) ∧
  decodeTableWord 32 0xD8540817 = some (.clampld 21 1 2 true true true) ∧
  decodeTableWord 32 0xDC201A51 = some (.accld 8 3 1 5) ∧
  decodeTableWord 32 0xE2685082 = some (.coll 26 10 1 .allReduce) ∧
  decodeTableWord 32 0xE4042001 = some (.ckfold 1 4 true) ∧
  decodeTableWord 32 0xEC482A00 = some (.rdwear 18 5 2 0) ∧
  decodeTableWord 32 0xFE042001 = some (.tlbi 4 1) ∧
  decodeTableWord 32 0xFFFFFFFF = none

/-- R26, R68, R79: where nothing else is due and a bench offers a slot, a step runs the instruction that the bytes at the slot's PC encode, read
through the core's translations; a LIT takes the word after it. What heads the agenda runs before anything else.
Points that the manual leaves open follow the model's reading (log 1). -/
def Obligations.StepRunsDecoded : Prop :=
  (∀ (s : State) (e : Instr) (rest : List Instr), s.sched.agenda = e :: rest → step s = exec e { s with sched := { s.sched with agenda := rest } }) ∧
  (∀ (s s1 : State) (o : Offer) (g : Group) (team : Team) (t : Translation) (i : Instr),
    (s.sched.agenda = [] ∧ s.abortsNow = none ∧ s.dueEvent = none ∧ s.collPlan = none ∧ s.quietChange = none ∧ s.commandDue = none ∧
      s.savesNow = none ∧ s.firmwareDue = none) → (s.groups.map (·.1)).Nodup → s.choice s.benchesInUse = some o → Store.find s.groups o.gid = some g →
    Store.find s.teams g.tid = some team →
    let pc := (g.flow.slot o.slot).pc
    let runs (s2 : State) (i : Instr) : Prop := step s = exec i { s2 with sched := { s2.sched with issuer := some (o.gid, o.slot) } }
    s.translate (coreOf o.gid) team.id.vdev pc.toNat .exec = .ok (t, s1) → s1.badSite (t.physAddr pc.toNat) 4 = none →
    let b := s1.seen (t.physAddr pc.toNat) 4
    (decodeBytes b = .ok (i, []) → runs s1 i) ∧
    (∀ u s2, s1.translate (coreOf o.gid) team.id.vdev (pc + 4).toNat .exec = .ok (u, s2) → s2.badSite (u.physAddr (pc + 4).toNat) 4 = none →
      i.size = 8 → decodeBytes (b ++ s2.seen (u.physAddr (pc + 4).toNat) 4) = .ok (i, []) → runs s2 i))

/-- R5, R13, R16, R207, R287, R346, R348, R363, R376, R377, R385, R388: after reset nothing is resident and no device exists; each quadrant is a partition of its own with the reset
values of its registers; queues are free and empty, and counters 0; the wear records stand as from manufacture; boot comes first. Memory
lists nothing, in its canonical form; what an unlisted byte reads as is the model's choice (DESIGN CHOICE, log 3). -/
def Obligations.ResetState : Prop :=
  State.reset.memOk ∧ State.reset.mem = [] ∧ State.reset.groups = [] ∧ State.reset.teams = [] ∧ State.reset.vdevs = [] ∧
  State.reset.sched.agenda = [.boot] ∧ State.reset.mod.code = 0 ∧
  (∀ q, q < 4 → (State.reset.part q).regs.members = [q] ∧ (State.reset.part q).regs.carvelim = 0x279E ∧
    (State.reset.part q).regs.placectl = 0x14 ∧ (State.reset.part q).regs.boostctl = 0x03E8550C ∧ (State.reset.part q).disp.launches = [] ∧
    (State.reset.part q).log.records = [] ∧ (State.reset.part q).disp.resident = [] ∧ (State.reset.quad q).power = .active ∧
    (State.reset.quad q).counters = [] ∧ (State.reset.quad q).llc.lines = [] ∧
    ∀ n, (State.reset.queue q n).owner = 255 ∧ (State.reset.queue q n).packets = []) ∧
  (∀ core, (State.reset.core core).mem.l1 = [] ∧ (State.reset.core core).mem.tlb = [] ∧ (State.reset.core core).arr.holder = none ∧
    (State.reset.core core).copies = []) ∧
  State.reset.wear.lifectl = 43800 ∧ State.reset.wear.lbudcap = 1605600000 ∧ State.reset.wear.intervals = 0 ∧
  State.reset.wear.fv = [5, 8, 12, 18, 27] ∧ State.reset.wear.ft = [6, 8, 12, 18, 27] ∧
  (∀ u, (State.reset.wearOf u).b = 0 ∧ (State.reset.wearOf u).h = 0 ∧ (State.reset.wearOf u).e = 0 ∧ (State.reset.wearOf u).p = 0 ∧
    State.reset.lbudOf u = 0)

/-- Every step keeps memory in its canonical form: addresses strictly rise, and no byte is listed that an unlisted address reads as.
Points that the manual leaves open follow the model's reading (log 3). -/
def Obligations.MemoryCanonicalInvariant : Prop :=
  ∀ (s t : State), s.memOk → step s = .next t → t.memOk
end

