-- ==== Sys2Proof/Laws/Command.lean ====
section
/-! SUPPORT. What the event of a command does: nothing when no source gives it, a refusal when a shared check fails, and else its own body. -/

namespace Sys2Proof.Machine

variable {s : State} {src : CommandSource} {op sub : Nat} {c : Command} {body : Command → State → Reply}

theorem Gives.name (h : Gives s src op sub c) : ∃ b, s.blockOf src = some b ∧ c = commandFrom src b ∧ (commandFrom src b).op = op ∧
    subOf (commandFrom src b).op b = sub := by
  obtain ⟨-, hb, ho, hs⟩ := h
  cases hbl : s.blockOf src with
  | none => simp [hbl] at hb
  | some b =>
    rw [hbl] at hb
    obtain rfl : commandFrom src b = c := by simpa using hb
    exact ⟨b, rfl, rfl, ho, hs⟩

theorem runCommand_refused {st : Nat} (h : Gives s src op sub c) (hr : (s.taken src).commonRefusal c = some st) :
    s.runCommand src op sub body = .next ((s.taken src).endCommand src st 0 []) := by
  obtain ⟨b, hb, rfl, ho, hs⟩ := h.name
  simp only [State.runCommand, h.given, hb, ho, ho ▸ hs, ne_eq, not_true_eq_false, or_self, if_false, hr]

theorem runCommand_runs (h : Runs s src op sub c) : s.runCommand src op sub body = match body c (s.taken src) with
    | .done s1 r => .next (s1.endCommand src 0 0 r)
    | .refused st d => .next ((s.taken src).endCommand src st d [])
    | .answered s1 st d r => .next (s1.endCommand src st d r)
    | .going s1 => .next s1 := by
  obtain ⟨b, hb, rfl, ho, hs⟩ := h.name
  simp only [State.runCommand, h.given, hb, ho, ho ▸ hs, ne_eq, not_true_eq_false, or_self, if_false, h.clear] <;>
    cases body (commandFrom src b) (s.taken src) <;> rfl

theorem runCommand_idle (h : ∀ c, ¬ Gives s src op sub c) : s.runCommand src op sub body = .next s := by
  unfold State.runCommand
  split
  · next b hg hb =>
    dsimp only
    split
    · rfl
    · next hn =>
      rw [not_or, not_not, not_not] at hn
      exact absurd ⟨hg, by rw [hb]; rfl, hn.1, hn.2⟩ (h (commandFrom src b))
  · rfl

end Sys2Proof.Machine
end

