-- ==== Sys2Proof/Laws/Encoding.lean ====
section
/-! SUPPORT. The fields of a packed word, format by format (R69), and the bytes of a word. -/

namespace Sys2Proof

variable (op d a b f : BitVec 7) (x la off xs : BitVec 4) (imm : BitVec 11) (sz p fl : BitVec 3) (off22 : BitVec 22) (imm18 : BitVec 18)

theorem extract_append_high {m n : Nat} (u : BitVec m) (v : BitVec n) (s k : Nat) (h : n ≤ s) :
    (u ++ v).extractLsb' s k = u.extractLsb' (s - n) k := by
  apply BitVec.eq_of_getLsbD_eq
  intro i hi
  simp only [BitVec.getLsbD_extractLsb', BitVec.getLsbD_append, hi, decide_true, Bool.true_and]
  rw [if_neg (by omega)]
  congr 1
  omega

theorem extract_append_low {m n : Nat} (u : BitVec m) (v : BitVec n) (s k : Nat) (h : s + k ≤ n) :
    (u ++ v).extractLsb' s k = v.extractLsb' s k := by
  apply BitVec.eq_of_getLsbD_eq
  intro i hi
  simp only [BitVec.getLsbD_extractLsb', BitVec.getLsbD_append, hi, decide_true, Bool.true_and]
  rw [if_pos (by omega)]

theorem extract_whole {n : Nat} (u : BitVec n) : u.extractLsb' 0 n = u := by
  simp

/-! ### Format R -/

@[simp] theorem fOp_packR : fOp (packR op d a b x) = op := by
  simp only [fOp, packR]
  repeat rw [extract_append_high _ _ _ _ (by omega)]
  exact extract_whole op
@[simp] theorem fD_packR : fD (packR op d a b x) = d := by
  simp only [fD, packR]
  repeat rw [extract_append_high _ _ _ _ (by omega)]
  rw [extract_append_low _ _ _ _ (by omega)]
  exact extract_whole d
@[simp] theorem fA_packR : fA (packR op d a b x) = a := by
  simp only [fA, packR]
  repeat rw [extract_append_high _ _ _ _ (by omega)]
  rw [extract_append_low _ _ _ _ (by omega)]
  exact extract_whole a
@[simp] theorem fB_packR : fB (packR op d a b x) = b := by
  simp only [fB, packR]
  repeat rw [extract_append_high _ _ _ _ (by omega)]
  rw [extract_append_low _ _ _ _ (by omega)]
  exact extract_whole b
@[simp] theorem fX_packR : fX (packR op d a b x) = x := by
  simp only [fX, packR]
  rw [extract_append_low _ _ _ _ (by omega)]
  exact extract_whole x

/-! ### Format I -/

@[simp] theorem fOp_packI : fOp (packI op d a imm) = op := by
  simp only [fOp, packI]
  repeat rw [extract_append_high _ _ _ _ (by omega)]
  exact extract_whole op
@[simp] theorem fD_packI : fD (packI op d a imm) = d := by
  simp only [fD, packI]
  repeat rw [extract_append_high _ _ _ _ (by omega)]
  rw [extract_append_low _ _ _ _ (by omega)]
  exact extract_whole d
@[simp] theorem fA_packI : fA (packI op d a imm) = a := by
  simp only [fA, packI]
  repeat rw [extract_append_high _ _ _ _ (by omega)]
  rw [extract_append_low _ _ _ _ (by omega)]
  exact extract_whole a
@[simp] theorem fImm_packI : fImm (packI op d a imm) = imm := by
  simp only [fImm, packI]
  rw [extract_append_low _ _ _ _ (by omega)]
  exact extract_whole imm

/-! ### Format L -/

@[simp] theorem fOp_packL : fOp (packL op d a la sz off) = op := by
  simp only [fOp, packL]
  repeat rw [extract_append_high _ _ _ _ (by omega)]
  exact extract_whole op
@[simp] theorem fD_packL : fD (packL op d a la sz off) = d := by
  simp only [fD, packL]
  repeat rw [extract_append_high _ _ _ _ (by omega)]
  rw [extract_append_low _ _ _ _ (by omega)]
  exact extract_whole d
@[simp] theorem fA_packL : fA (packL op d a la sz off) = a := by
  simp only [fA, packL]
  repeat rw [extract_append_high _ _ _ _ (by omega)]
  rw [extract_append_low _ _ _ _ (by omega)]
  exact extract_whole a
@[simp] theorem fLa_packL : fLa (packL op d a la sz off) = la := by
  simp only [fLa, packL]
  repeat rw [extract_append_high _ _ _ _ (by omega)]
  rw [extract_append_low _ _ _ _ (by omega)]
  exact extract_whole la
@[simp] theorem fSz_packL : fSz (packL op d a la sz off) = sz := by
  simp only [fSz, packL]
  repeat rw [extract_append_high _ _ _ _ (by omega)]
  rw [extract_append_low _ _ _ _ (by omega)]
  exact extract_whole sz
@[simp] theorem fOff4_packL : fOff4 (packL op d a la sz off) = off := by
  simp only [fOff4, packL]
  rw [extract_append_low _ _ _ _ (by omega)]
  exact extract_whole off

/-! ### Format J -/

@[simp] theorem fOp_packJ : fOp (packJ op p off22) = op := by
  simp only [fOp, packJ]
  repeat rw [extract_append_high _ _ _ _ (by omega)]
  exact extract_whole op
@[simp] theorem fP_packJ : fP (packJ op p off22) = p := by
  simp only [fP, packJ]
  repeat rw [extract_append_high _ _ _ _ (by omega)]
  rw [extract_append_low _ _ _ _ (by omega)]
  exact extract_whole p
@[simp] theorem fOff22_packJ : fOff22 (packJ op p off22) = off22 := by
  simp only [fOff22, packJ]
  rw [extract_append_low _ _ _ _ (by omega)]
  exact extract_whole off22

/-! ### Format S -/

@[simp] theorem fOp_packS : fOp (packS op f a imm) = op := by
  simp only [fOp, packS]
  repeat rw [extract_append_high _ _ _ _ (by omega)]
  exact extract_whole op
@[simp] theorem fD_packS : fD (packS op f a imm) = f := by
  simp only [fD, packS]
  repeat rw [extract_append_high _ _ _ _ (by omega)]
  rw [extract_append_low _ _ _ _ (by omega)]
  exact extract_whole f
@[simp] theorem fA_packS : fA (packS op f a imm) = a := by
  simp only [fA, packS]
  repeat rw [extract_append_high _ _ _ _ (by omega)]
  rw [extract_append_low _ _ _ _ (by omega)]
  exact extract_whole a
@[simp] theorem fImm_packS : fImm (packS op f a imm) = imm := by
  simp only [fImm, packS]
  rw [extract_append_low _ _ _ _ (by omega)]
  exact extract_whole imm

/-! ### Format T -/

@[simp] theorem fOp_packT : fOp (packT op d a la xs fl) = op := by
  simp only [fOp, packT]
  repeat rw [extract_append_high _ _ _ _ (by omega)]
  exact extract_whole op
@[simp] theorem fD_packT : fD (packT op d a la xs fl) = d := by
  simp only [fD, packT]
  repeat rw [extract_append_high _ _ _ _ (by omega)]
  rw [extract_append_low _ _ _ _ (by omega)]
  exact extract_whole d
@[simp] theorem fA_packT : fA (packT op d a la xs fl) = a := by
  simp only [fA, packT]
  repeat rw [extract_append_high _ _ _ _ (by omega)]
  rw [extract_append_low _ _ _ _ (by omega)]
  exact extract_whole a
@[simp] theorem fLa_packT : fLa (packT op d a la xs fl) = la := by
  simp only [fLa, packT]
  repeat rw [extract_append_high _ _ _ _ (by omega)]
  rw [extract_append_low _ _ _ _ (by omega)]
  exact extract_whole la
@[simp] theorem fXs_packT : fXs (packT op d a la xs fl) = xs := by
  simp only [fXs, packT]
  repeat rw [extract_append_high _ _ _ _ (by omega)]
  rw [extract_append_low _ _ _ _ (by omega)]
  exact extract_whole xs
@[simp] theorem fFl_packT : fFl (packT op d a la xs fl) = fl := by
  simp only [fFl, packT]
  rw [extract_append_low _ _ _ _ (by omega)]
  exact extract_whole fl

/-! ### Format V -/

@[simp] theorem fOp_packV : fOp (packV op d imm18) = op := by
  simp only [fOp, packV]
  repeat rw [extract_append_high _ _ _ _ (by omega)]
  exact extract_whole op
@[simp] theorem fD_packV : fD (packV op d imm18) = d := by
  simp only [fD, packV]
  repeat rw [extract_append_high _ _ _ _ (by omega)]
  rw [extract_append_low _ _ _ _ (by omega)]
  exact extract_whole d
@[simp] theorem fImm18_packV : fImm18 (packV op d imm18) = imm18 := by
  simp only [fImm18, packV]
  rw [extract_append_low _ _ _ _ (by omega)]
  exact extract_whole imm18

/-! ### Bytes -/

theorem wordOfBytes_bytesOfWord (w : Word) :
    wordOfBytes (w.extractLsb' 0 8) (w.extractLsb' 8 8) (w.extractLsb' 16 8) (w.extractLsb' 24 8) = w := by
  apply BitVec.eq_of_getLsbD_eq
  intro i hi
  simp only [wordOfBytes, BitVec.getLsbD_append, BitVec.getLsbD_extractLsb']
  have key (j k : Nat) (hk : k = i) (hj : j < 8) : (decide (j < 8) && w.getLsbD k) = w.getLsbD i := by rw [hk, decide_eq_true hj, Bool.true_and]
  split_ifs
  · exact key _ _ (by omega) (by omega)
  · exact key _ _ (by omega) (by omega)
  · exact key _ _ (by omega) (by omega)
  · exact key _ _ (by omega) (by omega)

theorem decodeBytes_word (w : Word) (rest : List Byte) (h : isLit w = false) :
    decodeBytes (bytesOfWord w ++ rest) = (decodeWord w 0).map (·, rest) := by
  simp only [bytesOfWord, List.cons_append, List.nil_append, decodeBytes, wordOfBytes_bytesOfWord, h, Bool.false_eq_true, if_false]

theorem decodeBytes_lit (w l : Word) (rest : List Byte) (h : isLit w = true) :
    decodeBytes (bytesOfWord w ++ (bytesOfWord l ++ rest)) = (decodeWord w l).map (·, rest) := by
  simp only [bytesOfWord, List.cons_append, List.nil_append, decodeBytes, wordOfBytes_bytesOfWord, h, if_true]

/-- An arm answers its instruction when its zero fields are zero and the instruction is well formed. -/
theorem arm_wellFormed {zeros : List Bool} {i : Instr} (hz : zeros.all id = true) (h : i.wellFormed = true) : arm zeros i = .ok i := by
  simp only [Instr.wellFormed, Option.isNone_iff_eq_none] at h
  simp only [arm, hz, if_true, h]

end Sys2Proof
end

