-- ==== Sys2Proof/Laws/Store.lean ====
section
/-! SUPPORT. The laws of sparse stores: a read after a write, and the canonical form that writes keep. -/

namespace Sys2Proof

namespace Store

variable {α : Type}

theorem get_put (dflt : α) (m : Store α) (i : Nat) (x : α) (j : Nat) :
    Store.get dflt (Store.put m i x) j = if j = i then x else Store.get dflt m j := by
  induction m with
  | nil => simp [Store.put, Store.get, eq_comm]
  | cons e rest ih =>
    obtain ⟨k, v⟩ := e
    simp only [Store.put]
    split
    · simp [Store.get, eq_comm]
    · split
      next h => subst h; simp only [Store.get, eq_comm]; split <;> rfl
      next h =>
        simp only [Store.get, ih]
        split
        next hk => subst hk; rw [if_neg (Ne.symm h)]
        next => rfl

theorem get_erase (dflt : α) (m : Store α) (i j : Nat) :
    Store.get dflt (Store.erase m i) j = if j = i then dflt else Store.get dflt m j := by
  induction m with
  | nil => simp [Store.erase, Store.get]
  | cons e rest ih =>
    obtain ⟨k, v⟩ := e
    simp only [Store.erase]
    split
    next hk => subst hk; simp only [ih, Store.get, eq_comm]; split <;> simp_all
    next hk =>
      simp only [Store.get, ih]
      split
      next hj => subst hj; rw [if_neg hk]
      next => rfl

theorem get_set [DecidableEq α] (dflt : α) (m : Store α) (i : Nat) (x : α) (j : Nat) :
    Store.get dflt (Store.set dflt m i x) j = if j = i then x else Store.get dflt m j := by
  simp only [Store.set]
  split
  · simp [get_erase, *]
  · exact get_put dflt m i x j

theorem find_put (m : Store α) (i : Nat) (x : α) (j : Nat) :
    Store.find (Store.put m i x) j = if j = i then some x else Store.find m j := by
  induction m with
  | nil => simp [Store.put, Store.find, eq_comm]
  | cons e rest ih =>
    obtain ⟨k, v⟩ := e
    simp only [Store.put]
    split
    · simp [Store.find, eq_comm]
    · split
      next h => subst h; simp only [Store.find, eq_comm]; split <;> rfl
      next h =>
        simp only [Store.find, ih]
        split
        next hk => subst hk; rw [if_neg (Ne.symm h)]
        next => rfl

theorem find_erase (m : Store α) (i j : Nat) :
    Store.find (Store.erase m i) j = if j = i then none else Store.find m j := by
  induction m with
  | nil => simp [Store.erase, Store.find]
  | cons e rest ih =>
    obtain ⟨k, v⟩ := e
    simp only [Store.erase]
    split
    next hk => subst hk; simp only [ih, Store.find, eq_comm]; split <;> simp_all
    next hk =>
      simp only [Store.find, ih]
      split
      next hj => subst hj; rw [if_neg hk]
      next => rfl

theorem get_put_self (dflt : α) (m : Store α) (i : Nat) (x : α) : Store.get dflt (Store.put m i x) i = x := by
  simp [get_put]

@[simp] theorem find_put_self (m : Store α) (i : Nat) (x : α) : Store.find (Store.put m i x) i = some x := by
  simp [find_put]

theorem get_put_ne (dflt : α) (m : Store α) {i j : Nat} (x : α) (h : j ≠ i) :
    Store.get dflt (Store.put m i x) j = Store.get dflt m j := by
  simp [get_put, h]

theorem find_put_ne (m : Store α) {i j : Nat} (x : α) (h : j ≠ i) : Store.find (Store.put m i x) j = Store.find m j := by
  simp [find_put, h]

@[simp] theorem get_set_self [DecidableEq α] (dflt : α) (m : Store α) (i : Nat) (x : α) :
    Store.get dflt (Store.set dflt m i x) i = x := by
  simp [get_set]

theorem get_of_find (dflt : α) (m : Store α) (i : Nat) : Store.get dflt m i = (Store.find m i).getD dflt := by
  induction m with
  | nil => rfl
  | cons e rest ih =>
    obtain ⟨k, v⟩ := e
    simp only [Store.get, Store.find]
    split <;> simp_all

/-! ### The canonical form -/

/-- Every key of a store is above a bound. -/
def above (n : Nat) (m : Store α) : Prop := ∀ e ∈ m, n < e.1

theorem sorted_cons (k : Nat) (v : α) (rest : Store α) :
    Store.sorted ((k, v) :: rest) = true ↔ above k rest ∧ Store.sorted rest = true := by
  induction rest generalizing k v with
  | nil => simp [Store.sorted, above]
  | cons e rest ih =>
    obtain ⟨k', v'⟩ := e
    simp only [Store.sorted, Bool.and_eq_true, decide_eq_true_eq, above, List.mem_cons, forall_eq_or_imp]
    constructor
    · rintro ⟨h, hs⟩
      exact ⟨⟨h, fun e he => Nat.lt_trans h (((ih k' v').mp hs).1 e he)⟩, hs⟩
    · rintro ⟨⟨h, -⟩, hs⟩
      exact ⟨h, hs⟩

theorem mem_put {m : Store α} {i : Nat} {x : α} {e : Nat × α} (h : e ∈ Store.put m i x) : e = (i, x) ∨ e ∈ m := by
  induction m with
  | nil => simpa [Store.put] using h
  | cons f rest ih =>
    obtain ⟨k, v⟩ := f
    simp only [Store.put] at h
    split at h
    · simpa using h
    · split at h
      · simp only [List.mem_cons] at h ⊢; tauto
      · simp only [List.mem_cons] at h ⊢
        rcases h with h | h
        · exact Or.inr (Or.inl h)
        · rcases ih h with h | h
          · exact Or.inl h
          · exact Or.inr (Or.inr h)

theorem mem_erase {m : Store α} {i : Nat} {e : Nat × α} (h : e ∈ Store.erase m i) : e ∈ m := by
  induction m with
  | nil => simp [Store.erase] at h
  | cons f rest ih =>
    obtain ⟨k, v⟩ := f
    simp only [Store.erase] at h
    split at h
    · exact List.mem_cons_of_mem _ (ih h)
    · simp only [List.mem_cons] at h ⊢
      exact h.imp id ih

theorem sorted_put {m : Store α} (i : Nat) (x : α) (h : Store.sorted m = true) : Store.sorted (Store.put m i x) = true := by
  induction m with
  | nil => simp [Store.put, Store.sorted]
  | cons e rest ih =>
    obtain ⟨k, v⟩ := e
    rw [sorted_cons] at h
    simp only [Store.put]
    split
    next hlt =>
      rw [sorted_cons, sorted_cons]
      refine ⟨?_, h⟩
      intro e he
      simp only [List.mem_cons] at he
      rcases he with rfl | he
      · exact hlt
      · exact Nat.lt_trans hlt (h.1 e he)
    next hlt =>
      split
      next heq => rw [sorted_cons]; exact ⟨by rw [heq]; exact h.1, h.2⟩
      next hne =>
        rw [sorted_cons]
        refine ⟨?_, ih h.2⟩
        intro e he
        rcases mem_put he with rfl | he
        · simp only; omega
        · exact h.1 e he

theorem sorted_erase {m : Store α} (i : Nat) (h : Store.sorted m = true) : Store.sorted (Store.erase m i) = true := by
  induction m with
  | nil => rfl
  | cons e rest ih =>
    obtain ⟨k, v⟩ := e
    rw [sorted_cons] at h
    simp only [Store.erase]
    split
    · exact ih h.2
    · rw [sorted_cons]
      exact ⟨fun e he => h.1 e (mem_erase he), ih h.2⟩

theorem sorted_filter {m : Store α} (p : Nat × α → Bool) (h : Store.sorted m = true) : Store.sorted (m.filter p) = true := by
  induction m with
  | nil => rfl
  | cons e rest ih =>
    obtain ⟨k, v⟩ := e
    rw [sorted_cons] at h
    simp only [List.filter_cons]
    split
    · rw [sorted_cons]
      exact ⟨fun e he => h.1 e (List.mem_filter.mp he).1, ih h.2⟩
    · exact ih h.2

end Store

end Sys2Proof
end

