-- ==== Sys2Proof/Laws/Memory.lean ====
section
/-! SUPPORT. The laws of physical memory: a read after a write, the bytes that a write leaves alone, and the canonical form
that every operation on memory keeps. -/

namespace Sys2Proof.Machine

theorem memRead_memWrite (m : List Host.Cell) (a : Nat) (b : Byte) (c : Nat) :
    memRead (memWrite m a b) c = if c = a then b else memRead m c :=
  Store.get_set unlistedByte m a b c

theorem memRead_memWrites_outside (m : List Host.Cell) (a : Nat) (data : List Byte) (c : Nat)
    (h : c < a ∨ a + data.length ≤ c) : memRead (memWrites m a data) c = memRead m c := by
  induction data generalizing m a with
  | nil => rfl
  | cons b rest ih =>
    simp only [List.length_cons] at h
    rw [memWrites, ih _ _ (by omega), memRead_memWrite, if_neg (by omega)]

theorem memRead_memWrites_inside (m : List Host.Cell) (a : Nat) (data : List Byte) (k : Nat) (h : k < data.length) :
    memRead (memWrites m a data) (a + k) = data[k] := by
  induction data generalizing m a k with
  | nil => simp at h
  | cons b rest ih =>
    rw [memWrites]
    cases k with
    | zero => rw [memRead_memWrites_outside _ _ _ _ (by omega)]; simp [memRead_memWrite]
    | succ k =>
      have := ih (memWrite m a b) (a + 1) k (by simpa using h)
      simpa [Nat.add_assoc, Nat.add_comm 1 k] using this

theorem length_memReads (m : List Host.Cell) (a n : Nat) : (memReads m a n).length = n := by
  induction n generalizing a with
  | zero => rfl
  | succ n ih => simp [memReads, ih]

theorem memReads_memWrites (m : List Host.Cell) (a : Nat) (data : List Byte) :
    memReads (memWrites m a data) a data.length = data := by
  induction data generalizing m a with
  | nil => rfl
  | cons b rest ih =>
    rw [List.length_cons, memReads, memWrites, ih, memRead_memWrites_outside _ _ _ _ (by omega), memRead_memWrite, if_pos rfl]

/-! ### The canonical form -/

theorem memory_wf_iff (m : List Host.Cell) :
    Memory.wf m = true ↔ Store.sorted m = true ∧ ∀ c ∈ m, c.2 ≠ unlistedByte := by
  simp [Memory.wf, List.all_eq_true]

theorem memWrite_wf {m : List Host.Cell} (a : Nat) (b : Byte) (h : Memory.wf m = true) : Memory.wf (memWrite m a b) = true := by
  rw [memory_wf_iff] at h ⊢
  rw [memWrite, Store.set]
  split
  · exact ⟨Store.sorted_erase a h.1, fun c hc => h.2 c (Store.mem_erase hc)⟩
  · next hb =>
    refine ⟨Store.sorted_put a b h.1, fun c hc => ?_⟩
    rcases Store.mem_put hc with rfl | hc
    · exact hb
    · exact h.2 c hc

theorem memWrites_wf {m : List Host.Cell} (a : Nat) (data : List Byte) (h : Memory.wf m = true) :
    Memory.wf (memWrites m a data) = true := by
  induction data generalizing m a with
  | nil => exact h
  | cons b rest ih => exact ih (a + 1) (memWrite_wf a b h)

theorem filter_wf {m : List Host.Cell} (p : Host.Cell → Bool) (h : Memory.wf m = true) : Memory.wf (m.filter p) = true := by
  rw [memory_wf_iff] at h ⊢
  exact ⟨Store.sorted_filter p h.1, fun c hc => h.2 c (List.mem_filter.mp hc).1⟩

end Sys2Proof.Machine
end

