-- ==== Sys2Proof/Laws/State.lean ====
section
/-! SUPPORT. The updates of a state: each field that an update leaves, and what it makes of the one that it writes. No later proof unfolds
a record update. -/

namespace Sys2Proof.Machine

namespace State

variable (s : State)

@[simp] theorem setCore_mem (c : Nat) (x : Core) : (s.setCore c x).mem = s.mem := rfl
@[simp] theorem setCore_groups (c : Nat) (x : Core) : (s.setCore c x).groups = s.groups := rfl
@[simp] theorem setCore_benches (c : Nat) (x : Core) : (s.setCore c x).benches = s.benches := rfl
@[simp] theorem setCore_teams (c : Nat) (x : Core) : (s.setCore c x).teams = s.teams := rfl
@[simp] theorem setCore_clusters (c : Nat) (x : Core) : (s.setCore c x).clusters = s.clusters := rfl
@[simp] theorem setCore_quads (c : Nat) (x : Core) : (s.setCore c x).quads = s.quads := rfl
@[simp] theorem setCore_parts (c : Nat) (x : Core) : (s.setCore c x).parts = s.parts := rfl
@[simp] theorem setCore_vdevs (c : Nat) (x : Core) : (s.setCore c x).vdevs = s.vdevs := rfl
@[simp] theorem setCore_wear (c : Nat) (x : Core) : (s.setCore c x).wear = s.wear := rfl
@[simp] theorem setCore_mod (c : Nat) (x : Core) : (s.setCore c x).mod = s.mod := rfl
@[simp] theorem setCore_sched (c : Nat) (x : Core) : (s.setCore c x).sched = s.sched := rfl

@[simp] theorem modCore_mem (c : Nat) (f : Core → Core) : (s.modCore c f).mem = s.mem := rfl
@[simp] theorem modCore_groups (c : Nat) (f : Core → Core) : (s.modCore c f).groups = s.groups := rfl
@[simp] theorem modCore_benches (c : Nat) (f : Core → Core) : (s.modCore c f).benches = s.benches := rfl
@[simp] theorem modCore_teams (c : Nat) (f : Core → Core) : (s.modCore c f).teams = s.teams := rfl
@[simp] theorem modCore_clusters (c : Nat) (f : Core → Core) : (s.modCore c f).clusters = s.clusters := rfl
@[simp] theorem modCore_quads (c : Nat) (f : Core → Core) : (s.modCore c f).quads = s.quads := rfl
@[simp] theorem modCore_parts (c : Nat) (f : Core → Core) : (s.modCore c f).parts = s.parts := rfl
@[simp] theorem modCore_vdevs (c : Nat) (f : Core → Core) : (s.modCore c f).vdevs = s.vdevs := rfl
@[simp] theorem modCore_wear (c : Nat) (f : Core → Core) : (s.modCore c f).wear = s.wear := rfl
@[simp] theorem modCore_mod (c : Nat) (f : Core → Core) : (s.modCore c f).mod = s.mod := rfl
@[simp] theorem modCore_sched (c : Nat) (f : Core → Core) : (s.modCore c f).sched = s.sched := rfl

@[simp] theorem modMem_mem (c : Nat) (f : CoreMem → CoreMem) : (s.modMem c f).mem = s.mem := rfl
@[simp] theorem modMem_groups (c : Nat) (f : CoreMem → CoreMem) : (s.modMem c f).groups = s.groups := rfl
@[simp] theorem modMem_benches (c : Nat) (f : CoreMem → CoreMem) : (s.modMem c f).benches = s.benches := rfl
@[simp] theorem modMem_teams (c : Nat) (f : CoreMem → CoreMem) : (s.modMem c f).teams = s.teams := rfl
@[simp] theorem modMem_clusters (c : Nat) (f : CoreMem → CoreMem) : (s.modMem c f).clusters = s.clusters := rfl
@[simp] theorem modMem_quads (c : Nat) (f : CoreMem → CoreMem) : (s.modMem c f).quads = s.quads := rfl
@[simp] theorem modMem_parts (c : Nat) (f : CoreMem → CoreMem) : (s.modMem c f).parts = s.parts := rfl
@[simp] theorem modMem_vdevs (c : Nat) (f : CoreMem → CoreMem) : (s.modMem c f).vdevs = s.vdevs := rfl
@[simp] theorem modMem_wear (c : Nat) (f : CoreMem → CoreMem) : (s.modMem c f).wear = s.wear := rfl
@[simp] theorem modMem_mod (c : Nat) (f : CoreMem → CoreMem) : (s.modMem c f).mod = s.mod := rfl
@[simp] theorem modMem_sched (c : Nat) (f : CoreMem → CoreMem) : (s.modMem c f).sched = s.sched := rfl

@[simp] theorem modArr_mem (c : Nat) (f : CoreArray → CoreArray) : (s.modArr c f).mem = s.mem := rfl
@[simp] theorem modArr_groups (c : Nat) (f : CoreArray → CoreArray) : (s.modArr c f).groups = s.groups := rfl
@[simp] theorem modArr_benches (c : Nat) (f : CoreArray → CoreArray) : (s.modArr c f).benches = s.benches := rfl
@[simp] theorem modArr_teams (c : Nat) (f : CoreArray → CoreArray) : (s.modArr c f).teams = s.teams := rfl
@[simp] theorem modArr_clusters (c : Nat) (f : CoreArray → CoreArray) : (s.modArr c f).clusters = s.clusters := rfl
@[simp] theorem modArr_quads (c : Nat) (f : CoreArray → CoreArray) : (s.modArr c f).quads = s.quads := rfl
@[simp] theorem modArr_parts (c : Nat) (f : CoreArray → CoreArray) : (s.modArr c f).parts = s.parts := rfl
@[simp] theorem modArr_vdevs (c : Nat) (f : CoreArray → CoreArray) : (s.modArr c f).vdevs = s.vdevs := rfl
@[simp] theorem modArr_wear (c : Nat) (f : CoreArray → CoreArray) : (s.modArr c f).wear = s.wear := rfl
@[simp] theorem modArr_mod (c : Nat) (f : CoreArray → CoreArray) : (s.modArr c f).mod = s.mod := rfl
@[simp] theorem modArr_sched (c : Nat) (f : CoreArray → CoreArray) : (s.modArr c f).sched = s.sched := rfl

@[simp] theorem setGroup_mem (g : Nat) (x : Group) : (s.setGroup g x).mem = s.mem := rfl
@[simp] theorem setGroup_benches (g : Nat) (x : Group) : (s.setGroup g x).benches = s.benches := rfl
@[simp] theorem setGroup_teams (g : Nat) (x : Group) : (s.setGroup g x).teams = s.teams := rfl
@[simp] theorem setGroup_clusters (g : Nat) (x : Group) : (s.setGroup g x).clusters = s.clusters := rfl
@[simp] theorem setGroup_cores (g : Nat) (x : Group) : (s.setGroup g x).cores = s.cores := rfl
@[simp] theorem setGroup_quads (g : Nat) (x : Group) : (s.setGroup g x).quads = s.quads := rfl
@[simp] theorem setGroup_parts (g : Nat) (x : Group) : (s.setGroup g x).parts = s.parts := rfl
@[simp] theorem setGroup_vdevs (g : Nat) (x : Group) : (s.setGroup g x).vdevs = s.vdevs := rfl
@[simp] theorem setGroup_wear (g : Nat) (x : Group) : (s.setGroup g x).wear = s.wear := rfl
@[simp] theorem setGroup_mod (g : Nat) (x : Group) : (s.setGroup g x).mod = s.mod := rfl
@[simp] theorem setGroup_sched (g : Nat) (x : Group) : (s.setGroup g x).sched = s.sched := rfl

@[simp] theorem modGroup_mem (g : Nat) (f : Group → Group) : (s.modGroup g f).mem = s.mem := by unfold State.modGroup; split <;> rfl
@[simp] theorem modGroup_benches (g : Nat) (f : Group → Group) : (s.modGroup g f).benches = s.benches := by unfold State.modGroup; split <;> rfl
@[simp] theorem modGroup_teams (g : Nat) (f : Group → Group) : (s.modGroup g f).teams = s.teams := by unfold State.modGroup; split <;> rfl
@[simp] theorem modGroup_clusters (g : Nat) (f : Group → Group) : (s.modGroup g f).clusters = s.clusters := by unfold State.modGroup; split <;> rfl
@[simp] theorem modGroup_cores (g : Nat) (f : Group → Group) : (s.modGroup g f).cores = s.cores := by unfold State.modGroup; split <;> rfl
@[simp] theorem modGroup_quads (g : Nat) (f : Group → Group) : (s.modGroup g f).quads = s.quads := by unfold State.modGroup; split <;> rfl
@[simp] theorem modGroup_parts (g : Nat) (f : Group → Group) : (s.modGroup g f).parts = s.parts := by unfold State.modGroup; split <;> rfl
@[simp] theorem modGroup_vdevs (g : Nat) (f : Group → Group) : (s.modGroup g f).vdevs = s.vdevs := by unfold State.modGroup; split <;> rfl
@[simp] theorem modGroup_wear (g : Nat) (f : Group → Group) : (s.modGroup g f).wear = s.wear := by unfold State.modGroup; split <;> rfl
@[simp] theorem modGroup_mod (g : Nat) (f : Group → Group) : (s.modGroup g f).mod = s.mod := by unfold State.modGroup; split <;> rfl
@[simp] theorem modGroup_sched (g : Nat) (f : Group → Group) : (s.modGroup g f).sched = s.sched := by unfold State.modGroup; split <;> rfl

@[simp] theorem modRegs_mem (g : Nat) (f : Regs → Regs) : (s.modRegs g f).mem = s.mem := modGroup_mem s g _
@[simp] theorem modRegs_benches (g : Nat) (f : Regs → Regs) : (s.modRegs g f).benches = s.benches := modGroup_benches s g _
@[simp] theorem modRegs_teams (g : Nat) (f : Regs → Regs) : (s.modRegs g f).teams = s.teams := modGroup_teams s g _
@[simp] theorem modRegs_clusters (g : Nat) (f : Regs → Regs) : (s.modRegs g f).clusters = s.clusters := modGroup_clusters s g _
@[simp] theorem modRegs_cores (g : Nat) (f : Regs → Regs) : (s.modRegs g f).cores = s.cores := modGroup_cores s g _
@[simp] theorem modRegs_quads (g : Nat) (f : Regs → Regs) : (s.modRegs g f).quads = s.quads := modGroup_quads s g _
@[simp] theorem modRegs_parts (g : Nat) (f : Regs → Regs) : (s.modRegs g f).parts = s.parts := modGroup_parts s g _
@[simp] theorem modRegs_vdevs (g : Nat) (f : Regs → Regs) : (s.modRegs g f).vdevs = s.vdevs := modGroup_vdevs s g _
@[simp] theorem modRegs_wear (g : Nat) (f : Regs → Regs) : (s.modRegs g f).wear = s.wear := modGroup_wear s g _
@[simp] theorem modRegs_mod (g : Nat) (f : Regs → Regs) : (s.modRegs g f).mod = s.mod := modGroup_mod s g _
@[simp] theorem modRegs_sched (g : Nat) (f : Regs → Regs) : (s.modRegs g f).sched = s.sched := modGroup_sched s g _

@[simp] theorem modFlow_mem (g : Nat) (f : Flow → Flow) : (s.modFlow g f).mem = s.mem := modGroup_mem s g _
@[simp] theorem modFlow_benches (g : Nat) (f : Flow → Flow) : (s.modFlow g f).benches = s.benches := modGroup_benches s g _
@[simp] theorem modFlow_teams (g : Nat) (f : Flow → Flow) : (s.modFlow g f).teams = s.teams := modGroup_teams s g _
@[simp] theorem modFlow_clusters (g : Nat) (f : Flow → Flow) : (s.modFlow g f).clusters = s.clusters := modGroup_clusters s g _
@[simp] theorem modFlow_cores (g : Nat) (f : Flow → Flow) : (s.modFlow g f).cores = s.cores := modGroup_cores s g _
@[simp] theorem modFlow_quads (g : Nat) (f : Flow → Flow) : (s.modFlow g f).quads = s.quads := modGroup_quads s g _
@[simp] theorem modFlow_parts (g : Nat) (f : Flow → Flow) : (s.modFlow g f).parts = s.parts := modGroup_parts s g _
@[simp] theorem modFlow_vdevs (g : Nat) (f : Flow → Flow) : (s.modFlow g f).vdevs = s.vdevs := modGroup_vdevs s g _
@[simp] theorem modFlow_wear (g : Nat) (f : Flow → Flow) : (s.modFlow g f).wear = s.wear := modGroup_wear s g _
@[simp] theorem modFlow_mod (g : Nat) (f : Flow → Flow) : (s.modFlow g f).mod = s.mod := modGroup_mod s g _
@[simp] theorem modFlow_sched (g : Nat) (f : Flow → Flow) : (s.modFlow g f).sched = s.sched := modGroup_sched s g _

@[simp] theorem modStops_mem (g : Nat) (f : Stops → Stops) : (s.modStops g f).mem = s.mem := modGroup_mem s g _
@[simp] theorem modStops_benches (g : Nat) (f : Stops → Stops) : (s.modStops g f).benches = s.benches := modGroup_benches s g _
@[simp] theorem modStops_teams (g : Nat) (f : Stops → Stops) : (s.modStops g f).teams = s.teams := modGroup_teams s g _
@[simp] theorem modStops_clusters (g : Nat) (f : Stops → Stops) : (s.modStops g f).clusters = s.clusters := modGroup_clusters s g _
@[simp] theorem modStops_cores (g : Nat) (f : Stops → Stops) : (s.modStops g f).cores = s.cores := modGroup_cores s g _
@[simp] theorem modStops_quads (g : Nat) (f : Stops → Stops) : (s.modStops g f).quads = s.quads := modGroup_quads s g _
@[simp] theorem modStops_parts (g : Nat) (f : Stops → Stops) : (s.modStops g f).parts = s.parts := modGroup_parts s g _
@[simp] theorem modStops_vdevs (g : Nat) (f : Stops → Stops) : (s.modStops g f).vdevs = s.vdevs := modGroup_vdevs s g _
@[simp] theorem modStops_wear (g : Nat) (f : Stops → Stops) : (s.modStops g f).wear = s.wear := modGroup_wear s g _
@[simp] theorem modStops_mod (g : Nat) (f : Stops → Stops) : (s.modStops g f).mod = s.mod := modGroup_mod s g _
@[simp] theorem modStops_sched (g : Nat) (f : Stops → Stops) : (s.modStops g f).sched = s.sched := modGroup_sched s g _

@[simp] theorem modEng_mem (g : Nat) (f : EngineSide → EngineSide) : (s.modEng g f).mem = s.mem := modGroup_mem s g _
@[simp] theorem modEng_benches (g : Nat) (f : EngineSide → EngineSide) : (s.modEng g f).benches = s.benches := modGroup_benches s g _
@[simp] theorem modEng_teams (g : Nat) (f : EngineSide → EngineSide) : (s.modEng g f).teams = s.teams := modGroup_teams s g _
@[simp] theorem modEng_clusters (g : Nat) (f : EngineSide → EngineSide) : (s.modEng g f).clusters = s.clusters := modGroup_clusters s g _
@[simp] theorem modEng_cores (g : Nat) (f : EngineSide → EngineSide) : (s.modEng g f).cores = s.cores := modGroup_cores s g _
@[simp] theorem modEng_quads (g : Nat) (f : EngineSide → EngineSide) : (s.modEng g f).quads = s.quads := modGroup_quads s g _
@[simp] theorem modEng_parts (g : Nat) (f : EngineSide → EngineSide) : (s.modEng g f).parts = s.parts := modGroup_parts s g _
@[simp] theorem modEng_vdevs (g : Nat) (f : EngineSide → EngineSide) : (s.modEng g f).vdevs = s.vdevs := modGroup_vdevs s g _
@[simp] theorem modEng_wear (g : Nat) (f : EngineSide → EngineSide) : (s.modEng g f).wear = s.wear := modGroup_wear s g _
@[simp] theorem modEng_mod (g : Nat) (f : EngineSide → EngineSide) : (s.modEng g f).mod = s.mod := modGroup_mod s g _
@[simp] theorem modEng_sched (g : Nat) (f : EngineSide → EngineSide) : (s.modEng g f).sched = s.sched := modGroup_sched s g _

@[simp] theorem modOps_mem (g : Nat) (f : List LongOp → List LongOp) : (s.modOps g f).mem = s.mem := modGroup_mem s g _
@[simp] theorem modOps_benches (g : Nat) (f : List LongOp → List LongOp) : (s.modOps g f).benches = s.benches := modGroup_benches s g _
@[simp] theorem modOps_teams (g : Nat) (f : List LongOp → List LongOp) : (s.modOps g f).teams = s.teams := modGroup_teams s g _
@[simp] theorem modOps_clusters (g : Nat) (f : List LongOp → List LongOp) : (s.modOps g f).clusters = s.clusters := modGroup_clusters s g _
@[simp] theorem modOps_cores (g : Nat) (f : List LongOp → List LongOp) : (s.modOps g f).cores = s.cores := modGroup_cores s g _
@[simp] theorem modOps_quads (g : Nat) (f : List LongOp → List LongOp) : (s.modOps g f).quads = s.quads := modGroup_quads s g _
@[simp] theorem modOps_parts (g : Nat) (f : List LongOp → List LongOp) : (s.modOps g f).parts = s.parts := modGroup_parts s g _
@[simp] theorem modOps_vdevs (g : Nat) (f : List LongOp → List LongOp) : (s.modOps g f).vdevs = s.vdevs := modGroup_vdevs s g _
@[simp] theorem modOps_wear (g : Nat) (f : List LongOp → List LongOp) : (s.modOps g f).wear = s.wear := modGroup_wear s g _
@[simp] theorem modOps_mod (g : Nat) (f : List LongOp → List LongOp) : (s.modOps g f).mod = s.mod := modGroup_mod s g _
@[simp] theorem modOps_sched (g : Nat) (f : List LongOp → List LongOp) : (s.modOps g f).sched = s.sched := modGroup_sched s g _

@[simp] theorem modTeam_mem (t : Nat) (f : Team → Team) : (s.modTeam t f).mem = s.mem := by unfold State.modTeam; split <;> rfl
@[simp] theorem modTeam_groups (t : Nat) (f : Team → Team) : (s.modTeam t f).groups = s.groups := by unfold State.modTeam; split <;> rfl
@[simp] theorem modTeam_benches (t : Nat) (f : Team → Team) : (s.modTeam t f).benches = s.benches := by unfold State.modTeam; split <;> rfl
@[simp] theorem modTeam_clusters (t : Nat) (f : Team → Team) : (s.modTeam t f).clusters = s.clusters := by unfold State.modTeam; split <;> rfl
@[simp] theorem modTeam_cores (t : Nat) (f : Team → Team) : (s.modTeam t f).cores = s.cores := by unfold State.modTeam; split <;> rfl
@[simp] theorem modTeam_quads (t : Nat) (f : Team → Team) : (s.modTeam t f).quads = s.quads := by unfold State.modTeam; split <;> rfl
@[simp] theorem modTeam_parts (t : Nat) (f : Team → Team) : (s.modTeam t f).parts = s.parts := by unfold State.modTeam; split <;> rfl
@[simp] theorem modTeam_vdevs (t : Nat) (f : Team → Team) : (s.modTeam t f).vdevs = s.vdevs := by unfold State.modTeam; split <;> rfl
@[simp] theorem modTeam_wear (t : Nat) (f : Team → Team) : (s.modTeam t f).wear = s.wear := by unfold State.modTeam; split <;> rfl
@[simp] theorem modTeam_mod (t : Nat) (f : Team → Team) : (s.modTeam t f).mod = s.mod := by unfold State.modTeam; split <;> rfl
@[simp] theorem modTeam_sched (t : Nat) (f : Team → Team) : (s.modTeam t f).sched = s.sched := by unfold State.modTeam; split <;> rfl

@[simp] theorem modTeamMem_mem (t : Nat) (f : TeamMem → TeamMem) : (s.modTeamMem t f).mem = s.mem := modTeam_mem s t _
@[simp] theorem modTeamMem_groups (t : Nat) (f : TeamMem → TeamMem) : (s.modTeamMem t f).groups = s.groups := modTeam_groups s t _
@[simp] theorem modTeamMem_benches (t : Nat) (f : TeamMem → TeamMem) : (s.modTeamMem t f).benches = s.benches := modTeam_benches s t _
@[simp] theorem modTeamMem_clusters (t : Nat) (f : TeamMem → TeamMem) : (s.modTeamMem t f).clusters = s.clusters := modTeam_clusters s t _
@[simp] theorem modTeamMem_cores (t : Nat) (f : TeamMem → TeamMem) : (s.modTeamMem t f).cores = s.cores := modTeam_cores s t _
@[simp] theorem modTeamMem_quads (t : Nat) (f : TeamMem → TeamMem) : (s.modTeamMem t f).quads = s.quads := modTeam_quads s t _
@[simp] theorem modTeamMem_parts (t : Nat) (f : TeamMem → TeamMem) : (s.modTeamMem t f).parts = s.parts := modTeam_parts s t _
@[simp] theorem modTeamMem_vdevs (t : Nat) (f : TeamMem → TeamMem) : (s.modTeamMem t f).vdevs = s.vdevs := modTeam_vdevs s t _
@[simp] theorem modTeamMem_wear (t : Nat) (f : TeamMem → TeamMem) : (s.modTeamMem t f).wear = s.wear := modTeam_wear s t _
@[simp] theorem modTeamMem_mod (t : Nat) (f : TeamMem → TeamMem) : (s.modTeamMem t f).mod = s.mod := modTeam_mod s t _
@[simp] theorem modTeamMem_sched (t : Nat) (f : TeamMem → TeamMem) : (s.modTeamMem t f).sched = s.sched := modTeam_sched s t _

@[simp] theorem modSync_mem (t : Nat) (f : TeamSync → TeamSync) : (s.modSync t f).mem = s.mem := modTeam_mem s t _
@[simp] theorem modSync_groups (t : Nat) (f : TeamSync → TeamSync) : (s.modSync t f).groups = s.groups := modTeam_groups s t _
@[simp] theorem modSync_benches (t : Nat) (f : TeamSync → TeamSync) : (s.modSync t f).benches = s.benches := modTeam_benches s t _
@[simp] theorem modSync_clusters (t : Nat) (f : TeamSync → TeamSync) : (s.modSync t f).clusters = s.clusters := modTeam_clusters s t _
@[simp] theorem modSync_cores (t : Nat) (f : TeamSync → TeamSync) : (s.modSync t f).cores = s.cores := modTeam_cores s t _
@[simp] theorem modSync_quads (t : Nat) (f : TeamSync → TeamSync) : (s.modSync t f).quads = s.quads := modTeam_quads s t _
@[simp] theorem modSync_parts (t : Nat) (f : TeamSync → TeamSync) : (s.modSync t f).parts = s.parts := modTeam_parts s t _
@[simp] theorem modSync_vdevs (t : Nat) (f : TeamSync → TeamSync) : (s.modSync t f).vdevs = s.vdevs := modTeam_vdevs s t _
@[simp] theorem modSync_wear (t : Nat) (f : TeamSync → TeamSync) : (s.modSync t f).wear = s.wear := modTeam_wear s t _
@[simp] theorem modSync_mod (t : Nat) (f : TeamSync → TeamSync) : (s.modSync t f).mod = s.mod := modTeam_mod s t _
@[simp] theorem modSync_sched (t : Nat) (f : TeamSync → TeamSync) : (s.modSync t f).sched = s.sched := modTeam_sched s t _

@[simp] theorem modBench_mem (b : Nat) (f : Bench → Bench) : (s.modBench b f).mem = s.mem := rfl
@[simp] theorem modBench_groups (b : Nat) (f : Bench → Bench) : (s.modBench b f).groups = s.groups := rfl
@[simp] theorem modBench_teams (b : Nat) (f : Bench → Bench) : (s.modBench b f).teams = s.teams := rfl
@[simp] theorem modBench_clusters (b : Nat) (f : Bench → Bench) : (s.modBench b f).clusters = s.clusters := rfl
@[simp] theorem modBench_cores (b : Nat) (f : Bench → Bench) : (s.modBench b f).cores = s.cores := rfl
@[simp] theorem modBench_quads (b : Nat) (f : Bench → Bench) : (s.modBench b f).quads = s.quads := rfl
@[simp] theorem modBench_parts (b : Nat) (f : Bench → Bench) : (s.modBench b f).parts = s.parts := rfl
@[simp] theorem modBench_vdevs (b : Nat) (f : Bench → Bench) : (s.modBench b f).vdevs = s.vdevs := rfl
@[simp] theorem modBench_wear (b : Nat) (f : Bench → Bench) : (s.modBench b f).wear = s.wear := rfl
@[simp] theorem modBench_mod (b : Nat) (f : Bench → Bench) : (s.modBench b f).mod = s.mod := rfl
@[simp] theorem modBench_sched (b : Nat) (f : Bench → Bench) : (s.modBench b f).sched = s.sched := rfl

@[simp] theorem modQuad_mem (q : Nat) (f : Quad → Quad) : (s.modQuad q f).mem = s.mem := rfl
@[simp] theorem modQuad_groups (q : Nat) (f : Quad → Quad) : (s.modQuad q f).groups = s.groups := rfl
@[simp] theorem modQuad_benches (q : Nat) (f : Quad → Quad) : (s.modQuad q f).benches = s.benches := rfl
@[simp] theorem modQuad_teams (q : Nat) (f : Quad → Quad) : (s.modQuad q f).teams = s.teams := rfl
@[simp] theorem modQuad_clusters (q : Nat) (f : Quad → Quad) : (s.modQuad q f).clusters = s.clusters := rfl
@[simp] theorem modQuad_cores (q : Nat) (f : Quad → Quad) : (s.modQuad q f).cores = s.cores := rfl
@[simp] theorem modQuad_parts (q : Nat) (f : Quad → Quad) : (s.modQuad q f).parts = s.parts := rfl
@[simp] theorem modQuad_vdevs (q : Nat) (f : Quad → Quad) : (s.modQuad q f).vdevs = s.vdevs := rfl
@[simp] theorem modQuad_wear (q : Nat) (f : Quad → Quad) : (s.modQuad q f).wear = s.wear := rfl
@[simp] theorem modQuad_mod (q : Nat) (f : Quad → Quad) : (s.modQuad q f).mod = s.mod := rfl
@[simp] theorem modQuad_sched (q : Nat) (f : Quad → Quad) : (s.modQuad q f).sched = s.sched := rfl

@[simp] theorem modLlc_mem (q : Nat) (f : Llc → Llc) : (s.modLlc q f).mem = s.mem := rfl
@[simp] theorem modLlc_groups (q : Nat) (f : Llc → Llc) : (s.modLlc q f).groups = s.groups := rfl
@[simp] theorem modLlc_benches (q : Nat) (f : Llc → Llc) : (s.modLlc q f).benches = s.benches := rfl
@[simp] theorem modLlc_teams (q : Nat) (f : Llc → Llc) : (s.modLlc q f).teams = s.teams := rfl
@[simp] theorem modLlc_clusters (q : Nat) (f : Llc → Llc) : (s.modLlc q f).clusters = s.clusters := rfl
@[simp] theorem modLlc_cores (q : Nat) (f : Llc → Llc) : (s.modLlc q f).cores = s.cores := rfl
@[simp] theorem modLlc_parts (q : Nat) (f : Llc → Llc) : (s.modLlc q f).parts = s.parts := rfl
@[simp] theorem modLlc_vdevs (q : Nat) (f : Llc → Llc) : (s.modLlc q f).vdevs = s.vdevs := rfl
@[simp] theorem modLlc_wear (q : Nat) (f : Llc → Llc) : (s.modLlc q f).wear = s.wear := rfl
@[simp] theorem modLlc_mod (q : Nat) (f : Llc → Llc) : (s.modLlc q f).mod = s.mod := rfl
@[simp] theorem modLlc_sched (q : Nat) (f : Llc → Llc) : (s.modLlc q f).sched = s.sched := rfl

@[simp] theorem modPart_mem (p : Nat) (f : Part → Part) : (s.modPart p f).mem = s.mem := by unfold State.modPart; split <;> rfl
@[simp] theorem modPart_groups (p : Nat) (f : Part → Part) : (s.modPart p f).groups = s.groups := by unfold State.modPart; split <;> rfl
@[simp] theorem modPart_benches (p : Nat) (f : Part → Part) : (s.modPart p f).benches = s.benches := by unfold State.modPart; split <;> rfl
@[simp] theorem modPart_teams (p : Nat) (f : Part → Part) : (s.modPart p f).teams = s.teams := by unfold State.modPart; split <;> rfl
@[simp] theorem modPart_clusters (p : Nat) (f : Part → Part) : (s.modPart p f).clusters = s.clusters := by unfold State.modPart; split <;> rfl
@[simp] theorem modPart_cores (p : Nat) (f : Part → Part) : (s.modPart p f).cores = s.cores := by unfold State.modPart; split <;> rfl
@[simp] theorem modPart_quads (p : Nat) (f : Part → Part) : (s.modPart p f).quads = s.quads := by unfold State.modPart; split <;> rfl
@[simp] theorem modPart_vdevs (p : Nat) (f : Part → Part) : (s.modPart p f).vdevs = s.vdevs := by unfold State.modPart; split <;> rfl
@[simp] theorem modPart_wear (p : Nat) (f : Part → Part) : (s.modPart p f).wear = s.wear := by unfold State.modPart; split <;> rfl
@[simp] theorem modPart_mod (p : Nat) (f : Part → Part) : (s.modPart p f).mod = s.mod := by unfold State.modPart; split <;> rfl
@[simp] theorem modPart_sched (p : Nat) (f : Part → Part) : (s.modPart p f).sched = s.sched := by unfold State.modPart; split <;> rfl

@[simp] theorem modDisp_mem (p : Nat) (f : Dispatcher → Dispatcher) : (s.modDisp p f).mem = s.mem := modPart_mem s p _
@[simp] theorem modDisp_groups (p : Nat) (f : Dispatcher → Dispatcher) : (s.modDisp p f).groups = s.groups := modPart_groups s p _
@[simp] theorem modDisp_benches (p : Nat) (f : Dispatcher → Dispatcher) : (s.modDisp p f).benches = s.benches := modPart_benches s p _
@[simp] theorem modDisp_teams (p : Nat) (f : Dispatcher → Dispatcher) : (s.modDisp p f).teams = s.teams := modPart_teams s p _
@[simp] theorem modDisp_clusters (p : Nat) (f : Dispatcher → Dispatcher) : (s.modDisp p f).clusters = s.clusters := modPart_clusters s p _
@[simp] theorem modDisp_cores (p : Nat) (f : Dispatcher → Dispatcher) : (s.modDisp p f).cores = s.cores := modPart_cores s p _
@[simp] theorem modDisp_quads (p : Nat) (f : Dispatcher → Dispatcher) : (s.modDisp p f).quads = s.quads := modPart_quads s p _
@[simp] theorem modDisp_vdevs (p : Nat) (f : Dispatcher → Dispatcher) : (s.modDisp p f).vdevs = s.vdevs := modPart_vdevs s p _
@[simp] theorem modDisp_wear (p : Nat) (f : Dispatcher → Dispatcher) : (s.modDisp p f).wear = s.wear := modPart_wear s p _
@[simp] theorem modDisp_mod (p : Nat) (f : Dispatcher → Dispatcher) : (s.modDisp p f).mod = s.mod := modPart_mod s p _
@[simp] theorem modDisp_sched (p : Nat) (f : Dispatcher → Dispatcher) : (s.modDisp p f).sched = s.sched := modPart_sched s p _

@[simp] theorem modFab_mem (p : Nat) (f : Fabric → Fabric) : (s.modFab p f).mem = s.mem := modPart_mem s p _
@[simp] theorem modFab_groups (p : Nat) (f : Fabric → Fabric) : (s.modFab p f).groups = s.groups := modPart_groups s p _
@[simp] theorem modFab_benches (p : Nat) (f : Fabric → Fabric) : (s.modFab p f).benches = s.benches := modPart_benches s p _
@[simp] theorem modFab_teams (p : Nat) (f : Fabric → Fabric) : (s.modFab p f).teams = s.teams := modPart_teams s p _
@[simp] theorem modFab_clusters (p : Nat) (f : Fabric → Fabric) : (s.modFab p f).clusters = s.clusters := modPart_clusters s p _
@[simp] theorem modFab_cores (p : Nat) (f : Fabric → Fabric) : (s.modFab p f).cores = s.cores := modPart_cores s p _
@[simp] theorem modFab_quads (p : Nat) (f : Fabric → Fabric) : (s.modFab p f).quads = s.quads := modPart_quads s p _
@[simp] theorem modFab_vdevs (p : Nat) (f : Fabric → Fabric) : (s.modFab p f).vdevs = s.vdevs := modPart_vdevs s p _
@[simp] theorem modFab_wear (p : Nat) (f : Fabric → Fabric) : (s.modFab p f).wear = s.wear := modPart_wear s p _
@[simp] theorem modFab_mod (p : Nat) (f : Fabric → Fabric) : (s.modFab p f).mod = s.mod := modPart_mod s p _
@[simp] theorem modFab_sched (p : Nat) (f : Fabric → Fabric) : (s.modFab p f).sched = s.sched := modPart_sched s p _

@[simp] theorem modVdev_mem (v : Nat) (f : Vdev → Vdev) : (s.modVdev v f).mem = s.mem := by unfold State.modVdev; split <;> rfl
@[simp] theorem modVdev_groups (v : Nat) (f : Vdev → Vdev) : (s.modVdev v f).groups = s.groups := by unfold State.modVdev; split <;> rfl
@[simp] theorem modVdev_benches (v : Nat) (f : Vdev → Vdev) : (s.modVdev v f).benches = s.benches := by unfold State.modVdev; split <;> rfl
@[simp] theorem modVdev_teams (v : Nat) (f : Vdev → Vdev) : (s.modVdev v f).teams = s.teams := by unfold State.modVdev; split <;> rfl
@[simp] theorem modVdev_clusters (v : Nat) (f : Vdev → Vdev) : (s.modVdev v f).clusters = s.clusters := by unfold State.modVdev; split <;> rfl
@[simp] theorem modVdev_cores (v : Nat) (f : Vdev → Vdev) : (s.modVdev v f).cores = s.cores := by unfold State.modVdev; split <;> rfl
@[simp] theorem modVdev_quads (v : Nat) (f : Vdev → Vdev) : (s.modVdev v f).quads = s.quads := by unfold State.modVdev; split <;> rfl
@[simp] theorem modVdev_parts (v : Nat) (f : Vdev → Vdev) : (s.modVdev v f).parts = s.parts := by unfold State.modVdev; split <;> rfl
@[simp] theorem modVdev_wear (v : Nat) (f : Vdev → Vdev) : (s.modVdev v f).wear = s.wear := by unfold State.modVdev; split <;> rfl
@[simp] theorem modVdev_mod (v : Nat) (f : Vdev → Vdev) : (s.modVdev v f).mod = s.mod := by unfold State.modVdev; split <;> rfl
@[simp] theorem modVdev_sched (v : Nat) (f : Vdev → Vdev) : (s.modVdev v f).sched = s.sched := by unfold State.modVdev; split <;> rfl

@[simp] theorem modCtx_mem (v : Nat) (f : Context → Context) : (s.modCtx v f).mem = s.mem := modVdev_mem s v _
@[simp] theorem modCtx_groups (v : Nat) (f : Context → Context) : (s.modCtx v f).groups = s.groups := modVdev_groups s v _
@[simp] theorem modCtx_benches (v : Nat) (f : Context → Context) : (s.modCtx v f).benches = s.benches := modVdev_benches s v _
@[simp] theorem modCtx_teams (v : Nat) (f : Context → Context) : (s.modCtx v f).teams = s.teams := modVdev_teams s v _
@[simp] theorem modCtx_clusters (v : Nat) (f : Context → Context) : (s.modCtx v f).clusters = s.clusters := modVdev_clusters s v _
@[simp] theorem modCtx_cores (v : Nat) (f : Context → Context) : (s.modCtx v f).cores = s.cores := modVdev_cores s v _
@[simp] theorem modCtx_quads (v : Nat) (f : Context → Context) : (s.modCtx v f).quads = s.quads := modVdev_quads s v _
@[simp] theorem modCtx_parts (v : Nat) (f : Context → Context) : (s.modCtx v f).parts = s.parts := modVdev_parts s v _
@[simp] theorem modCtx_wear (v : Nat) (f : Context → Context) : (s.modCtx v f).wear = s.wear := modVdev_wear s v _
@[simp] theorem modCtx_mod (v : Nat) (f : Context → Context) : (s.modCtx v f).mod = s.mod := modVdev_mod s v _
@[simp] theorem modCtx_sched (v : Nat) (f : Context → Context) : (s.modCtx v f).sched = s.sched := modVdev_sched s v _

@[simp] theorem modWear_mem (f : Wear → Wear) : (s.modWear f).mem = s.mem := rfl
@[simp] theorem modWear_groups (f : Wear → Wear) : (s.modWear f).groups = s.groups := rfl
@[simp] theorem modWear_benches (f : Wear → Wear) : (s.modWear f).benches = s.benches := rfl
@[simp] theorem modWear_teams (f : Wear → Wear) : (s.modWear f).teams = s.teams := rfl
@[simp] theorem modWear_clusters (f : Wear → Wear) : (s.modWear f).clusters = s.clusters := rfl
@[simp] theorem modWear_cores (f : Wear → Wear) : (s.modWear f).cores = s.cores := rfl
@[simp] theorem modWear_quads (f : Wear → Wear) : (s.modWear f).quads = s.quads := rfl
@[simp] theorem modWear_parts (f : Wear → Wear) : (s.modWear f).parts = s.parts := rfl
@[simp] theorem modWear_vdevs (f : Wear → Wear) : (s.modWear f).vdevs = s.vdevs := rfl
@[simp] theorem modWear_mod (f : Wear → Wear) : (s.modWear f).mod = s.mod := rfl
@[simp] theorem modWear_sched (f : Wear → Wear) : (s.modWear f).sched = s.sched := rfl

@[simp] theorem modMod_mem (f : Module → Module) : (s.modMod f).mem = s.mem := rfl
@[simp] theorem modMod_groups (f : Module → Module) : (s.modMod f).groups = s.groups := rfl
@[simp] theorem modMod_benches (f : Module → Module) : (s.modMod f).benches = s.benches := rfl
@[simp] theorem modMod_teams (f : Module → Module) : (s.modMod f).teams = s.teams := rfl
@[simp] theorem modMod_clusters (f : Module → Module) : (s.modMod f).clusters = s.clusters := rfl
@[simp] theorem modMod_cores (f : Module → Module) : (s.modMod f).cores = s.cores := rfl
@[simp] theorem modMod_quads (f : Module → Module) : (s.modMod f).quads = s.quads := rfl
@[simp] theorem modMod_parts (f : Module → Module) : (s.modMod f).parts = s.parts := rfl
@[simp] theorem modMod_vdevs (f : Module → Module) : (s.modMod f).vdevs = s.vdevs := rfl
@[simp] theorem modMod_wear (f : Module → Module) : (s.modMod f).wear = s.wear := rfl
@[simp] theorem modMod_sched (f : Module → Module) : (s.modMod f).sched = s.sched := rfl

@[simp] theorem modIdent_mem (f : Identity → Identity) : (s.modIdent f).mem = s.mem := rfl
@[simp] theorem modIdent_groups (f : Identity → Identity) : (s.modIdent f).groups = s.groups := rfl
@[simp] theorem modIdent_benches (f : Identity → Identity) : (s.modIdent f).benches = s.benches := rfl
@[simp] theorem modIdent_teams (f : Identity → Identity) : (s.modIdent f).teams = s.teams := rfl
@[simp] theorem modIdent_clusters (f : Identity → Identity) : (s.modIdent f).clusters = s.clusters := rfl
@[simp] theorem modIdent_cores (f : Identity → Identity) : (s.modIdent f).cores = s.cores := rfl
@[simp] theorem modIdent_quads (f : Identity → Identity) : (s.modIdent f).quads = s.quads := rfl
@[simp] theorem modIdent_parts (f : Identity → Identity) : (s.modIdent f).parts = s.parts := rfl
@[simp] theorem modIdent_vdevs (f : Identity → Identity) : (s.modIdent f).vdevs = s.vdevs := rfl
@[simp] theorem modIdent_wear (f : Identity → Identity) : (s.modIdent f).wear = s.wear := rfl
@[simp] theorem modIdent_sched (f : Identity → Identity) : (s.modIdent f).sched = s.sched := rfl

@[simp] theorem modDie_mem (d : Nat) (f : DieMap → DieMap) : (s.modDie d f).mem = s.mem := rfl
@[simp] theorem modDie_groups (d : Nat) (f : DieMap → DieMap) : (s.modDie d f).groups = s.groups := rfl
@[simp] theorem modDie_benches (d : Nat) (f : DieMap → DieMap) : (s.modDie d f).benches = s.benches := rfl
@[simp] theorem modDie_teams (d : Nat) (f : DieMap → DieMap) : (s.modDie d f).teams = s.teams := rfl
@[simp] theorem modDie_clusters (d : Nat) (f : DieMap → DieMap) : (s.modDie d f).clusters = s.clusters := rfl
@[simp] theorem modDie_cores (d : Nat) (f : DieMap → DieMap) : (s.modDie d f).cores = s.cores := rfl
@[simp] theorem modDie_quads (d : Nat) (f : DieMap → DieMap) : (s.modDie d f).quads = s.quads := rfl
@[simp] theorem modDie_parts (d : Nat) (f : DieMap → DieMap) : (s.modDie d f).parts = s.parts := rfl
@[simp] theorem modDie_vdevs (d : Nat) (f : DieMap → DieMap) : (s.modDie d f).vdevs = s.vdevs := rfl
@[simp] theorem modDie_wear (d : Nat) (f : DieMap → DieMap) : (s.modDie d f).wear = s.wear := rfl
@[simp] theorem modDie_sched (d : Nat) (f : DieMap → DieMap) : (s.modDie d f).sched = s.sched := rfl

@[simp] theorem count_mem (q vdev sel n : Nat) : (s.count q vdev sel n).mem = s.mem := rfl
@[simp] theorem count_groups (q vdev sel n : Nat) : (s.count q vdev sel n).groups = s.groups := rfl
@[simp] theorem count_benches (q vdev sel n : Nat) : (s.count q vdev sel n).benches = s.benches := rfl
@[simp] theorem count_teams (q vdev sel n : Nat) : (s.count q vdev sel n).teams = s.teams := rfl
@[simp] theorem count_clusters (q vdev sel n : Nat) : (s.count q vdev sel n).clusters = s.clusters := rfl
@[simp] theorem count_cores (q vdev sel n : Nat) : (s.count q vdev sel n).cores = s.cores := rfl
@[simp] theorem count_parts (q vdev sel n : Nat) : (s.count q vdev sel n).parts = s.parts := rfl
@[simp] theorem count_vdevs (q vdev sel n : Nat) : (s.count q vdev sel n).vdevs = s.vdevs := rfl
@[simp] theorem count_wear (q vdev sel n : Nat) : (s.count q vdev sel n).wear = s.wear := rfl
@[simp] theorem count_mod (q vdev sel n : Nat) : (s.count q vdev sel n).mod = s.mod := rfl
@[simp] theorem count_sched (q vdev sel n : Nat) : (s.count q vdev sel n).sched = s.sched := rfl

/-! ### The field that an update writes -/

theorem modGroup_find (g : Nat) (f : Group → Group) (k : Nat) :
    Store.find (s.modGroup g f).groups k = if k = g then (Store.find s.groups g).map f else Store.find s.groups k := by
  unfold State.modGroup
  split
  next x h => simp only [State.setGroup, Store.find_put, h]; rfl
  next h => split
            next hk => subst hk; simp [h]
            next => rfl

@[simp] theorem modGroup_find_self (g : Nat) (f : Group → Group) :
    Store.find (s.modGroup g f).groups g = (Store.find s.groups g).map f := by
  simp [modGroup_find]

theorem modGroup_find_ne (g : Nat) (f : Group → Group) {k : Nat} (h : k ≠ g) :
    Store.find (s.modGroup g f).groups k = Store.find s.groups k := by
  simp [modGroup_find, h]

theorem modTeam_find (t : Nat) (f : Team → Team) (k : Nat) :
    Store.find (s.modTeam t f).teams k = if k = t then (Store.find s.teams t).map f else Store.find s.teams k := by
  unfold State.modTeam
  split
  next x h => simp only [Store.find_put, h]; rfl
  next h => split
            next hk => subst hk; simp [h]
            next => rfl

theorem modPart_find (p : Nat) (f : Part → Part) (k : Nat) :
    Store.find (s.modPart p f).parts k = if k = p then (Store.find s.parts p).map f else Store.find s.parts k := by
  unfold State.modPart
  split
  next x h => simp only [Store.find_put, h]; rfl
  next h => split
            next hk => subst hk; simp [h]
            next => rfl

theorem modVdev_find (v : Nat) (f : Vdev → Vdev) (k : Nat) :
    Store.find (s.modVdev v f).vdevs k = if k = v then (Store.find s.vdevs v).map f else Store.find s.vdevs k := by
  unfold State.modVdev
  split
  next x h => simp only [Store.find_put, h]; rfl
  next h => split
            next hk => subst hk; simp [h]
            next => rfl

theorem modCore_core (c : Nat) (f : Core → Core) (k : Nat) : (s.modCore c f).core k = if k = c then f (s.core c) else s.core k :=
  Store.get_put _ _ _ _ _

theorem modBench_bench (b : Nat) (f : Bench → Bench) (k : Nat) : (s.modBench b f).bench k = if k = b then f (s.bench b) else s.bench k :=
  Store.get_put _ _ _ _ _

theorem modQuad_quad (q : Nat) (f : Quad → Quad) (k : Nat) : (s.modQuad q f).quad k = if k = q then f (s.quad q) else s.quad k :=
  Store.get_put _ _ _ _ _

/-! ### Reads that look at one field -/

theorem core_congr {s t : State} (h : t.cores = s.cores) : t.core = s.core := by funext c; simp only [State.core, h]
theorem bench_congr {s t : State} (h : t.benches = s.benches) : t.bench = s.bench := by funext b; simp only [State.bench, h]
theorem quad_congr {s t : State} (h : t.quads = s.quads) : t.quad = s.quad := by funext q; simp only [State.quad, h]
theorem part_congr {s t : State} (h : t.parts = s.parts) : t.part = s.part := by funext p; simp only [State.part, h]

end State

end Sys2Proof.Machine
end

