-- ==== Sys2Proof/Laws/Issue.lean ====
section
/-! SUPPORT. What the issue of an instruction does: the outcomes of issue, and what commit leaves. -/

namespace Sys2Proof.Machine

variable {s s' : State} {i : Instr} {x : Issue} {g : Group}

/-- The issuer of a state is the group and the slot that its issue names. -/
theorem issuing_group (h : s.issuing i = some (x, g)) : Store.find s.groups x.gid = some g ∧ x.tid = g.tid ∧ x.core = coreOf x.gid ∧
    x.pc = (g.flow.slot x.slot).pc ∧ x.mask = (g.flow.slot x.slot).mask ∧ x.act = g.regs.active x.mask ∧ x.clk = (s.core x.core).clk := by
  unfold State.issuing at h
  split at h
  · cases h
  · split at h
    · cases h
    · next hg =>
      simp only [Option.some.injEq, Prod.mk.injEq] at h
      obtain ⟨rfl, rfl⟩ := h
      exact ⟨hg, rfl, rfl, rfl, rfl, rfl, rfl⟩

theorem issueFlow_done {body} (h : Issues s i x g) (hb : body (s.openIssue x) x g = .done s') :
    issueFlow s i body = .next (s'.commit x g i) := by
  simp only [issueFlow, h.issuing, h.clear, hb]

/-- A stop is taken when no operation of a window is open, and waits for those that are (R316). -/
theorem stopWhenDone_eq (s : State) (x : Issue) (g : Group) (stop : State) :
    s.stopWhenDone x g stop = if g.openOps = [] then stop else s.stall x (.order g.openOps) := by
  unfold State.stopWhenDone
  split <;> simp_all

theorem issueFlow_trap {body} {t : Trap} (h : Issues s i x g) (hb : body (s.openIssue x) x g = .trap t) :
    issueFlow s i body = .next (s.stopWhenDone x g (s.takeFault x.gid t)) := by
  simp only [issueFlow, h.issuing, h.clear, hb]

theorem issueFlow_wait {body} {w : Wait} (h : Issues s i x g) (hb : body (s.openIssue x) x g = .wait w) :
    issueFlow s i body = .next (s.stall x w) := by
  simp only [issueFlow, h.issuing, h.clear, hb]

theorem issueFlow_stop {body} {t : Trap} (h : Issues s i x g) (hb : body (s.openIssue x) x g = .stop s' t) :
    issueFlow s i body = .next (s.stopWhenDone x g ((s'.commitIssue x g i).takeFault x.gid t)) := by
  simp only [issueFlow, h.issuing, h.clear, hb]

theorem issueFlow_hold {body} {f : State → State} {w : Wait} (h : Issues s i x g) (hb : body (s.openIssue x) x g = .hold f w) :
    issueFlow s i body = .next ((f s).stall x w) := by
  simp only [issueFlow, h.issuing, h.clear, hb]

theorem issueFlow_refused {body} {c : FaultCode} (h : s.issuing i = some (x, g)) (hc : precheck s x g i = some c) :
    issueFlow s i body = .next (s.stopWhenDone x g (s.takeFault x.gid (x.trap c))) := by
  simp only [issueFlow, h, hc]

theorem issue_done {body} (h : Issues s i x g) (hb : body (s.openIssue x) x g = .done s') :
    issue s i body = .next ((s'.advance x i).commit x g i) :=
  issueFlow_done h (by simp only [hb])

theorem issue_trap {body} {t : Trap} (h : Issues s i x g) (hb : body (s.openIssue x) x g = .trap t) :
    issue s i body = .next (s.stopWhenDone x g (s.takeFault x.gid t)) :=
  issueFlow_trap h (by simp only [hb])

theorem issue_wait {body} {w : Wait} (h : Issues s i x g) (hb : body (s.openIssue x) x g = .wait w) :
    issue s i body = .next (s.stall x w) :=
  issueFlow_wait h (by simp only [hb])

theorem issueRegs_ok {f} {r : Regs} (h : Issues s i x g) (hf : f x g.regs = .ok r) :
    issueRegs s i f = .next ((((s.openIssue x).modRegs x.gid fun _ => r).advance x i).commit x g i) :=
  issue_done h (by simp only [hf])

theorem issueRegs_error {f} {c : FaultCode} (h : Issues s i x g) (hf : f x g.regs = .error c) :
    issueRegs s i f = .next (s.stopWhenDone x g (s.takeFault x.gid (x.trap c))) :=
  issue_trap h (by simp only [hf])

/-! ### What commit leaves -/

namespace Apart

variable {a b c : State} {gid : Nat}

theorem refl (a : State) (gid : Nat) : Apart a a gid :=
  ⟨fun _ => rfl, fun _ _ => rfl, rfl, rfl, rfl, rfl, rfl, fun _ => rfl, fun _ => rfl, fun _ => rfl, fun _ => rfl⟩

theorem trans (h : Apart a b gid) (k : Apart b c gid) : Apart a c gid where
  mem q := (k.mem q).trans (h.mem q)
  groups q hq := (k.groups q hq).trans (h.groups q hq)
  teams := k.teams.trans h.teams
  clusters := k.clusters.trans h.clusters
  vdevs := k.vdevs.trans h.vdevs
  wear := k.wear.trans h.wear
  mod := k.mod.trans h.mod
  cores q := (k.cores q).trans (h.cores q)
  quads q := (k.quads q).trans (h.quads q)
  parts q := (k.parts q).trans (h.parts q)
  benches q := (k.benches q).trans (h.benches q)

/-- A change of the group itself leaves the rest. -/
theorem modGroup (a : State) (gid : Nat) (f : Group → Group) : Apart a (a.modGroup gid f) gid where
  mem _ := by simp
  groups _ h := State.modGroup_find_ne _ _ _ h
  teams := by simp
  clusters := by simp
  vdevs := by simp
  wear := by simp
  mod := by simp
  cores _ := by rw [State.core_congr (?_ : _ = a.cores)]; simp
  quads _ := by rw [State.quad_congr (?_ : _ = a.quads)]; simp
  parts _ := by rw [State.part_congr (?_ : _ = a.parts)]; simp
  benches _ := by rw [State.bench_congr (?_ : _ = a.benches)]; simp

theorem count (a : State) (gid q vdev sel n : Nat) : Apart a (a.count q vdev sel n) gid where
  mem _ := rfl
  groups _ _ := rfl
  teams := rfl
  clusters := rfl
  vdevs := rfl
  wear := rfl
  mod := rfl
  cores _ := rfl
  quads k := by
    unfold State.count
    rw [State.modQuad_quad]
    split
    · next h => subst h; rfl
    · rfl
  parts _ := rfl
  benches _ := rfl

theorem sampled (a : State) (gid p : Nat) (f : Part → Part) (h : ∀ x, { f x with sampling := none } = { x with sampling := none }) :
    Apart a (a.modPart p f) gid where
  mem _ := by simp
  groups _ _ := by simp
  teams := by simp
  clusters := by simp
  vdevs := by simp
  wear := by simp
  mod := by simp
  cores _ := by rw [State.core_congr (?_ : _ = a.cores)]; simp
  quads _ := by rw [State.quad_congr (?_ : _ = a.quads)]; simp
  parts k := by
    simp only [State.part, Store.get_of_find, State.modPart_find]
    split
    · next hk => subst hk; cases Store.find a.parts k <;> simp [h]
    · rfl
  benches _ := by rw [State.bench_congr (?_ : _ = a.benches)]; simp

theorem scheduled (a : State) (gid : Nat) (q : Sched) : Apart a { a with sched := q } gid :=
  ⟨fun _ => rfl, fun _ _ => rfl, rfl, rfl, rfl, rfl, rfl, fun _ => rfl, fun _ => rfl, fun _ => rfl, fun _ => rfl⟩

theorem busied (a : State) (gid b : Nat) (f : Bench → Bench)
    (h : ∀ x, { f x with busy := [], lastIssue := none, lastUnit := 0 } = { x with busy := [], lastIssue := none, lastUnit := 0 }) :
    Apart a (a.modBench b f) gid where
  mem _ := rfl
  groups _ _ := rfl
  teams := rfl
  clusters := rfl
  vdevs := rfl
  wear := rfl
  mod := rfl
  cores _ := rfl
  quads _ := rfl
  parts _ := rfl
  benches k := by
    rw [State.modBench_bench]
    split
    · next hk => subst hk; exact h _
    · rfl

theorem activated (a : State) (gid c : Nat) (f : Core → Core)
    (h : ∀ x, { f x with lastActive := 0, activeClk := 0 } = { x with lastActive := 0, activeClk := 0 }) :
    Apart a (a.modCore c f) gid where
  mem _ := rfl
  groups _ _ := rfl
  teams := rfl
  clusters := rfl
  vdevs := rfl
  wear := rfl
  mod := rfl
  cores k := by
    rw [State.modCore_core]
    split
    · next hk => subst hk; exact h _
    · rfl
  quads _ := rfl
  parts _ := rfl
  benches _ := rfl

end Apart

/-- No debugger is attached to the device of a team. -/
theorem undebugged_device (h : s.debugged tid = false) {t : Team} (ht : Store.find s.teams tid = some t) :
    (Store.find s.vdevs t.id.vdev).bind (·.debugger) = none := by
  simpa [State.debugged, ht] using h

theorem hitTrigger_none {vdev gid kind value : Nat} (h : (Store.find s.vdevs vdev).bind (·.debugger) = none) :
    s.hitTrigger vdev gid kind value = s := by
  simp only [State.hitTrigger, h]

/-- What the counting of an issue leaves: the groups, and what Apart names. -/
def Aside (s t : State) (gid : Nat) : Prop := Apart s t gid ∧ t.groups = s.groups

theorem Aside.trans {a b c : State} {gid : Nat} (h : Aside a b gid) (k : Aside b c gid) : Aside a c gid :=
  ⟨h.1.trans k.1, k.2.trans h.2⟩

theorem countIf_aside (a : State) (gid : Nat) (p : Prop) [Decidable p] (q vdev sel n : Nat) :
    Aside a (if p then a else a.count q vdev sel n) gid := by
  split
  · exact ⟨Apart.refl _ _, rfl⟩
  · exact ⟨Apart.count _ _ _ _ _ _, rfl⟩

/-- The counters of an issue leave the groups alone, and what Apart names. -/
theorem commitCounters_aside (s : State) (x : Issue) (g : Group) (i : Instr) (h : s.debugged x.tid = false) :
    Aside s (s.commitCounters x g i) x.gid := by
  unfold State.commitCounters
  split
  · exact ⟨Apart.refl _ _, rfl⟩
  next t ht =>
  have hd := undebugged_device h ht
  generalize s.costOf x.core g x.act i = cost
  obtain ⟨_, _, add⟩ := cost
  extract_lets q s1 s2 deg
  dsimp -zeta only
  extract_lets s3 s4 s5
  have a1 : Aside s s1 x.gid := ⟨Apart.count _ _ _ _ _ _, rfl⟩
  have a4 : Aside s s4 x.gid :=
    ((a1.trans (countIf_aside _ _ _ _ _ _ _)).trans (countIf_aside _ _ _ _ _ _ _)).trans (countIf_aside _ _ _ _ _ _ _)
  have a5 : Aside s s5 x.gid := by
    unfold s5
    split
    · exact a4
    · split
      · extract_lets due s6
        have b1 : Aside s s6 x.gid := a4.trans ⟨Apart.sampled _ _ _ _ (fun _ => rfl), State.modPart_groups _ _ _⟩
        split
        · exact b1.trans ⟨Apart.scheduled _ _ _, rfl⟩
        · exact b1
      · exact a4
  rw [hitTrigger_none (by rw [a5.1.vdevs]; exact hd)]
  exact a5

/-- The timing of an issue leaves what Apart names. -/
theorem commitTiming_apart (s : State) (x : Issue) (g : Group) (i : Instr) : Apart s (s.commitTiming x g i) x.gid := by
  unfold State.commitTiming
  generalize s.costOf x.core g x.act i = cost
  obtain ⟨_, occ, _⟩ := cost
  dsimp only
  refine Apart.trans ?_ (Apart.activated _ _ _ _ fun c => by split <;> rfl)
  exact Apart.trans (Apart.modGroup _ _ _) (Apart.busied _ _ _ _ fun _ => rfl)

/-- What the timing of an issue makes of the group: its registers, stack, operations and engines stay, and of its stops only a wait. -/
theorem commitTiming_group {s : State} {x : Issue} {g h : Group} {i : Instr} (hg : Store.find s.groups x.gid = some h) :
    ∃ h', Store.find (s.commitTiming x g i).groups x.gid = some h' ∧ h'.regs = h.regs ∧ h'.flow = { h.flow with last := x.slot } ∧
      h'.ops = h.ops ∧ h'.eng = h.eng ∧ h'.stops.parked = h.stops.parked ∧ h'.stops.stop = h.stops.stop ∧ h'.stops.pending = h.stops.pending ∧
      h'.tid = h.tid ∧ h'.number = h.number ∧ h'.issued = h.issued + 1 ∧ h'.stops.stepOne = h.stops.stepOne := by
  unfold State.commitTiming
  generalize s.costOf x.core g x.act i = cost
  obtain ⟨_, occ, _⟩ := cost
  simp only [State.modCore_groups, State.modBench_groups, State.modGroup_find_self, hg, Option.map_some, Option.some.injEq]
  refine ⟨_, rfl, rfl, rfl, rfl, rfl, ?_, ?_, ?_, rfl, rfl, rfl, ?_⟩ <;> (dsimp only [Stops.waitOver]; split <;> (try split) <;> rfl)

/-- No read corrects a register that has no error. -/
theorem correctReads_none {s : State} {x : Issue} {g : Group} {i : Instr} (h : g.regs.soft = []) : s.correctReads x g i = s := by
  simp [State.correctReads, h]

theorem endStep_none {s : State} {x : Issue} {g : Group} (h : g.stops.stepOne = false) : s.endStep x g = s := by
  simp [State.endStep, h]

/-- What commit leaves beside the group itself. -/
theorem commit_apart (s : State) (x : Issue) (g : Group) (i : Instr) (h : s.debugged x.tid = false) (hs : g.stops.stepOne = false)
    (hq : g.regs.soft = []) : Apart s (s.commit x g i) x.gid := by
  rw [State.commit, endStep_none hs, State.commitIssue, correctReads_none hq]
  exact (commitCounters_aside s x g i h).1.trans (commitTiming_apart _ _ _ _)

/-- What commit makes of the group. -/
theorem commit_group {s : State} {x : Issue} {g k : Group} {i : Instr} (hk : Store.find s.groups x.gid = some k)
    (h : s.debugged x.tid = false) (hs : g.stops.stepOne = false) (hq : g.regs.soft = []) :
    ∃ h', Store.find (s.commit x g i).groups x.gid = some h' ∧ h'.regs = k.regs ∧ h'.flow = { k.flow with last := x.slot } ∧
      h'.ops = k.ops ∧ h'.eng = k.eng ∧ h'.stops.parked = k.stops.parked ∧ h'.stops.stop = k.stops.stop ∧ h'.stops.pending = k.stops.pending ∧
      h'.tid = k.tid ∧ h'.number = k.number ∧ h'.issued = k.issued + 1 ∧ h'.stops.stepOne = k.stops.stepOne := by
  rw [State.commit, endStep_none hs, State.commitIssue, correctReads_none hq]
  exact commitTiming_group (by rw [(commitCounters_aside s x g i h).2]; exact hk)

/-- A state that the effect of an instruction leaves, when only the group itself changed, is what the instruction completes with. -/
theorem commit_writes {s s' : State} {x : Issue} {g k : Group} {i : Instr} (hg : Store.find s.groups x.gid = some g) (ht : x.tid = g.tid)
    (hd : Undisturbed s g) (ap : Apart s s' x.gid) (hk : Store.find s'.groups x.gid = some k) (ho : k.ops = stepWindows g.ops)
    (he : k.eng = g.eng) (hp : k.stops = g.stops) : Writes s (s'.commit x g i) x g k.regs k.flow := by
  have hdeb : s'.debugged x.tid = false := by
    have : s'.debugged = s.debugged := by
      funext t; simp only [State.debugged, ap.teams, ap.vdevs]
    rw [this, ht]; exact hd.none
  obtain ⟨k', hk', h1, h2, h3, h4, h5, h6, h7, -⟩ := commit_group (i := i) hk hdeb hd.step hd.soft
  exact { toApart := ap.trans (commit_apart s' x g i hdeb hd.step hd.soft)
          regs := by simp only [State.regsOf, hk', Option.map_some, h1]
          flow := by simp only [State.flowOf, hk', Option.map_some, h2]
          ops := by simp only [State.opsOf, hk', Option.map_some, h3, ho]
          eng := by simp only [State.engOf, hk', Option.map_some, h4, he]
          stopped := by simp only [State.stoppedOf, hg, hk', Option.map_some, h5, h6, h7, hp] }

/-- An instruction of which the effect is on its group's registers completes with the registers that it makes. -/
theorem issue_completes {s s1 : State} {i : Instr} {x : Issue} {g : Group} {body} {r : Regs} (h : Issues s i x g) (hd : Undisturbed s g)
    (he : exec i s = issue s i body) (hb : body (s.openIssue x) x g = .done s1) (ap : Apart (s.openIssue x) s1 x.gid)
    (hk : Store.find s1.groups x.gid = some { g with regs := r, ops := stepWindows g.ops }) : Completes s i x g r := by
  obtain ⟨hg, htid, -⟩ := issuing_group h.issuing
  refine ⟨_, he.trans (issue_done h hb), ?_⟩
  have ap' : Apart s (s1.advance x i) x.gid := ((Apart.modGroup _ _ _).trans ap).trans (Apart.modGroup _ _ _)
  exact commit_writes (k := { g with regs := r, ops := stepWindows g.ops, flow := g.flow.stepped x i }) hg htid hd ap'
    (by simp [State.advance, State.modFlow, hk, Flow.stepped]) rfl rfl rfl

/-- The windows that an issue counts are the group's own: no core changes. -/
theorem openIssue_core (s : State) (x : Issue) : (s.openIssue x).core = s.core := State.core_congr (by simp [State.openIssue, State.modOps])

/-- The group of an instruction once its windows have counted it. -/
theorem openIssue_find {s : State} {x : Issue} {g : Group} (hg : Store.find s.groups x.gid = some g) :
    Store.find (s.openIssue x).groups x.gid = some { g with ops := stepWindows g.ops } := by
  simp [State.openIssue, State.modOps, hg, stepWindows]

/-- An instruction of which the meaning is a function of its group's registers completes with what the function gives. -/
theorem issueRegs_completes {s : State} {i : Instr} {x : Issue} {g : Group} {f} {r : Regs} (h : Issues s i x g) (hd : Undisturbed s g)
    (he : exec i s = issueRegs s i f) (hf : f x g.regs = .ok r) : Completes s i x g r :=
  issue_completes (s1 := (s.openIssue x).modRegs x.gid fun _ => r) h hd he (by simp only [hf]) (Apart.modGroup _ _ _)
    (by simp [State.modRegs, openIssue_find (issuing_group h.issuing).1])

/-! ### Slots -/

/-- A live slot without a hold, which its group may go on with. -/
def PcSlot.free (o : PcSlot) : Prop := o.live = true ∧ o.hold = .none

theorem slot_popInto {f : Flow} {m n clk : Nat} (h : (f.slot n).live = true) : (f.popInto m clk).slot n = f.slot n := by
  unfold Flow.popInto
  split
  · rfl
  · next hl =>
    split
    · rfl
    · unfold Flow.slot Flow.setSlot at *
      by_cases hm : m = 0 <;> by_cases hn : n = 0 <;> simp_all

theorem slot_settle {f : Flow} {n clk : Nat} (h : (f.slot n).live = true) : (f.settle clk).slot n = f.slot n := by
  unfold Flow.settle
  rw [slot_popInto (by rw [slot_popInto h]; exact h), slot_popInto h]

/-- The spill area of a group's team holds no error. -/
def SpillGood (s : State) (gid : Nat) : Prop :=
  ∀ g, Store.find s.groups gid = some g → ∀ t, Store.find s.teams g.tid = some t → t.mem.spillUpset = []

theorem setFlow_good {s : State} {gid : Nat} {f : Flow} (h : SpillGood s gid) : s.setFlow gid f = s.modFlow gid fun _ => f := by
  unfold State.setFlow
  cases hg : Store.find s.groups gid with
  | none => simp [State.modFlow, State.modGroup, hg]
  | some g =>
    have : s.writeSpill g (spillWrites g.flow.stack f.stack) = s := by
      unfold State.writeSpill
      split
      · rfl
      · next t ht => simp [h g hg t ht]
    simp only [this]

theorem spillBad_good {s : State} {gid : Nat} {st : List StackEntry} (h : SpillGood s gid) : s.spillBad gid st = false := by
  unfold State.spillBad
  split
  · rfl
  · next g hg =>
    split
    · rfl
    · next t ht => simp [h g hg t ht]

theorem moveFlow_good {s : State} {gid : Nat} {f : Flow} (h : SpillGood s gid) : s.moveFlow gid f = s.modFlow gid fun _ => f := by
  simp [State.moveFlow, spillBad_good h, setFlow_good h]

/-- While a live slot goes on, its group neither exits nor arrives. -/
theorem afterFlow_free {s : State} {gid n : Nat} {g : Group} (hg : Store.find s.groups gid = some g) (h : (g.flow.slot n).free)
    (hs : SpillGood s gid) : s.afterFlow gid = s.modFlow gid fun _ => g.flow.settle (s.core (coreOf gid)).clk := by
  have h' : ((g.flow.settle (s.core (coreOf gid)).clk).slot n).free := by
    unfold PcSlot.free; rw [slot_settle h.1]; exact h
  have hf : Store.find (s.modFlow gid fun _ => g.flow.settle (s.core (coreOf gid)).clk).groups gid =
      some { g with flow := g.flow.settle (s.core (coreOf gid)).clk } := by simp [State.modFlow, hg]
  unfold State.afterFlow
  dsimp only
  rw [hg]
  dsimp only
  rw [moveFlow_good hs, hf]
  dsimp only
  revert h'
  revert hf
  generalize g.flow.settle (s.core (coreOf gid)).clk = k
  intro hf h'
  have hnd : k.done = false := by
    unfold Flow.done PcSlot.free Flow.slot at *
    by_cases hn : n = 0 <;> simp_all
  simp only [hnd, Bool.false_and, Bool.false_eq_true, if_false]
  unfold State.arrive
  rw [hf]
  dsimp only
  split
  · rfl
  · unfold PcSlot.free Flow.slot at h'
    cases h0 : k.s0.live <;> cases h1 : k.s1.live <;> by_cases hn : n = 0 <;>
      cases e0 : k.s0.hold <;> cases e1 : k.s1.hold <;> simp_all [Flow.allHeld, atBar, atBarc]

/-- An instruction that leaves a live slot going on completes with the slots and the stack that it makes. -/
theorem flowDone_completes {s s1 : State} {i : Instr} {x : Issue} {g g1 : Group} {f : Flow} {n : Nat} {body} (h : Issues s i x g)
    (hd : Undisturbed s g) (he : exec i s = issueFlow s i body) (hb : body (s.openIssue x) x g = flowDone s1 x f)
    (ap : Apart (s.openIssue x) s1 x.gid) (hk : Store.find s1.groups x.gid = some g1) (ht : g1.tid = g.tid) (ho : g1.ops = stepWindows g.ops)
    (hen : g1.eng = g.eng) (hp : g1.stops = g.stops) (hf : (f.slot n).free) :
    CompletesAs s i x g g1.regs (f.settle x.clk) := by
  obtain ⟨hg, htid, hcore, -, -, -, hclk⟩ := issuing_group h.issuing
  have hteams : s1.teams = s.teams := ap.teams.trans (Apart.modGroup _ _ _).teams
  have hgood : ∀ (a : State) (k : Group), a.teams = s.teams → k.tid = g.tid → Store.find a.groups x.gid = some k → SpillGood a x.gid := by
    intro a k ha hkt hk' g' hg' t' ht'
    rw [hk'] at hg'
    cases hg'
    exact hd.spill t' (by rw [← ha, ← hkt]; exact ht')
  have hs1 : SpillGood s1 x.gid := hgood s1 g1 hteams ht hk
  have hfind : Store.find (s1.modFlow x.gid fun _ => f).groups x.gid = some { g1 with flow := f } := by
    simp [State.modFlow, hk]
  refine ⟨_, he.trans (issueFlow_done h (by rw [hb, flowDone, spillBad_good hs1]; rfl)), ?_⟩
  rw [setFlow_good hs1]
  have hc : ((s1.modFlow x.gid fun _ => f).core (coreOf x.gid)).clk = x.clk := by
    rw [hclk, hcore]
    have a1 := ap.cores (coreOf x.gid)
    have a2 := (Apart.modGroup s x.gid fun g => { g with ops := (g.ops.map fun o => { o with window := o.window - 1 }).filter fun o => !o.over }).cores (coreOf x.gid)
    have a3 := (Apart.modGroup s1 x.gid fun g => { g with flow := f }).cores (coreOf x.gid)
    have e1 := congrArg Core.clk a1
    have e2 := congrArg Core.clk a2
    have e3 := congrArg Core.clk a3
    exact e3.trans (e1.trans e2)
  rw [afterFlow_free hfind hf (hgood _ { g1 with flow := f } (by simp [State.modFlow, hteams]) ht hfind)]
  rw [hc]
  refine commit_writes (k := { g1 with flow := f.settle x.clk }) hg htid hd ?_ ?_ ho hen hp
  · refine Apart.trans ?_ (Apart.modGroup _ _ _)
    refine Apart.trans ?_ (Apart.modGroup _ _ _)
    exact Apart.trans (Apart.modGroup _ _ _) ap
  · simp [State.modFlow, hk]

end Sys2Proof.Machine
end

