-- ==== Sys2Proof/Laws/PerInstr.lean ====
section
/-! SUPPORT. What holds of every instruction as syntax, one lemma per constructor: an instruction has as many words as its size says, and an
event has none (R68, R69). -/

namespace Sys2Proof.Laws.WordCount

/-- An instruction encodes to as many words as its size in bytes says; an event encodes to none. -/
def Statement (i : Instr) : Prop := 4 * (encode i).length = if i.isEvent then 0 else i.size

theorem nop : Statement (.nop) := rfl
theorem setmode (s : Bool) (w : BitVec 5) (a : BitVec 7) (i : BitVec 11) : Statement (.setmode s w a i) := rfl
theorem setgrd (s : Bool) (a : BitVec 7) (i : BitVec 5) : Statement (.setgrd s a i) := rfl
theorem setmem (s : Bool) (w : BitVec 2) (a : BitVec 7) (i : BitVec 5) : Statement (.setmem s w a i) := rfl
theorem bra (j : BitVec 22) : Statement (.bra j) := rfl
theorem brc (p : BitVec 3) (j : BitVec 22) : Statement (.brc p j) := rfl
theorem bru (c : BruCond) (j : BitVec 22) : Statement (.bru c j) := rfl
theorem mark (j : BitVec 22) : Statement (.mark j) := rfl
theorem join : Statement (.join) := rfl
theorem brp (a : BitVec 7) (i : BitVec 11) : Statement (.brp a i) := rfl
theorem brpSynchronise (tid : Nat) : Statement (.brpSynchronise tid) := rfl
theorem regroupReturn (core : Nat) (bench : Nat) : Statement (.regroupReturn core bench) := rfl
theorem call (j : BitVec 22) : Statement (.call j) := rfl
theorem ret (a : BitVec 7) : Statement (.ret a) := rfl
theorem jmpr (a : BitVec 7) : Statement (.jmpr a) := rfl
theorem exit : Statement (.exit) := rfl
theorem groupExitRelease (gid : Nat) : Statement (.groupExitRelease gid) := rfl
theorem flashpt (i : BitVec 11) : Statement (.flashpt i) := rfl
theorem trap (i : BitVec 11) : Statement (.trap i) := rfl
theorem bkpt (i : BitVec 11) : Statement (.bkpt i) := rfl
theorem yield (i : BitVec 11) : Statement (.yield i) := rfl
theorem yieldCountExpiry (gid : Nat) : Statement (.yieldCountExpiry gid) := rfl
theorem sadd (d : BitVec 7) (a : BitVec 7) (b : BitVec 7) : Statement (.sadd d a b) := rfl
theorem ssub (d : BitVec 7) (a : BitVec 7) (b : BitVec 7) : Statement (.ssub d a b) := rfl
theorem smul (d : BitVec 7) (a : BitVec 7) (b : BitVec 7) : Statement (.smul d a b) := rfl
theorem smulh (d : BitVec 7) (a : BitVec 7) (b : BitVec 7) : Statement (.smulh d a b) := rfl
theorem sand (d : BitVec 7) (a : BitVec 7) (b : BitVec 7) : Statement (.sand d a b) := rfl
theorem sor (d : BitVec 7) (a : BitVec 7) (b : BitVec 7) : Statement (.sor d a b) := rfl
theorem sxor (d : BitVec 7) (a : BitVec 7) (b : BitVec 7) : Statement (.sxor d a b) := rfl
theorem sshl (d : BitVec 7) (a : BitVec 7) (b : BitVec 7) : Statement (.sshl d a b) := rfl
theorem sshr (d : BitVec 7) (a : BitVec 7) (b : BitVec 7) : Statement (.sshr d a b) := rfl
theorem ssra (d : BitVec 7) (a : BitVec 7) (b : BitVec 7) : Statement (.ssra d a b) := rfl
theorem smin (d : BitVec 7) (a : BitVec 7) (b : BitVec 7) : Statement (.smin d a b) := rfl
theorem smax (d : BitVec 7) (a : BitVec 7) (b : BitVec 7) : Statement (.smax d a b) := rfl
theorem sminn (d : BitVec 7) (a : BitVec 7) (b : BitVec 7) : Statement (.sminn d a b) := rfl
theorem smaxn (d : BitVec 7) (a : BitVec 7) (b : BitVec 7) : Statement (.smaxn d a b) := rfl
theorem saddi (d : BitVec 7) (a : BitVec 7) (i : BitVec 11) : Statement (.saddi d a i) := rfl
theorem sandi (d : BitVec 7) (a : BitVec 7) (i : BitVec 11) : Statement (.sandi d a i) := rfl
theorem sori (d : BitVec 7) (a : BitVec 7) (i : BitVec 11) : Statement (.sori d a i) := rfl
theorem lit (d : BitVec 7) (lit : Word) : Statement (.lit d lit) := rfl
theorem scmp (a : BitVec 7) (b : BitVec 7) (c : ScmpCond) : Statement (.scmp a b c) := rfl
theorem ssel (d : BitVec 7) (a : BitVec 7) (b : BitVec 7) : Statement (.ssel d a b) := rfl
theorem sld (d : BitVec 7) (a : BitVec 7) (l : BitVec 4) (z : BitVec 3) (f : BitVec 4) : Statement (.sld d a l z f) := rfl
theorem sst (d : BitVec 7) (a : BitVec 7) (l : BitVec 4) (z : BitVec 3) (f : BitVec 4) : Statement (.sst d a l z f) := rfl
theorem mfs (d : BitVec 7) (i : BitVec 11) : Statement (.mfs d i) := rfl
theorem iadd (d : BitVec 7) (a : BitVec 7) (b : BitVec 7) : Statement (.iadd d a b) := rfl
theorem isub (d : BitVec 7) (a : BitVec 7) (b : BitVec 7) : Statement (.isub d a b) := rfl
theorem imul (d : BitVec 7) (a : BitVec 7) (b : BitVec 7) : Statement (.imul d a b) := rfl
theorem imulh (d : BitVec 7) (a : BitVec 7) (b : BitVec 7) : Statement (.imulh d a b) := rfl
theorem imin (d : BitVec 7) (a : BitVec 7) (b : BitVec 7) : Statement (.imin d a b) := rfl
theorem imax (d : BitVec 7) (a : BitVec 7) (b : BitVec 7) : Statement (.imax d a b) := rfl
theorem iabs (d : BitVec 7) (a : BitVec 7) : Statement (.iabs d a) := rfl
theorem ineg (d : BitVec 7) (a : BitVec 7) : Statement (.ineg d a) := rfl
theorem iand (d : BitVec 7) (a : BitVec 7) (b : BitVec 7) : Statement (.iand d a b) := rfl
theorem ior (d : BitVec 7) (a : BitVec 7) (b : BitVec 7) : Statement (.ior d a b) := rfl
theorem ixor (d : BitVec 7) (a : BitVec 7) (b : BitVec 7) : Statement (.ixor d a b) := rfl
theorem inot (d : BitVec 7) (a : BitVec 7) : Statement (.inot d a) := rfl
theorem ishl (d : BitVec 7) (a : BitVec 7) (b : BitVec 7) : Statement (.ishl d a b) := rfl
theorem ishr (d : BitVec 7) (a : BitVec 7) (b : BitVec 7) : Statement (.ishr d a b) := rfl
theorem iaddScalarB (d : BitVec 7) (a : BitVec 7) (b : BitVec 7) : Statement (.iaddScalarB d a b) := rfl
theorem isubScalarB (d : BitVec 7) (a : BitVec 7) (b : BitVec 7) : Statement (.isubScalarB d a b) := rfl
theorem imulScalarB (d : BitVec 7) (a : BitVec 7) (b : BitVec 7) : Statement (.imulScalarB d a b) := rfl
theorem imulhScalarB (d : BitVec 7) (a : BitVec 7) (b : BitVec 7) : Statement (.imulhScalarB d a b) := rfl
theorem iminScalarB (d : BitVec 7) (a : BitVec 7) (b : BitVec 7) : Statement (.iminScalarB d a b) := rfl
theorem imaxScalarB (d : BitVec 7) (a : BitVec 7) (b : BitVec 7) : Statement (.imaxScalarB d a b) := rfl
theorem iandScalarB (d : BitVec 7) (a : BitVec 7) (b : BitVec 7) : Statement (.iandScalarB d a b) := rfl
theorem iorScalarB (d : BitVec 7) (a : BitVec 7) (b : BitVec 7) : Statement (.iorScalarB d a b) := rfl
theorem ixorScalarB (d : BitVec 7) (a : BitVec 7) (b : BitVec 7) : Statement (.ixorScalarB d a b) := rfl
theorem ishlScalarB (d : BitVec 7) (a : BitVec 7) (b : BitVec 7) : Statement (.ishlScalarB d a b) := rfl
theorem ishrScalarB (d : BitVec 7) (a : BitVec 7) (b : BitVec 7) : Statement (.ishrScalarB d a b) := rfl
theorem imad (d : BitVec 7) (a : BitVec 7) (b : BitVec 7) : Statement (.imad d a b) := rfl
theorem icmp (d : BitVec 7) (a : BitVec 7) (b : BitVec 7) (c : IcmpCond) : Statement (.icmp d a b c) := rfl
theorem isel (d : BitVec 7) (a : BitVec 7) (b : BitVec 7) (p : BitVec 3) : Statement (.isel d a b p) := rfl
theorem popc (d : BitVec 7) (a : BitVec 7) : Statement (.popc d a) := rfl
theorem clz (d : BitVec 7) (a : BitVec 7) : Statement (.clz d a) := rfl
theorem ctz (d : BitVec 7) (a : BitVec 7) : Statement (.ctz d a) := rfl
theorem brev (d : BitVec 7) (a : BitVec 7) : Statement (.brev d a) := rfl
theorem bfe (d : BitVec 7) (a : BitVec 7) (b : BitVec 7) (s : Bool) : Statement (.bfe d a b s) := rfl
theorem bfi (d : BitVec 7) (a : BitVec 7) (b : BitVec 7) : Statement (.bfi d a b) := rfl
theorem lea (d : BitVec 7) (a : BitVec 7) (b : BitVec 7) (x : BitVec 4) : Statement (.lea d a b x) := rfl
theorem iaddi (d : BitVec 7) (a : BitVec 7) (i : BitVec 11) : Statement (.iaddi d a i) := rfl
theorem ishli (d : BitVec 7) (a : BitVec 7) (i : BitVec 11) : Statement (.ishli d a i) := rfl
theorem ishri (d : BitVec 7) (a : BitVec 7) (i : BitVec 11) : Statement (.ishri d a i) := rfl
theorem vmov (d : BitVec 7) (a : BitVec 7) : Statement (.vmov d a) := rfl
theorem vli (d : BitVec 7) (i : BitVec 18) : Statement (.vli d i) := rfl
theorem fadd (d : BitVec 7) (a : BitVec 7) (b : BitVec 7) : Statement (.fadd d a b) := rfl
theorem fsub (d : BitVec 7) (a : BitVec 7) (b : BitVec 7) : Statement (.fsub d a b) := rfl
theorem fmul (d : BitVec 7) (a : BitVec 7) (b : BitVec 7) : Statement (.fmul d a b) := rfl
theorem fmin (d : BitVec 7) (a : BitVec 7) (b : BitVec 7) : Statement (.fmin d a b) := rfl
theorem fmax (d : BitVec 7) (a : BitVec 7) (b : BitVec 7) : Statement (.fmax d a b) := rfl
theorem fabs (d : BitVec 7) (a : BitVec 7) : Statement (.fabs d a) := rfl
theorem fneg (d : BitVec 7) (a : BitVec 7) : Statement (.fneg d a) := rfl
theorem fcopysign (d : BitVec 7) (a : BitVec 7) (b : BitVec 7) : Statement (.fcopysign d a b) := rfl
theorem faddScalarB (d : BitVec 7) (a : BitVec 7) (b : BitVec 7) : Statement (.faddScalarB d a b) := rfl
theorem fsubScalarB (d : BitVec 7) (a : BitVec 7) (b : BitVec 7) : Statement (.fsubScalarB d a b) := rfl
theorem fmulScalarB (d : BitVec 7) (a : BitVec 7) (b : BitVec 7) : Statement (.fmulScalarB d a b) := rfl
theorem fminScalarB (d : BitVec 7) (a : BitVec 7) (b : BitVec 7) : Statement (.fminScalarB d a b) := rfl
theorem fmaxScalarB (d : BitVec 7) (a : BitVec 7) (b : BitVec 7) : Statement (.fmaxScalarB d a b) := rfl
theorem fcopysignScalarB (d : BitVec 7) (a : BitVec 7) (b : BitVec 7) : Statement (.fcopysignScalarB d a b) := rfl
theorem ffma (d : BitVec 7) (a : BitVec 7) (b : BitVec 7) : Statement (.ffma d a b) := rfl
theorem ffms (d : BitVec 7) (a : BitVec 7) (b : BitVec 7) : Statement (.ffms d a b) := rfl
theorem fnfma (d : BitVec 7) (a : BitVec 7) (b : BitVec 7) : Statement (.fnfma d a b) := rfl
theorem fcmp (d : BitVec 7) (a : BitVec 7) (b : BitVec 7) (c : FcmpCond) : Statement (.fcmp d a b c) := rfl
theorem frcp (d : BitVec 7) (a : BitVec 7) : Statement (.frcp d a) := rfl
theorem frsq (d : BitVec 7) (a : BitVec 7) : Statement (.frsq d a) := rfl
theorem fsqrt (d : BitVec 7) (a : BitVec 7) : Statement (.fsqrt d a) := rfl
theorem fexp2 (d : BitVec 7) (a : BitVec 7) : Statement (.fexp2 d a) := rfl
theorem flog2 (d : BitVec 7) (a : BitVec 7) : Statement (.flog2 d a) := rfl
theorem fsin (d : BitVec 7) (a : BitVec 7) : Statement (.fsin d a) := rfl
theorem fcos (d : BitVec 7) (a : BitVec 7) : Statement (.fcos d a) := rfl
theorem fdiv (d : BitVec 7) (a : BitVec 7) (b : BitVec 7) : Statement (.fdiv d a b) := rfl
theorem fcvt (d : BitVec 7) (a : BitVec 7) (t : ElemType) : Statement (.fcvt d a t) := rfl
theorem fround (d : BitVec 7) (a : BitVec 7) : Statement (.fround d a) := rfl
theorem fclass (d : BitVec 7) (a : BitVec 7) : Statement (.fclass d a) := rfl
theorem pand (d : BitVec 7) (a : BitVec 7) (b : BitVec 7) : Statement (.pand d a b) := rfl
theorem por (d : BitVec 7) (a : BitVec 7) (b : BitVec 7) : Statement (.por d a b) := rfl
theorem pxor (d : BitVec 7) (a : BitVec 7) (b : BitVec 7) : Statement (.pxor d a b) := rfl
theorem pnot (d : BitVec 7) (a : BitVec 7) : Statement (.pnot d a) := rfl
theorem pmov (d : BitVec 7) (a : BitVec 7) : Statement (.pmov d a) := rfl
theorem ballot (d : BitVec 7) (a : BitVec 7) : Statement (.ballot d a) := rfl
theorem pfroms (d : BitVec 7) (a : BitVec 7) : Statement (.pfroms d a) := rfl
theorem vote (d : BitVec 7) (a : BitVec 7) (v : VoteMode) : Statement (.vote d a v) := rfl
theorem shfl (d : BitVec 7) (a : BitVec 7) (b : BitVec 7) (v : ShflMode) : Statement (.shfl d a b v) := rfl
theorem vtos (d : BitVec 7) (a : BitVec 7) (f : Bool) (n : BitVec 5) : Statement (.vtos d a f n) := rfl
theorem stov (d : BitVec 7) (a : BitVec 7) : Statement (.stov d a) := rfl
theorem gred (d : BitVec 7) (a : BitVec 7) (o : RedOp) : Statement (.gred d a o) := rfl
theorem gscan (d : BitVec 7) (a : BitVec 7) (e : Bool) (o : RedOp) : Statement (.gscan d a e o) := rfl
theorem hmul (d : BitVec 7) (a : BitVec 7) (b : BitVec 7) : Statement (.hmul d a b) := rfl
theorem hconj (d : BitVec 7) (a : BitVec 7) : Statement (.hconj d a) := rfl
theorem hnorm (d : BitVec 7) (a : BitVec 7) : Statement (.hnorm d a) := rfl
theorem hfma (d : BitVec 7) (a : BitVec 7) (b : BitVec 7) : Statement (.hfma d a b) := rfl
theorem pnpk (d : BitVec 7) (a : BitVec 7) : Statement (.pnpk d a) := rfl
theorem pnunpk (d : BitVec 7) (a : BitVec 7) (c : Bool) (p : BitVec 3) : Statement (.pnunpk d a c p) := rfl
theorem pnexp (d : BitVec 7) (a : BitVec 7) (b : BitVec 7) (c : Bool) (p : BitVec 3) : Statement (.pnexp d a b c p) := rfl
theorem algld (d : BitVec 7) (a : BitVec 7) : Statement (.algld d a) := rfl
theorem ld (d : BitVec 7) (a : BitVec 7) (l : BitVec 4) (z : BitVec 3) (f : BitVec 4) : Statement (.ld d a l z f) := rfl
theorem st (d : BitVec 7) (a : BitVec 7) (l : BitVec 4) (z : BitVec 3) (f : BitVec 4) : Statement (.st d a l z f) := rfl
theorem lds (d : BitVec 7) (a : BitVec 7) (z : BitVec 3) (f : BitVec 4) : Statement (.lds d a z f) := rfl
theorem sts (d : BitVec 7) (a : BitVec 7) (z : BitVec 3) (f : BitVec 4) : Statement (.sts d a z f) := rfl
theorem ldl (d : BitVec 7) (a : BitVec 7) (z : BitVec 3) (f : BitVec 4) : Statement (.ldl d a z f) := rfl
theorem stl (d : BitVec 7) (a : BitVec 7) (z : BitVec 3) (f : BitVec 4) : Statement (.stl d a z f) := rfl
theorem pref (h : BitVec 7) (a : BitVec 7) (l : BitVec 4) (z : BitVec 3) (f : BitVec 4) : Statement (.pref h a l z f) := rfl
theorem atom (d : BitVec 7) (a : BitVec 7) (l : BitVec 4) (z : BitVec 3) (o : AtomOp) : Statement (.atom d a l z o) := rfl
theorem atoms (d : BitVec 7) (a : BitVec 7) (z : BitVec 3) (o : AtomOp) : Statement (.atoms d a z o) := rfl
theorem fence (f : Bool) (i : BitVec 5) : Statement (.fence f i) := rfl
theorem acqrm (d : BitVec 7) (a : BitVec 7) (l : BitVec 4) (z : BitVec 3) (f : BitVec 4) : Statement (.acqrm d a l z f) := rfl
theorem mcst (d : BitVec 7) (a : BitVec 7) (l : BitVec 4) (z : BitVec 3) (f : BitVec 4) : Statement (.mcst d a l z f) := rfl
theorem redld (d : BitVec 7) (a : BitVec 7) (l : BitVec 4) (z : BitVec 3) (f : BitVec 4) : Statement (.redld d a l z f) := rfl
theorem bar (m : Bool) (a : BitVec 7) (b : BitVec 2) : Statement (.bar m a b) := rfl
theorem barc : Statement (.barc) := rfl
theorem sigwait (d : BitVec 7) (a : BitVec 7) (l : BitVec 4) (f : BitVec 4) : Statement (.sigwait d a l f) := rfl
theorem sigwaitSatisfied (gid : Nat) : Statement (.sigwaitSatisfied gid) := rfl
theorem sigadd (a : BitVec 7) (b : BitVec 7) : Statement (.sigadd a b) := rfl
theorem waitc (k : BitVec 2) (s : BitVec 3) (n : BitVec 8) : Statement (.waitc k s n) := rfl
theorem xacq (r : Bool) (a : BitVec 7) (i : BitVec 11) : Statement (.xacq r a i) := rfl
theorem xacqGrant (gid : Nat) : Statement (.xacqGrant gid) := rfl
theorem xrel : Statement (.xrel) := rfl
theorem recld (d : BitVec 7) (a : BitVec 7) (s : BitVec 4) : Statement (.recld d a s) := rfl
theorem cpin (d : BitVec 7) (a : BitVec 7) (l : BitVec 4) (s : BitVec 4) (t : Bool) (g : Bool) : Statement (.cpin d a l s t g) := rfl
theorem cpout (d : BitVec 7) (a : BitVec 7) (l : BitVec 4) (s : BitVec 4) (t : Bool) (g : Bool) : Statement (.cpout d a l s t g) := rfl
theorem cpst (d : BitVec 7) (a : BitVec 7) (l : BitVec 4) (s : BitVec 4) (t : Bool) (g : Bool) : Statement (.cpst d a l s t g) := rfl
theorem cpgath (d : BitVec 7) (a : BitVec 7) (l : BitVec 4) (s : BitVec 4) (t : Bool) (g : Bool) : Statement (.cpgath d a l s t g) := rfl
theorem clampld (d : BitVec 7) (a : BitVec 7) (s : BitVec 4) (e : Bool) (c : Bool) (l : Bool) : Statement (.clampld d a s e c l) := rfl
theorem clampFillStart (core : Nat) : Statement (.clampFillStart core) := rfl
theorem clampFillComplete (core : Nat) : Statement (.clampFillComplete core) := rfl
theorem mma (d : BitVec 7) (a : BitVec 7) (p : BitVec 4) (b : BitVec 2) : Statement (.mma d a p b) := rfl
theorem mmar (d : BitVec 7) (a : BitVec 7) (p : BitVec 4) (b : BitVec 2) : Statement (.mmar d a p b) := rfl
theorem arrayStreamStart (core : Nat) : Statement (.arrayStreamStart core) := rfl
theorem arrayLastRowRead (core : Nat) : Statement (.arrayLastRowRead core) := rfl
theorem arrayLastAccumulatorWrite (core : Nat) : Statement (.arrayLastAccumulatorWrite core) := rfl
theorem accz (a : BitVec 7) : Statement (.accz a) := rfl
theorem accld (d : BitVec 7) (a : BitVec 7) (q : BitVec 2) (c : BitVec 5) : Statement (.accld d a q c) := rfl
theorem accst (d : BitVec 7) (a : BitVec 7) (q : BitVec 2) (c : BitVec 5) : Statement (.accst d a q c) := rfl
theorem omap (d : BitVec 7) (a : BitVec 7) (s : BitVec 4) : Statement (.omap d a s) := rfl
theorem launch (d : BitVec 7) (a : BitVec 7) (l : BitVec 4) : Statement (.launch d a l) := rfl
theorem launchPacketEntry (gid : Nat) : Statement (.launchPacketEntry gid) := rfl
theorem coll (d : BitVec 7) (a : BitVec 7) (l : BitVec 4) (g : CollOp) : Statement (.coll d a l g) := rfl
theorem collComplete (gid : Nat) (outcome : CollOutcome) : Statement (.collComplete gid outcome) := rfl
theorem ckfold (d : BitVec 7) (a : BitVec 7) (x : Bool) : Statement (.ckfold d a x) := rfl
theorem cktest (a : BitVec 7) (x : Bool) : Statement (.cktest a x) := rfl
theorem ckclr : Statement (.ckclr) := rfl
theorem boost (d : BitVec 7) (a : BitVec 7) : Statement (.boost d a) := rfl
theorem rdwear (d : BitVec 7) (a : BitVec 7) (k : BitVec 3) (f : BitVec 4) : Statement (.rdwear d a k f) := rfl
theorem rdlife (d : BitVec 7) (i : BitVec 11) : Statement (.rdlife d i) := rfl
theorem rdcnt (d : BitVec 7) (i : BitVec 11) : Statement (.rdcnt d i) := rfl
theorem rdtime (d : BitVec 7) : Statement (.rdtime d) := rfl
theorem tileb (a : BitVec 7) : Statement (.tileb a) := rfl
theorem tilee : Statement (.tilee) := rfl
theorem stampRecordWrite (core : Nat) (slot : Nat) : Statement (.stampRecordWrite core slot) := rfl
theorem mfsr (d : BitVec 7) (i : BitVec 11) : Statement (.mfsr d i) := rfl
theorem mtsr (a : BitVec 7) (i : BitVec 11) : Statement (.mtsr a i) := rfl
theorem ecall (i : BitVec 11) : Statement (.ecall i) := rfl
theorem eret : Statement (.eret) := rfl
theorem tlbi (a : BitVec 7) (k : BitVec 3) : Statement (.tlbi a k) := rfl
theorem longLatencyComplete (gid : Nat) (op : Nat) : Statement (.longLatencyComplete gid op) := rfl
theorem releaseLogProbe (core : Nat) (line : Nat) : Statement (.releaseLogProbe core line) := rfl
theorem replicaLockTimeout (part : Nat) (entry : Nat) : Statement (.replicaLockTimeout part entry) := rfl
theorem stashLineFill (tid : Nat) (line : Nat) : Statement (.stashLineFill tid line) := rfl
theorem groupGuarded (gid : Nat) : Statement (.groupGuarded gid) := rfl
theorem watchdogExpiry (gid : Nat) : Statement (.watchdogExpiry gid) := rfl
theorem registerWaitDeadlock (tid : Nat) : Statement (.registerWaitDeadlock tid) := rfl
theorem copyStart (core : Nat) : Statement (.copyStart core) := rfl
theorem copyComplete (core : Nat) : Statement (.copyComplete core) := rfl
theorem mcstDestinationWrite (gid : Nat) (rank : Nat) : Statement (.mcstDestinationWrite gid rank) := rfl
theorem redldResponse (gid : Nat) (lane : Nat) (value : BitVec 64) (reachable : Bool) : Statement (.redldResponse gid lane value reachable) := rfl
theorem algldComplete (gid : Nat) : Statement (.algldComplete gid) := rfl
theorem packetAccept (quad : Nat) (queue : Nat) : Statement (.packetAccept quad queue) := rfl
theorem dispatchDecision (part : Nat) : Statement (.dispatchDecision part) := rfl
theorem gangFence (part : Nat) : Statement (.gangFence part) := rfl
theorem teamRetire (tid : Nat) : Statement (.teamRetire tid) := rfl
theorem dependencyTimeout (part : Nat) (launch : Nat) : Statement (.dependencyTimeout part launch) := rfl
theorem intervalBoundary : Statement (.intervalBoundary) := rfl
theorem spareSwapOut (die : Nat) : Statement (.spareSwapOut die) := rfl
theorem boostThermalDrop (core : Nat) : Statement (.boostThermalDrop core) := rfl
theorem sliceEnd (vdev : Nat) : Statement (.sliceEnd vdev) := rfl
theorem unrwlimExpiry (tid : Nat) : Statement (.unrwlimExpiry tid) := rfl
theorem saveImageTaken (vdev : Nat) : Statement (.saveImageTaken vdev) := rfl
theorem admission (vdev : Nat) (part : Nat) : Statement (.admission vdev part) := rfl
theorem coreSetReplacement (vdev : Nat) (old : Nat) (new : Nat) : Statement (.coreSetReplacement vdev old new) := rfl
theorem carveApply (core : Nat) : Statement (.carveApply core) := rfl
theorem epochClose (vdev : Nat) : Statement (.epochClose vdev) := rfl
theorem checkpointPageStream (vdev : Nat) (page : Nat) : Statement (.checkpointPageStream vdev page) := rfl
theorem framePullComplete (vdev : Nat) (frame : Nat) (data : List Byte) : Statement (.framePullComplete vdev frame data) := rfl
theorem migrationSwitch (vdev : Nat) : Statement (.migrationSwitch vdev) := rfl
theorem migrationNotice (part : Nat) (old : Nat) (new : Nat) (handle : Nat) : Statement (.migrationNotice part old new handle) := rfl
theorem migrationAcknowledgement (part : Nat) (handle : Nat) (peer : Nat) : Statement (.migrationAcknowledgement part handle peer) := rfl
theorem forwardingExpiry (part : Nat) (handle : Nat) : Statement (.forwardingExpiry part handle) := rfl
theorem moduleReset : Statement (.moduleReset) := rfl
theorem boot : Statement (.boot) := rfl
theorem powerExitComplete (quad : Nat) : Statement (.powerExitComplete quad) := rfl
theorem sample (gid : Nat) : Statement (.sample gid) := rfl
theorem triggerStage (vdev : Nat) : Statement (.triggerStage vdev) := rfl
theorem powerLoss : Statement (.powerLoss) := rfl
theorem directoryRecall (line : Nat) : Statement (.directoryRecall line) := rfl
theorem patrolScrub (line : Nat) (finding : ScrubFinding) : Statement (.patrolScrub line finding) := rfl
theorem bankRefresh (core : Nat) (bench : Nat) (bank : Nat) : Statement (.bankRefresh core bench bank) := rfl
theorem launchPortWrite (quad : Nat) (port : Nat) (data : List Byte) : Statement (.launchPortWrite quad port data) := rfl
theorem monitorMeasurement (readings : List Nat) : Statement (.monitorMeasurement readings) := rfl
theorem forwardedAccess (part : Nat) (handle : Nat) (frame : Nat) : Statement (.forwardedAccess part handle frame) := rfl
theorem migrationSourceLost (vdev : Nat) : Statement (.migrationSourceLost vdev) := rfl
theorem fabricRequest (part : Nat) (access : ExternalAccess) : Statement (.fabricRequest part access) := rfl
theorem fabricLinkDown (part : Nat) (endpoints : List Nat) : Statement (.fabricLinkDown part endpoints) := rfl
theorem cxlLinkDown (port : Nat) : Statement (.cxlLinkDown port) := rfl
theorem counterLowRead (offset : Nat) : Statement (.counterLowRead offset) := rfl
theorem counterHighRead (offset : Nat) : Statement (.counterHighRead offset) := rfl
theorem hostRegisterWrite (offset : Nat) (data : List Byte) : Statement (.hostRegisterWrite offset data) := rfl
theorem createVdev (src : CommandSource) : Statement (.createVdev src) := rfl
theorem destroyVdev (src : CommandSource) : Statement (.destroyVdev src) := rfl
theorem launchCommand (src : CommandSource) : Statement (.launchCommand src) := rfl
theorem save (src : CommandSource) : Statement (.save src) := rfl
theorem restore (src : CommandSource) : Statement (.restore src) := rfl
theorem migrateOut (src : CommandSource) : Statement (.migrateOut src) := rfl
theorem migrateIn (src : CommandSource) : Statement (.migrateIn src) := rfl
theorem checkpointDisable (src : CommandSource) : Statement (.checkpointDisable src) := rfl
theorem checkpointRun (src : CommandSource) : Statement (.checkpointRun src) := rfl
theorem checkpointCloseNow (src : CommandSource) : Statement (.checkpointCloseNow src) := rfl
theorem setLife (src : CommandSource) : Statement (.setLife src) := rfl
theorem boostPolicy (src : CommandSource) : Statement (.boostPolicy src) := rfl
theorem attest (src : CommandSource) : Statement (.attest src) := rfl
theorem partition (src : CommandSource) : Statement (.partition src) := rfl
theorem carve (src : CommandSource) : Statement (.carve src) := rfl
theorem debugAttachAttach (src : CommandSource) : Statement (.debugAttachAttach src) := rfl
theorem debugAttachDetach (src : CommandSource) : Statement (.debugAttachDetach src) := rfl
theorem debugAttachStop (src : CommandSource) : Statement (.debugAttachStop src) := rfl
theorem debugAttachStep (src : CommandSource) : Statement (.debugAttachStep src) := rfl
theorem debugAttachSetSampling (src : CommandSource) : Statement (.debugAttachSetSampling src) := rfl
theorem debugAttachSetTriggers (src : CommandSource) : Statement (.debugAttachSetTriggers src) := rfl
theorem dump (src : CommandSource) : Statement (.dump src) := rfl
theorem dumpOpen (src : CommandSource) : Statement (.dumpOpen src) := rfl
theorem retirePage (src : CommandSource) : Statement (.retirePage src) := rfl
theorem factorTables (src : CommandSource) : Statement (.factorTables src) := rfl
theorem answerResume (src : CommandSource) : Statement (.answerResume src) := rfl
theorem answerAbort (src : CommandSource) : Statement (.answerAbort src) := rfl
theorem answerReplay (src : CommandSource) : Statement (.answerReplay src) := rfl
theorem answerDecline (src : CommandSource) : Statement (.answerDecline src) := rfl
theorem tablesSetS1root (src : CommandSource) : Statement (.tablesSetS1root src) := rfl
theorem tablesSetS2root (src : CommandSource) : Statement (.tablesSetS2root src) := rfl
theorem tablesInvalidate (src : CommandSource) : Statement (.tablesInvalidate src) := rfl
theorem tablesSetWindowGrant (src : CommandSource) : Statement (.tablesSetWindowGrant src) := rfl
theorem tablesSetReplicaEntry (src : CommandSource) : Statement (.tablesSetReplicaEntry src) := rfl
theorem tablesExtendMeasurement (src : CommandSource) : Statement (.tablesExtendMeasurement src) := rfl
theorem commsSetCommunicator (src : CommandSource) : Statement (.commsSetCommunicator src) := rfl
theorem commsRemoveCommunicator (src : CommandSource) : Statement (.commsRemoveCommunicator src) := rfl
theorem commsSetReductionGroup (src : CommandSource) : Statement (.commsSetReductionGroup src) := rfl
theorem commsRemoveReductionGroup (src : CommandSource) : Statement (.commsRemoveReductionGroup src) := rfl
theorem powerQuadrantRest (src : CommandSource) : Statement (.powerQuadrantRest src) := rfl
theorem powerDeepIdle (src : CommandSource) : Statement (.powerDeepIdle src) := rfl
theorem powerExit (src : CommandSource) : Statement (.powerExit src) := rfl
theorem logsFaultQueueState (src : CommandSource) : Statement (.logsFaultQueueState src) := rfl
theorem logsAdvanceTail (src : CommandSource) : Statement (.logsAdvanceTail src) := rfl
theorem logsReadEventLog (src : CommandSource) : Statement (.logsReadEventLog src) := rfl
theorem logsSetEventInterrupt (src : CommandSource) : Statement (.logsSetEventInterrupt src) := rfl
theorem logsClearCounters (src : CommandSource) : Statement (.logsClearCounters src) := rfl
theorem getVersion (request : SpdmRequest) : Statement (.getVersion request) := rfl
theorem getCapabilities (request : SpdmRequest) : Statement (.getCapabilities request) := rfl
theorem negotiateAlgorithms (request : SpdmRequest) : Statement (.negotiateAlgorithms request) := rfl
theorem getDigests (request : SpdmRequest) : Statement (.getDigests request) := rfl
theorem getCertificate (request : SpdmRequest) : Statement (.getCertificate request) := rfl
theorem challenge (request : SpdmRequest) : Statement (.challenge request) := rfl
theorem getMeasurements (request : SpdmRequest) : Statement (.getMeasurements request) := rfl
theorem keyExchange (request : SpdmRequest) : Statement (.keyExchange request) := rfl
theorem finish (request : SpdmRequest) : Statement (.finish request) := rfl
theorem endSession (request : SpdmRequest) : Statement (.endSession request) := rfl
theorem hostMemoryAccess (access : ExternalAccess) : Statement (.hostMemoryAccess access) := rfl
theorem pullRequest (part : Nat) (handle : Nat) (frame : Nat) : Statement (.pullRequest part handle frame) := rfl
theorem fabricRouteRestored (part : Nat) (endpoint : Nat) : Statement (.fabricRouteRestored part endpoint) := rfl
theorem haltRelease (vdev : Nat) : Statement (.haltRelease vdev) := rfl
theorem coreRetirement (die : Nat) (position : Nat) : Statement (.coreRetirement die position) := rfl

end Sys2Proof.Laws.WordCount
end

