-- ==== Sys2Proof/Tests/Slice0.lean ====
section
/-! SUPPORT. The tests of this model: words of the manual and of its encoding tables, terms that are not well formed, results that the manual
gives, and for each statement states that meet its hypotheses. -/

set_option maxRecDepth 100000

namespace Sys2Proof.Machine

/-! ### Helpers -/

/-- Whether an instruction issues with no check of R78 against it and no debugger near, and a condition holds of the state at issue. -/
def meets (s : State) (i : Instr) (p : State → Issue → Group → Bool) : Bool :=
  match s.issuing i with
  | some (x, g) => (precheck s x g i).isNone && (!g.stops.stepOne && !s.debugged g.tid && g.regs.soft.isEmpty &&
      (Store.find s.teams g.tid).all fun t => t.mem.spillUpset.isEmpty) && p (s.openIssue x) x g
  | none => false

theorem meets_issues {s : State} {i : Instr} {p : State → Issue → Group → Bool} (h : meets s i p = true) :
    ∃ x g, Issues s i x g ∧ Undisturbed s g ∧ p (s.openIssue x) x g = true := by
  unfold meets at h
  split at h
  · next x g hi =>
    simp only [Bool.and_eq_true, Bool.not_eq_true', Option.isNone_iff_eq_none, List.isEmpty_iff] at h
    obtain ⟨⟨hp, ⟨⟨hs, hd⟩, hr⟩, hu⟩, hc⟩ := h
    exact ⟨x, g, ⟨hi, hp⟩, ⟨hs, hd, hr, fun t ht => by rw [ht] at hu; simpa using hu⟩, hc⟩
  · cases h

/-- Whether a source gives a command that passes the checks that all commands share. -/
def commandRuns (s : State) (src : CommandSource) (op sub : Nat) : Bool :=
  s.given src && (match s.blockOf src with
    | some b => (commandFrom src b).op == op && subOf op b == sub && ((s.taken src).commonRefusal (commandFrom src b)).isNone
    | none => false)

theorem commandRuns_runs {s : State} {src : CommandSource} {op sub : Nat} (h : commandRuns s src op sub = true) : ∃ c, Runs s src op sub c := by
  unfold commandRuns at h
  split at h
  · next b hb =>
    simp only [Bool.and_eq_true, beq_iff_eq, Option.isNone_iff_eq_none] at h
    exact ⟨commandFrom src b, ⟨h.1, by rw [hb]; rfl, h.2.1.1, h.2.1.1 ▸ h.2.1.2⟩, h.2.2⟩
  · simp at h

/-- A state whose next issue is that of the first slot of its one group. -/
def demo : State :=
  let s := State.reset.withFetchWord 32 0
  { s with sched := { s.sched with issuer := some (0, 0) } }

/-- The same with another group, team or core. -/
def demoGroup (f : Group → Group) : State := demo.modGroup 0 f
def demoRegs (f : Regs → Regs) : State := demo.modRegs 0 f
def demoFlow (f : Flow → Flow) : State := demo.modFlow 0 f
def demoTeam (f : Team → Team) : State := { demo with teams := demo.teams.map fun t => (t.1, f t.2) }

/-- The same in the mode of binary32 elements. -/
def demoFloat : State := demoRegs fun r => { r with gmode := 0x40 }

/-- No condition. -/
def always : State → Issue → Group → Bool := fun _ _ _ => true

/-- The registers of the group after an instruction has completed. -/
def regsAfter (s : State) (i : Instr) : Option Regs := match exec i s with
  | .next t => t.regsOf 0
  | _ => none

/-- The flow of the group after an instruction has completed. -/
def flowAfter (s : State) (i : Instr) : Option Flow := match exec i s with
  | .next t => t.flowOf 0
  | _ => none

/-! ### Decoding: a word of every encoding of the opcode table, with its fields written from the table (R69 to R77) -/

theorem test_decode_control :
    decodeTableWord 32 0x00000000 = some (.nop) ∧
    decodeTableWord 32 0x021C0002 = some (.setmode false 7 0 2) ∧
    decodeTableWord 32 0x0400000F = some (.setgrd false 0 15) ∧
    decodeTableWord 32 0x1E0C0009 = some (.setmem false 3 0 9) ∧
    decodeTableWord 32 0x063FFFFB = some (.bra 0x3FFFFB) ∧
    decodeTableWord 32 0x087FFFFB = some (.brc 1 0x3FFFFB) ∧
    decodeTableWord 32 0x0B3FFFFB = some (.bru .lt 0x3FFFFB) ∧
    decodeTableWord 32 0x0C3FFFFB = some (.mark 0x3FFFFB) ∧
    decodeTableWord 32 0x0E000000 = some (.join) ∧
    decodeTableWord 32 0x1000A005 = some (.brp 0x14 5) ∧
    decodeTableWord 32 0x123FFFFB = some (.call 0x3FFFFB) ∧
    decodeTableWord 32 0x1400A000 = some (.ret 0x14) ∧
    decodeTableWord 32 0x1600A000 = some (.jmpr 0x14) ∧
    decodeTableWord 32 0x18000000 = some (.exit) ∧
    decodeTableWord 32 0x1A000005 = some (.flashpt 5) ∧
    decodeTableWord 32 0x1C000005 = some (.trap 5) ∧
    decodeTableWord 32 0x1C040005 = some (.bkpt 5) ∧
    decodeTableWord 32 0x1C080005 = some (.yield 5) := by and_intros <;> rfl

theorem test_decode_scalar :
    decodeTableWord 32 0x2030A080 = some (.sadd 12 0x14 8) ∧
    decodeTableWord 32 0x2030A081 = some (.ssub 12 0x14 8) ∧
    decodeTableWord 32 0x2030A082 = some (.smul 12 0x14 8) ∧
    decodeTableWord 32 0x2030A083 = some (.smulh 12 0x14 8) ∧
    decodeTableWord 32 0x2030A084 = some (.sand 12 0x14 8) ∧
    decodeTableWord 32 0x2030A085 = some (.sor 12 0x14 8) ∧
    decodeTableWord 32 0x2030A086 = some (.sxor 12 0x14 8) ∧
    decodeTableWord 32 0x2030A087 = some (.sshl 12 0x14 8) ∧
    decodeTableWord 32 0x2030A088 = some (.sshr 12 0x14 8) ∧
    decodeTableWord 32 0x2030A089 = some (.ssra 12 0x14 8) ∧
    decodeTableWord 32 0x2030A08A = some (.smin 12 0x14 8) ∧
    decodeTableWord 32 0x2030A08B = some (.smax 12 0x14 8) ∧
    decodeTableWord 32 0x2030A08C = some (.sminn 12 0x14 8) ∧
    decodeTableWord 32 0x2030A08D = some (.smaxn 12 0x14 8) ∧
    decodeTableWord 32 0x2230A005 = some (.saddi 12 0x14 5) ∧
    decodeTableWord 32 0x2430A005 = some (.sandi 12 0x14 5) ∧
    decodeTableWord 32 0x2630A005 = some (.sori 12 0x14 5) ∧
    decodeTableWord 32 0x2A00A082 = some (.scmp 0x14 8 .lt) ∧
    decodeTableWord 32 0x2C30A080 = some (.ssel 12 0x14 8) ∧
    decodeTableWord 32 0x2E30A143 = some (.sld 12 0x14 2 4 3) ∧
    decodeTableWord 32 0x3030A143 = some (.sst 12 0x14 2 4 3) ∧
    decodeTableWord 32 0x320C0001 = some (.mfs 3 1) ∧
    decodeTableWord 64 0x12345678281C0000 = some (.lit 7 0x12345678) := by and_intros <;> rfl

theorem test_decode_integer_1 :
    decodeTableWord 32 0x4030A080 = some (.iadd 12 0x14 8) ∧
    decodeTableWord 32 0x4030A081 = some (.isub 12 0x14 8) ∧
    decodeTableWord 32 0x4030A082 = some (.imul 12 0x14 8) ∧
    decodeTableWord 32 0x4030A083 = some (.imulh 12 0x14 8) ∧
    decodeTableWord 32 0x4030A084 = some (.imin 12 0x14 8) ∧
    decodeTableWord 32 0x4030A085 = some (.imax 12 0x14 8) ∧
    decodeTableWord 32 0x4030A006 = some (.iabs 12 0x14) ∧
    decodeTableWord 32 0x4030A007 = some (.ineg 12 0x14) ∧
    decodeTableWord 32 0x4030A088 = some (.iand 12 0x14 8) ∧
    decodeTableWord 32 0x4030A089 = some (.ior 12 0x14 8) ∧
    decodeTableWord 32 0x4030A08A = some (.ixor 12 0x14 8) ∧
    decodeTableWord 32 0x4030A00B = some (.inot 12 0x14) ∧
    decodeTableWord 32 0x4030A08C = some (.ishl 12 0x14 8) ∧
    decodeTableWord 32 0x4030A08D = some (.ishr 12 0x14 8) ∧
    decodeTableWord 32 0x4230A080 = some (.iaddScalarB 12 0x14 8) ∧
    decodeTableWord 32 0x4230A081 = some (.isubScalarB 12 0x14 8) ∧
    decodeTableWord 32 0x4230A082 = some (.imulScalarB 12 0x14 8) ∧
    decodeTableWord 32 0x4230A083 = some (.imulhScalarB 12 0x14 8) ∧
    decodeTableWord 32 0x4230A084 = some (.iminScalarB 12 0x14 8) ∧
    decodeTableWord 32 0x4230A085 = some (.imaxScalarB 12 0x14 8) ∧
    decodeTableWord 32 0x4230A088 = some (.iandScalarB 12 0x14 8) ∧
    decodeTableWord 32 0x4230A089 = some (.iorScalarB 12 0x14 8) ∧
    decodeTableWord 32 0x4230A08A = some (.ixorScalarB 12 0x14 8) ∧
    decodeTableWord 32 0x4230A08C = some (.ishlScalarB 12 0x14 8) := by and_intros <;> rfl

theorem test_decode_integer_2 :
    decodeTableWord 32 0x4230A08D = some (.ishrScalarB 12 0x14 8) ∧
    decodeTableWord 32 0x4430A080 = some (.imad 12 0x14 8) ∧
    decodeTableWord 32 0x4630A082 = some (.icmp 12 0x14 8 .lt) ∧
    decodeTableWord 32 0x4830A081 = some (.isel 12 0x14 8 1) ∧
    decodeTableWord 32 0x4A30A000 = some (.popc 12 0x14) ∧
    decodeTableWord 32 0x4A30A001 = some (.clz 12 0x14) ∧
    decodeTableWord 32 0x4A30A002 = some (.ctz 12 0x14) ∧
    decodeTableWord 32 0x4A30A003 = some (.brev 12 0x14) ∧
    decodeTableWord 32 0x4C30A081 = some (.bfe 12 0x14 8 true) ∧
    decodeTableWord 32 0x4E30A080 = some (.bfi 12 0x14 8) ∧
    decodeTableWord 32 0x5030A082 = some (.lea 12 0x14 8 2) ∧
    decodeTableWord 32 0x5230A005 = some (.iaddi 12 0x14 5) ∧
    decodeTableWord 32 0x5430A005 = some (.ishli 12 0x14 5) ∧
    decodeTableWord 32 0x5630A005 = some (.ishri 12 0x14 5) ∧
    decodeTableWord 32 0x5830A000 = some (.vmov 12 0x14) ∧
    decodeTableWord 32 0x5A33FFFB = some (.vli 12 0x3FFFB) := by and_intros <;> rfl

theorem test_decode_floating_1 :
    decodeTableWord 32 0x6030A080 = some (.fadd 12 0x14 8) ∧
    decodeTableWord 32 0x6030A081 = some (.fsub 12 0x14 8) ∧
    decodeTableWord 32 0x6030A082 = some (.fmul 12 0x14 8) ∧
    decodeTableWord 32 0x6030A083 = some (.fmin 12 0x14 8) ∧
    decodeTableWord 32 0x6030A084 = some (.fmax 12 0x14 8) ∧
    decodeTableWord 32 0x6030A005 = some (.fabs 12 0x14) ∧
    decodeTableWord 32 0x6030A006 = some (.fneg 12 0x14) ∧
    decodeTableWord 32 0x6030A087 = some (.fcopysign 12 0x14 8) ∧
    decodeTableWord 32 0x6230A080 = some (.faddScalarB 12 0x14 8) ∧
    decodeTableWord 32 0x6230A081 = some (.fsubScalarB 12 0x14 8) ∧
    decodeTableWord 32 0x6230A082 = some (.fmulScalarB 12 0x14 8) ∧
    decodeTableWord 32 0x6230A083 = some (.fminScalarB 12 0x14 8) ∧
    decodeTableWord 32 0x6230A084 = some (.fmaxScalarB 12 0x14 8) ∧
    decodeTableWord 32 0x6230A087 = some (.fcopysignScalarB 12 0x14 8) ∧
    decodeTableWord 32 0x6430A080 = some (.ffma 12 0x14 8) ∧
    decodeTableWord 32 0x6430A081 = some (.ffms 12 0x14 8) ∧
    decodeTableWord 32 0x6430A082 = some (.fnfma 12 0x14 8) ∧
    decodeTableWord 32 0x6630A082 = some (.fcmp 12 0x14 8 .lt) ∧
    decodeTableWord 32 0x6830A000 = some (.frcp 12 0x14) ∧
    decodeTableWord 32 0x6830A001 = some (.frsq 12 0x14) ∧
    decodeTableWord 32 0x6830A002 = some (.fsqrt 12 0x14) ∧
    decodeTableWord 32 0x6830A003 = some (.fexp2 12 0x14) ∧
    decodeTableWord 32 0x6830A004 = some (.flog2 12 0x14) ∧
    decodeTableWord 32 0x6830A005 = some (.fsin 12 0x14) := by and_intros <;> rfl

theorem test_decode_floating_2 :
    decodeTableWord 32 0x6830A006 = some (.fcos 12 0x14) ∧
    decodeTableWord 32 0x6830A087 = some (.fdiv 12 0x14 8) ∧
    decodeTableWord 32 0x6A30A002 = some (.fcvt 12 0x14 .f32) ∧
    decodeTableWord 32 0x6C30A000 = some (.fround 12 0x14) ∧
    decodeTableWord 32 0x6E30A000 = some (.fclass 12 0x14) := by and_intros <;> rfl

theorem test_decode_lanes :
    decodeTableWord 32 0x8030A080 = some (.pand 12 0x14 8) ∧
    decodeTableWord 32 0x8030A081 = some (.por 12 0x14 8) ∧
    decodeTableWord 32 0x8030A082 = some (.pxor 12 0x14 8) ∧
    decodeTableWord 32 0x8030A003 = some (.pnot 12 0x14) ∧
    decodeTableWord 32 0x8030A004 = some (.pmov 12 0x14) ∧
    decodeTableWord 32 0x8230A000 = some (.ballot 12 0x14) ∧
    decodeTableWord 32 0x8230A001 = some (.pfroms 12 0x14) ∧
    decodeTableWord 32 0x8430A001 = some (.vote 12 0x14 .any) ∧
    decodeTableWord 32 0x8630A083 = some (.shfl 12 0x14 8 .xor) ∧
    decodeTableWord 32 0x8830A090 = some (.vtos 12 0x14 false 9) ∧
    decodeTableWord 32 0x8A30A000 = some (.stov 12 0x14) ∧
    decodeTableWord 32 0x8C30A000 = some (.gred 12 0x14 .add) ∧
    decodeTableWord 32 0x8E30A008 = some (.gscan 12 0x14 true .add) := by and_intros <;> rfl

theorem test_decode_algebra :
    decodeTableWord 32 0x9030A080 = some (.hmul 12 0x14 8) ∧
    decodeTableWord 32 0x9230A000 = some (.hconj 12 0x14) ∧
    decodeTableWord 32 0x9430A000 = some (.hnorm 12 0x14) ∧
    decodeTableWord 32 0x9630A080 = some (.hfma 12 0x14 8) ∧
    decodeTableWord 32 0x9830A000 = some (.pnpk 12 0x14) ∧
    decodeTableWord 32 0x9A30A009 = some (.pnunpk 12 0x14 true 1) ∧
    decodeTableWord 32 0x9C30A089 = some (.pnexp 12 0x14 8 true 1) ∧
    decodeTableWord 32 0x9E30A000 = some (.algld 12 0x14) := by and_intros <;> rfl

theorem test_decode_memory :
    decodeTableWord 32 0xA030A143 = some (.ld 12 0x14 2 4 3) ∧
    decodeTableWord 32 0xA230A143 = some (.st 12 0x14 2 4 3) ∧
    decodeTableWord 32 0xA430A043 = some (.lds 12 0x14 4 3) ∧
    decodeTableWord 32 0xA630A043 = some (.sts 12 0x14 4 3) ∧
    decodeTableWord 32 0xA830A043 = some (.ldl 12 0x14 4 3) ∧
    decodeTableWord 32 0xAA30A043 = some (.stl 12 0x14 4 3) ∧
    decodeTableWord 32 0xAC04A113 = some (.pref 1 0x14 2 1 3) ∧
    decodeTableWord 32 0xAE30A140 = some (.atom 12 0x14 2 4 .add) ∧
    decodeTableWord 32 0xB030A040 = some (.atoms 12 0x14 4 .add) ∧
    decodeTableWord 32 0xB2040009 = some (.fence true 9) ∧
    decodeTableWord 32 0xB430A143 = some (.acqrm 12 0x14 2 4 3) ∧
    decodeTableWord 32 0xB630A143 = some (.mcst 12 0x14 2 4 3) ∧
    decodeTableWord 32 0xB830A143 = some (.redld 12 0x14 2 4 3) := by and_intros <;> rfl

theorem test_decode_engines :
    decodeTableWord 32 0xC004A001 = some (.bar true 0x14 1) ∧
    decodeTableWord 32 0xC2000000 = some (.barc) ∧
    decodeTableWord 32 0xC430A143 = some (.sigwait 12 0x14 2 3) ∧
    decodeTableWord 32 0xC600A080 = some (.sigadd 0x14 8) ∧
    decodeTableWord 32 0xC8040402 = some (.waitc 1 4 2) ∧
    decodeTableWord 32 0xCA000005 = some (.xacq false 0 5) ∧
    decodeTableWord 32 0xCC000000 = some (.xrel) ∧
    decodeTableWord 32 0xCE30A010 = some (.recld 12 0x14 2) ∧
    decodeTableWord 32 0xD030A113 = some (.cpin 12 0x14 2 2 true true) ∧
    decodeTableWord 32 0xD230A113 = some (.cpout 12 0x14 2 2 true true) ∧
    decodeTableWord 32 0xD430A113 = some (.cpst 12 0x14 2 2 true true) ∧
    decodeTableWord 32 0xD630A113 = some (.cpgath 12 0x14 2 2 true true) ∧
    decodeTableWord 32 0xD830A017 = some (.clampld 12 0x14 2 true true true) ∧
    decodeTableWord 32 0xDA30A050 = some (.mma 12 0x14 1 1) ∧
    decodeTableWord 32 0xDA30A051 = some (.mmar 12 0x14 1 1) ∧
    decodeTableWord 32 0xDC00A000 = some (.accz 0x14) ∧
    decodeTableWord 32 0xDC30A291 = some (.accld 12 0x14 1 9) ∧
    decodeTableWord 32 0xDC30A292 = some (.accst 12 0x14 1 9) ∧
    decodeTableWord 32 0xDE30A010 = some (.omap 12 0x14 2) := by and_intros <;> rfl

theorem test_decode_system :
    decodeTableWord 32 0xE030A100 = some (.launch 12 0x14 2) ∧
    decodeTableWord 32 0xE230A102 = some (.coll 12 0x14 2 .allReduce) ∧
    decodeTableWord 32 0xE430A001 = some (.ckfold 12 0x14 true) ∧
    decodeTableWord 32 0xE600A000 = some (.cktest 0x14 false) ∧
    decodeTableWord 32 0xE8000000 = some (.ckclr) ∧
    decodeTableWord 32 0xEA30A000 = some (.boost 12 0x14) ∧
    decodeTableWord 32 0xEC30A203 = some (.rdwear 12 0x14 2 3) ∧
    decodeTableWord 32 0xEE300005 = some (.rdlife 12 5) ∧
    decodeTableWord 32 0xF0300005 = some (.rdcnt 12 5) ∧
    decodeTableWord 32 0xF2300000 = some (.rdtime 12) ∧
    decodeTableWord 32 0xF400A000 = some (.tileb 0x14) ∧
    decodeTableWord 32 0xF6000000 = some (.tilee) ∧
    decodeTableWord 32 0xF8300005 = some (.mfsr 12 5) ∧
    decodeTableWord 32 0xFA00A005 = some (.mtsr 0x14 5) ∧
    decodeTableWord 32 0xFC000005 = some (.ecall 5) ∧
    decodeTableWord 32 0xFE000000 = some (.eret) ∧
    decodeTableWord 32 0xFE04A001 = some (.tlbi 0x14 1) := by and_intros <;> rfl

/-! ### Terms that are not well formed: one for each check of Instr.defect, which refuses it -/

theorem test_ill_formed_instructions :
    (Instr.setmode false 0 0 0).wellFormed = false ∧ (Instr.setmode true 1 5 1).wellFormed = false ∧
    (Instr.setmode false 1 5 1).wellFormed = false ∧ (Instr.setmode false 1 0 0x10).wellFormed = false ∧
    (Instr.setgrd true 5 1).wellFormed = false ∧ (Instr.setgrd false 5 1).wellFormed = false ∧ (Instr.setgrd false 0 2).wellFormed = false ∧
    (Instr.setmem false 0 0 0).wellFormed = false ∧ (Instr.setmem true 1 5 1).wellFormed = false ∧
    (Instr.setmem false 1 5 1).wellFormed = false ∧ (Instr.setmem false 1 0 8).wellFormed = false ∧
    (Instr.vtos 4 5 true 1).wellFormed = false ∧ (Instr.pnunpk 4 5 false 0).wellFormed = false ∧ (Instr.pnexp 4 5 6 false 0).wellFormed = false ∧
    (Instr.pref 3 5 0 0 0).wellFormed = false ∧ (Instr.pref 0 5 0 5 0).wellFormed = false ∧ (Instr.fence false 1).wellFormed = false ∧
    (Instr.bar false 5 0).wellFormed = false ∧ (Instr.xacq true 5 1).wellFormed = false ∧ (Instr.xacq false 5 1).wellFormed = false ∧
    (Instr.clampld 4 1 2 false true false).wellFormed = false ∧ (Instr.cktest 4 true).wellFormed = false ∧
    (Instr.rdwear 4 0 4 0).wellFormed = false ∧ (Instr.rdwear 4 0 0 9).wellFormed = false ∧ (Instr.rdwear 4 5 1 0).wellFormed = false ∧
    (Instr.tlbi 4 4).wellFormed = false := by and_intros <;> decide

theorem test_ill_formed_events :
    (Instr.brpSynchronise 3072).wellFormed = false ∧ (Instr.regroupReturn 192 0).wellFormed = false ∧ (Instr.regroupReturn 0 16).wellFormed = false ∧
    (Instr.groupExitRelease 24576).wellFormed = false ∧ (Instr.copyStart 192).wellFormed = false ∧ (Instr.bankRefresh 0 0 4).wellFormed = false ∧
    (Instr.stampRecordWrite 0 16).wellFormed = false ∧ (Instr.redldResponse 0 32 0 true).wellFormed = false ∧
    (Instr.packetAccept 4 0).wellFormed = false ∧ (Instr.dispatchDecision 4).wellFormed = false ∧ (Instr.sliceEnd 65).wellFormed = false ∧
    (Instr.admission 65 0).wellFormed = false ∧ (Instr.admission 0 4).wellFormed = false ∧ (Instr.save (.mailbox 4)).wellFormed = false ∧
    (Instr.dumpOpen (.guest 24576)).wellFormed = false ∧ (Instr.coreSetReplacement 1 0 192).wellFormed = false := by and_intros <;> decide

/-! ### States that meet the hypotheses of the statements -/

theorem witness_ScalarAluResult : (scalarAluTable.all fun op => meets demo (op.1 4 5 6) always) = true := by decide

theorem witness_ScalarMoveResult :
    ([.saddi 4 5 7, .sandi 4 5 7, .sori 4 5 7, .lit 7 0x12345678, .ssel 4 5 6, .scmp 1 2 .lt].all fun i => meets demo i always) = true := by decide

theorem witness_RegisterWrites : (127 : Nat) < 128 ∧ (31 : Nat) < 32 ∧ (120 : Nat) ≤ 127 ∧ (126 : Nat) ≠ 127 := by and_intros <;> decide

theorem witness_VectorAluResult :
    (vectorAluTable.all fun op => meets demo (op.1 4 5 6) always && meets demo (op.2.1 4 5 6) always) = true ∧
    31 / (intShape .i32).width < 32 / (intShape .i32).width + 1 ∧ 3 < 32 / (intShape .i8x4).width := by and_intros <;> decide

theorem witness_VectorAluOtherResult :
    (vectorAluOneTable.all fun op => meets demo (op.1 4 5) always) = true ∧
    ([.imad 4 5 6, .iaddi 4 5 7, .ishli 4 5 31, .ishri 4 5 32].all fun i => meets demo i always) = true := by and_intros <;> decide

theorem witness_VectorBitResult :
    ([.icmp 2 4 5 .lt, .isel 4 5 6 1, .popc 4 5, .clz 4 5, .ctz 4 5, .brev 4 5, .bfe 4 5 6 true, .bfi 4 5 6, .lea 4 5 6 15, .vmov 4 5,
      .vli 4 0x3FFFF].all fun i => meets demo i always) = true ∧ (1 : Word) ≠ 0 := by and_intros <;> decide

theorem witness_FloatResult :
    (floatAluTable.all fun op => meets demoFloat (op.1 4 5 6) always && meets demoFloat (op.2.1 4 5 6) always) = true ∧
    (floatOneTable.all fun op => meets demoFloat (op.1 4 5) always) = true ∧
    (fusedTable.all fun op => meets demoFloat (op.1 4 5 6) always) = true ∧
    ([.fdiv 4 5 6, .fcmp 2 4 5 .lt, .fclass 4 5, .fcvt 4 5 .f32, .fcvt 4 5 .i32].all fun i => meets demoFloat i always) = true := by and_intros <;> decide

/-- No lane is active: the guard takes the lanes of p0, which is empty. -/
def demoGuarded : State := demoRegs fun r => { r with gmode := 1 }

theorem witness_LaneExchange :
    (predicateTable.all fun op => meets demo (op.1 1 2 3) always) = true ∧
    ([.pnot 1 2, .pmov 1 2, .ballot 4 1, .pfroms 1 4, .vote 1 2 .any, .stov 4 5, .gred 4 5 .add, .gscan 4 5 false .add,
      .gscan 4 5 true .add].all fun i => meets demo i always) = true ∧
    meets demo (.shfl 5 6 3 .xor) (fun _ x g => (lanesIn x.act).all fun l =>
      g.regs.laneValid 6 (shflSource .xor l ((g.regs.vec 3).at l) (g.regs.sc 3))) = true ∧
    meets demo (.vtos 4 5 false 31) (fun _ _ g => g.regs.laneValid 5 31) = true ∧
    meets demoGuarded (.vtos 4 5 true 0) (fun _ x _ => (lanesIn x.act).isEmpty) = true ∧
    meets demo (.vtos 4 5 true 0) (fun _ x g => (lanesIn x.act).head? == some 0 && g.regs.laneValid 5 0) = true := by and_intros <;> decide

/-- s5 holds a value that no field of gmode admits. -/
def demoWild : State := demoRegs fun r => { r with s := [(5, 0x7F7)] }

theorem witness_ModeWrites :
    ([.nop, .setgrd false 0 15, .setgrd true 5 0].all fun i => meets demo i always) = true ∧
    meets demo (.setmode false 1 0 9) (fun _ _ _ => !modeReserved 1 9) = true ∧
    meets demoWild (.setmode true 3 5 0) (fun _ _ g => modeReserved 3 ((g.regs.sc 5).extractLsb' 0 11)) = true ∧
    meets demo (.setmem false 3 0 9) (fun _ _ _ => !memReserved 3 9) = true ∧
    meets demoWild (.setmem true 1 5 0) (fun _ _ g => memReserved 1 ((g.regs.sc 5).extractLsb' 0 5)) = true := by and_intros <;> decide

/-- A check pair of which k1 is 1 and k0 is 0. -/
def demoChecks (tolerance : Word) : State := demoRegs fun r => { r with k1 := 0x3FF0000000000000, s := [(7, tolerance)] }

theorem witness_CheckRegisters :
    ([.ckfold 1 4 true, .ckclr].all fun i => meets demo i always) = true ∧ meets demoFloat (.ckfold 0 4 false) always = true ∧
    meets demo (.cktest 0 true) (fun _ _ g => g.regs.k0 == g.regs.k1) = true ∧
    meets (demoChecks 0) (.cktest 0 true) (fun _ _ g => g.regs.k0 != g.regs.k1) = true ∧
    meets (demoChecks 0xBFF00000) (.cktest 6 false) (fun _ _ g => badTolerance (g.regs.sc64 6)) = true ∧
    meets (demoChecks 0x40000000) (.cktest 6 false) (fun _ _ g => !badTolerance (g.regs.sc64 6) && pairClose g.regs.k0 g.regs.k1 (g.regs.sc64 6)) = true ∧
    meets (demoChecks 0) (.cktest 6 false) (fun _ _ g => !badTolerance (g.regs.sc64 6) && !pairClose g.regs.k0 g.regs.k1 (g.regs.sc64 6)) = true := by and_intros <;> decide

/-! Control. -/

theorem witness_BranchResult :
    ([.bra 4, .bru .eq 4, .bru .ne 4, .call 4].all fun i => meets demo i fun _ x _ => x.mask != 0) = true := by decide

/-- p1 holds the lower half of the lanes. -/
def demoSplit (stack : List StackEntry) (other : Mask) : State :=
  (demoRegs fun r => { r with p := [(1, 0xFFFF)] }).modFlow 0 fun f =>
    { f with stack := stack, s0 := { f.s0 with mask := ~~~other }, s1 := { f.s1 with mask := other } }
def fullStack : List StackEntry := (List.range 32).map fun _ => .path 0x40 0x80000000

theorem witness_DivergenceResult :
    meets demo (.brc 1 4) (fun _ x g => x.mask != 0 && x.mask &&& g.regs.pred 1 == 0) = true ∧
    meets (demoSplit [] 0) (.brc 1 4) (fun _ x g =>
      x.mask &&& g.regs.pred 1 != 0 && x.mask &&& ~~~g.regs.pred 1 != 0 && decide (g.flow.stack.length + 0 ≤ 32)) = true ∧
    meets (demoSplit (fullStack.take 31) 0xFF000000) (.brc 1 4) (fun _ x g =>
      x.mask &&& g.regs.pred 1 != 0 && x.mask &&& ~~~g.regs.pred 1 != 0 && (g.flow.slot (1 - x.slot)).live && decide (g.flow.stack.length + 1 ≤ 32)) = true ∧
    meets (demoSplit fullStack 0xFF000000) (.brc 1 4) (fun _ x g =>
      x.mask &&& g.regs.pred 1 != 0 && x.mask &&& ~~~g.regs.pred 1 != 0 && (g.flow.slot (1 - x.slot)).live && decide (32 < g.flow.stack.length + 1)) = true ∧
    meets (demoSplit (fullStack.take 31) 0) (.mark 4) (fun _ x g => !(g.flow.slot (1 - x.slot)).live && decide (g.flow.stack.length + 0 + 1 ≤ 32)) = true ∧
    meets (demoSplit (fullStack.take 31) 0xFF) (.mark 4) (fun _ x g =>
      (g.flow.slot (1 - x.slot)).live && decide (32 < g.flow.stack.length + 1 + 1)) = true := by and_intros <;> decide

/-- A join entry of all lanes, of which the upper half has arrived. -/
def joinEntry : StackEntry := .join 0x100 0xFFFFFFFF 0xFFFF0000

theorem witness_JoinResult :
    meets demo .join (fun _ _ g => (splitJoin g.flow.stack).isNone) = true ∧
    meets (demoSplit [.path 0x40 1, joinEntry] 0xFFFFFFF0) .join (fun _ x g => match splitJoin g.flow.stack with
      | some (_, (_, member, arrived), _) => (arrived ||| (x.mask &&& member)) != member
      | none => false) = true ∧
    meets (demoSplit [joinEntry] 0) .join (fun _ x g => match splitJoin g.flow.stack with
      | some (_, (_, member, arrived), below) => (arrived ||| (x.mask &&& member)) == member && !g.flow.isRegion below && x.mask &&& ~~~member == 0
      | none => false) = true ∧
    meets (demoSplit [.join 0x100 0xFF 0xF0] 0) .join (fun _ x g => match splitJoin g.flow.stack with
      | some (_, (_, member, arrived), _) =>
        (arrived ||| (x.mask &&& member)) == member && x.mask &&& ~~~member != 0 && !(g.flow.slot (1 - x.slot)).live
      | none => false) = true ∧
    meets (demoSplit [.join 0x100 0xFF 0xF0] 0xFF000000) .join (fun _ x g => match splitJoin g.flow.stack with
      | some (_, (_, member, arrived), _) =>
        (arrived ||| (x.mask &&& member)) == member && x.mask &&& ~~~member != 0 && (g.flow.slot (1 - x.slot)).live
      | none => false) = true := by and_intros <;> decide

/-- v4 and v5 hold the targets of the lanes: the number of the lane, taken modulo a count, times a step. -/
def demoTargets (count step : Nat) (stack : List StackEntry) : State :=
  (demoRegs fun r => { r with v := [(4, lanesBy fun l => BitVec.ofNat 32 (l % count * step))] }).modFlow 0 fun f => { f with stack := stack }

theorem witness_IndirectJumpResult :
    ([Instr.ret 4, .jmpr 4].all fun i =>
      meets (demoTargets 2 6 []) i (fun _ x g => x.mask != 0 && (lanesIn x.mask).any fun l => g.regs.vecAddr 4 l % 4 != 0) &&
      meets (demoTargets 1 0 []) i (fun _ x g =>
        ((lanesIn x.mask).all fun l => g.regs.vecAddr 4 l % 4 == 0) &&
        (byTarget x.mask fun l => BitVec.ofNat 56 (g.regs.vecAddr 4 l)).length == 1) &&
      meets (demoTargets 4 8 []) i (fun _ x g =>
        ((lanesIn x.mask).all fun l => g.regs.vecAddr 4 l % 4 == 0) &&
        match byTarget x.mask fun l => BitVec.ofNat 56 (g.regs.vecAddr 4 l) with
        | u1 :: u2 :: more => u1.2 != 0 && u2.2 != 0 && decide (g.flow.stack.length + more.length ≤ 32)
        | _ => false) &&
      meets (demoTargets 4 8 fullStack) i (fun _ x g =>
        ((lanesIn x.mask).all fun l => g.regs.vecAddr 4 l % 4 == 0) &&
        match byTarget x.mask fun l => BitVec.ofNat 56 (g.regs.vecAddr 4 l) with
        | _ :: _ :: more => decide (32 < g.flow.stack.length + more.length)
        | _ => false)) = true := by decide

/-- The group has entries in its spill area, of which the words hold errors. -/
def demoSpilled (s : State) : State :=
  (s.modFlow 0 fun f => { f with stack := .join 0x100 0xFFFFFFFF 0 :: fullStack.take 5 }).modTeamMem 0 fun m => { m with spillUpset := upTo 112 }

theorem witness_ExitResult :
    meets demo .exit always = true ∧
    meets (demoFlow fun f => { f with s1 := { f.s0 with mask := 0xFF } }) .exit (fun s x g =>
      let f := (g.flow.setSlot x.slot { readyAt := x.ready + g.flow.removalCost x.mask }).removeLanes x.mask x.ready
      !s.spillBad x.gid f.stack && !f.atReturn && (f.slot 1).live && (f.slot 1).hold == .none) = true ∧
    (((demoSpilled demo).issuing .exit).map fun u => (precheck (demoSpilled demo) u.1 u.2 .exit).isNone &&
      ((demoSpilled demo).openIssue u.1).spillBad u.1.gid
        ((u.2.flow.setSlot u.1.slot { readyAt := u.1.ready + u.2.flow.removalCost u.1.mask }).removeLanes u.1.mask u.1.ready).stack) = some true ∧
    ((Store.find (demoFlow fun f => { f with s0 := {}, exited := true }).groups 0).map fun g =>
      g.flow.exited && !g.flow.region && g.eng.out.isEmpty && !g.unwritten && g.ops.all fun o => o.probing.isNone) = some true := by
  and_intros <;> decide

/-- The device of the group has a debugger. -/
def demoDebugged : State := { demo with vdevs := demo.vdevs.map fun v => (v.1, { v.2 with debugger := some { policy := 0, vendor := false } }) }

theorem witness_TrapAndYieldResult :
    ([.trap 5, .bkpt 5, .yield 2047].all fun i => meets demo i always) = true ∧
    (((demoDebugged.issuing (.bkpt 5)).map fun u => (precheck demoDebugged u.1 u.2 (.bkpt 5)).isNone && demoDebugged.debugged u.2.tid) = some true) ∧
    ((Store.find (demoFlow fun f => { f with yieldEnd := 1 }).groups 0).map fun g => g.flow.yieldEnd) = some 1 ∧
    1 ≤ ((demoFlow fun f => { f with yieldEnd := 1 }).core (coreOf 0)).clk + 1 := by and_intros <;> decide

/-- A flashback point. -/
def demoPoint : FlashPoint :=
  { pc := 0x40, recipe := 3, s0 := { mask := 0xFFFFFFFF }, s1 := {}, stack := [], gmode := 0x40, scc := 5, k0 := 0, k1 := 0 }

theorem witness_FlashbackPoint :
    meets (demoFlow fun f => { f with region := true, regionDepth := 0 }) (.flashpt 9) (fun _ _ g => g.flow.recipe.isNone && g.flow.region) = true ∧
    meets demo (.flashpt 9) (fun _ _ g => g.flow.recipe.isNone && !g.flow.region) = true ∧
    meets (demoFlow fun f => { f with recipe := some ⟨demoPoint⟩ }) (.flashpt 9) (fun _ _ g => g.flow.recipe == some ⟨demoPoint⟩) = true := by and_intros <;> decide

/-- The group is held at a BRP, and at the end of a regrouped region. -/
def demoAtBrp : State := demoFlow fun f => { f with s0 := { f.s0 with hold := .brp 0x40 zeroLanes 0 } }
def demoReturning : State := (demoFlow fun f => { f with region := true, atReturn := true, s0 := {} })

/-- Its lanes are at the JOIN of the region, each behind the regroup map. -/
def demoHome : State := demoFlow fun f =>
  { f with region := true, s0 := { f.s0 with pc := 0x40 }, home := [(0, 0)] }

theorem witness_RegroupResult :
    meets (demoFlow fun f => { f with region := true, stack := fullStack, s1 := f.s1 }) (.brp 4 3) (fun _ _ g => g.flow.region) = true ∧
    meets ((demoTargets 4 8 fullStack).modFlow 0 fun f => { f with region := true }) (.brp 4 3) (fun _ x g =>
      g.flow.region && (splitByTarget g.flow (pathOf (g.flow.slot (1 - x.slot))) (x.pc + 12) x.mask
        (fun l => x.pc + BitVec.ofInt 56 (4 * ((g.regs.vec 4).at l).toInt)) x.ready).isNone) = true ∧
    meets (demoFlow fun f => { f with region := true }) (.brp 4 3) (fun _ x g =>
      g.flow.region && (splitByTarget g.flow (pathOf (g.flow.slot (1 - x.slot))) (x.pc + 12) x.mask
        (fun l => x.pc + BitVec.ofInt 56 (4 * ((g.regs.vec 4).at l).toInt)) x.ready).isSome) = true ∧
    meets (demoFlow fun f => { f with s0 := { f.s0 with mask := 0xFFFF }, s1 := { f.s0 with mask := 0xFFFF0000, hold := .brp f.s0.pc zeroLanes 0 } }) (.brp 4 3)
      (fun _ x g => !g.flow.region && (g.flow.slot (1 - x.slot)).live && (g.flow.slot (1 - x.slot)).hold == .brp x.pc zeroLanes 0) = true ∧
    meets (demoFlow fun f => { f with s0 := { f.s0 with mask := 0xFFFF }, s1 := { f.s0 with mask := 0xFFFF0000 } }) (.brp 4 3)
      (fun _ x g => !g.flow.region && (g.flow.slot (1 - x.slot)).live && (g.flow.slot (1 - x.slot)).hold == .none) = true ∧
    meets demo (.brp 4 3) (fun _ x g => !g.flow.region && !(g.flow.slot (1 - x.slot)).live) = true ∧
    (demoGroup fun g => { g with
      flow := { g.flow with s0 := { g.flow.s0 with hold := .brp 0x40 zeroLanes 0 } }, stops := { g.stops with wait := .brp } }).brpReady 0 = true ∧
    (let g : List (Nat × Group) := demoAtBrp.groups
     (regroupOrder g 3).1 = [0] ∧ (regroupOrder g 3).2 = 1 ∧ (g[0]?).map (·.1) = some 0) ∧
    0 ∈ demoReturning.returnReady 0 0 ∧
    (let gs := demoHome.regionGroups 0 0
     ((Store.find demoHome.teams 0).map (·.mem.spillUpset)) = some [] ∧ (gs.map (·.1)).Nodup ∧ (gs.map fun kv => kv.2.number).Nodup ∧
     (∀ kv ∈ gs, Store.find demoHome.groups kv.1 = some kv.2 ∧ coreOf kv.1 = 0) ∧
     (∀ l, l < 32 → (regroupSources gs l).Perm (gs.map fun kv => kv.2.number)) ∧
     gs.length = 1 ∧ (regroupSources gs 0)[0]? = some 0 ∧
     (gs.all fun kv => kv.1 == 0 && kv.2.number == 0 && kv.2.flow.stack.isEmpty && !kv.2.flow.exited && kv.2.flow.s0.live && kv.2.flow.s0.pc == 0x40 &&
       kv.2.flow.s0.mask.getLsbD 0 && Store.get 32 kv.2.flow.home 0 == 0) = true) ∧
    ((Store.find demoReturning.groups 0).map fun g => g.tid == 0 && g.flow.region && g.flow.regionBench == 0 && g.flow.atReturn) = some true := by
  and_intros <;> decide

/-! Memory and synchronisation. -/

/-- An operation of the group as it stands after its issue. -/
def demoOp (kind : LongKind) : LongOp :=
  { kind := kind, serial := 0, pc := 0x40, slot := 0, mask := 0xFFFFFFFF, issueClk := 0, window := 3, regs := [], gmode := 0, destMask := 0xFFFFFFFF }
def demoOps (ops : List LongOp) : State := demoGroup fun g => { g with ops := ops, issued := 1 }

/-- The class counter of a kind of engine operation is full. -/
def demoCount (k n : Nat) : State :=
  demoGroup fun g => { g with eng := { g.eng with out := (List.range n).map fun i => { cls := k, serial := i } }, issued := n }

/-- A collective of the group writes the first lines of memory. -/
def demoColl : State := demo.modQuad 0 fun q => { q with colls :=
  [{ gid := 0, tid := 0, opSerial := 0, dest := 0, op := .broadcast, src := 0x1000, dst := 0, count := 64, comm := 0, root := 0, red := 0, etype := 4,
     core := 0, vdev := 1 }] }

/-- Lane l addresses byte l. -/
def demoBytes : State := demoRegs fun r => { r with v := [(6, lanesBy fun l => BitVec.ofNat 32 l)], s := [(6, 1)] }

/-- The accesses to global memory of R249 to R264. -/
def accessForms : List Instr :=
  [.ld 4 6 3 4 7, .st 4 6 3 4 7, .sld 4 6 3 4 7, .sst 4 6 3 4 7, .atom 4 6 3 4 .add, .acqrm 4 6 3 4 7, .redld 4 6 3 4 7]

theorem witness_AccessIssue :
    ((.pref 4 6 3 4 7 :: accessForms).all fun i => meets demo i fun s _ g =>
      (s.engineHolders 0 (s.globalLines 0 1 0 4) true).isEmpty && decide (g.eng.count 2 < 255)) = true ∧
    (accessForms.all fun i => meets demoBytes i always) = true ∧
    (accessForms.all fun i => meets demoColl i fun s _ _ => !(s.engineHolders 0 (s.globalLines 0 1 0 4) false).isEmpty) = true ∧
    meets (demoCount 2 255) (.redld 4 6 3 4 7) (fun _ _ g => decide (255 ≤ g.eng.count 2)) = true := by and_intros <;> decide

/-- The operation of a group that a completion names, and what holds of it. -/
def opHolds (s : State) (n : Nat) (p : Group → LongOp → Bool) : Bool :=
  match Store.find s.groups 0 with
  | some g => match g.ops.find? fun o => o.serial == n with
    | some o => p g o
    | none => false
  | none => false

/-- A REDLD of one lane to a page of the group's device. -/
def demoRedld : LongOp := { demoOp .redld with accesses := [{ lane := 5, addr := 0x10000 }] }

theorem witness_LongLatencyResult :
    opHolds (demoOps [{ demoOp .ld with done := true }]) 0 (fun g o => o.done || o.reported || demo.held g 0 o) = true ∧
    opHolds (demoOps [demoOp .ld]) 0 (fun g o => !(o.done || o.reported || demo.held g 0 o) && o.failure.isNone) = true ∧
    opHolds (demoOps [{ demoOp .ld with failure := some (.misaligned, 1) }]) 0
      (fun g o => !(o.done || o.reported || demo.held g 0 o) && o.failure == some (.misaligned, 1)) = true ∧
    ((Store.find (demoOps [demoRedld]).groups 0).map fun g => (g.ops.find? fun o => o.kind == .redld && !o.done && o.failure.isNone &&
      !(demoOps [demoRedld]).held g 0 o && o.accesses.any fun a => a.lane == 5) == some demoRedld) = some true ∧
    ((demoOps [demoRedld]).translate 0 1 0x10000 .read).isOk = true := by and_intros <;> decide

/-- The team has a stash, and its core a lane store of 4 units for each lane. -/
def demoStash (s : State) : State :=
  { s with teams := s.teams.map fun t => (t.1, { t.2 with id := { t.2.id with stashBytes := 4096 } }),
           cores := s.cores.map fun c => (c.1, { c.2 with lane := 4 }) }

/-- A lease covers the first line of the stash. -/
def demoLeased : State := (demoStash demo).modCore 0 fun c => { c with arr := { c.arr with leases := [{ serial := 0, gid := 0, tid := 0, lines := [0] }] } }


/-- The first line of the stash is bound to a page of global memory: one that is there, or one that is not. -/
def demoBound (va : Nat) : State := (demoStash demo).modTeam 0 fun t =>
  { t with mem := { t.mem with windows := [(0, { value := 0, offset := 0, length := 4096, va := va, readOnly := false })] } }
/-- A lease covers its absent first line; and, that line being present, it holds a store of the core's path. -/
def demoFillWaits : State := (demoBound 0x10000).modArr 0 fun a => { a with leases := [{ serial := 0, gid := 0, tid := 0, lines := [0] }] }
def demoPathHeld (s : State) : State :=
  ((s.modTeamMem 0 fun m => { m with lines := [(0, { phys := 0x10000, gpa := 0x10000 })] }).modArr 0 fun a =>
    { a with leases := [{ serial := 0, gid := 0, tid := 0, lines := [0] }] }).modMem 0 fun m =>
    { m with path := [{ gid := 0, tid := 0, pos := 1, addr := 0x10000, data := [1], vdev := 1, page := 0x10 }] }

/-- What a stash access of a group finds after its places: what holds it, and how its passes end. -/
structure StashSight where
  holds : Bool
  leased : Bool
  fault : Option FaultCode
  waiting : Nat
  pages : Nat
  deriving DecidableEq, Repr

/-- The operation that a stash form stands for, in the words of StashResult. -/
def stashSees (kind : LongKind) (n k : Nat) (s : State) (x : Issue) (g : Group) : Option StashSight :=
  let store : Bool := kind != .lds
  let data (l : Nat) : List Byte := if store then storeBytes (4 * k) (g.regs.laneWords 4 k l) else []
  match s.stashTargets x.tid g.regs 6 0 n data (lanesIn x.act) with
  | .error _ => none
  | .ok accs =>
    let op : LongOp :=
      { kind := kind, serial := g.issued, pc := x.pc, slot := x.slot, mask := x.mask, issueClk := x.clk, window := 0, regs := [],
        gmode := g.regs.gmode, sz := 4, dest := 4, destMask := x.act, dueClk := x.clk + 1, tile := g.eng.tag.map fun _ => g.eng.tagSlot,
        accesses := accs.map fun b => if kind = .sts then { b with data := b.data.take n } else b }
    let rel := op.releases && !op.idle
    let scope := s.stashScope op n
    let places := s.opPlaces g x.gid op
    let settled := s.settlePath x.core places
    let after := (g.ops.filter (s.follows g x.gid op)).map (·.serial) ++ s.engineHolders x.gid (accs.flatMap (s.accessLines n)) store
    let r := Pass.run (s.party x.tid x.gid) op op.accesses { s := if rel then settled.releaseAt x.core x.tid scope else settled }
    some {
      holds := !after.isEmpty || (rel && decide (2 ≤ scope) && s.pathWaits x.core) || (store && settled.pathTouches x.core places && !accs.isEmpty)
      leased := store && accs.any fun b => s.leasedBytes (b.addr / 2 ^ 32) (b.addr % 2 ^ 32) n
      fault := r.fault.map (·.2.1)
      waiting := r.left.length
      pages := r.pages.length }

def stashKinds : List (Instr × LongKind) := [(.lds 4 6 4 0, .lds), (.sts 4 6 4 0, .sts), (.atoms 4 6 4 .add, .atoms .add)]
/-- An ACQRM of the group that acquires is still open. -/
def demoAcquires (s : State) : State :=
  s.modGroup 0 fun g => { g with ops := [{ demoOp .acqrm with gmode := 0x80000 }], issued := 1 }
/-- Words of the stash of the team hold errors that cannot be corrected, or bytes of its lane store do. -/
def demoBadStash : State := (demoStash demo).modTeamMem 0 fun m => { m with upset := upTo 4 }
def demoBadLane : State := (demoStash demo).modTeamMem 0 fun m => { m with laneUpset := upTo 512 }
theorem witness_StashResult :
    (stashKinds.all fun i => meets (demoStash demoBytes) i.1 fun _ x g => (lanesIn x.act).any fun l => !offsetAligned ((g.regs.vec 6).at l) 0 4) = true ∧
    (stashKinds.all fun i => meets demo i.1 fun s x g => match s.stashTargets x.tid g.regs 6 0 4 (fun _ => []) (lanesIn x.act) with
      | .error _ => true
      | .ok _ => false) = true ∧
    (stashKinds.all fun i => meets (demoStash demo) i.1 fun s x g => stashSees i.2 4 1 s x g == some ⟨false, false, none, 0, 0⟩) = true ∧
    (stashKinds.all fun i => meets (demoAcquires (demoStash demo)) i.1 fun s x g => (stashSees i.2 4 1 s x g).map (·.holds) == some true) = true ∧
    ((stashKinds.drop 1).all fun i => meets demoLeased i.1 fun s x g =>
      (stashSees i.2 4 1 s x g).map (fun r => (r.holds, r.leased)) == some (false, true)) = true ∧
    ([stashKinds.head?, stashKinds.getLast?].all fun i => i.any fun i => meets demoBadStash i.1 fun s x g =>
      (stashSees i.2 4 1 s x g).map (fun r => (r.holds, r.leased, r.fault)) == some (false, false, some .uncorrectable)) = true ∧
    (stashKinds.all fun i => meets demoFillWaits i.1 fun s x g =>
      (stashSees i.2 4 1 s x g).map (fun r => (r.holds, r.leased || decide (0 < r.waiting))) == some (false, true)) = true ∧
    (stashKinds.all fun i => meets (demoBound 0x10000) i.1 fun s x g =>
      (stashSees i.2 4 1 s x g).map (fun r => (r.holds, r.leased, r.fault, r.waiting)) == some (false, false, none, 0)) = true ∧
    (stashKinds.all fun i => meets (demoBound 0x7000000) i.1 fun s x g =>
      (stashSees i.2 4 1 s x g).map (fun r => (r.holds, r.leased, r.fault, r.waiting, decide (0 < r.pages))) == some (false, false, none, 0, true)) = true ∧
    ([Instr.ldl 4 6 4 7, .stl 4 6 4 7].all fun i =>
      meets (demoStash demoBytes) i (fun _ x _ => (lanesIn x.act).any fun l => (l + 28) % 4 != 0) &&
      meets demo i (fun s x _ => decide ((s.core x.core).lane * 16 < 28 + 4)) &&
      meets (demoStash demo) i (fun s x _ => decide (28 + 4 ≤ (s.core x.core).lane * 16))) = true ∧
    ([(demoStash demo, false), (demoBadLane, true)].all fun v => meets v.1 (.ldl 4 6 4 7) fun s x g => (Store.find s.teams x.tid).any fun t =>
      ((lanesIn x.act).any fun l => upsetIn t.mem.laneUpset ((Store.get g.number g.flow.home l * 32 + l) * 512 + 28) 4) == v.2) = true := by
  and_intros <;> decide

theorem witness_FenceResult :
    meets demo (.fence true 2) always = true ∧ meets demo (.fence true 26) (fun _ _ g => !g.ops.any fun e => !e.done && e.isAccess) = true ∧
    meets (demoOps [demoOp .st]) (.fence true 26) (fun _ _ g => g.ops.any fun e => !e.done && e.isAccess) = true ∧
    meets (demoPathHeld demo) (.fence true 26) (fun s x g => (!g.ops.any fun e => !e.done && e.isAccess) && s.pathWaits x.core) = true ∧
    meets (demoRegs fun r => { r with gmode := 0x180000 }) (.fence false 0) (fun _ _ g => memOrder g.regs.gmode == 3) = true := by and_intros <;> decide

/-- The destination mask of MCST in s7. -/
def demoCast (s : State) (m : Word) : State := s.modRegs 0 fun r => { r with s := [(7, m)] }

/-- A multicast of lane 0 that has the team itself to write. -/
def demoMcst : LongOp := { demoOp .mcst with destMask := 1, accesses := [{ lane := 0, addr := 8, data := [1, 2, 3, 4] }] }

/-- The operations that a multicast of word 6 to some destinations must not pass. -/
def castAfter (s : State) (x : Issue) (g : Group) (t : Team) (m : Nat) : List Nat :=
  let far : List (Nat × Nat) := (lanesIn (BitVec.ofNat 32 m)).flatMap fun r => match s.peerTeam t.id r with
    | some u => (lanesIn x.act).map fun k => (u.1, k * 4)
    | none => []
  let bytes := far.flatMap fun u => s.stashPlaces u.1 u.2 4
  let rel := releases (memOrder g.regs.gmode)
  (if x.act = 0 then [] else s.before x.gid g { serial := g.issued, writes := true, releases := rel, places := bytes }) ++
    s.engineHolders x.gid (far.flatMap fun u => s.stashLines u.1 u.2 4) true

theorem witness_MulticastResult :
    meets (demoCast (demoCount 2 255) 1) (.mcst 4 6 3 4 0) (fun _ _ g => decide (255 ≤ g.eng.count 2)) = true ∧
    meets (demoCast demo 2) (.mcst 4 6 3 4 0) (fun s x g => match Store.find s.teams x.tid with
      | some t => (mcstFault t.id 4 0 (g.regs.sc 6) 2 x.act).isSome && !(decide (255 ≤ g.eng.count 2)) && (castAfter s x g t 2).isEmpty && !releases (memOrder g.regs.gmode)
      | none => false) = true ∧
    meets (demoStash (demoCast demo 0)) (.mcst 4 6 3 4 0) (fun s x g => match Store.find s.teams x.tid with
      | some t => (mcstFault t.id 4 0 (g.regs.sc 6) 0 x.act).isNone && !(decide (255 ≤ g.eng.count 2)) && (castAfter s x g t 0).isEmpty && !releases (memOrder g.regs.gmode)
      | none => false) = true ∧
    meets (demoStash (demoCast demo 1)) (.mcst 4 6 3 4 0) (fun s x g => match Store.find s.teams x.tid with
      | some t => (mcstFault t.id 4 0 (g.regs.sc 6) 1 x.act).isNone && x.act != 0 && !(decide (255 ≤ g.eng.count 2)) &&
        (castAfter s x g t 1).isEmpty && !releases (memOrder g.regs.gmode)
      | none => false) = true ∧
    meets (demoAcquires (demoStash (demoCast demo 1))) (.mcst 4 6 3 4 0) (fun s x g => match Store.find s.teams x.tid with
      | some t => !(decide (255 ≤ g.eng.count 2)) && !(castAfter s x g t 1).isEmpty
      | none => false) = true ∧
    opHolds (demoOps [demoMcst]) 0 (fun _ o => o.kind == .mcst && o.destMask.getLsbD 0) = true ∧
    (((Store.find (demoStash (demoOps [demoMcst])).teams 0).bind fun t => (demoStash (demoOps [demoMcst])).peerTeam t.id 0).map (·.1)) = some 0 ∧
    (((demoStash (demoOps [demoMcst])).mcstLanes 0 4 (fun l => demoMcst.covers (128 * l) 128) demoMcst.accesses).map (·.2)) = some none ∧
    ((Store.find (demoStash (demoOps [demoMcst])).groups 0).map fun g => g.ops.filter ((demoStash (demoOps [demoMcst])).mcstOpen g 1000 0)) =
      some [demoMcst] ∧
    ((((demoBound 0x7000000).modGroup 0 fun g => { g with ops := [demoMcst], issued := 1 }).mcstLanes 0 4 (fun l => demoMcst.covers (128 * l) 128) demoMcst.accesses).map
      fun r => r.2.isSome) = some true := by and_intros <;> decide

theorem witness_BarrierResult :
    meets demo (.bar true 6 1) (fun _ _ g => g.regs.sc 6 &&& allGroups 1 &&& groupBit g.number == 0) = true ∧
    ([Instr.bar false 0 1, .barc].all fun i => meets demo i (fun _ _ g => allGroups 1 &&& groupBit g.number != 0 && !g.mustWait true) &&
      meets (demoOps [demoOp .st]) i (fun _ _ g => g.mustWait true)) = true ∧
    meets demo .barc (fun s x g => !(g.mustWait true || s.pathWaits x.core)) = true ∧
    meets (demoPathHeld demo) .barc (fun s x g => !g.mustWait true && s.pathWaits x.core) = true ∧
    (Store.find demo.teams 0).isSome = true := by and_intros <;> decide

/-- The group is held at barrier 2, which every participant has reached. -/
def demoBar : State :=
  (demoTeam fun t => { t with sync := { t.sync with barriers := [(2, { participants := 1, arrived := 1 })] } }).modFlow 0 fun f =>
    { f with s0 := { f.s0 with hold := .bar 2 1 } }

theorem witness_BarrierCompletes :
    ((Store.find demoBar.teams 0).map fun t => decide (((Store.get {} t.sync.barriers 2).arrived ≠ 0) ∧
      (Store.get {} t.sync.barriers 2).participants &&& ~~~((Store.get {} t.sync.barriers 2).arrived ||| t.sync.exited) = 0)) = some true ∧
    ((Store.find demoBar.groups 0).map fun g => g.tid == 0 && !g.flow.exited && g.flow.allHeld (atBar 2) && g.flow.s0.live) = some true ∧
    (demoBar.groups.map (·.1)).Nodup ∧ demoBar.exitsWrite 0 = false ∧
    ((Store.find demo.teams 0).map fun t => decide (({ participants := 3, arrived := 1 } : Barrier).participants &&&
      ~~~(1 ||| t.sync.exited) ≠ 0)) = some true ∧
    ((demoOps [demoOp .st]).modFlow 0 fun f => { f with exited := true, s0 := {} }).exitsWrite 0 = true := by and_intros <;> decide

/-- A record of rank 1 with one element of one byte, and the 64 bytes of one. -/
def demoRecord : TensorRecord :=
  { base := 0x10000, sizes := [1, 1, 1, 1, 1], strides := [0, 0, 0, 0], boxes := [0, 0, 0, 0, 0], planes := 0, fmt := 0, rank := 1,
    noreplicate := false, edge := false, scales := 0 }
def recordBytes : List Byte :=
  [0, 0, 1, 0, 0, 0, 0, 0, 1, 0, 0, 0, 1, 0, 0, 0, 1, 0, 0, 0, 1, 0, 0, 0, 1, 0, 0, 0] ++ List.replicate 26 0 ++ [0x10] ++ List.replicate 9 0

/-- The group is the producer of its team, which has a stash and a record in slot 2. -/
def demoCopy : State :=
  (demoStash demo).modTeam 0 fun t => { t with mem := { t.mem with records := [(2, demoRecord)] }, sync := { t.sync with producer := some 0 } }
/-- A copy of the group, and one in the queue of its core. -/
def copyOf (kind : CopyKind) : CopyOp :=
  { kind := kind, serial := 0, gid := 0, tid := 0, opSerial := 0, dest := 4, stream := false, sig := false, record := some demoRecord,
    block := [], issueClk := 0 }
def demoQueue (s : State) (l : List CopyOp) (clk : Nat) : State := s.modCore 0 fun c => { c with copies := l, clk := clk }
/-- The operand that places a copy or a record at byte 4 of the stash. -/
def demoAt (s : State) (w : Word) : State := s.modRegs 0 fun r => { r with s := [(6, w)] }
/-- The group issues for a tile. -/
def demoTiled (s : State) : State := s.modEng 0 fun e => { e with tag := some 9 }

/-- The team has a peer of rank 1 on the next core, which s6 names, and some operations of class 3. -/
def demoPeer (n : Nat) : State :=
  let s := demoStash (demoCount 3 n)
  let own : TeamId := { vdev := 1, part := 0, launch := 0, number := 0, cluster := 0, rank := 0, width := 2, groups := 1, entry := 0x10000, stashBytes := 4096 }
  { (s.modRegs 0 fun r => { r with s := [(6, 0x20000000)] }) with teams := [(0, { id := own }), (16, { id := { own with number := 1, rank := 1 } })] }

/-- The operations that a SIGADD on the first word of the team's stash must not pass, and whether the path of its core holds it. -/
def addAfter (s : State) (x : Issue) (g : Group) : List Nat :=
  let o : LongOp :=
    { kind := .atoms .add, serial := g.issued, pc := x.pc, slot := x.slot, mask := x.mask, issueClk := x.clk, window := 0, regs := [],
      gmode := g.regs.gmode, sz := 4, destMask := 1, accesses := [{ lane := 0, addr := 0 }], tile := g.eng.tag.map fun _ => g.eng.tagSlot }
  let places := s.opPlaces g x.gid o
  (g.ops.filter (s.follows g x.gid o)).map (·.serial) ++ s.engineHolders x.gid (s.stashLines 0 0 4) true ++
    (if (s.settlePath x.core places).pathTouches x.core places && !s.leasedBytes 0 0 4 then [g.issued] else [])

/-- A SIGWAIT on the first word of the stash. -/
def demoSignal : LongOp := { demoOp .sigwait with accesses := [{ lane := 0, addr := 0 }] }

theorem witness_SignalWaitResult :
    meets (demoStash demoBytes) (.sigwait 4 6 3 0) (fun _ _ g => g.eng.tag.isNone && !offsetAligned (g.regs.sc 6) 0 4) = true ∧
    meets demo (.sigwait 4 6 3 0) (fun s x g => g.eng.tag.isNone && offsetAligned (g.regs.sc 6) 0 4 &&
      !(s.stashTarget x.tid (g.regs.sc 6) 0 4).isOk) = true ∧
    meets (demoStash demo) (.sigwait 4 6 3 0) (fun s x g => g.eng.tag.isNone && offsetAligned (g.regs.sc 6) 0 4 &&
      (s.stashTarget x.tid (g.regs.sc 6) 0 4).isOk && (s.engineHolders x.gid (s.stashLines 0 0 4) false).isEmpty) = true ∧
    meets (demoTiled (demoStash (demoRegs fun r => { r with s := [(4, 5)] }))) (.sigwait 4 6 3 0) (fun s x g => g.eng.tag.isSome &&
      !signalMet (BitVec.ofNat 32 (numOf (s.stashBytes 0 0 4))) (g.regs.sc 4) && offsetAligned (g.regs.sc 6) 0 4 &&
      (s.stashTarget x.tid (g.regs.sc 6) 0 4).isOk && (s.engineHolders x.gid (s.stashLines 0 0 4) false).isEmpty) = true ∧
    meets (demoQueue demoCopy [copyOf .cpin] 0) (.sigwait 4 6 3 0) (fun s x g => offsetAligned (g.regs.sc 6) 0 4 &&
      (s.stashTarget x.tid (g.regs.sc 6) 0 4).isOk && !(s.engineHolders x.gid (s.stashLines 0 0 4) false).isEmpty) = true ∧
    (((Store.find (demoOps [{ demoSignal with probing := some 7 }]).groups 0).bind fun g => g.sigwaitDone 0).map (·.serial)) = some 0 ∧
    (((Store.find (demoStash (demoOps [demoSignal])).groups 0).bind fun g =>
      if (g.sigwaitDone 0).isNone then (demoStash (demoOps [demoSignal])).sigwaitReady 0 g 0 else none).map (·.signal)) = some (some (0, 0)) ∧
    ((demoStash (demoOps [demoSignal])).stashAccess .lds 0 0 0 4 []).isOk = true := by and_intros <;> decide

theorem witness_SignalAddResult :
    meets (demoStash demoBytes) (.sigadd 6 5) (fun _ _ g => !offsetAligned (g.regs.sc 6) 0 4) = true ∧
    meets demo (.sigadd 6 5) (fun s x g => !(s.stashTarget x.tid (g.regs.sc 6) 0 4).isOk) = true ∧
    meets (demoStash (demoOps [{ demoOp .acqrm with gmode := 0x80000 }])) (.sigadd 6 5) (fun s x g =>
      (s.stashTarget x.tid (g.regs.sc 6) 0 4).isOk && !(addAfter s x g).isEmpty) = true ∧
    meets demoLeased (.sigadd 6 5) (fun s x g => s.leasedBytes 0 0 4 && (addAfter s x g).isEmpty && !releases (memOrder g.regs.gmode)) = true ∧
    meets (demoPeer 255) (.sigadd 6 5) (fun s x g => match s.stashTarget x.tid (g.regs.sc 6) 0 4 with
      | .ok (t, _) => t != x.tid && decide (255 ≤ g.eng.count 3)
      | .error _ => false) = true ∧
    meets (demoPeer 0) (.sigadd 6 5) (fun s x g => match s.stashTarget x.tid (g.regs.sc 6) 0 4 with
      | .ok (t, k) => t != x.tid && decide (g.eng.count 3 < 255) && !s.leasedBytes t k 4 && (g.ops.isEmpty && !releases (memOrder g.regs.gmode)) &&
        (s.engineHolders x.gid (s.stashLines t k 4) true).isEmpty && (s.stashAccess (.atoms .add) 0 t k 4 [0, 0, 0, 0]).isOk
      | .error _ => false) = true ∧
    meets (demoStash demo) (.sigadd 6 5) (fun s x g => !s.leasedBytes 0 0 4 && (addAfter s x g).isEmpty && !releases (memOrder g.regs.gmode) &&
      (s.stashAccess (.atoms .add) 0 0 0 4 [0, 0, 0, 0]).isOk) = true := by and_intros <;> decide

theorem witness_WaitCountResult :
    meets (demoCount 3 2) (.waitc 3 2 1) (fun _ _ g => decide (1 < g.eng.count 3)) = true ∧
    meets (demoGroup fun g => { g with eng := { g.eng with f := [(3, 9)] } }) (.waitc 3 2 0) (fun _ _ g =>
      decide (g.eng.count 3 ≤ 0) && Store.find g.eng.f 3 == some 9) = true ∧
    meets (demoCount 3 1) (.waitc 3 2 1) (fun _ _ g => decide (g.eng.count 3 ≤ 1) && (Store.find g.eng.f 3).isNone) = true := by and_intros <;> decide

/-- The team may hold extended registers, and a bench keeps some blocks. -/
def demoCeil (free ext : Nat) : State :=
  ((demoTeam fun t => { t with id := { t.id with extCeil := 88 } }).modBench 0 fun b => { b with poolFree := free }).modRegs 0 fun r => { r with ext := ext }

theorem witness_ExtendedRegisters :
    meets demo (.xacq true 5 0) (fun _ _ g => g.regs.sc 5 == 0) = true ∧
    meets demo (.xacq false 0 11) (fun s x _ => ((Store.find s.teams x.tid).map (·.id.extCeil)) == some 0) = true ∧
    meets (demoCeil 32 0) (.xacq false 0 11) (fun s x g => g.regs.ext == 0 &&
      mayGrant ((s.bench (x.gid / 8)).freeAt x.clk) 11 ((s.bench (x.gid / 8)).acq.head?.map (·.n))) = true ∧
    meets (demoCeil 3 0) (.xacq false 0 4) (fun s x g => g.regs.ext == 0 &&
      !mayGrant ((s.bench (x.gid / 8)).freeAt x.clk) 4 ((s.bench (x.gid / 8)).acq.head?.map (·.n))) = true ∧
    meets demo .xrel (fun _ _ g => g.regs.ext == 0) = true ∧ meets (demoCeil 32 2) .xrel (fun _ _ g => g.regs.ext != 0) = true ∧
    ((((demoCeil 8 0).modBench 0 fun b => { b with acq := [⟨0, 4, 0⟩] }).bench 0).nextGrant 0).map (·.gid) = some 0 := by and_intros <;> decide

/-- The group has waited in park for 5 µs on a device whose watchdog is 2 µs. -/
def demoLate : State :=
  (demoGroup fun g => { g with stops := { g.stops with wait := .waitc 0 0 0, waitUs := 5 } }).modVdev 1 fun v => { v with ctx := { v.ctx with ctl := 0x200000000 } }

theorem witness_WaitEvents :
    ((Store.find (demoTeam fun t => { t with sync := { t.sync with deadlockTimer := 1024 } }).teams 0).map (·.sync.deadlockTimer)) = some 1024 ∧
    ((Store.find demo.groups 0).map fun g => demo.overdue g) = some false ∧
    ((Store.find demoLate.groups 0).map fun g => demoLate.overdue g) = some true ∧
    ((Store.find demo.groups 0).map fun g => decide (g.time.readySince + 32 ≤ ((demo.modCore 0 fun c => { c with clk := 40 }).core (coreOf 0)).clk)) =
      some true := by and_intros <;> decide

/-! Copies, collectives and the array. -/

def copyForms : List (Instr × CopyKind) :=
  [(.cpin 4 8 3 2 false true, .cpin), (.cpout 4 8 3 2 false true, .cpout), (.cpst 4 8 3 2 false true, .cpst), (.cpgath 4 8 3 2 false true, .cpgath)]

/-- The stash of the team begins with some bytes. -/
def putStash (s : State) (b : List Byte) : State := s.modTeamMem 0 fun m => { m with stash := stashWrites m.stash 0 b }

/-- What row 4 of R300 finds for a copy form. -/
def copyBad (s : State) (g : Group) (kind : CopyKind) : Option FaultCode :=
  ((Store.find s.teams 0).bind fun t => t.mem.recordAt 0 2).bind fun r => s.copyFault 0 (copyPlaces kind (g.regs.scWords 8 8) r true)

/-- The operations of the group that a read of 64 bytes of the stash at the offset of word 6 must not pass. -/
def readAfter (s : State) (x : Issue) (g : Group) : List Nat :=
  s.before x.gid g { serial := g.issued, reads := true, places := s.stashPlaces x.tid (g.regs.sc 6).toNat 64 } ++
    s.engineHolders x.gid (s.stashLines x.tid (g.regs.sc 6).toNat 64) false
/-- The stash after that read has seen to its lines, with what fails of it. -/
def readTouch (s : State) (x : Issue) (g : Group) : State × Option AccessFail :=
  (s.settlePath x.core (s.stashPlaces x.tid (g.regs.sc 6).toNat 64)).touch x.tid (g.regs.sc 6).toNat 64 false

theorem witness_CopyIssue :
    (copyForms.all fun f => meets demo f.1 fun s _ g => g.eng.tag.isNone && (Store.find s.teams 0).any fun t => t.sync.producer != some 0) = true ∧
    (copyForms.all fun f => meets (demoCopy.modRegs 0 fun r => { r with s := [(8, 4)] }) f.1 fun s _ g => (copyBad s g f.2).isSome) = true ∧
    (copyForms.all fun f => meets (demoQueue demoCopy ((List.range 32).map fun _ => copyOf .recld) 0) f.1 fun s _ g =>
      (copyBad s g f.2).isNone && decide (32 ≤ (s.core 0).copies.length)) = true ∧
    (copyForms.all fun f => meets demoCopy f.1 fun s _ g =>
      (copyBad s g f.2).isNone && !decide (32 ≤ (s.core 0).copies.length) && !decide (255 ≤ g.eng.count 0) && !g.mustWait false) = true ∧
    (copyForms.all fun f => meets (demoTiled demoCopy) f.1 fun s _ g => g.eng.tag.isSome &&
      (copyBad s g f.2).isNone && !decide (32 ≤ (s.core 0).copies.length) && !decide (255 ≤ g.eng.count 0) && !g.mustWait false) = true ∧
    (copyForms.all fun f => meets (demoAcquires demoCopy) f.1 fun s _ g =>
      (copyBad s g f.2).isNone && !decide (32 ≤ (s.core 0).copies.length) && !decide (255 ≤ g.eng.count 0) && g.mustWait false) = true ∧
    meets (demoAt demoCopy 4) (.recld 4 6 2) (fun _ _ g => (g.regs.sc 6).toNat % 64 != 0) = true ∧
    meets (demoAt demoCopy 4096) (.recld 4 6 2) (fun _ _ g => (g.regs.sc 6).toNat % 64 == 0 && decide (4096 < (g.regs.sc 6).toNat + 64)) = true ∧
    meets (demoQueue demoCopy ((List.range 32).map fun _ => copyOf .recld) 0) (.recld 4 6 2) (fun s _ _ => decide (32 ≤ (s.core 0).copies.length)) = true ∧
    meets (demoQueue demoCopy [copyOf .cpin] 0) (.recld 4 6 2) (fun s x g =>
      !decide (32 ≤ (s.core 0).copies.length) && !decide (255 ≤ g.eng.count 0) && !(readAfter s x g).isEmpty) = true ∧
    meets (putStash demoCopy recordBytes) (.recld 4 6 2) (fun s x g =>
      !decide (32 ≤ (s.core 0).copies.length) && !decide (255 ≤ g.eng.count 0) && (readAfter s x g).isEmpty &&
      (readTouch s x g).2.isNone && validRecord ((readTouch s x g).1.stashBytes 0 0 64)) = true ∧
    meets demoCopy (.recld 4 6 2) (fun s x g =>
      !decide (32 ≤ (s.core 0).copies.length) && !decide (255 ≤ g.eng.count 0) && (readAfter s x g).isEmpty &&
      (readTouch s x g).2.isNone && !validRecord ((readTouch s x g).1.stashBytes 0 0 64)) = true ∧
    validRecord recordBytes = true ∧ recordBytes.length = 64 := by and_intros <;> decide

/-- What the signal add of a copy with some operand block finds. -/
def signalSees (s : State) (block : List Word) : Except AccessFail Unit :=
  match s.signalAdd { copyOf .cpin with sig := true, block := block } with
  | .ok _ => .ok ()
  | .error (f, _) => .error f

theorem witness_CopyEvents :
    ((demoQueue demoCopy [copyOf .cpin] 4).copyStarts 0).isSome = true ∧
    (((demoQueue demoCopy [copyOf .recld] 12).copyCompletes 0).map (·.kind)) = some .recld ∧
    (((demoQueue demoCopy [{ copyOf .cpin with start := some 4, endClk := some 6 }] 8).copyCompletes 0).map fun c =>
      (c.kind, c.sig && c.code.isNone)) = some (.cpin, false) ∧
    signalSees (demoQueue demoCopy [{ copyOf .cpin with sig := true, start := some 4, endClk := some 6 }] 8) [] = .ok () ∧
    signalSees (demoQueue demoCopy [{ copyOf .cpin with sig := true, start := some 4, endClk := some 6 }] 8) [0, 0, 0x200000] = .error (.fault .permission) ∧
    signalSees (demoQueue demoLeased [{ copyOf .cpin with sig := true }] 8) [] = .error .wait := by and_intros <;> decide

/-- A communicator of one member, and the descriptor of a broadcast in it. -/
def demoComm (s : State) : State := s.modPart 0 fun p => { p with fab := { p.fab with comms := [(0, { id := 7, members := [0], rank := 0, vdev := 1 })] } }
def collBytes : List Byte := [0, 0, 1, 0, 0, 0, 0, 0, 0, 0, 1, 0, 0, 0, 0, 0, 4, 0, 0, 0, 7, 0, 0, 0, 4] ++ List.replicate 39 0
/-- What COLL finds at issue: no line in the way, and what its descriptor says. -/
def collSees (s : State) (x : Issue) (g : Group) (op : CollOp) (c : Option FaultCode) : Bool :=
  (readAfter s x g).isEmpty && (readTouch s x g).2.isNone &&
  (collFault ((readTouch s x g).1.stashBytes 0 0 64) op
    (((s.part 0).fab.comms.find? fun kv => kv.2.id == 7 && kv.2.vdev == 1).map (·.2.members.length)) == c)

/-- The engines of the core have the page of the group. -/
def demoReads : State := demoColl.modCore 0 fun c => { c with mem := { c.mem with walkTlb := c.mem.tlb } }

theorem witness_CollectiveResult :
    meets (demoAt demoCopy 4) (.coll 4 6 3 .broadcast) (fun _ _ g => (g.regs.sc 6).toNat % 64 != 0) = true ∧
    meets (demoAt demoCopy 4096) (.coll 4 6 3 .broadcast) (fun _ _ g => (g.regs.sc 6).toNat % 64 == 0 && decide (4096 < (g.regs.sc 6).toNat + 64)) = true ∧
    meets (putStash demoCopy collBytes) (.coll 4 6 3 .broadcast) (fun s x g => collSees s x g .broadcast (some .permission)) = true ∧
    meets (demoQueue demoCopy [copyOf .cpin] 0) (.coll 4 6 3 .broadcast) (fun s x g => !(readAfter s x g).isEmpty) = true ∧
    meets ((putStash (demoComm demoCopy) collBytes).modQuad 0 fun q => { q with colls := (demoColl.quad 0).colls.flatMap (List.replicate 16) }) (.coll 4 6 3 .broadcast)
      (fun s x g => collSees s x g .broadcast none && decide (16 ≤ (s.quad 0).colls.length)) = true ∧
    meets (putStash (demoComm demoCopy) collBytes) (.coll 4 6 3 .broadcast) (fun s x g =>
      collSees s x g .broadcast none && decide ((s.quad 0).colls.length < 16) && decide (g.eng.count 2 < 255)) = true ∧
    (demoColl.collOf 0).isSome = true ∧
    ((demoReads.collRead (demoReads.party 0 0) 2 0x10000 4).toOption.map (·.1)) = some [0, 0, 0, 0] ∧
    (demoReads.collWrite (demoReads.party 0 0) 2 0x10000 [1, 2, 3, 4]).2 = none := by and_intros <;> decide

/-- The team holds the array with one tile, and a jig of 128 rows in slot 3. -/
def demoJig : Jig := { base := 0, stride := 128, kpl := 0, scaled := false, compl := false, planes := 0, fmt := 0, rows := 127, scaleBase := 0 }
def demoArray : State :=
  (((demoStash demo).modTeam 0 fun t => { t with id := { t.id with stashBytes := 16384 } }).modArr 0 fun a => { a with holder := some (0, 1) }).modTeamMem 0
    fun m => { m with jigs := [(3, demoJig)] }
/-- A full clamp bank 0 that any side may use. -/
def demoDesc : ClampDesc := { side := 0, conj := false, aslot := 0, dlog := 0, scaled := false, compl := false, planes := 0, role := 0, fmt := 0 }
def demoClamped (s : State) : State := s.modArr 0 fun a => { a with banks := [(0, { desc := some demoDesc, readyAt := some 0 })] }
def arrayJig (s : State) : Option Jig := (Store.find s.teams 0).bind fun t => t.mem.jigAt 0 3
/-- What a stream with the jig of slot 3 finds. -/
def streamSees (s : State) : Option FaultCode := streamFault (s.tilesOf 0) (arrayJig s) (s.core 0).arr.descOf 0 0 0 false

theorem witness_ArrayIssue :
    meets demo (.clampld 4 0 3 false false false) (fun s _ _ => (clampFault (s.tilesOf 0) (arrayJig s) none 0 false false).isSome) = true ∧
    meets (demoArray.modGroup 0 fun g => { g with eng := { g.eng with out := (List.range 255).map fun i => { cls := 1, serial := i } }, issued := 255 }) (.clampld 4 0 3 false false false)
      (fun s _ g => (clampFault (s.tilesOf 0) (arrayJig s) none 0 false false).isNone && decide (255 ≤ g.eng.count 1)) = true ∧
    meets demoArray (.clampld 4 0 3 false false false) (fun s x g =>
      (clampFault (s.tilesOf 0) (arrayJig s) none 0 false false).isNone && decide (g.eng.count 1 < 255) &&
      (s.arrayTouch x g (demoJig.pieces 0)).isOk) = true ∧
    ([Instr.mma 0 3 0 0, .mmar 0 3 0 0].all fun i => meets demoArray i (fun s _ _ => (streamSees s).isSome) &&
      meets (demoClamped demoArray) i (fun s x g =>
        (streamSees s).isNone && (s.arrayTouch x g (demoJig.pieces 0)).isOk && decide ((s.core 0).arr.queue.length < 16) && decide (g.eng.count 1 < 255)) &&
      meets (((demoClamped demoArray).modArr 0 fun a => { a with leases := (List.range 16).map fun n => ⟨n, 0, 0, []⟩ })) i (fun s _ _ =>
        (streamSees s).isNone && decide (16 ≤ (s.core 0).arr.leases.length)) &&
      meets ((demoClamped demoArray).modArr 0 fun a => { a with banks := a.banks.map fun b => (b.1, { b.2 with upset := true }) }) i (fun s x g =>
        (streamSees s).isNone && (s.arrayTouch x g (demoJig.pieces 0)).isOk && (banksOf demoJig.fmt 0).any (s.core 0).arr.latchUpset)) = true ∧
    meets demo (.omap 4 6 3) (fun s _ _ => (s.tilesOf 0).isNone) = true ∧
    meets (demoAt demoArray 16) (.omap 4 6 3) (fun s _ g => (s.tilesOf 0).isSome && (g.regs.sc 6).toNat % 32 != 0) = true ∧
    meets (demoAt demoArray 16384) (.omap 4 6 3) (fun s _ g => (s.tilesOf 0).isSome && decide (16384 < (g.regs.sc 6).toNat + 32)) = true ∧
    meets (putStash demoArray [1]) (.omap 4 6 3) (fun s x g => (s.arrayTouch x g [(0, 32)]).isOk && !validJig (s.stashBytes 0 0 32) 16384) = true ∧
    meets demoArray (.omap 4 6 3) (fun s x g => (s.arrayTouch x g [(0, 32)]).isOk && validJig (s.stashBytes 0 0 32) 16384) = true := by and_intros <;> decide

/-- A fill and a stream of the group with the jig of slot 3. -/
def demoFill (start : Option Nat) : State :=
  let f : ClampFill := { serial := 0, opSerial := 0, gid := 0, tid := 0, dest := 4, slotJig := demoJig, bank := 0, desc := demoDesc, algebra := none, pc := 0, slot := 0, mask := 0,
                         issueClk := 0, start := start }
  demoArray.modArr 0 fun a => { a with fills := [f] }
def demoStream (start : Option Nat) (readDone : Bool) : State :=
  let o : ArrayOp := { serial := 0, opSerial := 0, gid := 0, tid := 0, left := false, tile := 0, jig := demoJig, bank := 0, psel := 0, pc := 0, slot := 0, mask := 0,
                       lanes := 0xFFFFFFFF, issueClk := 0, start := start, readDone := readDone }
  (demoClamped demoArray).modArr 0 fun a => { a with queue := [o] }

theorem witness_ArrayEvents :
    ((demoFill none).core 0).arr.fillReady.isSome = true ∧ (((demoFill (some 0)).core 0).arr.fillDone 72).isSome = true ∧
    (((demoStream none false).core 0).arr.streamReady 0).isSome = true ∧ (((demoStream (some 0) false).core 0).arr.rowsRead 1000).isSome = true ∧
    (((demoStream (some 0) true).core 0).arr.lastWrite 1000).isSome = true := by and_intros <;> decide

def accForms : List Instr := [.accz 0, .accld 4 0 3 31, .accst 4 0 3 31]
/-- An image of dimension 1 at 0x10010, which the scalar pair s6 names, in a line that the stash of the team has too. -/
def demoImage (b : Byte) : State :=
  let s := ((demoBound 0x10000).modRegs 0 fun r => { r with s := [(6, 0x10010)] }).modTeamMem 0 fun m => { m with lines := [(0, { phys := 0x10000, gpa := 0x10000 })] }
  { s with mem := memWrites demo.mem 0x10010 [b] }
/-- That line is dirty, and a lease covers it. -/
def demoImageLeased : State := ((demoImage 1).modTeamMem 0 fun m => { m with lines := m.lines.map fun l => (l.1, { l.2 with dirty0 := true }) }).modArr 0 fun a =>
  { a with leases := [{ serial := 0, gid := 0, tid := 0, lines := [0] }] }
/-- How the read of the image ends. -/
def imageRead (s : State) (x : Issue) : Except AccessFail Bool := (s.preciseRead (s.party 0 x.gid) 0x10010 5).map fun r => validImage r.1

/-- The operations of the group that an ALGLD by s6 must not pass. -/
def imageAfter (s : State) (x : Issue) (g : Group) : List Nat :=
  let va := g.regs.scAddr 6
  s.before x.gid g { serial := g.issued, reads := true, places := s.globalPlaces x.core (s.vdevOf g) va 80 } ++
    s.engineHolders x.gid (s.globalLines x.core (s.vdevOf g) va 80) false

theorem witness_AccumulatorResult :
    (accForms.all fun i => meets demo i (fun s _ _ => (s.tilesOf 0).isNone) &&
      meets (demoArray.modArr 0 fun a => { a with pending := [(0, 1)] }) i (fun s _ _ => s.tilesOf 0 == some 1 && Store.get 0 (s.core 0).arr.pending 0 != 0) &&
      meets demoArray i (fun s _ _ => s.tilesOf 0 == some 1 && Store.get 0 (s.core 0).arr.pending 0 == 0)) = true ∧
    meets (demoAt demo 8) (.algld 2 6) (fun _ _ g => g.regs.scAddr 6 % 16 != 0) = true ∧
    meets (demoOps [{ demoOp .acqrm with gmode := 0x80000 }]) (.algld 2 6) (fun s x g => g.regs.scAddr 6 % 16 == 0 && !(imageAfter s x g).isEmpty) = true ∧
    meets (demoImage 3) (.algld 2 6) (fun s x g => g.regs.scAddr 6 % 16 == 0 && (imageAfter s x g).isEmpty && imageRead s x == .ok false) = true ∧
    meets demoImageLeased (.algld 2 6) (fun s x g => g.regs.scAddr 6 % 16 == 0 && (imageAfter s x g).isEmpty && imageRead s x == .error .wait) = true ∧
    meets (demoImage 1) (.algld 2 6) (fun s x g => g.regs.scAddr 6 % 16 == 0 && (imageAfter s x g).isEmpty && imageRead s x == .ok true) = true ∧
    (((demo.modArr 0 fun a => { a with algLoads := [⟨0, 2, [], false, 0⟩] }).core 0).arr.algLoads.find? fun l => l.gid == 0 && decide (l.dueClk ≤ 0)).isSome =
      true := by and_intros <;> decide

/-! Special values, observation, firmware and launches. -/

/-- The selectors of special scalars of R142. -/
def mfsSelectors : List (BitVec 11) := ((List.range 19).map fun n => BitVec.ofNat 11 n) ++ [0x100, 0x101]

theorem witness_SpecialValueResult :
    (mfsSelectors.all fun i => meets demo (.mfs 4 i) always) = true ∧ (Store.find demo.teams 0).isSome = true := by and_intros <;> decide

/-- s6 names more than any unit has, and more than BOOST takes. -/
def demoMany : State := demoRegs fun r => { r with s := [(6, 65536)] }

theorem witness_ObservationReads :
    ([Instr.rdcnt 4 0, .rdtime 4, .rdlife 4 0].all fun i => meets demo i always) = true ∧
    meets demoMany (.rdwear 4 6 2 0) (fun s x g => (s.wearUnit x.core 2 (g.regs.sc 6).toNat).isNone) = true ∧
    meets demo (.rdwear 4 6 2 0) (fun s x g => s.wearUnit x.core 2 (g.regs.sc 6).toNat == some 416) = true ∧
    meets demoMany (.boost 4 6) (fun _ _ g => decide (65535 < (g.regs.sc 6).toNat)) = true ∧
    meets demo (.boost 4 6) (fun s x g => decide ((g.regs.sc 6).toNat ≤ 65535) && (s.boost x.core 1 0).1 == 0) = true ∧
    counterOffset 0x102008 = some (0, 1, 1, 0) ∧ counterOffset 0x10200C = some (0, 1, 1, 1) ∧ counterOffset 0x5000 = none ∧
    ((demo.modQuad 0 fun q => { q with latch := some (counterKey 1 1, 5) }).quad 0).latch = some (counterKey 1 1, 5) ∧
    (demo.quad 0).latch = none := by and_intros <;> decide

/-- The stamp table of the core: one slot of the tile 0, or sixteen of others. -/
def demoStamps (tile : Word) (n : Nat) : State := demo.modCore 0 fun c =>
  { c with stamps := (List.range n).map fun k => (k, { tid := 0, team := 0, tile := tile, base := 0, joined := 1, closed := 1 }) }

theorem witness_TileResult :
    meets (demoStamps 0 1) (.tileb 6) (fun s x _ => ((s.closeTile x.gid).core 0).stampOf 0 0 == some 0) = true ∧
    meets demo (.tileb 6) (fun s x _ => (((s.closeTile x.gid).core 0).stampOf 0 0).isNone &&
      ((List.range 16).find? fun n => !Store.has ((s.closeTile x.gid).core 0).stamps n) == some 0) = true ∧
    meets (demoStamps 5 16) (.tileb 6) (fun s x _ => (((s.closeTile x.gid).core 0).stampOf 0 0).isNone &&
      ((List.range 16).find? fun n => !Store.has ((s.closeTile x.gid).core 0).stamps n).isNone) = true ∧
    meets demo .tilee always = true ∧ (demoStamps 5 16).stampDue 0 15 = true := by and_intros <;> decide

/-- The group is in a firmware entry. -/
def demoEntry : State :=
  demoFlow fun f => { f with fw := some { service := 1, resume := 0x10004, s0 := f.s0, s1 := f.s1, slot := 0, fresh := false } }

/-- A window descriptor for the first line of the stash. -/
def windowBytes : List Byte := [0, 0, 0, 0, 128, 0, 0, 0, 0, 0, 1, 0, 0, 0, 0, 0]
/-- What MTSR finds for the window that the 16 bytes at 0 describe. -/
def windowSees (s : State) (bad : Bool) : Bool :=
  (s.engineHolders 0 (s.stashLines 0 0 16) false).isEmpty && (s.touch 0 0 16 false).2.isNone && badWindow ((s.touch 0 0 16 false).1.stashBytes 0 0 16) 4096 [] == bad

theorem witness_SystemRegisterResult :
    (([0x10, 0x13, 0x40] : List (BitVec 11)).all fun i => meets demo (.mfsr 4 i) always) = true ∧ meets demoEntry (.mfsr 4 0x7FF) always = true ∧
    (([0x10, 0x12, 0x14, 0x15] : List (BitVec 11)).all fun i => meets demo (.mtsr 6 i) always) = true ∧ meets demoEntry (.mtsr 6 0x7FF) always = true ∧
    meets (demoEntry.modMod fun m => { m with fwRegs := [(0x7FF, 5)] }) (.mfsr 4 0x7FF) (fun s _ _ => Store.find s.mod.fwRegs 0x7FF == some 5) = true ∧
    meets (demoAt demo 1) (.mtsr 6 0x10) (fun _ _ g => (g.regs.sc 6).toNat % 64 != 0) = true ∧
    meets (demoAt demo 0x1000001) (.mtsr 6 0x12) (fun _ _ g => decide (2 ^ 24 < (g.regs.sc 6).toNat)) = true ∧
    meets (demoAt demo 1) (.mtsr 6 0x14) (fun _ _ g => g.regs.sc 6 != 0) = true ∧
    meets (demoAt demo 0xFFFFFFFF) (.mtsr 6 0x47) (fun _ _ g => g.regs.sc 6 == 0xFFFFFFFF) = true ∧
    meets (demoAt demo 8) (.mtsr 6 0x47) (fun _ _ g => g.regs.sc 6 != 0xFFFFFFFF && (g.regs.sc 6).toNat % 16 != 0) = true ∧
    meets (demoAt (demoStash demo) 4096) (.mtsr 6 0x47) (fun _ _ g =>
      (g.regs.sc 6).toNat % 16 == 0 && decide (4096 < (g.regs.sc 6).toNat + 16)) = true ∧
    meets (demoStash demo) (.mtsr 6 0x47) (fun s _ g => (g.regs.sc 6).toNat % 16 == 0 && windowSees s true) = true ∧
    meets (putStash (demoStash demo) windowBytes) (.mtsr 6 0x47) (fun s _ g => (g.regs.sc 6).toNat % 16 == 0 && windowSees s false) = true ∧
    meets (demoQueue demoCopy [copyOf .cpin] 0) (.mtsr 6 0x47) (fun s _ _ => !(s.engineHolders 0 (s.stashLines 0 0 16) false).isEmpty) = true ∧
    meets demoFillWaits (.mtsr 6 0x47) (fun s _ _ => (s.engineHolders 0 (s.stashLines 0 0 16) false).isEmpty && (s.touch 0 0 16 false).2 == some .wait) = true := by and_intros <;> decide

theorem witness_FirmwareCalls :
    meets (demoOps [demoOp .st]) (.ecall 1) (fun _ _ g => g.ops.any fun o => !o.done) = true ∧
    meets demo (.ecall 1) (fun _ _ g => !g.ops.any fun o => !o.done) = true ∧
    meets demoEntry .eret (fun _ _ g => g.flow.fw.isSome) = true ∧ meets demoEntry (.tlbi 4 3) always = true ∧
    meets (demoPathHeld demoEntry) (.tlbi 4 0) (fun s x _ => (s.invalidated (s.partOfCore x.core) 1 0 0).unsettled 1) = true ∧
    meets (demoPathHeld demoEntry) (.tlbi 4 0) (fun s x _ => !(s.invalidated (s.partOfCore x.core) 0 0 0).unsettled 0) = true ∧
    ((demo.issuing .eret).map fun u => u.2.flow.fw.isNone && u.2.flow.recipe.isNone) = some true := by and_intros <;> decide

/-- A packet of one team of one group, and a queue that holds a packet for the device. -/
def packetBytes : List Byte := List.replicate 8 0 ++ [1, 0, 0, 0, 1, 0, 0, 0, 1, 0, 0, 0] ++ List.replicate 5 0 ++ [0x10] ++ List.replicate 102 0
def demoPacket (l : List (List Byte)) : State :=
  ((demo.modVdev 1 fun v => { v with vcarve := 1 }).modQueue 0 3 fun w => { w with owner := 1, packets := l.map fun b => ⟨b, 0⟩ })
/-- A LAUNCH of the group that waits for queue 3. -/
def demoLaunch : LongOp := { demoOp .launch with accesses := [{ lane := 0, addr := 3, data := packetBytes }] }
/-- s7 names queue 3, and s6 a place of the stash. -/
def launchAt (s : State) (w : Word) : State := s.modRegs 0 fun r => { r with s := [(6, w), (7, 3)] }
def launchSees (s : State) (denied : Bool) : Bool :=
  ((Store.find s.teams 0).map fun t => decide (t.id.stashBytes < 128) || !(s.part 0).regs.members.contains 0 || (s.queue 0 3).owner != t.id.vdev) == some denied

/-- The page of the bound line may not be read. -/
def demoNoRead : State := (demoBound 0x10000).modMem 0 fun m => { m with tlb := m.tlb.map fun t => { t with r := false } }
/-- The device owns queue 3. -/
def launchRoom (s : State) : State := s.modQueue 0 3 fun w => { w with owner := 1 }

theorem witness_LaunchResult :
    meets (demoOps [demoOp .st]) (.launch 4 6 3) (fun _ _ g => g.mustWait true) = true ∧
    meets (launchAt demo 64) (.launch 4 6 3) (fun _ _ g => !g.mustWait true && (g.regs.sc 6).toNat % 128 != 0 && decide (g.eng.count 3 < 255)) = true ∧
    meets (launchAt (demoStash demo) 0) (.launch 4 6 3) (fun s _ g => !g.mustWait true && decide (g.eng.count 3 < 255) && launchSees s true) = true ∧
    meets (launchAt (demoStash (demoPacket [])) 0) (.launch 4 6 3) (fun s _ g => !g.mustWait true && decide (g.eng.count 3 < 255) && launchSees s false &&
      (s.engineHolders 0 (s.stashLines 0 0 128) false).isEmpty && (s.touch 0 0 128 false).2.isNone) = true ∧
    meets (demoPathHeld demo) (.launch 4 6 3) (fun s x g => !decide (255 ≤ g.eng.count 3) && !g.mustWait true && s.pathWaits x.core) = true ∧
    meets (launchAt (demoQueue (launchRoom demoCopy) [copyOf .cpin] 0) 0) (.launch 4 6 3) (fun s _ g =>
      !g.mustWait true && launchSees s false && !(s.engineHolders 0 (s.stashLines 0 0 128) false).isEmpty) = true ∧
    ([(demoFillWaits, some AccessFail.wait), (demoNoRead, some (.fault .permission)), (demoBadStash, some (.lost (.core 0)))].all fun c =>
      meets (launchAt (launchRoom c.1) 0) (.launch 4 6 3) fun s _ g =>
        !g.mustWait true && launchSees s false && (s.engineHolders 0 (s.stashLines 0 0 128) false).isEmpty && (s.touch 0 0 128 false).2 == c.2) = true ∧
    ((Store.find (demoOps [demoLaunch]).groups 0).bind fun g => (demoOps [demoLaunch]).launchEnters 0 g) = some (demoLaunch, 3, packetBytes) ∧
    (demoPacket [packetBytes]).acceptable 0 3 = true ∧ (demoPacket [List.replicate 128 0]).acceptable 0 3 = true ∧
    packetReason packetBytes [0] 0 0 1 = none ∧ packetReason (List.replicate 128 0) [0] 0 0 1 = some 3 ∧
    freeIndex (demo.part 0).disp.launches 256 = some 0 := by and_intros <;> decide

/-- An entry of the launch table for the team of the group; one that waits for a dependency; and a gang that waits. -/
def demoEntryOf (packet : List Byte) (since : Option Nat) : LaunchEntry :=
  { quad := 0, queue := 3, vdev := 1, packet := packet, accepted := 0, depFrom := since }
def dependentBytes : List Byte := packetBytes.take 56 ++ [8, 0, 0, 0, 0, 0, 0, 0, 1, 0, 0, 0x10] ++ packetBytes.drop 68
def demoDisp (f : Dispatcher → Dispatcher) : State := { demo.modDisp 0 f with mod := { demo.mod with tick := 84000000 } }
def demoGang : Gang := { launch := 0, cluster := 0, die := 0, cores := [], reserved := [], since := 0, vdev := 1 }
def demoWaits : State := demoDisp fun d => { d with launches := [(0, demoEntryOf dependentBytes (some 0))] }

theorem witness_DispatchEvents :
    (demoDisp fun d => { d with gangs := [(5, demoGang)] }).fenceDue 0 = some 5 ∧
    ((Store.find (demoWaits.part 0).disp.launches 0).map fun e => demoWaits.depOverdue e && demoWaits.orphaned 0 e) = some true ∧
    ({ (demoDisp fun d => { d with launches := [(0, demoEntryOf packetBytes none)] }) with groups := [] }).retires 0 = true := by and_intros <;> decide

/-! Events of the machine. -/

def demoDie (f : DieMap → DieMap) : State := demo.modDie 1 f
def demoHot : State := { (demo.modCore 0 fun c => { c with boost := true }) with
  wear := { demo.wear with sensors := { demo.wear.sensors with temp := (List.range 30).map fun u => (u, 120) } } }

theorem witness_WearEvents :
    demo.mod.tick < demo.mod.nextBoundary ∧ ({ demo with mod := { demo.mod with tick := 84000000 } } : State).mod.nextBoundary ≤ 84000000 ∧
    (demoDie fun d => { d with pendingSwap := [(24, 3)] }).swapReady 1 = some (24, 3) ∧ demoHot.tooHot 0 = true ∧
    (((demoHot.modCore 0 fun c => { c with grant := some { vdev := 1, x := 5, remaining := 2 } }).core 0).grant).isSome = true ∧ demoHot.unitOfCore 0 = some 0 ∧
    0 ∉ (demo.die 0).retired ∧ (demo.wearOf 0).rest = none ∧ demo.logicalOf 0 = some 0 ∧
    ({ demo with wear := { demo.wear with records := [(0, { rest := some { poweredDown := true, left := 0, completed := 3 } })] } } : State).wearOf 0 =
      { rest := some { poweredDown := true, left := 0, completed := 3 } } := by and_intros <;> decide

/-- A replicated commit of the group that has held its locks for 2 µs, with a load of the group stalled for as long. -/
def demoLock : ReplicaLock := { entry := 4, vdev := 1, gid := 0, addr := 0x10000, data := [1], since := 0, stalled := [(0, 0, 0)] }
def demoLocked : State := { ((demoOps [demoOp .ld]).modPart 0 fun p => { p with locks := [demoLock] }) with mod := { demo.mod with tick := 168000 } }
/-- A sector that holds an error that cannot be corrected, and an LLC that has a clean copy of a line. -/
def demoBadSector : State := demo.modMod fun m => { m with frames := { m.frames with bad := [0x400] } }
def demoCached : State := demo.modQuad 0 fun q => { q with llc := { q.llc with lines := [(0x10000, { valid0 := true, valid1 := true })] } }
/-- The same, with an error in its first sector. -/
def demoBadCached : State := demo.modQuad 0 fun q => { q with llc := { q.llc with lines := [(0x10000, { valid0 := true, valid1 := true, bad0 := true })] } }

theorem witness_MemoryEvents :
    demo.probeWaits 0 0x10000 = false ∧
    ((demoPathHeld demo).modMem 0 fun m => { m with log := [{ line := 0x10000, tid := 0, pos := 1 }] }).probeWaits 0 0x10000 = true ∧
    (demo.touchLine 0 0 false false).isOk = true ∧ demo.lineLeased 0x10000 = false ∧ (demoPathHeld demo).lineLeased 0x10000 = true ∧
    demo.backHeld 0x10000 = false ∧
    (demo.modMod fun m => { m with heldWrites := [{ members := [0], addr := 0x10000, data := [1], back := true }] }).backHeld 0x10000 = true ∧
    isDeviceMemory 0x10000 = true ∧ demoBadSector.mod.frames.bad.contains 0x400 = true ∧ demo.mod.frames.bad.contains 0x400 = false ∧
    demo.cachedSector 0x400 = none ∧ (demoCached.cachedSector 0x400).map (·.2) = some false ∧ (demoBadCached.cachedSector 0x400).map (·.2) = some true ∧
    0x400 ∉ demo.mod.llcScrub.found ∧
    ((demoLocked.part 0).locks.find? fun l => l.entry == 4 && demoLocked.lockOverdue l) = some demoLock := by and_intros <;> decide

/-- The device waits for admission with a packet in its queue; a core of a resident device has failed; and two devices contend. -/
def demoWaiting : State :=
  { ((demoPacket [packetBytes]).modDisp 0 fun d => { d with resident := [] }) with groups := [], teams := [] }
def demoFailed : State := demo.modDie 0 fun d => { d with map := d.map.set 0 none }
def savedTeam : SavedTeam := { team := { id := { vdev := 2, part := 0, launch := 0, number := 0, cluster := 0, rank := 0, groups := 1 } }, groups := [] }
def twoDevices : State :=
  { demo with vdevs := [(1, { desc := List.replicate 64 0, ctx := { ctl := 0x100000 } }),
                        (2, { desc := List.replicate 20 0 ++ [255] ++ List.replicate 43 0, saved := { teams := [savedTeam] } })],
              mod := { demo.mod with tick := 8400000 } }
/-- The device saves; nothing of it is resident. -/
def demoSaving (p : SavePhase) : State := { (demo.modVdev 1 fun v => { v with saved := { v.saved with phase := p } }) with groups := [], teams := [] }
/-- An image of any length that it can have fits the host window and a buffer of 2^64 bytes, and no buffer of length 0. -/
theorem image_fits (s : State) : (s.imageLength).1 ≤ 2 ^ 64 ∧ 0 < (s.imageLength).1 ∧
    (s.imageLength).2.hostRange (2 ^ 48) (max (s.imageLength).1 1) = true := by
  have h : (s.imageLength).1 < 128 + 2 ^ 46 := by
    have := Nat.mod_lt (Config.freeNat s.sched.free) (show 0 < 2 ^ 46 by decide)
    simp only [State.imageLength, State.anyNat]
    omega
  have h0 : 0 < (s.imageLength).1 := by simp only [State.imageLength]; omega
  refine ⟨by omega, h0, ?_⟩
  have h1 : regionOf (2 ^ 48) = .host 0 := by decide
  have h2 : regionOf (2 ^ 48 + max (s.imageLength).1 1 - 1) = .host ((2 ^ 48 + max (s.imageLength).1 1 - 1) / 4096 % 2) := by
    unfold regionOf
    rw [if_neg (by omega), if_neg (by omega), if_neg (by omega), if_pos (by omega)]
  simp only [State.hostRange, h1, h2]

/-- The device has halted, with the fault that a fatal launch kept and that launch. -/
def demoHalted : State :=
  let f : FatalSummary := { code := 1, team := 0, group := 0, pc := 0, mask := 1, time := 0 }
  (demo.modVdev 1 fun v => { v with ctx := { v.ctx with halted := true, haltFault := some f } }).modDisp 0 fun d =>
    { d with launches := [(0, { quad := 0, queue := 3, vdev := 1, packet := packetBytes, accepted := 0, phase := .faulted, fatal := some f })] }

theorem witness_PreemptionEvents :
    demoWaiting.nextAdmission 0 = some 1 ∧
    (((Store.find demoWaiting.vdevs 1).bind fun v => demoWaiting.coreSetFor (descPart v.desc) v.desc).isSome = true) ∧
    ((Store.find demoFailed.vdevs 1).bind fun v => demoFailed.replacement (descPart v.desc) 1 0 v).isSome = true ∧
    ((Store.find twoDevices.vdevs 1).map fun v => twoDevices.sliceDue 1 v) = some true ∧
    ((Store.find (demoTeam fun t => { t with sync := { t.sync with runOnFrom := some 0 } }).teams 0).map
      (demoTeam fun t => { t with sync := { t.sync with runOnFrom := some 0 } }).runOnOver) = some true ∧
    ([SavePhase.stopping .slice, .stopping .epoch, .stopping (.save 0 (2 ^ 48) 0), .stopping (.save 0 (2 ^ 48) (2 ^ 64))].all fun p => (demoSaving p).drained 1 &&
      (((demoSaving p).settleMemory 1).teamsOf 1).isEmpty && Store.has (((demoSaving p).settleMemory 1).imageLength.2.takeImage 0 1).vdevs 1) = true ∧
    ((Store.find demoHalted.vdevs 1).map fun v => v.ctx.halted && v.ctx.haltFault.isSome) = some true ∧ (demoHalted.faultedLaunches 0 1).length = 1 ∧
    ((Store.find (demo.modCtx 1 fun c => { c with halted := true }).vdevs 1).map fun v => v.ctx.halted && v.ctx.haltFault.isNone) = some true ∧
    ({ (demo.modVdev 1 fun v => { v with vcarve := 5 }) with teams := [] } : State).carveStale 0 = true := by and_intros <;> decide

/-! Commands. -/

/-- Mailbox 0 holds a command that has just been given: its opcode, level and length, and some bytes of PARAM. -/
def withBlock (s : State) (op level plen : Nat) (params : List (Nat × List Byte)) : State :=
  let m : Mailbox := { go := true, fresh := true }
  let m1 := (m.put 0 (bytesOf 2 op ++ bytesOf 1 level)).put 4 (bytesOf 4 plen)
  s.modQuad 0 fun z => { z with mailbox := params.foldl (fun (m : Mailbox) p => m.put (64 + p.1) p.2) m1 }

/-- Whether mailbox 0 gives a command that passes the shared checks, and a condition holds of it. -/
def sees (s : State) (op sub : Nat) (p : State → Command → Bool) : Bool :=
  commandRuns s (.mailbox 0) op sub &&
  match s.blockOf (.mailbox 0) with
  | some b => p (s.taken (.mailbox 0)) (commandFrom (.mailbox 0) b)
  | none => false

theorem runs_of_block {s : State} {src : CommandSource} {op sub : Nat} {p : State → Command → Bool} (h : (commandRuns s src op sub &&
    match s.blockOf src with
    | some b => p (s.taken src) (commandFrom src b)
    | none => false) = true) : ∃ c, Runs s src op sub c ∧ p (s.taken src) c = true := by
  simp only [Bool.and_eq_true] at h
  obtain ⟨c, hc⟩ := commandRuns_runs h.1
  refine ⟨c, hc, ?_⟩
  have hb := hc.block
  revert h
  cases e : s.blockOf src with
  | none => simp
  | some b =>
    rw [e] at hb
    simp only [Option.map_some, Option.some.injEq] at hb
    rintro ⟨-, h⟩
    rw [← hb]
    exact h

theorem sees_runs {s : State} {op sub : Nat} {p : State → Command → Bool} (h : sees s op sub p = true) :
    ∃ c, Runs s (.mailbox 0) op sub c ∧ p (s.taken (.mailbox 0)) c = true := runs_of_block h

/-- A page mapped by both stages: tables of owner 0 at 0x100000, and of device 1 at 0x110000, each with one leaf of 1 GiB. -/
def tableCells (base : Nat) : List (Nat × List Byte) :=
  [(base, bytesOf 8 (base + 0x1001)), (base + 0x1000, bytesOf 8 (base + 0x2001)), (base + 0x2000, [0x75])]
def mapped (f : Vdev → Vdev) : State :=
  let s := demo.modVdev 1 fun v => { f v with tab := { (f v).tab with s1root := some 0x110000, s2root := some 0x100000, dirtyLen := 32768 } }
  { s with mem := (tableCells 0x100000 ++ tableCells 0x110000).foldl (fun m c => memWrites m c.1 c.2) s.mem,
           mod := { s.mod with frames := { s.mod.frames with owner := [(1, 1), (16, 0), (17, 1)] } } }
/-- The LLC of quadrant 0 holds the lines of the tables, and those of 0x120000 and 0x121000. -/
def warm (s : State) : State :=
  let l : LlcLine := { valid0 := true, valid1 := true, owner := 1 }
  s.modQuad 0 fun q => { q with llc := { q.llc with lines :=
    ([0x100000, 0x101000, 0x102000, 0x110000, 0x111000, 0x112000] ++ (upTo 64).map fun k => 0x120000 + 128 * k).map fun a => (a, l) } }
/-- The group has called firmware with the command block at 0x120000, a page of its device as 0x121000 is. -/
def calling (f : Vdev → Vdev) (op level plen : Nat) (params : List (Nat × List Byte)) : State :=
  let s := warm (mapped f)
  let g := (s.modFlow 0 fun y => { y with fw := some { service := op, resume := 0x10004, s0 := y.s0, s1 := y.s1, slot := 0, fresh := true } }).modRegs 0
    fun r => { r with s := [(0, 0x120000)] }
  { g with mem := (((0, bytesOf 2 op ++ bytesOf 1 level) :: (4, bytesOf 4 plen) :: params.map fun q => (64 + q.1, q.2)).map fun q => (0x120000 + q.1, q.2)).foldl
             (fun m c => memWrites m c.1 c.2) g.mem,
           mod := { g.mod with frames := { g.mod.frames with owner := [(1, 1), (16, 0), (17, 1), (18, 1)] } } }

/-- Whether the group gives such a command, and a condition holds of it. -/
def calls (s : State) (op sub : Nat) (p : State → Command → Bool) : Bool :=
  commandRuns s (.guest 0) op sub &&
  match s.blockOf (.guest 0) with
  | some b => p (s.taken (.guest 0)) (commandFrom (.guest 0) b)
  | none => false

theorem calls_runs {s : State} {op sub : Nat} {p : State → Command → Bool} (h : calls s op sub p = true) :
    ∃ c, Runs s (.guest 0) op sub c ∧ p (s.taken (.guest 0)) c = true := runs_of_block h

def cmd (op level plen : Nat) (params : List (Nat × List Byte)) : State := withBlock demo op level plen params
def yes : State → Command → Bool := fun _ _ => true

/-- A descriptor of device 2 on partition 0 with one core and one queue. -/
def descBytes (prot : Byte) : List Byte :=
  [2, 0, 0, 0, prot, 4, 0, 0, 1, 0, 0, 0] ++ List.replicate 8 0 ++ [1, 0, 0, 0, 0, 1] ++ List.replicate 38 0

/-- A module with no device. -/
def emptyDemo : State := { demo with vdevs := [], teams := [], groups := [], parts := Store.put demo.parts 0 { demo.part 0 with disp := {} } }

theorem witness_DeviceCommands :
    sees (cmd 0x02 0 8 [(0, [1])]) 0x02 0 yes = true ∧
    ((cmd 0x02 0 8 [(0, [9])]).given (.mailbox 0) && match (cmd 0x02 0 8 [(0, [9])]).blockOf (.mailbox 0) with
      | some b => (commandFrom (.mailbox 0) b).op == 2 && (((cmd 0x02 0 8 [(0, [9])]).taken (.mailbox 0)).commonRefusal (commandFrom (.mailbox 0) b)) == some 1
      | none => false) = true ∧
    demo.given (.mailbox 0) = false ∧
    sees (cmd 0x01 1 64 [(0, descBytes 0)]) 0x01 0 (fun s c =>
      !(Store.has s.vdevs 2 || !s.descriptorOk (c.bytes 0 64) || !s.canHold (c.bytes 0 64)) && !(BitVec.ofNat 64 (field (c.bytes 0 64) 4 8)).getLsbD 2) = true ∧
    ([Security.manufacturing, .provisioned].all fun y => sees (withBlock (demo.modIdent fun i => { i with security := y }) 0x01 1 64 [(0, descBytes 4)]) 0x01 0 (fun s c =>
      !(Store.has s.vdevs 2 || !s.descriptorOk (c.bytes 0 64) || !s.canHold (c.bytes 0 64)) && (BitVec.ofNat 64 (field (c.bytes 0 64) 4 8)).getLsbD 2 &&
      s.mod.ident.security == y)) = true ∧
    sees (cmd 0x01 0 64 [(0, [1])]) 0x01 0 (fun s _ => Store.has s.vdevs 1) = true ∧
    sees (cmd 0x0D 0 8 [(0, [1, 0])]) 0x0D 0 (fun s c => !c.expert && carvePreset (c.get 1 1) == some 0x210 &&
      carveOk 0x210 (s.part 0).regs.carvelim) = true ∧
    sees (cmd 0x0D 0 8 [(0, [1, 3])]) 0x0D 0 (fun _ c => !c.expert && carvePreset (c.get 1 1) == none) = true ∧
    sees (cmd 0x0D 1 16 [(0, [1])]) 0x0D 0 (fun s c => c.expert && Store.has s.parts (c.get 8 1) && c.get 12 4 == 0 &&
      carvelimOk (s.part 0).regs.carvelim && carveOk 0 (s.part 0).regs.carvelim) = true ∧
    sees (cmd 0x0D 1 16 [(0, [1]), (8, [9])]) 0x0D 0 (fun s c => c.expert && !Store.has s.parts (c.get 8 1)) = true ∧
    calls (calling id 0x0D 1 16 [(0, [1]), (12, [1])]) 0x0D 0 (fun _ c => c.expert && c.get 12 4 != 0) = true ∧
    sees (cmd 0x0C 0 8 [(0, [5])]) 0x0C 0 (fun _ c => !c.expert && decide (4 < c.get 0 1)) = true ∧
    sees (cmd 0x0C 0 8 []) 0x0C 0 (fun s c => !c.expert && decide (c.get 0 1 ≤ 4) && !s.codeBlocked 0) = true ∧
    sees (cmd 0x0C 1 8 [(0, [0xFF, 0, 0, 0, 0x14])]) 0x0C 0 (fun s c => c.expert && c.get 0 1 == 0xFF && placectlOk (BitVec.ofNat 32 (c.get 4 4)) &&
      Store.has s.parts (c.get 1 1)) = true ∧
    sees (cmd 0x0C 1 8 [(0, [0xFF, 9])]) 0x0C 0 (fun s c => c.expert && c.get 0 1 == 0xFF && !Store.has s.parts (c.get 1 1)) = true ∧
    ([0, 9].all fun n => sees (withBlock emptyDemo 0x0C 1 8 [(0, [2, n, 0, 0, 0x14])]) 0x0C 0 (fun s c => c.expert && c.get 0 1 == 2 && !s.codeBlocked 2 &&
      placectlOk (BitVec.ofNat 32 (c.get 4 4)) && Store.has ((s.repartition 2).modMod fun m => { m with code := 2 }).parts (c.get 1 1) == decide (n = 0))) =
      true := by and_intros <;> decide

/-- Device 1 of the demo, changed. -/
def cmdOn (f : Vdev → Vdev) (op level plen : Nat) (params : List (Nat × List Byte)) : State := withBlock (demo.modVdev 1 f) op level plen params
/-- The same, not resident. -/
def cmdAway (f : Vdev → Vdev) (op level plen : Nat) (params : List (Nat × List Byte)) : State :=
  withBlock ((demo.modVdev 1 f).modDisp 0 fun d => { d with resident := [] }) op level plen params
def device (s : State) (p : Vdev → Bool) : Bool := (Store.find s.vdevs 1).any p
/-- The host window at 2^48 as eight bytes. -/
def hostBytes : List Byte := [0, 0, 0, 0, 0, 0, 1, 0]

theorem witness_ContextCommands :
    sees (cmd 0x04 0 24 [(0, [1]), (8, [1])]) 0x04 0 (fun _ c => c.get 8 8 % 4096 != 0) = true ∧
    sees (cmd 0x04 0 24 [(0, [1]), (8, hostBytes)]) 0x04 0 (fun s c =>
      c.get 8 8 % 4096 == 0 && s.hostRange (c.get 8 8) (max (c.get 16 8) 1) && device s fun v => v.cannotSave.isNone) = true ∧
    sees (cmdOn (fun v => { v with saved := { phase := .saved } }) 0x04 0 24 [(0, [1]), (8, hostBytes)]) 0x04 0 (fun s c =>
      s.hostRange (c.get 8 8) 1 && device s fun v => v.cannotSave == some 3) = true ∧
    sees (cmd 0x05 0 24 [(0, [1])]) 0x05 0 (fun s _ => device s fun v => !v.lost && s.isResident 1 v && v.saved.phase == .running) = true ∧
    sees (cmdOn (fun v => { v with ctx := { v.ctx with ctl := 4, keyErased := true } }) 0x05 0 24 [(0, [1])]) 0x05 0 (fun s _ => device s fun v => v.lost) = true ∧
    sees (cmdAway (fun v => { v with saved := { phase := .saved } }) 0x05 0 24 [(0, [1]), (8, hostBytes), (16, [16])]) 0x05 0 (fun s c => device s fun v =>
      !v.lost && !s.isResident 1 v && v.cannotSave != some 2 && match s.commandRead (.mailbox 0) (c.get 8 8) 16 with
        | (s1, some b) => s1.imageRefusal v b == some 5
        | _ => false) = true ∧
    sees (cmd 0x08 0 24 [(0, [1])]) 0x08 0 (fun s c => c.ckctl.isSome && device s fun v => v.cannotCheckpoint.isNone) = true ∧
    sees (cmdOn (fun v => { v with saved := { phase := .stopping .slice } }) 0x08 0 24 [(0, [1])]) 0x08 0 (fun s c => c.ckctl.isSome && device s fun v =>
      v.cannotCheckpoint == some 2) = true ∧
    sees (cmd 0x08 0 24 [(0, [1]), (15, [1])]) 0x08 1 (fun s c => c.ckctl.isSome && device s fun v =>
      v.cannotCheckpoint.isNone && s.regionOk (descPart v.desc) 1 0 (c.get 16 8)) = true ∧
    sees (cmd 0x08 0 24 [(0, [1]), (15, [1]), (17, [16])]) 0x08 1 (fun s c => c.ckctl.isSome && device s fun v => !s.regionOk (descPart v.desc) 1 0 (c.get 16 8)) =
      true ∧
    sees (cmd 0x08 0 24 [(0, [1]), (15, [2])]) 0x08 2 (fun s c => c.ckctl.isSome && device s fun v => v.ckpt.mode != 1 && v.cannotCheckpoint.isNone) = true ∧
    sees (cmdOn (fun v => { v with ckpt := { ctl := 1 <<< 56 } }) 0x08 0 24 [(0, [1]), (15, [2])]) 0x08 2 (fun s c => c.ckctl.isSome && device s fun v =>
      v.ckpt.mode == 1 && v.saved.phase == .running && v.ckpt.region == 0) = true ∧
    sees (cmdOn (fun v => { v with ckpt := { ctl := 1 <<< 56 } }) 0x08 0 24 [(0, [1]), (10, [1]), (15, [2])]) 0x08 2 (fun s c => device s fun v =>
      v.ckpt.mode == 1 && v.saved.phase == .running && c.ckctl.any fun w =>
        ({ v.ckpt with ctl := w - (1 <<< 56), length := c.get 16 8 } : Checkpoint).region != v.ckpt.region) = true ∧
    sees (cmd 0x06 0 16 [(0, [1]), (3, [8])]) 0x06 0 (fun _ c => decide (2048 ≤ c.get 2 2)) = true ∧
    sees (cmdOn (fun v => { v with mig := { phase := 4 } }) 0x06 0 16 [(0, [1])]) 0x06 0 (fun s c => c.get 2 2 == 0 && c.get 4 4 == 0 &&
      device s fun v => c.get 8 4 == v.ctx.ctxid && !v.lost && v.mig.phase == 4 && !v.mig.incoming) = true ∧
    sees (cmdOn (fun v => { v with ctx := { v.ctx with ctl := 4, keyErased := true } }) 0x06 0 16 [(0, [1])]) 0x06 0 (fun s c => c.get 2 2 == 0 && c.get 4 4 == 0 &&
      device s fun v => c.get 8 4 == v.ctx.ctxid && v.lost) = true ∧
    sees (cmdOn (fun v => { v with saved := { phase := .stopping .slice } }) 0x06 0 16 [(0, [1])]) 0x06 0 (fun s c => c.get 2 2 == 0 && c.get 4 4 == 0 &&
      device s fun v => c.get 8 4 == v.ctx.ctxid && !v.lost && v.mig.phase == 0 && v.cannotSave == some 2) = true ∧
    sees (cmd 0x06 0 16 [(0, [1])]) 0x06 0 (fun s c => c.get 2 2 == 0 && c.get 4 4 == 0 &&
      device s fun v => c.get 8 4 == v.ctx.ctxid && !v.lost && v.mig.phase == 0 && v.cannotSave.isNone && !(s.mayMigrate v (c.get 2 2)).1) = true ∧
    sees (withBlock { demo with vdevs := demo.vdevs ++ [(2, { desc := List.replicate 64 0, mig := { incoming := true } })] } 0x06 0 16 [(0, [1])]) 0x06 0
      (fun s c => device s fun v => c.get 8 4 == v.ctx.ctxid && v.cannotSave.isNone && !v.lost && (s.mayMigrate v (c.get 2 2)).1) = true ∧
    sees (cmd 0x07 0 72 [(0, [1])]) 0x07 0 (fun s c => Store.has s.vdevs (field (c.bytes 0 64) 0 1)) = true ∧
    sees (cmd 0x07 0 72 [(0, descBytes 0)]) 0x07 0 (fun s c => decide (c.get 64 2 < 2048) && !Store.has s.vdevs 2 && s.descriptorOk (c.bytes 0 64) &&
      s.canHold (c.bytes 0 64)) = true := by and_intros <;> decide

def trapsvc (v : Vdev) : Vdev := { v with ctx := { v.ctx with ctl := 1 } }
/-- The group is stopped, or parked, with its device as the test says. -/
def stopped (code : FaultCode) (f : Vdev → Vdev) (op plen : Nat) (params : List (Nat × List Byte)) : State :=
  withBlock ((demo.modVdev 1 f).modStops 0 fun y => { y with stop := some ⟨code, 0, 0x10004, 0⟩ }) op 0 plen params
def parkedGroup (params : List (Nat × List Byte)) : State :=
  withBlock (demo.modStops 0 fun y => { y with parked := some { unfinished := 1, serial := none, slot := 0 } }) 0x12 0 16 params
/-- The group is in its device's image. -/
def savedGroup (f : Stops → Stops) (params : List (Nat × List Byte)) : State :=
  let g := (demo.modStops 0 f).groups.map (·.2)
  withBlock { (demo.modVdev 1 fun v => { trapsvc v with saved := { v.saved with teams := [{ savedTeam with groups := g }] } }) with groups := [], teams := [] }
    0x12 0 16 params
def suspended (params : List (Nat × List Byte)) : State :=
  withBlock (demo.modCore 0 fun c => { c with copies := [{ copyOf .cpin with suspended := true }] }) 0x12 0 16 params
/-- A rewind of the group has still to repeat the service that it has called. -/
def repeating (s : State) : State :=
  let k := match s.blockOf (.guest 0) with
    | some b => (commandFrom (.guest 0) b).key
    | none => []
  s.modFlow 0 fun f => { f with flash := some { pc := 0, recipe := 1, s0 := f.s0, s1 := f.s1, stack := [], gmode := 0, scc := 0, k0 := 0, k1 := 0,
                                                  again := [⟨k, 0, []⟩] } }

theorem witness_ServiceCommands :
    sees (cmd 0x09 0 4 []) 0x09 0 (fun _ c => !c.expert && c.get 0 4 == 0) = true ∧
    sees (cmd 0x09 0 4 [(0, [1])]) 0x09 0 (fun _ c => !c.expert && c.get 0 4 != 0) = true ∧
    sees (cmd 0x09 1 32 [(16, [16])]) 0x09 0 (fun _ c => c.expert && decide (16 ≤ c.get 16 1)) = true ∧
    sees (cmd 0x09 1 32 [(16, [1]), (24, [1])]) 0x09 0 (fun _ c => c.expert && c.get 16 1 != 0 && !wearctlOk (BitVec.ofNat 64 (c.get 24 8))) = true ∧
    sees (cmd 0x09 1 32 []) 0x09 0 (fun _ c => c.expert && c.get 16 1 == 0) = true ∧
    sees (cmd 0x0A 0 8 [(0, [1, 2])]) 0x0A 0 (fun _ c => !c.expert && decide (2 ≤ c.get 1 1)) = true ∧
    sees (cmd 0x0A 0 8 [(0, [1, 1])]) 0x0A 0 (fun _ c => !c.expert && decide (c.get 1 1 < 2)) = true ∧
    sees (cmd 0x0A 1 8 []) 0x0A 0 (fun _ c => c.expert && bcMaxDur (BitVec.ofNat 32 (c.get 4 4)) == 0) = true ∧
    sees (cmd 0x0A 1 8 [(4, [0x0C, 0x50, 0xE8, 3])]) 0x0A 0 (fun s c => c.expert && Store.has s.parts 0 &&
      let w := BitVec.ofNat 32 (c.get 4 4)
      bcMaxDur w != 0 && decide (55 ≤ bcTmax w) && decide (bcTmax w ≤ 95) && w.extractLsb' 6 2 == 0 && decide (bcCores w ≤ 48) &&
      (s.part 0).regs.boostctl != w) = true ∧
    sees (withBlock (demo.modPart 0 fun p => { p with regs := { p.regs with boostctl := 0x3E8550C } }) 0x0A 1 8 [(4, [0x0C, 0x55, 0xE8, 3])]) 0x0A 0 (fun s c =>
      let w := BitVec.ofNat 32 (c.get 4 4)
      bcMaxDur w != 0 && decide (55 ≤ bcTmax w) && decide (bcTmax w ≤ 95) && w.extractLsb' 6 2 == 0 && decide (bcCores w ≤ 48) &&
      (s.part 0).regs.boostctl == w) = true ∧
    sees (cmd 0x11 1 16 []) 0x11 0 (fun _ c => !factorsOk ((List.range 5).map fun i => c.get i 1)) = true ∧
    ([[1, 1, 2, 2, 3], [1, 1, 2, 2, 4]].all fun f => sees (withBlock (demo.modWear fun w => { w with nextFv := [1, 1, 2, 2, 3], nextFt := [1, 2, 3, 4, 5] })
      0x11 1 16 [(0, f.map (BitVec.ofNat 8) ++ [1, 2, 3, 4, 5])]) 0x11 0 (fun s c => factorsOk ((List.range 5).map fun i => c.get i 1) &&
        factorsOk ((List.range 5).map fun i => c.get (5 + i) 1) && s.wear.nextFt == (List.range 5).map (fun i => c.get (5 + i) 1) &&
        (s.wear.nextFv == (List.range 5).map fun i => c.get i 1) == decide (f = [1, 1, 2, 2, 3]))) = true ∧
    sees (cmd 0x15 0 8 [(1, [16])]) 0x15 0 (fun _ c => decide (16 ≤ c.get 1 1)) = true ∧
    sees (cmd 0x15 0 8 [(1, [1])]) 0x15 0 (fun s c => (quadsIn (c.get 1 1)).any fun q => s.quadHeld q) = true ∧
    sees (withBlock (demo.modQuad 1 fun q => { q with power := .exiting }) 0x15 0 8 [(1, [2])]) 0x15 0 (fun s c =>
      (quadsIn (c.get 1 1)).any fun q => !s.quadHeld q && (s.quad q).power == .exiting) = true ∧
    sees (cmd 0x15 0 8 [(1, [2])]) 0x15 0 (fun s c => !(quadsIn (c.get 1 1)).any fun q => s.quadHeld q || (s.quad q).power == .exiting) = true ∧
    sees (cmd 0x15 0 8 [(0, [1])]) 0x15 1 (fun s _ => (List.range 4).any fun q => s.quadHeld q) = true ∧
    sees (withBlock (demo.modDisp 0 fun d => { d with resident := [] }) 0x15 0 8 [(0, [1])]) 0x15 1 (fun s _ =>
      !(s.protectedResident || (List.range 4).any fun q => s.quadHeld q || (s.quad q).power == .exiting)) = true ∧
    sees (cmd 0x15 0 8 [(0, [2, 16])]) 0x15 2 (fun _ c => decide (16 ≤ c.get 1 1)) = true ∧
    sees (cmd 0x15 0 8 [(0, [2, 15])]) 0x15 2 (fun _ c => decide (c.get 1 1 < 16)) = true ∧
    ([0, 1].all fun sub => sees (stopped .softwareTrap trapsvc 0x12 16 [(0, [1, sub])]) 0x12 sub.toNat (fun s c =>
      ((s.named 1 (c.get 4 4) (c.get 8 1)).find? fun kv => kv.2.answerable true).any fun kv => kv.2.stops.stop.isSome)) = true ∧
    ([0, 1, 2, 3].all fun sub => sees (cmd 0x12 0 16 [(0, [1, sub])]) 0x12 sub.toNat (fun s c =>
      ((s.named 1 (c.get 4 4) (c.get 8 1)).find? fun kv => kv.2.answerable false || kv.2.isParked || s.hasSuspended kv.1).isNone &&
      device s fun v => v.saved.teams.isEmpty)) = true ∧
    ([2, 3].all fun sub => sees (parkedGroup [(0, [1, sub])]) 0x12 sub.toNat (fun s c =>
      ((s.named 1 (c.get 4 4) (c.get 8 1)).find? fun kv => kv.2.isParked || s.hasSuspended kv.1).any fun kv => kv.2.stops.parked.isSome)) = true ∧
    sees (suspended [(0, [1, 3])]) 0x12 3 (fun s c =>
      ((s.named 1 (c.get 4 4) (c.get 8 1)).find? fun kv => kv.2.isParked || s.hasSuspended kv.1).any fun kv => !kv.2.isParked) = true ∧
    ([0, 1].all fun sub => sees (savedGroup (fun y => { y with stop := some ⟨.softwareTrap, 0, 0x10004, 0⟩ }) [(0, [1, sub])]) 0x12 sub.toNat (fun s c =>
      (s.named 1 (c.get 4 4) (c.get 8 1)).isEmpty && device s fun v => v.savedNamed (c.get 4 4) (c.get 8 1) (·.answerable v.ctx.trapsvc) &&
        (v.findSaved (c.get 4 4) (c.get 8 1) (·.answerable v.ctx.trapsvc)).any fun u => u.2.stops.stop.isSome)) = true ∧
    ([2, 3].all fun sub => sees (savedGroup (fun y => { y with parked := some { unfinished := 1, serial := none, slot := 0 } }) [(0, [1, sub])]) 0x12 sub.toNat
      (fun s c => (s.named 1 (c.get 4 4) (c.get 8 1)).isEmpty && device s fun v => v.savedNamed (c.get 4 4) (c.get 8 1) (·.isParked) &&
        (v.findSaved (c.get 4 4) (c.get 8 1) (·.isParked)).isSome)) = true ∧
    calls ((calling id 0x03 0 136 [(128, [3])]).modQueue 0 3 fun w => { w with owner := 2 }) 0x03 0 (fun s _ =>
      (s.callerOf 0).map (·.vdev) != some (s.queue 0 3).owner) = true ∧
    calls ((calling id 0x03 0 136 [(128, [3])]).modQueue 0 3 fun w => { w with owner := 1 }) 0x03 0 (fun s c =>
      (s.callerOf 0).map (·.vdev) == some (s.queue 0 3).owner && (s.repeated c).isNone && (s.queue 0 3).packets.isEmpty) = true ∧
    calls (repeating ((calling id 0x03 0 136 [(128, [3])]).modQueue 0 3 fun w => { w with owner := 1 })) 0x03 0 (fun s c =>
      (s.callerOf 0).map (·.vdev) == some (s.queue 0 3).owner && (s.repeated c).isSome) = true ∧
    sees (cmd 0x03 0 136 [(128, [64])]) 0x03 0 (fun _ c => decide (64 ≤ c.get 128 1)) = true ∧
    sees (cmd 0x03 0 136 [(128, [3])]) 0x03 0 (fun s _ => (s.queue 0 3).owner == 255) = true ∧
    sees (withBlock (demoPacket []) 0x03 0 136 [(128, [3])]) 0x03 0 (fun s c => (s.queue 0 3).owner == 1 && (s.queue 0 3).packets.isEmpty &&
      pkHmode (c.bytes 0 128) == 0) = true ∧
    sees (withBlock (demoPacket ((List.range 32).map fun _ => packetBytes)) 0x03 0 136 [(128, [3])]) 0x03 0 (fun s _ => (s.queue 0 3).owner == 1 &&
      (s.queue 0 3).packets.length == 32) = true ∧
    sees (cmd 0x10 0 8 [(0, [1])]) 0x10 0 (fun _ c => c.get 0 8 % 65536 != 0) = true ∧
    sees (cmd 0x10 0 8 [(2, [1])]) 0x10 0 (fun s c => c.get 0 8 % 65536 == 0 && isDeviceMemory (c.get 0 8) &&
      !s.mod.frames.retired.contains (c.get 0 8 / 65536) && decide (s.mod.frames.retired.length < 65536) && !s.frameLeased (c.get 0 8 / 65536)) = true ∧
    sees (withBlock (demoPathHeld demo) 0x10 0 8 [(2, [1])]) 0x10 0 (fun s c => !s.mod.frames.retired.contains (c.get 0 8 / 65536) &&
      s.frameLeased (c.get 0 8 / 65536)) = true := by and_intros <;> decide

/-- As many frames are retired as the list holds, and a command retires one more. -/
def demoFull : State := (cmd 0x10 0 8 [(2, [1])]).modMod fun m => { m with frames := { m.frames with retired := List.replicate 65536 0 } }
theorem witness_ServiceCommands_full : ∃ c, Runs demoFull (.mailbox 0) 0x10 0 c ∧
    c.get 0 8 % 65536 = 0 ∧ isDeviceMemory (c.get 0 8) = true ∧ c.get 0 8 / 65536 ∉ (demoFull.taken (.mailbox 0)).mod.frames.retired ∧
    65536 ≤ (demoFull.taken (.mailbox 0)).mod.frames.retired.length := by
  obtain ⟨c, h, hp⟩ := sees_runs (s := demoFull) (op := 0x10) (sub := 0) (p := fun _ c => c.get 0 8 == 65536) (by decide)
  have ha : c.get 0 8 = 65536 := by simpa using hp
  have hr : (demoFull.taken (.mailbox 0)).mod.frames.retired = List.replicate 65536 0 := by rfl
  refine ⟨c, h, by rw [ha], by rw [ha]; decide, ?_, ?_⟩
  · rw [ha, hr]
    intro hm
    exact absurd (List.eq_of_mem_replicate hm) (by decide)
  · rw [hr, List.length_replicate]

/-- A communicator and a reduction group of device 1. -/
def demoFabric : State := demo.modPart 0 fun p => { p with fab := { p.fab with
  comms := [(0, { id := 7, members := [0], rank := 0, vdev := 1 })],
  groups := [(0x780 * 256 + 1, { endpoint := 0x780, vdev := 1, elem := 0, red := 0, rank := 0, members := [0] })] } }
/-- The table of communicators is full. -/
def demoComms : State := demo.modPart 0 fun p => { p with fab := { p.fab with
  comms := (List.range 64).map fun k => (k, { id := 7 + 256 * k, members := [0], rank := 0, vdev := 1 }) } }
def cmdFabric (params : List (Nat × List Byte)) (level plen : Nat) : State := withBlock demoFabric 0x14 level plen params

theorem witness_TableCommands :
    ([0, 1].all fun sub => sees (cmd 0x13 0 64 [(0, [1, sub]), (8, [1])]) 0x13 sub.toNat (fun _ c => c.get 8 8 % 4096 != 0) &&
      sees (cmd 0x13 0 64 [(0, [1, sub]), (9, [16])]) 0x13 sub.toNat (fun _ c => decide (c.get 8 8 < 2 ^ 52) && c.get 8 8 % 4096 == 0 &&
        decide (c.get 16 1 ≤ 1))) = true ∧
    sees (cmd 0x13 0 64 [(0, [1, 2, 4])]) 0x13 2 (fun _ c => decide (3 < c.get 2 1)) = true ∧
    sees (cmd 0x13 0 64 [(0, [1, 2, 3]), (8, [255, 7])]) 0x13 2 (fun _ c => c.get 2 1 == 3 && decide (c.get 8 8 < 2048)) = true ∧
    ([false, true].all fun held => sees (withBlock (if held then demoPathHeld demo else demo) 0x13 0 64 [(0, [1, 2, 1])]) 0x13 2 (fun s c => c.get 2 1 == 1 &&
      (s.invalidated 0 1 1 (c.get 8 8)).unsettled 1 == held)) = true ∧
    sees (cmd 0x13 1 64 [(0, [1, 3, 16])]) 0x13 3 (fun _ c => decide (16 ≤ c.get 2 1)) = true ∧
    sees (cmd 0x13 1 64 [(0, [1, 3, 15]), (24, [1])]) 0x13 3 (fun _ c => decide (c.get 2 1 < 16) && c.get 24 1 == 1 && c.get 16 8 == 0) = true ∧
    sees (cmd 0x13 1 64 [(0, [1, 3, 15]), (18, [1]), (24, [3])]) 0x13 3 (fun _ c => decide (c.get 2 1 < 16) && c.get 24 1 == 3 && c.get 16 8 == 65536) = true ∧
    sees (cmd 0x13 1 64 [(0, [1, 4]), (8, [1])]) 0x13 4 (fun _ c => c.get 8 8 % 65536 != 0) = true ∧
    sees (cmd 0x13 1 64 [(0, [1, 4, 255])]) 0x13 4 (fun s c => isDeviceMemory (c.get 8 8) && c.get 16 8 == 0 && c.get 24 8 == 0 && c.get 32 8 == 0 &&
      homeQuad (s.quadsOf 0) (c.get 8 8) == some 0) = true ∧
    ([5, 6, 7].all fun n => sees (cmd 0x13 0 64 [(0, [0, 5, n])]) 0x13 5 (fun _ c => c.get 2 1 == n.toNat)) = true ∧
    sees (cmdFabric [(0, [0, 1, 9, 0, 1, 0, 1])] 0 18) 0x14 0 (fun _ c => c.commsBad) = true ∧
    sees (cmdFabric [(0, [0, 1, 9, 0, 0, 0, 1])] 0 18) 0x14 0 (fun s c => !c.commsBad && freeIndex (s.part 0).fab.comms 64 == some 1) = true ∧
    sees (cmdFabric [(0, [0, 1, 7, 0, 0, 0, 1])] 0 18) 0x14 0 (fun s c => !c.commsBad &&
      ((s.part 0).fab.comms.find? fun e => e.2.id == c.get 2 2 && e.2.vdev == c.get 1 1).isSome) = true ∧
    sees (withBlock demoComms 0x14 0 18 [(0, [0, 1, 9, 0, 0, 0, 1])]) 0x14 0 (fun s c => !c.commsBad && (freeIndex (s.part 0).fab.comms 64).isNone &&
      ((s.part 0).fab.comms.find? fun e => e.2.id == c.get 2 2 && e.2.vdev == c.get 1 1).isNone) = true ∧
    sees (cmdFabric [(0, [1, 1, 9, 0, 0, 0, 1])] 0 18) 0x14 1 (fun s c => ((s.part 0).fab.comms.find? fun e => e.2.id == c.get 2 2).isNone) = true ∧
    sees (cmdFabric [(0, [1, 1, 7, 0, 0, 0, 1])] 0 18) 0x14 1 (fun s c => ((s.part 0).fab.comms.find? fun e => e.2.id == c.get 2 2 && e.2.vdev == 1).isSome) =
      true ∧
    sees (cmdFabric [(0, [2, 1, 0x80, 7, 0, 0, 1, 0, 6])] 1 18) 0x14 2 (fun _ c => decide (5 < c.get 8 1)) = true ∧
    sees (cmdFabric [(0, [2, 1, 0xFF, 7, 0, 0, 1, 0, 5, 2])] 1 18) 0x14 2 (fun _ c => !c.commsBad && decide (0x780 ≤ c.get 2 2) && decide (c.get 2 2 ≤ 0x7FF) &&
      decide (c.get 8 1 ≤ 5) && decide (c.get 9 1 ≤ 2)) = true ∧
    ([0x80, 0x81].all fun e => sees (cmdFabric [(0, [3, 1, e, 7, 0, 0, 1])] 1 18) 0x14 3 (fun _ c => c.get 2 2 == 1792 + e.toNat)) = true ∧
    sees (cmd 0x16 0 24 [(1, [1])]) 0x16 0 yes = true ∧
    calls (repeating (calling id 0x16 0 24 [(1, [1])])) 0x16 0 (fun s c => (s.repeated c).isSome) = true ∧
    calls (calling id 0x16 0 24 [(1, [1])]) 0x16 0 (fun s c => (s.repeated c).isNone) = true ∧
    ([0, 1].all fun n => sees (cmd 0x16 0 24 [(0, [1, 1]), (8, [n])]) 0x16 1 (fun _ c => c.get 8 4 == n.toNat)) = true ∧
    ([3, 4].all fun n => sees (cmd 0x16 0 24 [(0, [2, 0, n])]) 0x16 2 (fun _ c => c.get 2 1 == n.toNat)) = true ∧
    ([3, 4].all fun n => sees (cmd 0x16 0 24 [(0, [3, 0, n])]) 0x16 3 (fun _ c => c.get 2 1 == n.toNat && c.get 8 8 == 0)) = true ∧
    sees (cmd 0x16 1 24 [(0, [4, 0, 3]), (8, [0xFF, 0xFF])]) 0x16 4 (fun _ c => decide (c.get 2 1 < 4) && c.get 8 2 == 0xFFFF) = true ∧
    sees (cmd 0x16 1 24 [(0, [4, 0, 3]), (8, [10])]) 0x16 4 (fun _ c => !counterAssigned (c.get 8 2)) = true := by and_intros <;> decide

/-- A byte that a store does not list reads 0, so the bytes that are not listed are 0 when every listed key is. -/
theorem unlistedZero_of_store {b : Store Byte} {plen : Nat} {l : List (Nat × Nat)} (hp : plen ≤ 4032)
    (h : (b.all fun kv => decide (kv.1 < 64) || l.any fun r => decide (64 + r.1 ≤ kv.1) && decide (kv.1 < 64 + r.1 + r.2)) = true) :
    unlistedZero ((upTo 4096).map fun i => Store.get 0 b i) plen l = true := by
  unfold unlistedZero
  rw [List.all_eq_true]
  intro i hi
  have hi : i < plen := by simpa [upTo] using hi
  have hb : (((upTo 4096).map fun i => Store.get 0 b i).getD (paramAt + i) 0) = Store.get 0 b (64 + i) := by
    rw [List.getD_eq_getElem _ _ (by simp [upTo, paramAt]; omega)]
    simp [upTo, paramAt]
  rw [hb]
  have key : ∀ b : Store Byte, (b.all fun kv => decide (kv.1 < 64) || l.any fun r => decide (64 + r.1 ≤ kv.1) && decide (kv.1 < 64 + r.1 + r.2)) = true →
      Store.get 0 b (64 + i) = 0 ∨ (l.any fun r => decide (64 + r.1 ≤ 64 + i) && decide (64 + i < 64 + r.1 + r.2)) = true := by
    intro b
    induction b with
    | nil => intro _; exact .inl rfl
    | cons kv rest ih =>
      intro h
      rw [List.all_cons, Bool.and_eq_true] at h
      by_cases e : kv.1 = 64 + i
      · refine .inr ?_
        have := h.1
        rw [e] at this
        simpa using this
      · rcases ih h.2 with h0 | h0
        · exact .inl (by simpa [Store.get, Store.find, e] using h0)
        · exact .inr h0
  rcases key b h with h0 | h0
  · rw [h0]
    rfl
  · rw [Bool.or_eq_true]
    obtain ⟨r, hr, h1⟩ := List.any_eq_true.mp h0
    refine .inr (List.any_eq_true.mpr ⟨r, hr, ?_⟩)
    simp only [Bool.and_eq_true, decide_eq_true_eq] at h1 ⊢
    omega

/-- Whether mailbox 0 gives an operation of DEBUG_ATTACH on device 1, every nonzero byte of which is listed, and a condition holds of it. -/
def debugSees (s : State) (sub : Nat) (p : State → Command → Bool) : Bool :=
  let c : Command := commandFrom (.mailbox 0) ((upTo 4096).map fun i => Store.get 0 (s.quad 0).mailbox.block i)
  s.given (.mailbox 0) && c.op == 0x0E && subOf 0x0E c.block == sub && levelListed 0x0E sub c.expert && decide (field c.block 2 1 < 2) && c.plen == 2708 &&
  ((s.quad 0).mailbox.block.all fun kv => decide (kv.1 < 64) ||
    (paramListed 0x0E sub c.expert false (c.get 3 1 == 1) (c.get 6 2)).any fun r => decide (64 + r.1 ≤ kv.1) && decide (kv.1 < 64 + r.1 + r.2)) &&
  c.get 0 1 == 1 && ((Store.find (s.taken (.mailbox 0)).vdevs 1).map (·.inProgress)) == some none && p (s.taken (.mailbox 0)) c

theorem debugSees_runs {s : State} {sub : Nat} {p : State → Command → Bool} (h : debugSees s sub p = true) :
    ∃ c, Runs s (.mailbox 0) 0x0E sub c ∧ p (s.taken (.mailbox 0)) c = true := by
  simp only [debugSees, Bool.and_eq_true, beq_iff_eq, decide_eq_true_eq] at h
  obtain ⟨⟨⟨⟨⟨⟨⟨⟨⟨hg, hop⟩, hsub⟩, hl⟩, h2⟩, hp⟩, hb⟩, hv⟩, hd⟩, hc⟩ := h
  refine ⟨_, ⟨⟨hg, rfl, hop, by rw [hop]; exact hsub⟩, ?_⟩, hc⟩
  have hz := unlistedZero_of_store (plen := 2708) (by omega) hb
  generalize hbk : ((upTo 4096).map fun i => Store.get 0 (s.quad 0).mailbox.block i) = bk at *
  unfold State.commonRefusal
  have h3 : ¬ (2 ≤ field bk 2 1) := Nat.not_le.mpr h2
  have hop : field bk 0 2 = 14 := hop
  have hp : field bk 4 4 = 2708 := hp
  have hl : levelListed 14 sub (field bk 2 1 == 1) = true := hl
  have hv : field bk paramAt 1 = 1 := hv
  have hsub : subOf 14 bk = sub := hsub
  cases hf : Store.find (s.taken (.mailbox 0)).vdevs 1 with
  | none => rw [hf] at hd; simp at hd
  | some v =>
    rw [hf] at hd
    simp only [Option.map_some, Option.some.injEq] at hd
    have hz : unlistedZero bk 2708 (paramListed 14 sub (field bk 2 1 == 1) false (field bk (paramAt + 3) 1 == 1) (field bk (paramAt + 6) 2)) = true := hz
    simp [commandFrom, Command.plen, Command.get, isGuest, hop, hsub, hl, h3, paramLength, hp, hz, Command.vdev, hv, hf, hd, checksLost]

/-- DEBUG_ATTACH on device 1, with a debugger of a policy attached or none. -/
def dbg (f : Vdev → Vdev) (level : Nat) (params : List (Nat × List Byte)) : State :=
  withBlock (demo.modVdev 1 f) 0x0E level 2708 params
def attached (policy : Nat) (v : Vdev) : Vdev := { v with debugger := some { policy := policy, vendor := false } }
def protect (v : Vdev) : Vdev := { v with ctx := { v.ctx with ctl := 4 } }
def halts (v : Vdev) : Vdev := { v with ctx := { v.ctx with halted := true } }
def ofDevice (s : State) (p : Vdev → Bool) : Bool := (Store.find s.vdevs 1).any p

theorem witness_DebugCommands :
    debugSees (dbg protect 0 [(0, [1])]) 0 (fun s _ => ofDevice s fun v => v.ctx.prot) = true ∧
    debugSees (dbg id 0 [(0, [1, 1])]) 1 (fun s _ => ofDevice s fun v => v.debugger.isNone) = true ∧
    debugSees (dbg id 0 [(0, [1, 1, 0, 2])]) 1 (fun s c => decide (1 < c.get 3 1) && ofDevice s fun v => !v.ctx.prot) = true ∧
    debugSees (dbg id 0 [(0, [1, 0, 3])]) 0 (fun s c => decide (2 < c.get 2 1) && ofDevice s fun v => !v.ctx.prot) = true ∧
    debugSees (dbg (attached 0) 0 [(0, [1, 0, 2])]) 0 (fun s c => c.get 2 1 == 2 && c.get 3 1 == 0 && ofDevice s fun v => v.debugger.isSome) = true ∧
    debugSees (dbg id 0 [(0, [1, 0, 2])]) 0 (fun s c => c.get 2 1 == 2 && c.get 3 1 == 0 && ofDevice s fun v => v.debugger.isNone) = true ∧
    debugSees (dbg id 1 [(0, [1, 0, 0, 1])]) 0 (fun s c => c.get 3 1 == 1 && ofDevice s fun v => v.debugger.isNone && !v.ctx.prot) = true ∧
    debugSees (dbg (attached 0) 0 [(0, [1, 1])]) 1 (fun s _ => ofDevice s fun v => v.debugger.isSome && !v.ctx.prot) = true ∧
    debugSees (dbg (attached 0) 0 [(0, [1, 2, 1]), (4, [9])]) 2 (fun s c => c.get 2 1 == 1 && ((s.teamsOf 1).find? fun t => t.2.id.number == c.get 4 4).isNone) =
      true ∧
    debugSees (dbg (attached 0) 0 [(0, [1, 2]), (8, [9])]) 2 (fun s c => (s.named 1 (c.get 4 4) (c.get 8 1)).isEmpty) = true ∧
    debugSees (dbg (attached 0) 0 [(0, [1, 2])]) 2 (fun s c => !(s.named 1 (c.get 4 4) (c.get 8 1)).isEmpty) = true ∧
    debugSees (dbg (attached 0) 0 [(0, [1, 3])]) 3 (fun s c => (s.named 1 (c.get 4 4) (c.get 8 1)).all fun kv => kv.2.stops.stop.isNone) = true ∧
    debugSees (dbg (fun v => attached 0 (halts v)) 0 [(0, [1, 3])]) 3 (fun s c => ((s.named 1 (c.get 4 4) (c.get 8 1)).any fun kv =>
      kv.2.stops.stop.isNone && !kv.2.flow.exited) && ofDevice s fun v => v.ctx.halted && v.ctx.haltFault.isNone) = true ∧
    debugSees (dbg (attached 0) 1 [(0, [1, 4]), (28, [25])]) 4 (fun _ c => decide (24 < c.get 28 1)) = true ∧
    debugSees (dbg (attached 0) 1 [(0, [1, 4]), (22, [1, 0]), (24, [64]), (28, [24]), (36, [0xFF])]) 4 (fun s c => c.get 28 1 == 24 &&
      s.hostRange (c.get 16 8) (max 1 (c.get 24 4)) && c.get 36 1 == 0xFF && c.get 40 8 == 0 && c.get 48 8 == 0) = true ∧
    debugSees (dbg (attached 0) 1 [(0, [1, 5]), (64, [1]), (68, [0x1B])]) 5 (fun _ c =>
      (List.range 4).filterMap c.stage == [{ kind := 1, selector := 0x1B, value := 0x1B }]) = true ∧
    debugSees (dbg (attached 0) 1 [(0, [1, 5]), (64, [3])]) 5 (fun _ c => ((List.range 4).filterMap c.stage).any fun t => decide (2 < t.kind)) = true ∧
    debugSees (dbg (attached 0) 1 [(0, [1, 5]), (64, [1]), (68, [0x1C])]) 5 (fun _ c => ((List.range 4).filterMap c.stage).any fun t =>
      t.kind == 1 && decide (0x1B < t.value)) = true ∧
    calls (calling id 0x0F 0 40 []) 0x0F 0 (fun s _ => ofDevice s fun v => !v.ctx.prot) = true ∧
    calls (calling protect 0x0F 0 40 [(16, [95])]) 0x0F 0 (fun s c => decide (c.get 16 8 < 96) && ofDevice s fun v => v.ctx.prot && !v.lost) = true ∧
    calls (calling protect 0x0F 0 40 [(16, [96])]) 0x0F 0 (fun s c => c.get 16 8 == 96 && !(s.guestRead 0 1 (c.get 8 8) 96).2.isOk) = true ∧
    calls (calling protect 0x0F 0 40 [(9, [0x10, 0x12]), (16, [96])]) 0x0F 0 (fun s c => match s.guestRead 0 1 (c.get 8 8) 96 with
      | (_, .ok b) => ofDevice s fun v => v.ctx.prot && !v.lost && (Store.find v.ctx.sealedDumps (field b 68 8 - 2 ^ 63)).isNone
      | _ => false) = true ∧
    calls (calling (fun v => { v with ctx := { ctl := 4, sealedDumps := [(0, (0, 0))] } }) 0x0F 0 40 [(9, [0x10, 0x12]), (16, [96])]) 0x0F 0 (fun s c =>
      match s.guestRead 0 1 (c.get 8 8) 96 with
      | (_, .ok b) => decide (field b 68 8 < 2 ^ 63) && ofDevice s fun v => v.ctx.prot && !v.lost && (Store.find v.ctx.sealedDumps (field b 68 8 - 2 ^ 63)).isSome
      | _ => false) = true ∧
    sees (cmd 0x0F 0 24 [(0, [1])]) 0x0F 0 (fun s _ => ofDevice s fun v => !v.ctx.halted) = true ∧
    sees (cmdOn halts 0x0F 0 24 [(0, [1]), (16, [63])]) 0x0F 0 (fun s c => c.get 16 8 == 63 && ofDevice s fun v => v.ctx.halted && !v.lost) = true ∧
    sees (cmdOn halts 0x0F 0 24 [(0, [1]), (8, hostBytes), (16, [64])]) 0x0F 0 (fun s c => c.get 16 8 == 64 && ofDevice s fun v => v.ctx.halted && !v.lost) =
      true ∧
    sees (cmd 0x0B 0 32 []) 0x0B 0 (fun _ c => !c.expert) = true ∧
    sees (cmd 0x0B 1 56 [(32, [2])]) 0x0B 0 (fun _ c => c.expert && decide (1 < c.get 32 1)) = true ∧
    sees (cmd 0x0B 1 56 [(32, [1]), (48, [0xA3, 0x88])]) 0x0B 0 (fun _ c => c.expert && c.get 32 1 == 1 && c.get 48 8 == 34979) = true ∧
    sees (cmd 0x0B 1 56 [(40, hostBytes), (48, [0xA4, 0x0B])]) 0x0B 0 (fun s c => c.expert && c.get 32 1 == 0 && c.get 48 8 == 2980 &&
      s.hostRange (c.get 40 8) 2980) = true ∧
    sees (cmd 0x0B 1 56 [(48, [0xA4, 0x0B])]) 0x0B 0 (fun s c => c.expert && c.get 32 1 == 0 && c.get 48 8 == 2980 && !s.hostRange (c.get 40 8) 2980) = true := by and_intros <;> decide

/-! Migration, the outside, faults and steps. -/

/-- The region of a checkpoint at a page. -/
def streaming (page : Nat) : Checkpoint := { ctl := BitVec.ofNat 64 (2 ^ 56 + page), epoch := 1, length := 0x10000 }
/-- A guest page is marked dirty in the bitmap of the device, which is at 0x112040; a record of the region ends with its head at the end of the first page. -/
def dirtied (page region : Nat) : State :=
  let s := warm (mapped fun v => { v with ckpt := { streaming region with position := 4080 }, tab := { v.tab with dirtyBase := 0x112040 } })
  { s with mem := memWrites s.mem (0x112040 + page / 8) [BitVec.ofNat 8 (2 ^ (page % 8))],
           mod := { s.mod with frames := { s.mod.frames with owner := [(1, 1), (16, 0), (17, 1), (18, 1)] } } }
/-- The state in which a page's data is looked for. -/
def pageTaken (s : State) (page : Nat) : State :=
  ((s.clearDirty 1 page).dropTranslations fun t => t.vdev == 1 && decide (t.gpa ≤ page) && decide (page < t.gpa + t.span) && t.w).settleVdev 1
/-- A page may be taken, and what its streaming then finds: 0 for a store still open, 1 for a page that cannot be read, 2 for lost data, 3 for a region that
cannot be written, 4 for all else. -/
def streamSight (s : State) (page : Nat) : Option Nat :=
  let s1 := pageTaken s page
  match Store.find s.vdevs 1 with
  | none => none
  | some v =>
    if !(s.streams 1 v && (s.dirtyPages 1).contains page) then none
    else if s1.unsettled 1 then some 0 else match s1.guestPage 0 1 (page * 4096) with
      | (_, .error _) => some 1
      | (s2, .ok a) => match s2.servedBytes 0 1 a 4096 with
        | (_, .error (.lost _)) => some 2
        | (_, .error _) => none
        | (s3, .ok b) => some (if (s3.streamWrite 0 1 (v.ckpt.region + v.ckpt.position)
            (bytesOf 4 v.ckpt.epoch ++ bytesOf 4 0 ++ bytesOf 8 (page * 4096) ++ b)).isSome then 4 else 3)
def spoilLlc (s : State) (a : Nat) : State :=
  s.modQuad 0 fun q => { q with llc := { q.llc with lines := q.llc.lines.map fun l => if l.1 = a then (a, { l.2 with bad0 := true }) else l } }
def demoImageOf : Image := { counter := 1, index := 0, length := 128, teams := [] }
/-- The image of the device is ready, and its epoch closes in a region. -/
def closing (region : Nat) : State := (dirtied 0x120 region).modVdev 1 fun v =>
  { v with tab := { v.tab with dirtyBase := 0x10000 }, saved := { phase := .saved, image := some demoImageOf }, ckpt := { streaming region with closing := true } }
def closeSight (s : State) : Option Bool := (Store.find s.vdevs 1).bind fun v => v.saved.image.bind fun i =>
  if v.ckpt.closing && v.saved.phase == .saved && !v.lost && (s.dirtyPages 1).isEmpty && decide (v.ckpt.position + i.length + 64 ≤ v.ckpt.length)
  then some (s.streamWrite 0 1 (v.ckpt.region + v.ckpt.position) (imageBytes v.ctx i ++ epochTrailer v.ckpt i)).isSome else none
def moved (f : Vdev → Vdev) : State := demo.modVdev 1 f
/-- Device 1 moves out to device 2 of this module. -/
def demoMoves (f g : Vdev → Vdev) : State :=
  let d : List Byte := List.replicate 20 0 ++ [1] ++ List.replicate 43 0
  let v : Vdev := f { desc := d, mig := { phase := 2 } }
  let s : State := { demo with vdevs := [(1, v), (2, g { desc := d, mig := { incoming := true } })] }
  s.modVdev 1 fun v => { v with saved := { v.saved with image := some { demoImageOf with shape := s.shapeOf d, launches := (v.saved.image.map (·.launches)).getD [] } } }
def manyLaunches : Image := { demoImageOf with launches := (upTo 257).map fun k => (k, demoEntryOf packetBytes none) }
/-- What the switch of device 1 finds: whether it has a free forwarding entry and an image; the partition of its peer; and of the device that waits there, whether
PROT agrees, whether the key is lost, whether it has the image's shape, and whether its launch table has room. -/
def switchSight (s : State) : Option (Option Nat × Option (Bool × Bool × Bool × Bool)) :=
  (Store.find s.vdevs 1).bind fun v => match freeIndex (s.part 0).fab.forwarding 16, v.saved.image with
    | some _, some i => if v.mig.incoming || v.mig.phase != 2 then none else
      some (s.endpointPart v.mig.peer, (s.endpointPart v.mig.peer).bind fun q => (s.incoming q v.ctx.ctxid (s.part 0).regs.endpoint).map fun d =>
        (d.2.ctx.prot == v.ctx.prot, v.lost, i.shape == s.shapeOf d.2.desc && s.shapeOffered q d.2.desc, s.launchRoom q d.1 i))
    | _, _ => none
def kept (c : Context) : Context := { c with ctl := 4, keyErased := true }
/-- Device 1 has come in from device 2 of this module, and one of its frames is still there. -/
def pulling : State := { demo with vdevs :=
  [(1, { desc := List.replicate 64 0, mig := { phase := 4, incoming := true, unpulled := [5] } }), (2, { desc := List.replicate 64 0, mig := { phase := 4 } })] }
def forwards (acks peers : BitVec 64) (expiry : Nat) : State := demo.modFab 0 fun f =>
  { f with forwarding := [(3, { vdev := 1, endpoint := 0, acks := acks, peers := peers, expiry := expiry })] }
/-- The device moves out to another module, and has sent some of its frames. -/
def sending (owned sent : List Nat) : State :=
  { (moved fun v => { v with mig := { phase := 4, peer := 2047, sent := sent } }) with
    mod := { demo.mod with frames := { demo.mod.frames with owner := owned.map fun f => (f, 1) } } }
def sendsLast (s : State) (frame : Nat) : Option Bool := (Store.find s.vdevs 1).bind fun v =>
  let sent := if v.mig.sent.contains frame then v.mig.sent else v.mig.sent ++ [frame]
  if v.mig.incoming || v.mig.phase != 4 || s.ownerOf (frame * 65536) != 1 || (s.endpointPart v.mig.peer).isSome then none
  else some ((((s.takeFrame 1 frame v).edgeFlits 0 1).framesOf 1).all sent.contains)

theorem witness_MigrationEvents_stream :
    streamSight ((demoPathHeld (dirtied 0x121 0x120)).modVdev 1 fun v => { v with ckpt := streaming 0x120 }) 0x121 = some 0 ∧
    streamSight (dirtied 0x20 0x120) 0x20 = some 1 ∧ streamSight (spoilLlc (dirtied 0x121 0x120) 0x121000) 0x121 = some 2 := by and_intros <;> decide
theorem witness_MigrationEvents_region :
    streamSight (dirtied 0x121 0x20) 0x121 = some 3 ∧ streamSight (dirtied 0x121 0x120) 0x121 = some 4 ∧
    closeSight (closing 0x120) = some true ∧ closeSight (closing 0x20) = some false := by and_intros <;> decide

theorem witness_MigrationEvents :
    ((Store.find (moved fun v => { v with mig := { phase := 4, incoming := true, peer := 2047, unpulled := [5, 6] } }).vdevs 1).map fun v =>
      v.mig.unpulled.contains 5 && !v.mig.sourceLost && v.mig.incoming && v.mig.phase == 4 && (demo.endpointPart v.mig.peer).isNone) = some true ∧
    ((Store.find pulling.vdevs 1).bind fun v => (pulling.sourceOf v).map fun w => v.mig.unpulled.contains 5 && !v.mig.sourceLost &&
      pulling.endpointPart v.mig.peer == some 0 && (pulling.pullPages v w.1 0 5 (List.range 16)).2.isSome) = some true ∧
    switchSight (demoMoves (fun v => { v with mig := { v.mig with peer := 2047 } }) id) = some (none, none) ∧
    switchSight (demoMoves id fun v => { v with mig := {} }) = some (some 0, none) ∧
    switchSight (demoMoves id fun v => { v with ctx := { v.ctx with ctl := 4 } }) = some (some 0, some (false, false, true, true)) ∧
    switchSight (demoMoves (fun v => { v with ctx := kept v.ctx }) fun v => { v with ctx := { v.ctx with ctl := 4 } }) = some (some 0, some (true, true, true, true)) ∧
    switchSight (demoMoves id fun v => { v with desc := v.desc.set 20 2 }) = some (some 0, some (true, false, false, true)) ∧
    switchSight (demoMoves (fun v => { v with saved := { v.saved with image := some manyLaunches } }) id) = some (some 0, some (true, false, true, false)) ∧
    switchSight (demoMoves id id) = some (some 0, some (true, false, true, true)) ∧
    ((Store.find (moved fun v => { v with mig := { incoming := true, peer := 2047 } }).vdevs 1).map fun v =>
      (demo.endpointPart v.mig.peer).isNone && demo.shapeOffered 0 v.desc) = some true ∧
    ((Store.find (moved fun v => { v with desc := v.desc.set 20 49, mig := { incoming := true, peer := 2047 } }).vdevs 1).map fun v =>
      (demo.endpointPart v.mig.peer).isNone && !demo.shapeOffered 0 v.desc) = some true ∧
    demo.endpointPart 0 = some 0 ∧ demo.endpointPart 2047 = none ∧
    (Store.find ((forwards 1 3 5).part 0).fab.forwarding 3).isSome = true ∧ (3 : BitVec 64) &&& ~~~(1 ||| BitVec.ofNat 64 (2 ^ 1)) = 0 ∧
    (3 : BitVec 64) &&& ~~~(1 ||| BitVec.ofNat 64 (2 ^ 2)) ≠ 0 ∧
    sendsLast (sending [1] []) 1 = some true ∧ sendsLast (sending [1, 2] []) 1 = some false := by and_intros <;> decide

theorem witness_MigrationEvents_frame : (List.replicate 65536 (0 : Byte)).length = 65536 := List.length_replicate

/-- Frame 1 is exported, or is not, and its device has let the host window at it; the group is sampled; and the device has a trigger that has matched. -/
def exports (yes : Bool) : State := (demo.modVdev 1 fun v => { v with tab := { v.tab with grants := [(0, ⟨1, 0, 0x10000⟩)] } }).modFab 0 fun f =>
  { f with exports := [(1, 0, yes), (1, 256, yes)] }
def demoSampling : Sampling := { vdev := 1, buffer := 2 ^ 48, length := 64, rate := 4, team := 0, group := 0, low := 0, high := 0 }
def demoSample : FaultRecord := { code := 0, kind := 0, team := 0, group := 0, slot := 0, pc := 0, resume := 0, mask := 0, addr := 0, cls := 0, aux1 := 0, aux2 := 0, time := 0, tick := 0 }
def sampled (written buffer : Nat) (r : Option (Nat × FaultRecord)) : State := demo.modPart 0 fun p =>
  { p with sampling := some { demoSampling with written := written, buffer := buffer, sampled := r } }
/-- What a sample of the group finds: whether one has been taken, and whether it has room in the buffer. -/
def sampleSight (s : State) : Option (Bool × Bool) :=
  (s.part 0).sampling.bind fun sm => if (s.callerOf 0).map (·.part) != some 0 then none else
    some (sm.sampled.any fun r => r.1 == 0, decide (sm.written + 64 ≤ sm.length) && s.hostRange (sm.buffer + sm.written) 64)
def triggered (n : Nat) (hit : Option (Option Nat)) : State := demo.modVdev 1 fun v =>
  { v with debugger := some { policy := 0, vendor := false, triggers := (List.range n).map fun _ => ⟨2, 0, 0⟩, hit := hit } }
/-- What a trigger stage of the device finds: whether it is due, whether it is the last, what has hit it, and whether that group is there. -/
def triggerSight (s : State) : Option (Bool × Bool × Option (Option Nat) × Bool) := (Store.find s.vdevs 1).bind fun v => v.debugger.map fun d =>
  (d.hit.isSome || s.counterHit 1 v, decide (d.triggers.length ≤ d.armed + 1), d.hit, (d.hit.bind id).any fun gid => Store.has s.groups gid)

theorem witness_OutsideEvents :
    homeQuad [] (outsideAddr (.read 0x10000 4)) = some 0 ∧ demo.frameHere (demo.partOfQuad 0) 0x10000 = true ∧ demo.hostGranted 0x10000 = false ∧
    (exports true).frameHere ((exports true).partOfQuad 0) 0x10000 = true ∧ (exports true).hostGranted 0x10000 = true ∧
    ((exports true).exported 0 (frameOf 0x10000) 0).1 = true ∧ ((exports false).exported 0 (frameOf 0x10000) 0).1 = false ∧
    outsideAddr (.write 0x10000 [1]) < 2 ^ 40 ∧ (demo.edgeFlits 0 0).frameHere 0 (fabricHome 0x10000) = true ∧
    (((exports true).edgeFlits 0 0).exported 0 (frameOf 0x10000) 256).1 = true ∧
    frameOf (fabricHome 0x20000) ∈ (((demo.modFab 0 fun f => { f with departed := [frameOf (fabricHome 0x20000)] }).edgeFlits 0 0).part 0).fab.departed ∧
    (demo.quad 3).mailbox.go = false ∧ (demo.modQuad 3 fun q => { q with power := .exiting }).exitDone 3 = true ∧
    sampleSight (sampled 0 (2 ^ 48) none) = some (false, true) ∧ sampleSight (sampled 0 (2 ^ 48) (some (0, demoSample))) = some (true, true) ∧
    sampleSight (sampled 1 (2 ^ 48) (some (0, demoSample))) = some (true, false) ∧ sampleSight (sampled 0 0 (some (0, demoSample))) = some (true, false) ∧
    triggerSight (triggered 2 (some (some 0))) = some (true, false, some (some 0), true) ∧
    triggerSight (triggered 1 (some (some 0))) = some (true, true, some (some 0), true) ∧
    triggerSight (triggered 1 (some (some 9))) = some (true, true, some (some 9), false) ∧
    triggerSight (triggered 1 (some none)) = some (true, true, some none, false) ∧
    triggerSight (triggered 1 none) = some (true, true, none, false) ∧
    (∀ p ∈ [SpdmPhase.versioned, .capable, .negotiated, .keyed, .session],
      (Store.get {} (demo.modIdent fun d => { d with spdm := [(2049, { phase := p })] }).mod.ident.spdm 2049).phase = p) := by and_intros <;> decide

/-- A fault, and the group's launch in the table. -/
def demoTrap (c : FaultCode) : Trap := { code := c, pc := 0x10000, resume := 0x10000, slot := 0, mask := 0xFFFFFFFF }
def launched (ctl : BitVec 64) : State :=
  (demo.modVdev 1 fun v => { v with ctx := { v.ctx with ctl := ctl } }).modDisp 0 fun d => { d with launches := [(0, demoEntryOf packetBytes none)] }
/-- The launch has a fatal fault of a period that is over. -/
def condemned (ctl : BitVec 64) : State :=
  let s := launched ctl
  { (s.modDisp 0 fun d => { d with launches := d.launches.map fun e =>
      (e.1, { e.2 with phase := .faulted, fatal := some { code := 1, team := 0, group := 0, pc := 0, mask := 1, time := 0, period := 0 } }) }) with
    mod := { s.mod with tick := 84 } }

theorem witness_FaultsTaken :
    ((demo.issuing (.setmode false 1 0 15)).map fun u => (precheck demo u.1 u.2 (.setmode false 1 0 15)).isSome) = some true ∧
    (((demoFlow fun f => { f with recipe := some ⟨demoPoint⟩ }).issuing (.st 4 6 3 4 7)).map fun u => u.2.flow.recipe.isSome) = some true ∧
    recipeAllows (.st 4 6 3 4 7) = false ∧ isPrivileged .eret = true ∧
    ((demo.issuing .eret).map fun u => u.2.flow.recipe.isNone && u.2.flow.fw.isNone) = some true ∧
    ((Store.find demo.groups 0).map fun g => (Store.find demo.teams g.tid).isSome && (Store.find demo.vdevs 1).isSome) = some true ∧
    kindOf false (demoTrap .pageFault).code = .replayable ∧ kindOf true (demoTrap .softwareTrap).code = .serviced ∧
    kindOf false (demoTrap .breakpoint).code = .debugger ∧ kindOf false (demoTrap .misaligned).code = .fatal ∧
    ([0, 2].all fun ctl => (condemned ctl).sched.agenda.isEmpty && (condemned ctl).abortsNow.isSome &&
      ((Store.find (condemned ctl).vdevs 1).map fun v => v.ctx.dumphold) == some (ctl == 2)) = true ∧
    ((Store.find ((launched 0).part 0).disp.launches 0).map fun e => e.phase != .aborted) = some true := by and_intros <;> decide

theorem witness_DecodeEncodeRoundTrip :
    (Instr.lit 127 0xFFFFFFFF).isEvent = false ∧ (Instr.lit 127 0xFFFFFFFF).wellFormed = true ∧ (Instr.st 117 118 15 6 15).wellFormed = true := by and_intros <;> decide

/-- A state whose step runs the instruction of some words. -/
def fetches (nbits w : Nat) : State := State.reset.withFetchWord nbits w
/-- What StepRunsDecoded asks of a state. -/
def readyToFetch (s : State) (i : Instr) : Bool :=
  s.sched.agenda.isEmpty && s.dueEvent.isNone && s.collPlan.isNone && s.quietChange.isNone && s.commandDue.isNone && s.savesNow.isNone &&
  s.abortsNow.isNone && s.firmwareDue.isNone && decide (s.groups.map (·.1)).Nodup &&
  match s.choice s.benchesInUse with
  | none => false
  | some o => match Store.find s.groups o.gid with
    | none => false
    | some g => (Store.find s.teams g.tid).isSome && match s.translate (coreOf o.gid) 1 (g.flow.slot o.slot).pc.toNat .exec with
      | .error _ => false
      | .ok (t, s1) => (s1.badSite (t.physAddr (g.flow.slot o.slot).pc.toNat) 4).isNone &&
        match s1.translate (coreOf o.gid) 1 ((g.flow.slot o.slot).pc + 4).toNat .exec with
        | .error _ => false
        | .ok (u, s2) => (s2.badSite (u.physAddr ((g.flow.slot o.slot).pc + 4).toNat) 4).isNone &&
          match decodeBytes (s1.seen (t.physAddr (g.flow.slot o.slot).pc.toNat) 4 ++
            (if i.size = 8 then s2.seen (u.physAddr ((g.flow.slot o.slot).pc + 4).toNat) 4 else [])) with
          | .ok (j, []) => i == j
          | _ => false

theorem witness_StepRunsDecoded :
    readyToFetch (fetches 32 0x20102860) (.sadd 4 5 6) = true ∧ readyToFetch (fetches 64 0x12345678281C0000) (.lit 7 0x12345678) = true ∧
    State.reset.sched.agenda = [.boot] := by and_intros <;> decide

theorem witness_MemoryCanonicalInvariant : Memory.wf (fetches 32 0x20102860).mem = true ∧ (fetches 32 0x20102860).mem ≠ [] := by and_intros <;> decide

/-! The image that RESTORE takes back. -/

/-- With no team resident, the bytes that were written are seen. -/
theorem seen_memWrites (s : State) (a : Nat) (data : List Byte) (h : s.teams = []) (hw : s.mod.heldWrites = []) :
    ({ s with mem := memWrites s.mem a data } : State).seen a data.length = data := by
  apply List.ext_getElem
  · simp [State.seen, upTo]
  · intro i h1 h2
    simp only [State.seen, upTo, List.getElem_map, List.getElem_range, State.seenByte, h, hw, List.foldl_nil]
    exact memRead_memWrites_inside s.mem a data i h2

/-- An image with no body, of a device that has none in clear, with what it says of an epoch and n launches. -/
def keptImage (e : Option Nat) (n : Nat) : Image :=
  { counter := 0, index := 0, length := 128, teams := [], epoch := e, launches := (upTo n).map fun k => (k, demoEntryOf packetBytes none) }
def keptVdev (e : Option Nat) (n : Nat) : Vdev := { desc := List.replicate 64 0, saved := { phase := .saved, image := some (keptImage e n) } }
def keptBytes : List Byte := imageBytes {} (keptImage none 0)
/-- The device is away, and a mailbox asks for its image in the host window, of which the LLCs hold the line. -/
def away (e : Option Nat) (n : Nat) : State :=
  let s := withBlock { demo with teams := [], groups := [], vdevs := [(1, keptVdev e n)], parts := demo.parts.map fun p => (p.1, { p.2 with disp := {} }) } 0x05 0 24
    [(0, [1]), (8, hostBytes), (16, [128])]
  (upTo 4).foldl (fun s q => s.modQuad q fun z => { z with llc := { z.llc with lines := [(2 ^ 48, { valid0 := true, valid1 := true })] } }) s
def awayWithImage (e : Option Nat) (n : Nat) : State := { away e n with mem := memWrites (away e n).mem (2 ^ 48) keptBytes }
/-- The state after firmware has read the image. -/
def awayRead (e : Option Nat) (n : Nat) : State := ((awayWithImage e n).taken (.mailbox 0)).servedReads 0 0 [(2 ^ 48, 128)]

theorem keptBytes_length : keptBytes.length = 128 := by rfl

theorem keptImage_taken (s : State) (e : Option Nat) (n : Nat) (h : s.shapeOffered 0 (keptVdev e n).desc = true) :
    s.imageRefusal (keptVdev e n) keptBytes = none := by
  unfold State.imageRefusal
  rw [show (keptVdev e n).ctx = {} from rfl]
  refine (if_neg (by decide)).trans ?_
  refine (if_neg (by decide)).trans ?_
  refine (if_neg (by decide)).trans ?_
  refine (if_neg (by decide)).trans ?_
  refine (if_neg (not_or.mpr ⟨fun h1 => h1 rfl, fun h1 => h1 rfl⟩)).trans ?_
  refine (if_neg (show ¬ ((0 : Nat) ≠ field keptBytes 16 8 ∨ 128 ≠ keptBytes.length ∨ _) from ?_)).trans ?_
  · exact not_or.mpr ⟨by decide, not_or.mpr ⟨by decide, fun h1 => h1 rfl⟩⟩
  exact if_neg (by rw [show descPart (keptVdev e n).desc = 0 from rfl, h]; decide)

theorem away_taken (e : Option Nat) (n : Nat) : (awayWithImage e n).taken (.mailbox 0) =
    { (away e n).taken (.mailbox 0) with mem := memWrites ((away e n).taken (.mailbox 0)).mem (2 ^ 48) keptBytes } := by
  unfold awayWithImage
  generalize keptBytes = b
  rfl

theorem away_commandRead (e : Option Nat) (n : Nat) :
    ((awayWithImage e n).taken (.mailbox 0)).commandRead (.mailbox 0) (2 ^ 48) 128 = (awayRead e n, some keptBytes) := by
  unfold State.commandRead
  refine (if_neg (of_decide_eq_false rfl)).trans ?_
  unfold State.servedBytes
  rw [show ((awayWithImage e n).taken (.mailbox 0)).badSite (2 ^ 48) 128 = none from rfl]
  have h : ((awayWithImage e n).taken (.mailbox 0)).seen (2 ^ 48) 128 = keptBytes := by
    rw [away_taken, show 128 = keptBytes.length from keptBytes_length.symm]
    exact seen_memWrites _ _ _ rfl rfl
  rw [h]
  rfl

theorem witness_ContextCommands_restore : ∀ x ∈ [((none : Option Nat), 0), (some 1, 0), (none, 257)], ∃ c, Runs (awayWithImage x.1 x.2) (.mailbox 0) 0x05 0 c ∧
    c.get 0 1 = 1 ∧ Store.find ((awayWithImage x.1 x.2).taken (.mailbox 0)).vdevs 1 = some (keptVdev x.1 x.2) ∧ (keptVdev x.1 x.2).lost = false ∧
    ((awayWithImage x.1 x.2).taken (.mailbox 0)).isResident 1 (keptVdev x.1 x.2) = false ∧ (keptVdev x.1 x.2).cannotSave ≠ some 2 ∧
    ((awayWithImage x.1 x.2).taken (.mailbox 0)).commandRead (.mailbox 0) (c.get 8 8) (max (c.get 16 8) 1) = (awayRead x.1 x.2, some keptBytes) ∧
    (awayRead x.1 x.2).imageRefusal (keptVdev x.1 x.2) (keptBytes.take (c.get 16 8)) = none ∧
    (awayRead x.1 x.2).launchRoom 0 1 (keptImage x.1 x.2) = decide (x.2 = 0) ∧ (keptImage x.1 x.2).epoch = x.1 := by
  have h : ∀ x ∈ [((none : Option Nat), 0), (some 1, 0), (none, 257)],
      sees (awayWithImage x.1 x.2) 0x05 0 (fun _ c => c.get 0 1 == 1 && c.get 8 8 == 2 ^ 48 && c.get 16 8 == 128) = true := by decide
  have room : ∀ x ∈ [((none : Option Nat), 0), (some 1, 0), (none, 257)], (awayRead x.1 x.2).launchRoom 0 1 (keptImage x.1 x.2) = decide (x.2 = 0) := by decide
  have shape : ∀ x ∈ [((none : Option Nat), 0), (some 1, 0), (none, 257)], (awayRead x.1 x.2).shapeOffered 0 (keptVdev x.1 x.2).desc = true := by decide
  have away : ∀ x ∈ [((none : Option Nat), 0), (some 1, 0), (none, 257)], (keptVdev x.1 x.2).lost = false ∧
      ((awayWithImage x.1 x.2).taken (.mailbox 0)).isResident 1 (keptVdev x.1 x.2) = false ∧ (keptVdev x.1 x.2).cannotSave ≠ some 2 := by decide
  intro x hx
  obtain ⟨c, hr, hc⟩ := sees_runs (h x hx)
  simp only [Bool.and_eq_true, beq_iff_eq] at hc
  refine ⟨c, hr, hc.1.1, rfl, (away x hx).1, (away x hx).2.1, (away x hx).2.2, ?_, ?_, room x hx, rfl⟩
  · rw [hc.1.2, hc.2]
    exact away_commandRead x.1 x.2
  · rw [hc.2, List.take_of_length_le (by rw [keptBytes_length])]
    exact keptImage_taken _ _ _ (shape x hx)

/-! A dump that DUMP_OPEN opens. -/

/-- A dump with a body of n bytes. -/
def dumpHead (n : Nat) : List Byte := List.replicate 16 0 ++ [BitVec.ofNat 8 (96 + n)] ++ List.replicate 47 0
def dumpCtx (n : Nat) : Context := { ctl := 4, key := some 0, sealedDumps := [(0, (0, n))] }
def dumpClear (n : Nat) : List Byte := (upTo n).map (Config.imageByte 0)
def dumpSealed (n : Nat) : List Byte × List Byte := sealed (dumpCtx n) (2 ^ 95) (dumpAad (dumpHead n)) (dumpClear n)
def dumpBytes (n : Nat) : List Byte := dumpHead n ++ dumpSeal (dumpCtx n) 0 (dumpSealed n).2 ++ (dumpSealed n).1
/-- The group has called the DUMP service for the dump at 0x121000, to have n bytes of it at page 0, which is not its device's. -/
def opening (n : Nat) : State := calling (fun v => { v with ctx := dumpCtx n }) 0x0F 0 40
  [(9, [0x10, 0x12]), (16, [BitVec.ofNat 8 (96 + n)]), (32, [BitVec.ofNat 8 n])]
def openingDump (n : Nat) : State := { opening n with mem := (opening n).mem ++ (dumpBytes n).zipIdx.map fun b => (0x121000 + b.2, b.1) }
/-- The state after firmware has read the dump. -/
def openingRead (n : Nat) : State := (((openingDump n).taken (.guest 0)).guestRead 0 1 0x121000 (96 + n)).1

/-- A read past the cells of a memory is one of the cells behind it. -/
theorem memRead_append (m l : List Host.Cell) (a : Nat) (h : ∀ c ∈ m, c.1 < a) : memRead (m ++ l) a = memRead l a := by
  induction m with
  | nil => rfl
  | cons c rest ih =>
    have hc : c.1 ≠ a := Nat.ne_of_lt (h c (List.mem_cons_self ..))
    have := ih fun d hd => h d (List.mem_cons_of_mem _ hd)
    simpa [memRead, Store.get, hc] using this

theorem memRead_zipIdx (b : List Byte) (base k i : Nat) (h : i < b.length) :
    memRead ((b.zipIdx k).map fun c => (base + c.2, c.1)) (base + (k + i)) = b[i] := by
  induction b generalizing k i with
  | nil => simp at h
  | cons x rest ih =>
    cases i with
    | zero => simp [memRead, Store.get]
    | succ i =>
      have := ih (k + 1) i (by simpa using h)
      rw [show base + (k + 1 + i) = base + (k + (i + 1)) by omega] at this
      simpa [memRead, Store.get] using this

/-- The dump is seen in each state whose bytes are those of the memory. -/
theorem opening_seen (s : State) : ∀ n ∈ [0, 1], (∀ i, s.seenByte (0x121000 + i) = memRead (openingDump n).mem (0x121000 + i)) →
    s.seen 0x121000 (96 + n) = dumpBytes n := by
  have low : ∀ n ∈ [0, 1], ∀ c ∈ (opening n).mem, c.1 < 0x121000 := by decide
  have len : ∀ n ∈ [0, 1], 96 + n = (dumpBytes n).length := by decide
  intro n hn h3
  apply List.ext_getElem
  · simp only [State.seen, upTo, List.length_map, List.length_range]
    exact len n hn
  · intro i h1 h2
    simp only [State.seen, upTo, List.getElem_map, List.getElem_range, h3]
    refine (memRead_append (opening n).mem _ _ fun c hc => Nat.lt_of_lt_of_le (low n hn c hc) (Nat.le_add_right ..)).trans ?_
    simpa using memRead_zipIdx (dumpBytes n) 0x121000 0 i h2

/-- Firmware finds the page of the dump, and no error in it. -/
def openingFound (n : Nat) : State := (((openingDump n).taken (.guest 0)).locate 0 1 0x121000 .read).1
theorem opening_found : ∀ n ∈ [0, 1], (((openingDump n).taken (.guest 0)).locate 0 1 0x121000 .read).2 = .ok (0x121000, 0x121000) ∧
    (openingFound n).badSite 0x121000 (96 + n) = none := by decide
theorem opening_bytes : ∀ n ∈ [0, 1], ∀ i, (openingFound n).seenByte (0x121000 + i) = memRead (openingDump n).mem (0x121000 + i) := by
  intro n hn i
  simp only [List.mem_cons, List.not_mem_nil, or_false] at hn
  rcases hn with rfl | rfl <;> rfl

theorem opening_read : ∀ n ∈ [0, 1], ((openingDump n).taken (.guest 0)).guestRead 0 1 0x121000 (96 + n) = (openingRead n, .ok (dumpBytes n)) := by
  intro n hn
  refine Prod.ext rfl ?_
  have h := opening_seen _ n hn (opening_bytes n hn)
  obtain ⟨h0, h2⟩ := opening_found n hn
  have h0 : ((openingDump n).taken (.guest 0)).locate 0 1 0x121000 .read = (openingFound n, .ok (0x121000, 0x121000)) := Prod.ext rfl h0
  have hn : n ≤ 1 := by
    simp only [List.mem_cons, List.not_mem_nil, or_false] at hn
    omega
  unfold State.guestRead
  simp only [State.guestReadAux]
  rw [if_neg (by omega), show (0x121000 : Nat) % 2 ^ 56 = 0x121000 from rfl, h0]
  simp only [show min (96 + n) (4096 - 0x121000 % 4096) = 96 + n by omega, State.servedBytes, h2, h]
  have hz : ∀ (s : State) (va : Nat), (s.guestReadAux 0 1 ((96 + n) / 4096 + 1) va (96 + n - (96 + n))).2 = .ok [] := by
    intro s va
    rw [Nat.sub_self, show (96 + n) / 4096 = 0 by omega]
    rfl
  have := hz ((openingFound n).servedReads 0 1 [(0x121000, 96 + n)]) (0x121000 + (96 + n))
  generalize State.guestReadAux _ 0 1 ((96 + n) / 4096 + 1) _ _ = r at this
  obtain ⟨s2, e⟩ := r
  have e : e = .ok [] := this
  subst e
  simp

theorem opening_runs : ∀ n ∈ [0, 1], calls (openingDump n) 0x0F 0 (fun s c => (s.callerOf 0).map (fun t => (t.part, t.vdev)) == some (0, 1) &&
    ((Store.find s.vdevs 1).map fun v => v.ctx) == some (dumpCtx n) && (c.get 8 8, c.get 16 8, c.get 24 8, c.get 32 8) == (0x121000, 96 + n, 0, n)) = true := by decide
theorem opening_write : ∀ n ∈ [0, 1], ((openingRead n).commandWrite (.guest 0) 0 ((dumpClear n).take n)).2.2 = decide (n = 0) := by decide
/-- The dump is the one that the device sealed. -/
theorem opening_good : ∀ n ∈ [0, 1], Store.find (dumpCtx n).sealedDumps (field (dumpBytes n) 68 8 - 2 ^ 63) = some (0, n) ∧
    2 ^ 63 ≤ field (dumpBytes n) 68 8 ∧ field (dumpBytes n) 16 8 = 96 + n ∧
    ((dumpBytes n).drop 64).take 32 = dumpSeal (dumpCtx n) 0 (sealed (dumpCtx n) (field (dumpBytes n) 64 12) (dumpAad (dumpBytes n)) (dumpClear n)).2 ∧
    ((dumpBytes n).drop 96).take n = (sealed (dumpCtx n) (field (dumpBytes n) 64 12) (dumpAad (dumpBytes n)) (dumpClear n)).1 := by
  intro n hn
  simp only [List.mem_cons, List.not_mem_nil, or_false] at hn
  have hf : field (dumpBytes n) 64 12 = 2 ^ 95 ∧ field (dumpBytes n) 68 8 = 2 ^ 63 ∧ field (dumpBytes n) 16 8 = 96 + n := by
    rcases hn with rfl | rfl <;> decide
  have hg : dumpAad (dumpBytes n) = dumpAad (dumpHead n) ∧ ((dumpBytes n).drop 64).take 32 = dumpSeal (dumpCtx n) 0 (dumpSealed n).2 ∧
      ((dumpBytes n).drop 96).take n = (dumpSealed n).1 := by
    rcases hn with rfl | rfl <;> exact ⟨rfl, rfl, rfl⟩
  rw [hf.1, hf.2.1, hf.2.2, hg.1, hg.2.1, hg.2.2]
  exact ⟨by simp [Store.find, dumpCtx], Nat.le_refl _, rfl, rfl, rfl⟩

theorem dumpCtx_prot (n : Nat) : (dumpCtx n).prot = true := show (4 : BitVec 64).getLsbD 2 = true by decide

theorem witness_DebugCommands_open : ∀ n ∈ [0, 1], ∃ c v, Runs (openingDump n) (.guest 0) 0x0F 0 c ∧
    (((openingDump n).taken (.guest 0)).callerOf 0).map (fun t => (t.part, t.vdev)) = some (0, 1) ∧
    Store.find ((openingDump n).taken (.guest 0)).vdevs 1 = some v ∧ v.ctx = dumpCtx n ∧ v.ctx.prot = true ∧ v.lost = false ∧
    (c.get 8 8, c.get 16 8, c.get 24 8, c.get 32 8) = (0x121000, 96 + n, 0, n) ∧
    ((openingDump n).taken (.guest 0)).guestRead 0 1 0x121000 (96 + n) = (openingRead n, .ok (dumpBytes n)) ∧
    Store.find (dumpCtx n).sealedDumps (field (dumpBytes n) 68 8 - 2 ^ 63) = some (0, n) ∧
    2 ^ 63 ≤ field (dumpBytes n) 68 8 ∧ field (dumpBytes n) 16 8 = 96 + n ∧
    ((dumpBytes n).drop 64).take 32 = dumpSeal (dumpCtx n) 0 (sealed (dumpCtx n) (field (dumpBytes n) 64 12) (dumpAad (dumpBytes n)) (dumpClear n)).2 ∧
    ((dumpBytes n).drop 96).take n = (sealed (dumpCtx n) (field (dumpBytes n) 64 12) (dumpAad (dumpBytes n)) (dumpClear n)).1 ∧
    ((openingRead n).commandWrite (.guest 0) 0 ((dumpClear n).take n)).2.2 = decide (n = 0) := by
  intro n hn
  obtain ⟨c, hr, hp⟩ := calls_runs (opening_runs n hn)
  simp only [Bool.and_eq_true, beq_iff_eq] at hp
  have hg := opening_good n hn
  cases hv : Store.find ((openingDump n).taken (.guest 0)).vdevs 1 with
  | none => simp [hv] at hp
  | some v =>
    have hc : v.ctx = dumpCtx n := by simpa [hv] using hp.1.2
    exact ⟨c, v, hr, hp.1.1, rfl, hc, by rw [hc]; exact dumpCtx_prot n, by unfold Vdev.lost; rw [hc]; exact Bool.and_false _, hp.2, opening_read n hn, hg.1, hg.2.1, hg.2.2.1, hg.2.2.2.1, hg.2.2.2.2,
      opening_write n hn⟩

/-- The image of the quaternions (the example of R180), in a slot of the core. -/
def quaternions : List Byte :=
  [0x04, 0x0E, 0x00] ++ List.replicate 13 0 ++ [0x08, 0x09, 0x0A, 0x0B, 0, 0, 0, 0, 0x09, 0x18, 0x0B, 0x1A, 0, 0, 0, 0] ++
  [0x0A, 0x1B, 0x18, 0x09, 0, 0, 0, 0, 0x0B, 0x0A, 0x19, 0x18, 0, 0, 0, 0] ++ List.replicate 32 0
def demoAlgebra : State := demoFloat.modArr 0 fun a => { a with alg := Store.put a.alg 0 { image := quaternions, left := true } }

theorem witness_AlgebraResult :
    ((demoAlgebra.core 0).algebra (algSlot 0x40)).isSome = true ∧ validImage quaternions = true ∧
    ([.hmul 4 8 12, .hfma 4 8 12, .hconj 4 8, .hnorm 4 8].all fun i => meets demoAlgebra i always) = true ∧
    ([.pnpk 4 6, .pnunpk 4 6 true 3].all fun i => meets demo i always) = true ∧ meets demoFloat (.pnexp 4 8 9 true 3) always = true := by and_intros <;> decide

/-- R61, R180: i · j = k for quaternions. -/
theorem test_hmul :
    (regsAfter (demoAlgebra.modRegs 0 fun r => { r with
        v := [(9, Vector.replicate 32 0x3F800000), (14, Vector.replicate 32 0x3F800000)] }) (.hmul 4 8 12)).map
      (fun r => [4, 5, 6, 7].map fun n => (r.vec n).at 0) = some [0, 0, 0, 0x3F800000] := by decide

/-! ### Uncorrectable errors (R107, R217, R218) -/

/-- An array with an accumulator, and a stash with a word, that hold an uncorrectable error. -/
def demoUpset : State := demoArray.modArr 0 fun a => { a with accUpset := [accKey 0 96 124] }
def demoUpsetWord : State := (demo.modCore 0 fun c => { c with lane := 4 }).modTeamMem 0 fun m => { m with laneUpset := [0] }

/-- An array whose fills have all read an uncorrectable sector. -/
def CoreArray.spoilFills (a : CoreArray) : CoreArray :=
  { a with fills := a.fills.map fun f => { f with spoiled := true } }
/-- The array of core 0 when its fill has read an uncorrectable sector. -/
def spoiledArr : CoreArray := ((demoFill (some 0)).core 0).arr.spoilFills
/-- The array of core 0, of which every accumulator key that an operation writes holds an uncorrectable error. -/
def streamArr : CoreArray := ((demoStream (some 0) true).core 0).arr
def failingArr (o : ArrayOp) : CoreArray := { streamArr with accUpset := o.keys.map fun k => accKey o.tile k.1 k.2 }

theorem witness_uncorrectable :
    meets demoUpset (.accld 4 0 3 31) (fun s x _ => (s.core 0).arr.accUpset.any (quarterKeys 0 3 31 x.act).contains) = true ∧
    meets demoUpsetWord (.ldl 4 5 4 0) (fun s _ _ => (Store.find s.teams 0).any fun t => upsetIn t.mem.laneUpset 0 4) = true ∧
    (spoiledArr.fillDone 72).any (fun f => f.spoiled) = true ∧
    (streamArr.lastWrite 1000).any (fun o => (failingArr o).failed o) = true := by and_intros <;> decide

/-- R107: a read of a word with a double-bit error faults, and a write makes it good. -/
def demoBadWord : State := demoRegs fun r => { r with upset := [.vec 5 31] }

theorem test_register_error :
    (demoBadWord.issuing (.iadd 4 5 6)).map (fun q => precheck demoBadWord q.1 q.2 (.iadd 4 5 6)) = some (some .uncorrectable) ∧
    (regsAfter demoBadWord (.iadd 5 4 6)).map (·.upset) = some [] ∧ (regsAfter demoBadWord (.iadd 7 4 6)).map (·.upset) = some [.vec 5 31] := by and_intros <;> decide

/-! ### Results that the manual gives (its worked results, and examples of its rules) -/

/-- A group whose vector registers hold one word in every lane, for the mode given. -/
def demoVec (mode : BitVec 32) (v : List (Nat × Word)) : State :=
  demoRegs fun r => { r with gmode := mode, v := v.map fun q => (q.1, Vector.replicate 32 q.2) }

/-- What lane 31 of a vector register holds after an instruction. -/
def laneOf (s : State) (i : Instr) (d : Nat) : Option Word := (regsAfter s i).map fun r => (r.vec d).at 31

/-- Spec 07, worked results: the high half of a product, by element. -/
theorem test_imulh : laneOf (demoVec 0xC0 [(1, 0x7FFF8000), (2, 0x7FFF7FFF)]) (.imulh 3 1 2) 3 = some 0x3FFFC000 := by decide

/-- Spec 07, worked results: a right shift is arithmetic on signed elements and logical on others. -/
theorem test_ishri :
    laneOf (demoVec 0x100 [(1, 0xF0801001)]) (.ishri 3 1 4) 3 = some 0xFFF80100 ∧
    laneOf (demoVec 0x120 [(1, 0xF0801001)]) (.ishri 3 1 4) 3 = some 0x0F080100 := by and_intros <;> decide

/-- Spec 07, worked results: a left shift saturates under SAT. -/
theorem test_ishli :
    laneOf (demoVec 0x1100 [(1, 0x20E001C0)]) (.ishli 3 1 2) 3 = some 0x7F800480 ∧
    laneOf (demoVec 0x100 [(1, 0x20E001C0)]) (.ishli 3 1 2) 3 = some 0x80800400 := by and_intros <;> decide

/-- Spec 07, worked results: fields. -/
theorem test_bit_fields :
    laneOf (demoVec 0 [(1, 0xAD0), (2, 0x404)]) (.bfe 3 1 2 true) 3 = some 0xFFFFFFFD ∧
    laneOf (demoVec 0 [(1, 0xAD0), (2, 0x404)]) (.bfe 3 1 2 false) 3 = some 0xD ∧
    laneOf (demoVec 0 [(1, 5), (2, 0x41C), (3, 0xFFFFFFFF)]) (.bfi 3 1 2) 3 = some 0x5FFFFFFF := by and_intros <;> decide

/-- Spec 07, worked results: counts of bits, and an address. -/
theorem test_bit_counts :
    laneOf (demoVec 0 [(1, 0x100)]) (.clz 3 1) 3 = some 23 ∧ laneOf (demoVec 0 [(1, 0x100)]) (.ctz 3 1) 3 = some 8 ∧
    laneOf (demoVec 0 [(1, 0x100)]) (.popc 3 1) 3 = some 1 ∧ laneOf (demoVec 0 [(1, 0x100)]) (.brev 3 1) 3 = some 0x00800000 ∧
    laneOf (demoVec 0 [(1, 0x1000), (2, 7)]) (.lea 3 1 2 3) 3 = some 0x1038 := by and_intros <;> decide

/-- Spec 03: an addition of four elements with and without saturation. -/
theorem test_iadd :
    laneOf (demoVec 0x1100 [(1, 0x7F8010F0), (2, 0x01FFF820)]) (.iadd 3 1 2) 3 = some 0x7F800810 ∧
    laneOf (demoVec 0x100 [(1, 0x7F8010F0), (2, 0x01FFF820)]) (.iadd 3 1 2) 3 = some 0x807F0810 := by and_intros <;> decide

/-- Spec 07, the sequence at its end: d + a · b. -/
theorem test_imad : laneOf (demoVec 0 [(1, 100), (2, 3200)]) (.imad 2 2 1) 2 = some 323200 := by decide

/-- Spec 08: a fused result rounds once, and an addition after a multiplication rounds twice. -/
theorem test_fused :
    laneOf (demoVec 0x40 [(1, 0x3F800800), (3, 0xBF801000)]) (.ffma 3 1 1) 3 = some 0x33800000 ∧
    laneOf (demoVec 0x40 [(1, 0x3F800800), (3, 0xBF801000)]) (.ffms 3 1 1) 3 = some 0x40001000 ∧
    laneOf (demoVec 0x40 [(1, 0x3F800800), (3, 0xBF801000)]) (.fnfma 3 1 1) 3 = some 0xC0001000 ∧
    laneOf (demoVec 0x40 [(1, 0x3F800800)]) (.fmul 3 1 1) 3 = some 0x3F801000 ∧
    laneOf (demoVec 0x40 [(1, 0x3F801000), (2, 0xBF801000)]) (.fadd 3 1 2) 3 = some 0 := by and_intros <;> decide

/-- Spec 08, R157: two registers of binary32 to one of binary16, with and without SAT. -/
theorem test_fcvt :
    laneOf (demoVec 0x80 [(2, 0x3F800000), (3, 0x477FF000)]) (.fcvt 8 2 .f32) 8 = some 0x7C003C00 ∧
    laneOf (demoVec 0x1080 [(2, 0x3F800000), (3, 0x477FF000)]) (.fcvt 8 2 .f32) 8 = some 0x7BFF3C00 := by and_intros <;> decide

/-- Spec 08, R167: a reduction adds over a tree, and a scan adds in order. Lanes 0 to 3 are active. -/
def demoSum : State := demoRegs fun r =>
  { r with
    gmode := 0x41
    p := [(0, 0xF)]
    v := [(10, Vector.ofFn fun l => if l.val == 0 then 0x3F800000 else 0x33800000)] }

theorem test_gred : (regsAfter demoSum (.gred 4 10 .add)).map (fun r => r.sc 4) = some 0x3F800001 := by decide
theorem test_gscan :
    (regsAfter demoSum (.gscan 5 10 false .add)).map (fun r => (r.vec 5).at 3) = some 0x3F800000 ∧
    (regsAfter demoSum (.gscan 5 10 true .add)).map (fun r => (r.vec 5).at 0) = some 0 := by and_intros <;> decide

/-- R136: the bits of scc are those of the exact comparison. -/
theorem test_scmp :
    (regsAfter (demoRegs fun r => { r with s := [(1, 0xFFFFFFFF), (2, 1)] }) (.scmp 1 2 .lt)).map (fun r => r.scc) = some 0b1010 := by decide

end Sys2Proof.Machine
end

/-! The state after a module reset (R5, R363): what each kind of unit holds then. -/

namespace Sys2Proof.Machine

namespace State

/-- The quadrants at reset. -/
theorem reset_quad {q : Nat} (h : q < 4) : State.reset.quad q = Quad.initial := by
  interval_cases q <;> rfl

/-- Each quadrant is a partition of its own at reset (R347), with its own number as endpoint (log 7). -/
theorem reset_part {q : Nat} (h : q < 4) : State.reset.part q = Part.formed [q] q := by
  interval_cases q <;> rfl

@[simp] theorem reset_core (core : Nat) : State.reset.core core = {} := rfl
@[simp] theorem reset_wearOf (u : Nat) : State.reset.wearOf u = {} := rfl
@[simp] theorem reset_lbudOf (u : Nat) : State.reset.lbudOf u = 0 := rfl

/-- Every launch queue is free and empty at reset. -/
theorem reset_queue {q : Nat} (h : q < 4) (n : Nat) : State.reset.queue q n = {} := by
  rw [State.queue, reset_quad h]; rfl

end State

/-- Settles O59: the units at reset are those of the lemmas above. What is Preserved stands as R363 gives it from manufacture (DEDUCED, log 6); memory
lists nothing (DESIGN CHOICE, log 3). -/
theorem resetState : Obligations.ResetState := by
  unfold Obligations.ResetState
  refine ⟨rfl, rfl, rfl, rfl, rfl, rfl, rfl, fun q hq => ?_, fun core => ?_, rfl, rfl, rfl, rfl, rfl, fun u => ?_⟩
  · rw [State.reset_part hq, State.reset_quad hq]
    refine ⟨rfl, rfl, rfl, rfl, rfl, rfl, rfl, rfl, rfl, rfl, fun n => ?_⟩
    rw [State.reset_queue hq]
    exact ⟨rfl, rfl⟩
  · rw [State.reset_core]
    exact ⟨rfl, rfl, rfl, rfl⟩
  · rw [State.reset_wearOf, State.reset_lbudOf]
    exact ⟨rfl, rfl, rfl, rfl, rfl⟩

end Sys2Proof.Machine

/-! What comes from outside at the edges of the module: host and fabric accesses, the host window, samples, triggers and SPDM requests. -/

namespace Sys2Proof.Machine

variable {s : State}

/-! ### Accesses from outside (R204, R403) -/

theorem execHostMemoryAccess_granted {access : ExternalAccess} {q : Nat} {yes : Bool} {s1 : State} (hq : homeQuad [] (outsideAddr access) = some q)
    (hf : s.frameHere (s.partOfQuad q) (outsideAddr access) = true) (hg : s.hostGranted (outsideAddr access) = true)
    (he : s.exported (s.partOfQuad q) (frameOf (outsideAddr access)) 0 = (yes, s1)) :
    execHostMemoryAccess access s = .next (if yes then s1.outsideAccess (s.partOfQuad q) access else s1) := by
  simp [execHostMemoryAccess, hq, hf, hg, he]

theorem execHostMemoryAccess_ungranted {access : ExternalAccess} {q : Nat} (hq : homeQuad [] (outsideAddr access) = some q)
    (h : ¬ (s.frameHere (s.partOfQuad q) (outsideAddr access) = true ∧ s.hostGranted (outsideAddr access) = true)) :
    execHostMemoryAccess access s = .next s := by
  have hc : (!s.frameHere (s.partOfQuad q) (outsideAddr access) || !s.hostGranted (outsideAddr access)) = true := by
    simpa only [← Bool.not_and, Bool.not_eq_true', Bool.and_eq_true, ← Bool.not_eq_true] using h
  simp only [execHostMemoryAccess, hq, hc, if_true]

theorem execFabricRequest_here {part : Nat} {access : ExternalAccess} {yes : Bool} {s1 : State} (ha : outsideAddr access < 2 ^ 40)
    (hf : (s.edgeFlits part 0).frameHere part (fabricHome (outsideAddr access)) = true ∨
      frameOf (fabricHome (outsideAddr access)) ∈ ((s.edgeFlits part 0).part part).fab.departed)
    (he : (s.edgeFlits part 0).exported part (frameOf (fabricHome (outsideAddr access))) 256 = (yes, s1)) :
    execFabricRequest part access s =
      .next (if yes then s1.outsideAccess part (outsideAt access (fabricHome (outsideAddr access))) else s1) := by
  rw [← List.contains_iff_mem] at hf
  simp only [execFabricRequest, ha, hf, he, and_self, if_true]

/-- A port's link goes down once (R404). -/
theorem execCxlLinkDown_port {port : Nat} (hp : port < 2) : execCxlLinkDown port s =
    .next (s.modMod fun m => { m with cxlDown := if port ∈ m.cxlDown then m.cxlDown else m.cxlDown ++ [port] }) := by
  have hlist : ∀ down : List Nat, (if port < 2 ∧ !down.contains port then down ++ [port] else down) =
      if port ∈ down then down else down ++ [port] := fun down => by
    by_cases h : port ∈ down <;> simp [hp, h]
  simp only [execCxlLinkDown, hlist]

/-! ### The exit from a rest (R415) -/

theorem execPowerExitComplete_done {q : Nat} (hq : s.exitDone q = true) : execPowerExitComplete q s =
    let s1 := (s.quadUnits q).foldl (fun s u => s.endQuadRest u) s
    let s2 := s1.modQuad q fun z => { z with power := .active, powerFrom := s.mod.tick, waiting := [] }
    let s3 := (s.quad q).waiting.foldl (fun s (p : Nat × List Byte) => s.portWrite q p.1 p.2) s2
    .next (s3.modDisp (s3.partOfQuad q) fun d => { d with decide := true }) := by
  simp only [execPowerExitComplete, hq, Bool.not_true, Bool.false_eq_true, if_false]

/-! ### Writes in the host window (R402, R403, R405) -/

/-- A quadrant's part of the host window spans 16 MiB: the offset names the quadrant and where in its part the write lands. -/
theorem execHostRegisterWrite_at {q o : Nat} (data : List Byte) (hq : q < 4) (ho : o < 0x1000000) :
    execHostRegisterWrite (q * 0x1000000 + o) data s =
      if o < 0x2000 then .next (s.postPacket q (o / 128) (if o % 128 = 0 then data else data.take 127))
      else if 0x4000 ≤ o ∧ o < 0x5000 then
        .next (s.modQuad q fun z => { z with mailbox := z.mailbox.hostPut (o - 0x4000) (data.take (0x5000 - o)) })
      else if o = 0x5000 ∧ data.length = 4 ∧ numOf data = 1 ∧ !(s.quad q).mailbox.go then
        .next ((s.modQuad q fun z => { z with mailbox := { z.mailbox with go := true } }).giveCommand (.mailbox q))
      else .next s := by
  have hdiv : (q * 0x1000000 + o) / 0x1000000 = q := by omega
  have hmod : (q * 0x1000000 + o) % 0x1000000 = o := by omega
  simp only [execHostRegisterWrite, hdiv, hmod, if_neg (Nat.not_le.mpr hq)]

/-- The launch ports lie 128 bytes apart; a write beside the start of one is no whole packet (R271). -/
theorem execHostRegisterWrite_port {q n k : Nat} (data : List Byte) (hq : q < 4) (hn : n < 64) (hk : k < 128) :
    execHostRegisterWrite (q * 0x1000000 + n * 128 + k) data s = .next (s.postPacket q n (if k = 0 then data else data.take 127)) := by
  have hdiv : (n * 128 + k) / 128 = n := by omega
  have hmod : (n * 128 + k) % 128 = k := by omega
  rw [Nat.add_assoc, execHostRegisterWrite_at data hq (by omega), if_pos (by omega), hdiv, hmod]

theorem execHostRegisterWrite_mailbox {q o : Nat} (data : List Byte) (hq : q < 4) (ho : o < 0x1000) :
    execHostRegisterWrite (q * 0x1000000 + 0x4000 + o) data s =
      .next (s.modQuad q fun z => { z with mailbox := z.mailbox.hostPut o (data.take (0x1000 - o)) }) := by
  have hoff : 0x4000 + o - 0x4000 = o := by omega
  have hroom : 0x5000 - (0x4000 + o) = 0x1000 - o := by omega
  rw [Nat.add_assoc, execHostRegisterWrite_at data hq (by omega), if_neg (by omega), if_pos (by omega), hoff, hroom]

theorem execHostRegisterWrite_go {q : Nat} (hq : q < 4) (hg : (s.quad q).mailbox.go = false) :
    execHostRegisterWrite (q * 0x1000000 + 0x5000) [1, 0, 0, 0] s =
      .next ((s.modQuad q fun z => { z with mailbox := { z.mailbox with go := true } }).giveCommand (.mailbox q)) := by
  have hone : numOf ([1, 0, 0, 0] : List Byte) = 1 := rfl
  rw [execHostRegisterWrite_at _ hq (by omega), if_neg (by omega), if_neg (by omega), if_pos ⟨rfl, rfl, hone, by rw [hg]; rfl⟩]

/-! ### Samples (R398) -/

section

variable {gid : Nat} {g : Group} {c : TeamId} {sm : Sampling}
variable (hg : Store.find s.groups gid = some g) (hc : s.callerOf gid = some c) (hs : (s.part c.part).sampling = some sm)
include hg hc hs

theorem execSample_nothing (hn : sm.sampled = none) : execSample gid s = .next s := by
  simp only [execSample, hg, hc, hs, hn]

theorem execSample_without_room {r : FaultRecord} (hr : sm.sampled = some (gid, r))
    (hf : sm.length < sm.written + 64 ∨ s.hostRange (sm.buffer + sm.written) 64 = false) :
    execSample gid s = .next (s.modPart c.part fun p => { p with sampling := some { sm with sampled := none } }) := by
  rw [← Bool.not_eq_true'] at hf
  simp only [execSample, hg, hc, hs, hr, ne_eq, not_true_eq_false, if_false, hf, if_true]

theorem execSample_written {r : FaultRecord} (hr : sm.sampled = some (gid, r)) (hl : sm.written + 64 ≤ sm.length)
    (hh : s.hostRange (sm.buffer + sm.written) 64 = true) :
    execSample gid s = .next ((s.coherentWrite (s.quadsOf c.part) (sm.buffer + sm.written)
      (bytesOf 4 (coreOf gid) ++ (FaultRecord.bytes { r with resume := (g.flow.slot r.slot).pc }).drop 4)).modPart c.part fun p =>
        { p with sampling := some { sm with written := sm.written + 64, sampled := none } }) := by
  have hroom : ¬ (sm.length < sm.written + 64 ∨ (!s.hostRange (sm.buffer + sm.written) 64) = true) := by simp [hl, hh]
  simp only [execSample, hg, hc, hs, hr, ne_eq, not_true_eq_false, if_false, hroom]

end

/-! ### Triggers (R409) -/

section

variable {vdev : Nat} {v : Vdev} {d : Debugger}

/-- The stage that is armed has matched, by a group or by a counter. -/
theorem triggerStage_due (hm : d.hit.isSome = true ∨ s.counterHit vdev v = true) :
    ¬ (d.hit.isNone = true ∧ (!s.counterHit vdev v) = true) := by
  rintro ⟨hn, hc⟩
  rcases hm with h | h
  · rw [Option.isNone_iff_eq_none] at hn; simp [hn] at h
  · simp [h] at hc

variable (hv : Store.find s.vdevs vdev = some v) (hd : v.debugger = some d) (hm : d.hit.isSome = true ∨ s.counterHit vdev v = true)
include hv hd hm

theorem execTriggerStage_arms_next (hl : d.armed + 1 < d.triggers.length) :
    execTriggerStage vdev s = .next (s.modVdev vdev fun v => { v with debugger := some { d with armed := d.armed + 1, hit := none } }) := by
  simp only [execTriggerStage, hv, hd, if_neg (triggerStage_due hm), hl, if_true]

theorem execTriggerStage_stops_group {gid : Nat} {g : Group} (hl : d.triggers.length ≤ d.armed + 1) (hh : d.hit = some (some gid))
    (hg : Store.find s.groups gid = some g) :
    execTriggerStage vdev s = .next ((s.modVdev vdev fun v => { v with debugger := some { d with armed := d.armed + 1, hit := none } }).stopUnder
      d.policy vdev g.tid (some gid)) := by
  have hdue := triggerStage_due hm
  rw [hh] at hdue
  simp only [execTriggerStage, hv, hd, hh, if_neg hdue, if_neg (Nat.not_lt.mpr hl), State.modVdev_groups, hg]

theorem execTriggerStage_halts_device (hl : d.triggers.length ≤ d.armed + 1)
    (hg : ∀ gid, d.hit = some (some gid) → Store.find s.groups gid = none) :
    execTriggerStage vdev s = .next ((s.modVdev vdev fun v => { v with debugger := some { d with armed := d.armed + 1, hit := none } }).modCtx
      vdev fun c => { c with halted := true }) := by
  have hdue := triggerStage_due hm
  simp only [execTriggerStage, hv, hd, if_neg hdue, if_neg (Nat.not_lt.mpr hl), State.modVdev_groups]
  match hh : d.hit with
  | some (some gid) => simp only [hg gid hh]; rfl
  | some none => rfl
  | none => rfl

end

/-! ### The SPDM responder (R412) -/

/-- The phases from agreed algorithms on. -/
theorem three_le_rank_iff (p : SpdmPhase) : decide (3 ≤ p.rank) = true ↔ p = .negotiated ∨ p = .keyed ∨ p = .session := by
  cases p <;> decide

/-- A request of a requester is answered where its phase allows it, and its exchange moves on; elsewhere the answer is an error, and the exchange stays. -/
theorem exec_spdm_cases (i : Instr) {code : Nat} {allowed : SpdmPhase → Bool} {next : SpdmLink → SpdmLink} {request : SpdmRequest} {ok : Prop}
    {link : SpdmLink} (hi : exec i s = .next (s.spdmAnswer code allowed next request)) (hr : request.requester < 2050)
    (ha : allowed (Store.get {} s.mod.ident.spdm request.requester).phase = true ↔ ok)
    (hl : next (Store.get {} s.mod.ident.spdm request.requester) = link) :
    (ok → exec i s = .next (s.modIdent fun d =>
      { d with
        spdm := Store.put d.spdm request.requester link
        response := Config.spdmResponse code (((List.range 8).flatMap fun k => bytesOf 32 (Store.get 0 s.mod.ident.mr k).toNat) ++
          (bytesOf 32 Config.chainDigest.toNat ++ Config.certificate) ++ request.bytes) })) ∧
    (¬ ok → exec i s = .next (s.modIdent fun d => { d with response := Config.spdmResponse 0 request.bytes })) := by
  subst hl
  rw [hi, ← ha]
  constructor <;> intro h <;> simp only [State.spdmAnswer, if_neg (Nat.not_le.mpr hr), h, upTo] <;> rfl

end Sys2Proof.Machine

/-! Resets, power losses and boot (R5, R362, R385, R411): what each keeps, and what a boot charges. -/

namespace Sys2Proof.Store

/-- A filter on keys leaves what it keeps, and the default elsewhere. -/
theorem get_filter_key {α : Type} (dflt : α) (m : Store α) (p : Nat → Bool) (a : Nat) :
    get dflt (m.filter fun e => p e.1) a = if p a then get dflt m a else dflt := by
  induction m with
  | nil => simp [get]
  | cons e rest ih =>
    obtain ⟨k, v⟩ := e
    by_cases hk : k = a
    · subst hk
      by_cases hp : p k <;> simp [hp, get, ih]
    · by_cases hp : p k <;> simp [hp, hk, get, ih]

end Sys2Proof.Store

namespace Sys2Proof.Machine

variable {s t : State}

/-! ### Module reset and power loss (R5, R385) -/

theorem outsideModule_of_device {a : Nat} (h : isDeviceMemory a = true) : outsideModule a = false := by
  unfold isDeviceMemory at h
  unfold outsideModule
  cases hr : regionOf a <;> simp_all

/-- Device memory reads as unlisted memory does after a reset (log 3). -/
theorem memRead_afterReset (s : State) {a : Nat} (h : isDeviceMemory a = true) : memRead s.afterReset.mem a = 0 := by
  have hf := Store.get_filter_key unlistedByte s.mem outsideModule a
  rw [outsideModule_of_device h] at hf
  exact hf

/-- The wear store when the bank that was being written, which is not the current one, fails its checks (R385). -/
def Wear.torn (w : Wear) : Wear :=
  if w.bankAIsCurrent then { w with bankB := { w.bankB with intact := false } } else { w with bankA := { w.bankA with intact := false } }

/-- A tear spoils the bank that is not current, and the other stays current. -/
theorem Wear.torn_current (w : Wear) : w.torn.current = w.current := by
  unfold Wear.torn Wear.current
  split
  next h =>
    have ha : w.bankA.intact = true := by unfold Wear.bankAIsCurrent at h; simp_all
    simp [Wear.bankAIsCurrent, ha]
  next h => simp [Wear.bankAIsCurrent]

/-- A tear touches the banks alone. -/
theorem Wear.torn_banks (w : Wear) : ∃ a b, w.torn = { w with bankA := a, bankB := b } := by
  unfold Wear.torn
  split
  · exact ⟨_, _, rfl⟩
  · exact ⟨_, _, rfl⟩

/-- A power loss is a reset without power that may tear the wear store (R385). -/
theorem execPowerLoss_eq (s : State) : ∃ a b n, ({ s.afterReset.wear with bankA := a, bankB := b } : Wear).current = s.wear.current ∧
    execPowerLoss s = .next { s.afterReset with
      wear := { s.afterReset.wear with bankA := a, bankB := b }
      mod := { s.afterReset.mod with powered := false }
      sched := { s.afterReset.sched with free := n } } := by
  obtain ⟨a, b, hab⟩ := s.afterReset.wear.torn_banks
  have hexec : execPowerLoss s = .next ((if s.choose.1 then s.choose.2.afterReset.modWear Wear.torn else s.choose.2.afterReset).modMod
      fun m => { m with powered := false }) := rfl
  by_cases hc : s.choose.1
  · refine ⟨a, b, s.choose.2.sched.free, ?_, ?_⟩
    · rw [← hab, Wear.torn_current]; rfl
    · rw [hexec, if_pos hc, ← hab]; rfl
  · exact ⟨s.wear.bankA, s.wear.bankB, s.choose.2.sched.free, rfl, by rw [hexec, if_neg hc]; rfl⟩

/-! ### The charge of a boot (R371, R385) -/

/-- A wear record when the rest of its unit completes (R371, R372). -/
def WearRecord.rested (r : WearRecord) : WearRecord := match r.rest with
  | none => r
  | some t => { r with
      b := r.b - restCredit r.p (if t.left = 0 then min t.completed 16 else t.completed) t.poweredDown
      p := 0
      rests := r.rests + 1
      rest := none }

/-- A wear record with the largest increments of an interval (R385). -/
def WearRecord.charged (r : WearRecord) : WearRecord :=
  { r with b := r.b + 2916, h := r.h + 729, e := r.e + 729, p := r.p + 2916, lastW := 0, point := 0 }

theorem WearRecord.rested_of_none {r : WearRecord} (h : r.rest = none) : r.rested = r := by simp only [WearRecord.rested, h]
theorem WearRecord.rested_rest (r : WearRecord) : r.rested.rest = none := by cases h : r.rest <;> simp [WearRecord.rested, h]
theorem WearRecord.rested_h (r : WearRecord) : r.rested.h = r.h := by cases h : r.rest <;> simp [WearRecord.rested, h]
theorem WearRecord.rested_e (r : WearRecord) : r.rested.e = r.e := by cases h : r.rest <;> simp [WearRecord.rested, h]
theorem WearRecord.rested_lastW (r : WearRecord) : r.rested.lastW = r.lastW := by cases h : r.rest <;> simp [WearRecord.rested, h]

/-- What a charge makes of the fields of a record, and of the stress since the last rest where none was in progress. -/
theorem charged_rested_fields (r : WearRecord) : r.charged.rested.h = r.h + 729 ∧ r.charged.rested.e = r.e + 729 ∧ r.charged.rested.lastW = 0 ∧
    r.charged.rested.rest = none ∧ (r.rest = none → r.charged.rested.b = r.b + 2916 ∧ r.charged.rested.p = r.p + 2916) := by
  refine ⟨r.charged.rested_h, r.charged.rested_e, r.charged.rested_lastW, r.charged.rested_rest, fun h => ?_⟩
  rw [WearRecord.rested_of_none (r := r.charged) h]
  exact ⟨rfl, rfl⟩

theorem wearOf_putRecord (s : State) (u k : Nat) (r : WearRecord) :
    (s.modWear fun w => { w with records := Store.put w.records u r }).wearOf k = if k = u then r else s.wearOf k :=
  Store.get_put _ _ _ _ _

theorem wearOf_modifyRecord (s : State) (u k : Nat) (f : WearRecord → WearRecord) :
    (s.modWear fun w => { w with records := Store.modify {} w.records u f }).wearOf k = if k = u then f (s.wearOf u) else s.wearOf k :=
  wearOf_putRecord s u k _

theorem wearOf_addLbud (s : State) (u k : Nat) (x : Int) : (s.addLbud u x).wearOf k = s.wearOf k := rfl

theorem wearOf_completeRest (s : State) (u k : Nat) : (s.completeRest u).wearOf k = if k = u then (s.wearOf u).rested else s.wearOf k := by
  unfold State.completeRest WearRecord.rested
  dsimp only
  cases (s.wearOf u).rest with
  | none => split <;> simp_all
  | some t =>
    dsimp only
    split
    · rw [wearOf_addLbud, wearOf_putRecord]
    · rw [wearOf_putRecord]

theorem wearOf_bootCharge (s : State) (u k : Nat) :
    (s.bootCharge u).wearOf k = if k = u then (s.wearOf u).charged.rested else s.wearOf k := by
  have hbudget : ∀ (t : State) (x : Int) j, (if u < 208 then t.addLbud u x else t).wearOf j = t.wearOf j := fun t x j => by
    split
    · exact wearOf_addLbud t u j x
    · rfl
  unfold State.bootCharge
  simp only [wearOf_completeRest, hbudget, wearOf_modifyRecord, if_true]
  split <;> rfl

/-- Boot charges each unit once. -/
theorem wearOf_foldl_bootCharge (us : List Nat) (hn : us.Nodup) (s : State) (k : Nat) :
    (us.foldl (fun s u => s.bootCharge u) s).wearOf k = if k ∈ us then (s.wearOf k).charged.rested else s.wearOf k := by
  induction us generalizing s with
  | nil => simp
  | cons u rest ih =>
    obtain ⟨hu, hrest⟩ := List.nodup_cons.mp hn
    rw [List.foldl_cons, ih hrest, wearOf_bootCharge]
    by_cases hk : k = u
    · subst hk; simp [hu]
    · simp [hk]

/-! ### What the parts of a boot leave -/

/-- Two states with the same memory, groups and devices. -/
structure SameGuests (s t : State) : Prop where
  mem : t.mem = s.mem
  groups : t.groups = s.groups
  vdevs : t.vdevs = s.vdevs

theorem SameGuests.trans {u : State} (h : SameGuests s t) (k : SameGuests t u) : SameGuests s u :=
  ⟨k.mem.trans h.mem, k.groups.trans h.groups, k.vdevs.trans h.vdevs⟩

/-- Two states that differ at most in wear records and life budgets. -/
def ChargesOnly (s t : State) : Prop := ∃ records lbud, t = { s with wear := { s.wear with records := records, lbud := lbud } }

theorem ChargesOnly.refl (s : State) : ChargesOnly s s := ⟨_, _, rfl⟩

theorem ChargesOnly.trans {u : State} (h : ChargesOnly s t) (k : ChargesOnly t u) : ChargesOnly s u := by
  obtain ⟨_, _, rfl⟩ := h
  obtain ⟨_, _, rfl⟩ := k
  exact ⟨_, _, rfl⟩

theorem ChargesOnly.sameGuests (h : ChargesOnly s t) : SameGuests s t := by obtain ⟨_, _, rfl⟩ := h; exact ⟨rfl, rfl, rfl⟩
theorem ChargesOnly.dies (h : ChargesOnly s t) : t.mod.dies = s.mod.dies := by obtain ⟨_, _, rfl⟩ := h; rfl
theorem ChargesOnly.intervals (h : ChargesOnly s t) : t.wear.intervals = s.wear.intervals := by obtain ⟨_, _, rfl⟩ := h; rfl

theorem completeRest_chargesOnly (s : State) (u : Nat) : ChargesOnly s (s.completeRest u) := by
  unfold State.completeRest
  dsimp only
  split
  · exact ⟨_, _, rfl⟩
  · split
    · exact ⟨_, _, rfl⟩
    · exact ⟨_, _, rfl⟩

theorem bootCharge_chargesOnly (s : State) (u : Nat) : ChargesOnly s (s.bootCharge u) := by
  refine ChargesOnly.trans ?_ (completeRest_chargesOnly _ u)
  split
  · exact ⟨_, _, rfl⟩
  · exact ⟨_, _, rfl⟩

/-- Two states that differ at most in what a boot draws afresh: the readings of the sensors, the sizes of the CXL decoders, the identity. -/
def DrawsOnly (s t : State) : Prop := ∃ sensors hdm ident sched,
  t = { s with wear := { s.wear with sensors := sensors }, mod := { s.mod with hdm := hdm, ident := ident }, sched := sched }

theorem DrawsOnly.refl (s : State) : DrawsOnly s s := ⟨_, _, _, _, rfl⟩

theorem DrawsOnly.trans {u : State} (h : DrawsOnly s t) (k : DrawsOnly t u) : DrawsOnly s u := by
  obtain ⟨_, _, _, _, rfl⟩ := h
  obtain ⟨_, _, _, _, rfl⟩ := k
  exact ⟨_, _, _, _, rfl⟩

theorem DrawsOnly.sameGuests (h : DrawsOnly s t) : SameGuests s t := by obtain ⟨_, _, _, _, rfl⟩ := h; exact ⟨rfl, rfl, rfl⟩
theorem DrawsOnly.dies (h : DrawsOnly s t) : t.mod.dies = s.mod.dies := by obtain ⟨_, _, _, _, rfl⟩ := h; rfl
theorem DrawsOnly.intervals (h : DrawsOnly s t) : t.wear.intervals = s.wear.intervals := by obtain ⟨_, _, _, _, rfl⟩ := h; rfl
theorem DrawsOnly.wearOf (h : DrawsOnly s t) (u : Nat) : t.wearOf u = s.wearOf u := by obtain ⟨_, _, _, _, rfl⟩ := h; rfl

theorem foldl_drawsOnly {α : Type} (f : State → α → State) (hf : ∀ s x, DrawsOnly s (f s x)) (xs : List α) (s : State) :
    DrawsOnly s (xs.foldl f s) :=
  List.foldlRecOn xs f (DrawsOnly.refl s) fun t h x _ => h.trans (hf t x)

theorem setNominal_drawsOnly (s : State) : DrawsOnly s s.setNominal :=
  foldl_drawsOnly _ (fun _ _ => ⟨_, _, _, _, rfl⟩) _ _

theorem bootIdentity_drawsOnly (s : State) : DrawsOnly s s.bootIdentity := ⟨_, _, _, _, rfl⟩

theorem bootDecoders_drawsOnly (s : State) : DrawsOnly s s.bootDecoders :=
  foldl_drawsOnly _ (fun _ _ => ⟨_, _, _, _, rfl⟩) _ _

theorem anyBytes_drawsOnly (s : State) (n : Nat) : DrawsOnly s (s.anyBytes n).2 := by
  induction n generalizing s with
  | zero => exact DrawsOnly.refl s
  | succ n ih => exact DrawsOnly.trans ⟨_, _, _, _, rfl⟩ (ih s.anyByte.2)

theorem extendMr_drawsOnly (s : State) (n : Nat) (digest : List Byte) : DrawsOnly s (s.extendMr n digest) := ⟨_, _, _, _, rfl⟩

theorem measureBoot_drawsOnly (s : State) : DrawsOnly s s.measureBoot := by
  have hone : ∀ (s : State) n more, DrawsOnly s ((s.anyBytes 32).2.extendMr n (digestOf ((s.anyBytes 32).1 ++ more))) :=
    fun s n more => (anyBytes_drawsOnly s 32).trans (extendMr_drawsOnly _ _ _)
  exact ((hone s _ _).trans (hone _ _ _)).trans ((hone _ _ _).trans (extendMr_drawsOnly _ _ _))

theorem boostSupply_drawsOnly (s : State) : DrawsOnly s s.boostSupply := by
  refine foldl_drawsOnly _ (fun s c => ?_) _ _
  split
  · exact ⟨_, _, _, _, rfl⟩
  · exact DrawsOnly.refl s

theorem readSensors_drawsOnly (s : State) : DrawsOnly s s.readSensors := by
  refine DrawsOnly.trans ?_ (boostSupply_drawsOnly _)
  refine DrawsOnly.trans ?_ (foldl_drawsOnly _ (fun _ _ => ⟨_, _, _, _, rfl⟩) _ _)
  refine DrawsOnly.trans ?_ (foldl_drawsOnly _ (fun _ _ => ⟨_, _, _, _, rfl⟩) _ _)
  exact ⟨_, _, _, _, rfl⟩

theorem modWear_sameGuests (s : State) (f : Wear → Wear) : SameGuests s (s.modWear f) := ⟨rfl, rfl, rfl⟩
theorem modMod_sameGuests (s : State) (f : Module → Module) : SameGuests s (s.modMod f) := ⟨rfl, rfl, rfl⟩

theorem foldl_sameGuests {α : Type} (f : State → α → State) (hf : ∀ s x, SameGuests s (f s x)) (xs : List α) (s : State) :
    SameGuests s (xs.foldl f s) :=
  List.foldlRecOn xs f ⟨rfl, rfl, rfl⟩ fun t h x _ => h.trans (hf t x)

theorem swapIn_sameGuests (s : State) (die spare l : Nat) : SameGuests s (s.swapIn die spare l) := by
  unfold State.swapIn
  dsimp only
  constructor <;> split <;> simp

/-- Setting the core maps leaves what guests hold (R12, R373). -/
theorem bootMap_sameGuests (s : State) : SameGuests s s.bootMap := by
  unfold State.bootMap
  refine foldl_sameGuests _ (fun t die => ?_) _ s
  exact foldl_sameGuests _ (fun u (x : Nat × Nat) => swapIn_sameGuests u die x.1 x.2) _ t

/-- The state of a boot when its maps are set and the records of the current bank are loaded. -/
def State.bootLoaded (s : State) : State := s.bootMap.modWear fun w =>
  { w with records := s.wear.current.records, lbud := s.wear.current.lbud, intervals := s.wear.current.intervals }

/-- The state of a boot when every unit is charged (R385). -/
def State.bootCharged (s : State) : State := (upTo unitCount).foldl (fun s u => s.bootCharge u) s.bootLoaded

/-- What a boot does once its units are charged. -/
def State.bootDrawn (s : State) : State := s.setNominal.bootIdentity.measureBoot.bootDecoders.readSensors

theorem execBoot_eq (s : State) :
    execBoot s = .next (s.bootCharged.recordBoundary.bootDrawn.modMod fun m => { m with powered := true }) := rfl

theorem bootCharged_chargesOnly (s : State) : ChargesOnly s.bootLoaded s.bootCharged :=
  List.foldlRecOn (motive := ChargesOnly s.bootLoaded) _ _ (ChargesOnly.refl _) fun t h u _ => h.trans (bootCharge_chargesOnly t u)

theorem wearOf_bootCharged (s : State) {u : Nat} (hu : u < unitCount) :
    s.bootCharged.wearOf u = (Store.get {} s.wear.current.records u).charged.rested := by
  have hu' : u ∈ upTo unitCount := List.mem_range.mpr hu
  rw [State.bootCharged, wearOf_foldl_bootCharge (upTo unitCount) List.nodup_range, if_pos hu']
  rfl

theorem bootDrawn_drawsOnly (s : State) : DrawsOnly s s.bootDrawn :=
  ((((setNominal_drawsOnly s).trans (bootIdentity_drawsOnly _)).trans (measureBoot_drawsOnly _)).trans (bootDecoders_drawsOnly _)).trans
    (readSensors_drawsOnly _)

theorem recordBoundary_dies (s : State) : s.recordBoundary.mod.dies = s.mod.dies := rfl
theorem recordBoundary_intervals (s : State) : s.recordBoundary.wear.intervals = s.wear.intervals := rfl
theorem recordBoundary_wearOf (s : State) (u : Nat) : s.recordBoundary.wearOf u = s.wearOf u := rfl
theorem bootLoaded_dies (s : State) : s.bootLoaded.mod.dies = s.bootMap.mod.dies := by rw [State.bootLoaded, State.modWear_mod]
theorem bootLoaded_intervals (s : State) : s.bootLoaded.wear.intervals = s.wear.current.intervals := by rw [State.bootLoaded, State.modWear]
theorem powerOn_dies (s : State) : (s.modMod fun m => { m with powered := true }).mod.dies = s.mod.dies := rfl
theorem modMod_wearOf (s : State) (f : Module → Module) (u : Nat) : (s.modMod f).wearOf u = s.wearOf u := rfl

/-- What a boot leaves (R385, R411): guests' state, the core maps that it sets, and the current bank with each unit charged once. -/
theorem execBoot_next (s : State) : ∃ t, execBoot s = .next t ∧ t.mod.powered = true ∧ SameGuests s t ∧ t.mod.dies = s.bootMap.mod.dies ∧
    t.wear.intervals = s.wear.current.intervals ∧
    ∀ u, u < unitCount → t.wearOf u = (Store.get {} s.wear.current.records u).charged.rested := by
  have hc := bootCharged_chargesOnly s
  have hd := bootDrawn_drawsOnly s.bootCharged.recordBoundary
  have hguests : SameGuests s s.bootCharged.recordBoundary.bootDrawn :=
    ((((bootMap_sameGuests s).trans (modWear_sameGuests _ _)).trans hc.sameGuests).trans (modWear_sameGuests _ _)).trans hd.sameGuests
  refine ⟨_, execBoot_eq s, rfl, hguests.trans (modMod_sameGuests _ _), ?_, ?_, fun u hu => ?_⟩
  · rw [powerOn_dies, hd.dies, recordBoundary_dies, hc.dies, bootLoaded_dies]
  · rw [State.modMod_wear, hd.intervals, recordBoundary_intervals, hc.intervals, bootLoaded_intervals]
  · rw [modMod_wearOf, hd.wearOf, recordBoundary_wearOf, wearOf_bootCharged s hu]

/-! ### What comes from outside (O54) -/

/-- Settles O54, clause by clause from the lemmas on accesses, the host window, resets, boot, samples, triggers and the SPDM responder. -/
theorem outsideEvents : Obligations.OutsideEvents := by
  unfold Obligations.OutsideEvents
  intro s
  refine ⟨?hostAccess, ?fabricAccess, fun _ _ => rfl, fun _ _ => rfl, ?cxl, ?port, ?besidePort, ?mailbox, ?go, ?powerExit, ?reset, ?boot, ?sample,
    ?trigger, ?spdm⟩
  case hostAccess =>
    intro access q yes s1 hq a granted
    exact ⟨fun ⟨hf, hg⟩ he => execHostMemoryAccess_granted hq hf hg he, fun h => execHostMemoryAccess_ungranted hq h⟩
  case fabricAccess =>
    intro part access yes s1 a ha hf he
    exact execFabricRequest_here ha hf he
  case cxl =>
    intro port hp
    exact execCxlLinkDown_port hp
  case port =>
    intro q n data hq hn
    have h := execHostRegisterWrite_port (s := s) (k := 0) data hq hn (by omega)
    rw [Nat.add_zero, if_pos rfl] at h
    exact h
  case besidePort =>
    intro q n k data hq hn hk hk'
    exact (execHostRegisterWrite_port data hq hn hk').trans (by rw [if_neg (Nat.ne_of_gt hk)])
  case mailbox =>
    intro q o data hq ho
    exact execHostRegisterWrite_mailbox data hq ho
  case go =>
    intro q hq hg
    exact execHostRegisterWrite_go hq hg
  case powerExit =>
    intro q hq
    exact execPowerExitComplete_done hq
  case reset =>
    have hmem : ∀ a, isDeviceMemory a = true → memRead s.afterReset.mem a = 0 := fun a => memRead_afterReset s
    obtain ⟨a, b, n, hbank, hloss⟩ := execPowerLoss_eq s
    exact ⟨⟨_, rfl, ⟨rfl, rfl, rfl, rfl, rfl, rfl, rfl, rfl, rfl, rfl, rfl, rfl, hmem⟩, rfl, rfl, rfl⟩,
      ⟨_, hloss, ⟨rfl, rfl, rfl, rfl, rfl, rfl, rfl, rfl, rfl, rfl, rfl, rfl, hmem⟩, rfl, hbank⟩⟩
  case boot =>
    obtain ⟨t, ht, hpowered, hguests, hdies, hintervals, hrecords⟩ := execBoot_next s
    refine ⟨t, ht, hpowered, hguests.mem, hguests.groups, hguests.vdevs, hdies, hintervals, fun u hu => ?_⟩
    rw [hrecords u hu]
    exact charged_rested_fields _
  case sample =>
    intro gid g c sm hg hc hs keep at'
    refine ⟨execSample_nothing hg hc hs, fun r hr => ⟨execSample_without_room hg hc hs hr, fun hl hh => ?_⟩⟩
    exact execSample_written hg hc hs hr hl hh
  case trigger =>
    intro vdev v d hv hd hm s1
    refine ⟨execTriggerStage_arms_next hv hd hm, fun gid hl hh hg => ?_, fun gid g hl hh hg => ?_, fun hl hh => ?_⟩
    · refine execTriggerStage_halts_device hv hd hm hl fun k hk => ?_
      obtain rfl : gid = k := by simpa [hh] using hk
      exact hg
    · exact execTriggerStage_stops_group hv hd hm hl hh hg
    · exact execTriggerStage_halts_device hv hd hm hl fun k hk => by simp [hk] at hh
  case spdm =>
    intro request hr mrs own link answers
    have hagreed := three_le_rank_iff link.phase
    have hoffers : (link.phase == .capable && (upTo 4).all fun k => Config.spdmOffers k request.bytes) = true ↔
        link.phase = .capable ∧ ∀ k < 4, Config.spdmOffers k request.bytes = true := by
      simp only [Bool.and_eq_true, beq_iff_eq, List.all_eq_true, upTo, List.mem_range]
    refine ⟨?_, ?_, ?_, ?_, ?_, ?_, ?_⟩
    · exact exec_spdm_cases (.getVersion request) rfl hr (by simp only) rfl
    · exact exec_spdm_cases (.getCapabilities request) rfl hr beq_iff_eq rfl
    · exact exec_spdm_cases (.negotiateAlgorithms request) rfl hr hoffers rfl
    · intro k hk
      simp only [List.mem_cons, List.not_mem_nil, or_false] at hk
      rcases hk with rfl | rfl | rfl | rfl
      · exact exec_spdm_cases (.getDigests request) rfl hr hagreed rfl
      · exact exec_spdm_cases (.getCertificate request) rfl hr hagreed rfl
      · exact exec_spdm_cases (.challenge request) rfl hr hagreed rfl
      · exact exec_spdm_cases (.getMeasurements request) rfl hr hagreed rfl
    · exact exec_spdm_cases (.keyExchange request) rfl hr beq_iff_eq rfl
    · exact exec_spdm_cases (.finish request) rfl hr beq_iff_eq rfl
    · exact exec_spdm_cases (.endSession request) rfl hr beq_iff_eq rfl

end Sys2Proof.Machine

/-! Registers (R27, R93, R101, R162): a read after a write, and what a write leaves. -/

namespace Sys2Proof.Machine

theorem Lanes.at_lanesBy (f : Nat → Word) {l : Nat} (hl : l < 32) : (lanesBy f).at l = f l := by
  simp [Lanes.at, lanesBy, hl]

theorem Lanes.at_merge (old new : Lanes) (m : Mask) {l : Nat} (hl : l < 32) :
    (old.merge new m).at l = if m.getLsbD l then new.at l else old.at l :=
  Lanes.at_lanesBy _ hl

namespace Regs

variable (r : Regs)

/-- A written register holds the merge of what it held with what is written (R27). -/
theorem vec_setVec_self (m : Mask) (w n : Nat) (v : Lanes) : (r.setVec m w n v).vec n = (r.vec n).merge v m := by
  unfold Regs.setVec Regs.vec
  by_cases hn : n < 120 <;> simp [hn]

theorem vec_setVec_ne (m : Mask) (w : Nat) {n k : Nat} (v : Lanes) (h : k ≠ n) : (r.setVec m w n v).vec k = r.vec k := by
  unfold Regs.setVec Regs.vec Regs.rewrite
  by_cases hn : n < 120 <;> by_cases hk : k < 120
  · simp only [hn, hk, if_true, Store.get_set, if_neg h]
  · simp only [hn, hk, if_true, if_false]
  · simp only [hn, hk, if_true, if_false]
  · have hne : k - 120 ≠ n - 120 := by omega
    simp only [hn, hk, if_false, Store.get_set, if_neg hne]

/-- A brine register holds the clk of its write, and the lanes written alone are valid (R101). -/
theorem brine_setVec (m : Mask) (w : Nat) {n : Nat} (v : Lanes) (h : 120 ≤ n) :
    Store.get 0 (r.setVec m w n v).eValid (n - 120) = m ∧ Store.get 0 (r.setVec m w n v).eClk (n - 120) = w := by
  simp [Regs.setVec, Nat.not_lt.mpr h]

/-- What a write of a V-class register leaves beside the V class. -/
theorem rest_setVec (m : Mask) (w n : Nat) (v : Lanes) : (r.setVec m w n v).s = r.s ∧ (r.setVec m w n v).p = r.p ∧
    (r.setVec m w n v).gmode = r.gmode ∧ (r.setVec m w n v).scc = r.scc := by
  unfold Regs.setVec
  dsimp only
  split <;> exact ⟨rfl, rfl, rfl, rfl⟩

theorem sc_setSc (n k : Nat) (w : Word) : (r.setSc n w).sc k = if k = n then w else r.sc k := Store.get_set _ _ _ _ _

theorem pred_setPred (m : Mask) (n k : Nat) (v : Mask) :
    (r.setPred m n v).pred k = if k = n then (r.pred n &&& ~~~m) ||| (v &&& m) else r.pred k := Store.get_set _ _ _ _ _

end Regs

/-- Settles O3 from the reads after writes of each class. -/
theorem registerWrites : Obligations.RegisterWrites := by
  unfold Obligations.RegisterWrites
  refine ⟨fun r m w n v l hn hl => ?_, fun r n k w m v => ?_⟩
  · refine ⟨?_, fun k _ hk => r.vec_setVec_ne m w v hk, r.brine_setVec m w v, r.rest_setVec m w n v⟩
    rw [r.vec_setVec_self, Lanes.at_merge _ _ _ hl]
  · exact ⟨r.sc_setSc n k w, rfl, rfl, r.pred_setPred m n k v, rfl, rfl⟩

end Sys2Proof.Machine

/-! What a step runs (R26, R68, R79): the offer that a bench issues comes from the bytes at the PC of its slot. -/

namespace Sys2Proof.Store

/-- In a store that lists no key twice, what it lists at a key is what is found there. -/
theorem find_of_mem {α : Type} {m : Store α} {k : Nat} {v : α} (hn : (m.map (·.1)).Nodup) (h : (k, v) ∈ m) : find m k = some v := by
  induction m with
  | nil => simp at h
  | cons e rest ih =>
    obtain ⟨k', v'⟩ := e
    simp only [List.map_cons, List.nodup_cons, List.mem_map] at hn
    rcases List.mem_cons.mp h with h | h
    · cases h; simp [find]
    · have hne : k' ≠ k := fun hk => hn.1 ⟨(k, v), h, hk.symm⟩
      rw [find, if_neg hne, ih hn.2 h]

end Sys2Proof.Store

namespace Sys2Proof.Machine

variable {s : State} {o : Offer}

/-! ### The bytes of an instruction -/

theorem word_numOf (b0 b1 b2 b3 : Byte) : BitVec.ofNat 32 (numOf [b0, b1, b2, b3]) = wordOfBytes b0 b1 b2 b3 := by
  apply BitVec.eq_of_toNat_eq
  simp only [wordOfBytes, BitVec.toNat_append, BitVec.toNat_ofNat, numOf, Nat.shiftLeft_eq]
  have h0 := b0.isLt
  have h1 := b1.isLt
  have h2 := b2.isLt
  have h3 := b3.isLt
  rw [← Nat.shiftLeft_eq, ← Nat.shiftLeft_eq, ← Nat.shiftLeft_eq, ← Nat.shiftLeft_add_eq_or_of_lt h2, ← Nat.shiftLeft_add_eq_or_of_lt h1,
    ← Nat.shiftLeft_add_eq_or_of_lt h0]
  simp only [Nat.shiftLeft_eq]
  omega

/-- The word that a fetch makes of four bytes as the coherent device sees them (R68). -/
def State.wordSeen (s : State) (a : Nat) : Word := BitVec.ofNat 32 (numOf (s.seen a 4))

theorem seen_four (s : State) (a : Nat) : s.seen a 4 = [s.seenByte a, s.seenByte (a + 1), s.seenByte (a + 2), s.seenByte (a + 3)] := rfl

/-- Four bytes that are an instruction hold no LIT. -/
theorem decodeBytes_seen {a : Nat} {i : Instr} (h : decodeBytes (s.seen a 4) = .ok (i, [])) :
    isLit (s.wordSeen a) = false ∧ decodeWord (s.wordSeen a) 0 = .ok i := by
  rw [State.wordSeen, seen_four, word_numOf]
  simp only [seen_four, decodeBytes] at h
  split at h
  · cases h
  next hl =>
    refine ⟨by simpa using hl, ?_⟩
    generalize decodeWord _ 0 = r at h ⊢
    cases r with
    | error e => cases h
    | ok j => cases h; rfl

/-- Eight bytes that are one instruction hold a LIT and its literal word (R79). -/
theorem decodeBytes_seen_two {s1 : State} {a b : Nat} {i : Instr} (h : decodeBytes (s.seen a 4 ++ s1.seen b 4) = .ok (i, [])) :
    isLit (s.wordSeen a) = true ∧ decodeWord (s.wordSeen a) (s1.wordSeen b) = .ok i := by
  rw [State.wordSeen, State.wordSeen, seen_four, seen_four, word_numOf, word_numOf]
  simp only [seen_four, List.cons_append, List.nil_append, decodeBytes] at h
  split at h
  next hl =>
    refine ⟨hl, ?_⟩
    generalize decodeWord _ _ = r at h ⊢
    cases r with
    | error e => cases h
    | ok j => cases h; rfl
  · generalize decodeWord _ 0 = r at h
    cases r with
    | error e => cases h
    | ok j => cases h

/-! ### The offer of a slot -/

theorem fetchWord_ok {s1 : State} {core vdev : Nat} {pc : VA} {t : Translation} (ht : s.translate core vdev pc.toNat .exec = .ok (t, s1))
    (hb : s1.badSite (t.physAddr pc.toNat) 4 = none) : s.fetchWord core vdev pc = .ok (s1.wordSeen (t.physAddr pc.toNat), s1) := by
  simp only [State.fetchWord, ht, hb, State.wordSeen]

theorem fetch_one {s1 : State} {core vdev : Nat} {pc : VA} {w : Word} {i : Instr} (h : s.fetchWord core vdev pc = .ok (w, s1))
    (hl : isLit w = false) (hi : decodeWord w 0 = .ok i) : s.fetch core vdev pc = .instr i s1 := by
  simp only [State.fetch, h, hl, hi, Bool.false_eq_true, if_false]

theorem fetch_two {s1 s2 : State} {core vdev : Nat} {pc : VA} {w l : Word} {i : Instr} (h : s.fetchWord core vdev pc = .ok (w, s1))
    (hl : isLit w = true) (h2 : s1.fetchWord core vdev (pc + 4) = .ok (l, s2)) (hi : decodeWord w l = .ok i) :
    s.fetch core vdev pc = .instr i s2 := by
  simp only [State.fetch, h, hl, h2, hi, if_true]

/-- What a slot offers is what the fetch at its PC finds. -/
theorem slotOffer_fetched {gid vdev n : Nat} {g : Group} (h : s.slotOffer gid g vdev n = some o) :
    o.gid = gid ∧ o.slot = n ∧ o.what = s.fetch (coreOf gid) vdev (g.flow.slot n).pc := by
  unfold State.slotOffer at h
  dsimp only at h
  split at h
  next i s' hf =>
    split at h
    · cases h; exact ⟨rfl, rfl, hf.symm⟩
    · cases h
  next c hf => cases h; exact ⟨rfl, rfl, hf.symm⟩
  next => cases h
  next f a _ hf => cases h; exact ⟨rfl, rfl, hf.symm⟩

/-- The device under which a group of a team fetches. -/
def State.vdevOfTeam (s : State) (tid : Nat) : Nat := ((Store.find s.teams tid).map (·.id.vdev)).getD 0

theorem mem_slotOffers {gid : Nat} {g : Group} (h : o ∈ s.slotOffers gid g) : ∃ n, s.slotOffer gid g (s.vdevOfTeam g.tid) n = some o := by
  unfold State.slotOffers at h
  dsimp only at h
  split at h
  · cases h
  · obtain ⟨n, -, hn⟩ := List.mem_filterMap.mp h
    split at hn
    · exact ⟨n, hn⟩
    · cases hn

theorem offer_mem {gid : Nat} {g : Group} (h : s.offer gid g = some o) : o ∈ s.slotOffers gid g := by
  unfold State.offer at h
  dsimp only at h
  split at h
  next p hp => cases h; exact (List.mem_filter.mp (List.mem_of_find?_eq_some hp)).1
  next => exact (List.mem_filter.mp (List.mem_of_head? h)).1

/-! ### The choice of a bench -/

theorem oldest_mem {os : List Offer} (h : s.oldest os = some o) : o ∈ os := by
  induction os generalizing o with
  | nil => cases h
  | cons x rest ih =>
    unfold State.oldest at h
    split at h
    next => cases h; exact List.mem_cons_self
    next y hy =>
      dsimp only at h
      split at h
      · cases h; exact List.mem_cons_of_mem _ (ih hy)
      · cases h; exact List.mem_cons_self

/-- What a bench issues is an offer of one of the groups that the module holds. -/
theorem benchChoice_offer {b : Nat} (h : s.benchChoice b = some o) : ∃ kv ∈ s.groups, s.offer kv.1 kv.2 = some o := by
  have from_offers : ∀ p, o ∈ ((((s.groups.filter fun kv => kv.1 / 8 == b).filterMap fun kv =>
      (s.offer kv.1 kv.2).map fun o => (o, kv.2.time.guarded, s.unitFree o)).filter p).map (·.1)) →
      ∃ kv ∈ s.groups, s.offer kv.1 kv.2 = some o := by
    intro p hp
    obtain ⟨x, hx, rfl⟩ := List.mem_map.mp hp
    obtain ⟨kv, hkv, hk⟩ := List.mem_filterMap.mp (List.mem_filter.mp hx).1
    obtain ⟨o', ho', rfl⟩ := Option.map_eq_some_iff.mp hk
    exact ⟨kv, (List.mem_filter.mp hkv).1, ho'⟩
  unfold State.benchChoice at h
  dsimp only at h
  split at h
  · cases h
  · split at h
    next p hp => cases h; exact from_offers _ (by simpa only [List.filter_filter] using oldest_mem hp)
    next => exact from_offers _ (oldest_mem h)

theorem choice_offer {bs : List Nat} (h : s.choice bs = some o) : ∃ kv ∈ s.groups, s.offer kv.1 kv.2 = some o := by
  induction bs with
  | nil => cases h
  | cons b rest ih =>
    unfold State.choice at h
    split at h
    next p hp => cases h; exact benchChoice_offer hp
    next => exact ih h

/-- The offer that is taken is what the fetch at the PC of its slot finds. -/
theorem choice_fetched {bs : List Nat} {g : Group} {team : Team} (hn : (s.groups.map (·.1)).Nodup) (h : s.choice bs = some o)
    (hg : Store.find s.groups o.gid = some g) (ht : Store.find s.teams g.tid = some team) :
    o.what = s.fetch (coreOf o.gid) team.id.vdev (g.flow.slot o.slot).pc := by
  obtain ⟨⟨gid, g'⟩, hm, ho⟩ := choice_offer h
  obtain ⟨n, hs⟩ := mem_slotOffers (offer_mem ho)
  obtain ⟨hgid, hslot, hw⟩ := slotOffer_fetched hs
  have hfind := Store.find_of_mem hn hm
  dsimp only at hgid hslot hw hfind
  rw [← hgid, hg] at hfind
  cases hfind
  rw [hw, hslot, hgid, State.vdevOfTeam, ht]
  rfl

/-! ### The step -/

/-- Nothing but the issue of an instruction is due. -/
def State.onlyIssues (s : State) : Prop := s.sched.agenda = [] ∧ s.abortsNow = none ∧ s.dueEvent = none ∧ s.collPlan = none ∧
  s.quietChange = none ∧ s.commandDue = none ∧ s.savesNow = none ∧ s.firmwareDue = none

theorem step_agenda {e : Instr} {rest : List Instr} (h : s.sched.agenda = e :: rest) :
    step s = exec e { s with sched := { s.sched with agenda := rest } } := by
  simp only [step, State.plan, h]

/-- Where nothing else is due, the instruction that the chosen offer holds runs. -/
theorem step_offer {g : Group} {i : Instr} {s2 : State} (hd : s.onlyIssues) (hc : s.choice s.benchesInUse = some o)
    (hg : Store.find s.groups o.gid = some g) (hw : o.what = .instr i s2) :
    step s = exec i { s2 with sched := { s2.sched with issuer := some (o.gid, o.slot) } } := by
  obtain ⟨ha, hab, hdue, hcoll, hquiet, hcmd, hsave, hfw⟩ := hd
  simp only [step, State.plan, ha, hab, hdue, hcoll, hquiet, hcmd, hsave, hfw, hc, State.take, hg, hw]

/-- Settles O58: the offer that a step takes holds what the fetch at its slot's PC finds, and that is what the bytes there encode. -/
theorem stepRunsDecoded : Obligations.StepRunsDecoded := by
  unfold Obligations.StepRunsDecoded
  refine ⟨fun s e rest h => step_agenda h, ?_⟩
  intro s s1 o g team t i hd hn hc hg ht pc runs htr hbad b
  have hw := choice_fetched hn hc hg ht
  have hfetch := fetchWord_ok htr hbad
  refine ⟨fun h => ?_, fun u s2 htr2 hbad2 _ h => ?_⟩
  · obtain ⟨hl, hi⟩ := decodeBytes_seen h
    exact step_offer hd hc hg (hw.trans (fetch_one hfetch hl hi))
  · obtain ⟨hl, hi⟩ := decodeBytes_seen_two h
    exact step_offer hd hc hg (hw.trans (fetch_two hfetch hl (fetchWord_ok htr2 hbad2) hi))

end Sys2Proof.Machine

/-! Slots and the join stack (R26, R29, R30, R105): reads of a slot after a write, pushes, pops, and what an instruction completes with that moves its
group's slots. -/

namespace Sys2Proof.Machine

namespace Flow

variable (f : Flow) (n : Nat) (a b : PcSlot)

theorem slot_setSlot_self : (f.setSlot n a).slot n = a := by unfold Flow.setSlot Flow.slot; split <;> rfl

theorem slot_setSlot_other : (f.setSlot n a).slot (1 - n) = f.slot (1 - n) := by
  unfold Flow.setSlot Flow.slot
  obtain rfl | hn := Nat.eq_zero_or_pos n
  · rfl
  · simp [Nat.pos_iff_ne_zero.mp hn, Nat.sub_eq_zero_of_le hn]

theorem slot_setSlot_of_other : (f.setSlot (1 - n) a).slot n = f.slot n := by
  unfold Flow.setSlot Flow.slot
  obtain rfl | hn := Nat.eq_zero_or_pos n
  · rfl
  · simp [Nat.pos_iff_ne_zero.mp hn, Nat.sub_eq_zero_of_le hn]

@[simp] theorem setSlot_stack : (f.setSlot n a).stack = f.stack := by unfold Flow.setSlot; split <;> rfl
@[simp] theorem setSlot_region : (f.setSlot n a).region = f.region := by unfold Flow.setSlot; split <;> rfl

/-- A slot and the other one are S0 and S1 in some order. -/
theorem forall_slot {p : PcSlot → Prop} {f : Flow} {n : Nat} (h : p (f.slot n)) (h' : p (f.slot (1 - n))) : p f.s0 ∧ p f.s1 := by
  unfold Flow.slot at h h'
  obtain rfl | hn := Nat.eq_zero_or_pos n
  · exact ⟨h, h'⟩
  · simp only [Nat.pos_iff_ne_zero.mp hn, Nat.sub_eq_zero_of_le hn, if_true, if_false] at h h'
    exact ⟨h', h⟩

/-! ### Pops (R30) -/

variable {f} {clk : Nat}

theorem popInto_of_live {n : Nat} (h : (f.slot n).live = true) : f.popInto n clk = f := by simp [Flow.popInto, h]

theorem popInto_of_no_path (n : Nat) (h : f.topPath = none) : f.popInto n clk = f := by
  simp only [Flow.popInto, h]
  split <;> rfl

/-- Nothing is popped while both slots are live. -/
theorem settle_of_live (h0 : f.s0.live = true) (h1 : f.s1.live = true) : f.settle clk = f := by
  rw [Flow.settle, popInto_of_live (n := 0) h0, popInto_of_live (n := 1) h1]

/-- Nothing is popped while no path entry is on top. -/
theorem settle_of_no_path (h : f.topPath = none) : f.settle clk = f := by
  rw [Flow.settle, popInto_of_no_path 0 h, popInto_of_no_path 1 h]

end Flow

/-- A mask that is not 0 makes a slot live. -/
theorem live_of_mask {o : PcSlot} (h : o.mask ≠ 0) : o.live = true := by simpa [PcSlot.live] using h

theorem movedTo_free (x : Issue) (extra : Nat) (pc : VA) {m : Mask} (h : m ≠ 0) : (movedTo x extra pc m).free := ⟨live_of_mask h, rfl⟩

/-! ### Pushes (R105, R121) -/

/-- The clks that the spills of some pushes cost: 20 for each entry past four (R105). -/
def spillClks (depth n : Nat) : Nat := 20 * ((List.range n).filter fun i => decide (4 ≤ depth + i)).length

theorem foldl_push (stack es : List StackEntry) : es.foldl (fun st e => e :: st) stack = es.reverse ++ stack := by
  simp [List.foldl_flip_cons_eq_append]

theorem pushAll_fits {stack es : List StackEntry} (h : stack.length + es.length ≤ 32) :
    pushAll stack es = some (es.reverse ++ stack, spillClks stack.length es.length) := by
  rw [pushAll, if_neg (Nat.not_lt.mpr h), foldl_push]
  rfl

theorem pushAll_overflows {stack es : List StackEntry} (h : 32 < stack.length + es.length) : pushAll stack es = none := if_pos h

theorem pathOf_reverse (o : PcSlot) : (pathOf o).reverse = pathOf o := by unfold pathOf; split <;> rfl

/-! ### What moves the slots -/

variable {s : State} {i : Instr} {x : Issue} {g : Group}

/-- An instruction that makes nothing but new slots and a new stack, with a slot that goes on, completes with them. -/
theorem flow_completes {f : Flow} {n : Nat} {body} (h : Issues s i x g) (hd : Undisturbed s g) (he : exec i s = issueFlow s i body)
    (hb : body (s.openIssue x) x g = flowDone (s.openIssue x) x f) (hf : (f.slot n).free) : CompletesAs s i x g g.regs (f.settle x.clk) :=
  flowDone_completes (g1 := { g with ops := stepWindows g.ops }) h hd he hb (Apart.refl _ _)
    (openIssue_find (issuing_group h.issuing).1) rfl rfl rfl rfl hf

/-- A trap of an instruction waits for the operations of the group's windows (R316). -/
theorem flow_traps {t : Trap} {body} (h : Issues s i x g) (he : exec i s = issueFlow s i body)
    (hb : body (s.openIssue x) x g = .trap t) : Traps s i x g t := by
  rw [Traps, he, issueFlow_trap h hb, stopWhenDone_eq]

/-! ### BRC and MARK (R29, R118) -/

theorem mask_and_not (m p : Mask) : m &&& ~~~(m &&& p) = m &&& ~~~p := by
  ext k hk
  simp only [BitVec.getElem_and, BitVec.getElem_not]
  cases m[k] <;> cases p[k] <;> rfl

/-- A slot moves whole: to a PC, with all its lanes. -/
theorem moveSlot_completes {pc : VA} {body} (h : Issues s i x g) (hd : Undisturbed s g) (hm : x.mask ≠ 0) (he : exec i s = issueFlow s i body)
    (hb : body (s.openIssue x) x g = moveSlot (s.openIssue x) x g pc) :
    CompletesAs s i x g g.regs ((g.flow.setSlot x.slot (movedTo x 0 pc x.mask)).settle x.clk) :=
  flow_completes (n := x.slot) h hd he hb (by rw [Flow.slot_setSlot_self]; exact movedTo_free x 0 pc hm)

/-- The slots and the stack that BRC makes when it diverges: the other slot is pushed when it is live, and takes the lanes that go to the target. -/
def brcFlow (g : Group) (x : Issue) (p : BitVec 3) (j : BitVec 22) : Flow :=
  let path := pathOf (g.flow.slot (1 - x.slot))
  let c := spillClks g.flow.stack.length path.length
  ({ g.flow with stack := path ++ g.flow.stack }.setSlot (1 - x.slot) (movedTo x c (branchTarget x.pc j) (x.mask &&& g.regs.pred p.toNat))).setSlot x.slot
    (movedTo x c (x.pc + 4) (x.mask &&& ~~~g.regs.pred p.toNat))

section

variable {p : BitVec 3} {j : BitVec 22} (h : Issues s (.brc p j) x g)
include h

/-- BRC with all its lanes on one side moves the slot whole (R118). -/
theorem brc_whole (hd : Undisturbed s g) (hm : x.mask ≠ 0) (hs : x.mask &&& g.regs.pred p.toNat = 0 ∨ x.mask &&& ~~~g.regs.pred p.toNat = 0) :
    CompletesAs s (.brc p j) x g g.regs ((g.flow.setSlot x.slot
      (movedTo x 0 (if x.mask &&& g.regs.pred p.toNat = 0 then x.pc + 4 else branchTarget x.pc j) x.mask)).settle x.clk) := by
  refine moveSlot_completes h hd hm (by change execBrc p j s = _; unfold execBrc; rfl) ?_
  by_cases ht : x.mask &&& g.regs.pred p.toNat = 0
  · simp only [ht, if_true]
  · simp only [mask_and_not, ht, hs.resolve_left ht, if_true, if_false]

variable (ht : x.mask &&& g.regs.pred p.toNat ≠ 0) (hn : x.mask &&& ~~~g.regs.pred p.toNat ≠ 0)
include ht hn

/-- BRC with lanes on both sides diverges (R29). -/
theorem brc_diverges (hd : Undisturbed s g) (hroom : g.flow.stack.length + (pathOf (g.flow.slot (1 - x.slot))).length ≤ 32) :
    CompletesAs s (.brc p j) x g g.regs (brcFlow g x p j) := by
  have hown : (brcFlow g x p j).slot x.slot = _ := Flow.slot_setSlot_self _ _ _
  have hother : (brcFlow g x p j).slot (1 - x.slot) = _ := (Flow.slot_setSlot_other _ _ _).trans (Flow.slot_setSlot_self _ _ _)
  have hcomplete := flow_completes (n := x.slot) (f := brcFlow g x p j) h hd (by change execBrc p j s = _; unfold execBrc; rfl)
    (by simp only [mask_and_not, ht, hn, if_false, pushAll_fits hroom, pathOf_reverse]; rfl)
    (by rw [hown]; exact movedTo_free x _ _ hn)
  obtain ⟨h0, h1⟩ := Flow.forall_slot (p := fun o => o.live = true) (f := brcFlow g x p j) (n := x.slot)
    (by rw [hown]; exact live_of_mask hn) (by rw [hother]; exact live_of_mask ht)
  rwa [Flow.settle_of_live h0 h1] at hcomplete

theorem brc_overflows (hfull : 32 < g.flow.stack.length + (pathOf (g.flow.slot (1 - x.slot))).length) :
    Traps s (.brc p j) x g (x.trap .joinStackOverflow) :=
  flow_traps h (by change execBrc p j s = _; unfold execBrc; rfl) (by simp only [mask_and_not, ht, hn, if_false, pushAll_overflows hfull])

end

/-- What MARK pushes: the other slot when it is live, and above it the join entry (R29). -/
def markPushes (g : Group) (x : Issue) (j : BitVec 22) : List StackEntry :=
  pathOf (g.flow.slot (1 - x.slot)) ++ [StackEntry.join (branchTarget x.pc j) x.mask 0]

/-- The slots and the stack that MARK makes. -/
def markFlow (g : Group) (x : Issue) (j : BitVec 22) : Flow :=
  ({ g.flow with stack := (markPushes g x j).reverse ++ g.flow.stack }.setSlot (1 - x.slot) {}).setSlot x.slot
    (movedTo x (spillClks g.flow.stack.length (markPushes g x j).length) (x.pc + 4) x.mask)

theorem mark_completes {j : BitVec 22} (h : Issues s (.mark j) x g) (hd : Undisturbed s g) (hm : x.mask ≠ 0)
    (hroom : g.flow.stack.length + (markPushes g x j).length ≤ 32) : CompletesAs s (.mark j) x g g.regs (markFlow g x j) := by
  have hcomplete := flow_completes (n := x.slot) (f := markFlow g x j) h hd (by change execMark j s = _; unfold execMark; rfl)
    (by have hpush := pushAll_fits hroom; unfold markFlow markPushes at *; simp only [hpush])
    (by rw [markFlow, Flow.slot_setSlot_self]; exact movedTo_free x _ _ hm)
  rwa [Flow.settle_of_no_path (by simp [Flow.topPath, markFlow, markPushes])] at hcomplete

theorem mark_overflows {j : BitVec 22} (h : Issues s (.mark j) x g) (hfull : 32 < g.flow.stack.length + (markPushes g x j).length) :
    Traps s (.mark j) x g (x.trap .joinStackOverflow) :=
  flow_traps h (by change execMark j s = _; unfold execMark; rfl) (by have hpush := pushAll_overflows hfull; unfold markPushes at hpush; simp only [hpush])

theorem markPushes_length (g : Group) (x : Issue) (j : BitVec 22) :
    (markPushes g x j).length = (pathOf (g.flow.slot (1 - x.slot))).length + 1 := by simp [markPushes]

theorem markPushes_reverse (g : Group) (x : Issue) (j : BitVec 22) :
    (markPushes g x j).reverse = .join (branchTarget x.pc j) x.mask 0 :: pathOf (g.flow.slot (1 - x.slot)) := by
  simp [markPushes, pathOf_reverse]

/-- Settles O13: BRC whole, diverging and overflowing, MARK completing and overflowing. -/
theorem divergenceResult : Obligations.DivergenceResult := by
  unfold Obligations.DivergenceResult
  intro s x g p j hd hm target t n o path slot spills entry
  have hpath : path.length + 1 = (markPushes g x j).length := (markPushes_length g x j).symm
  refine ⟨fun h hs => brc_whole h hd hm hs, fun h ht hn hroom => brc_diverges h ht hn hd hroom, fun h ht hn hfull => brc_overflows h ht hn hfull,
    fun h hroom => ?_, fun h hfull => ?_⟩
  · have hcomplete := mark_completes h hd hm (by rw [← hpath]; exact hroom)
    rwa [markFlow, markPushes_reverse, markPushes_length] at hcomplete
  · exact mark_overflows h (by rw [← hpath]; exact hfull)

end Sys2Proof.Machine

/-! JOIN (R29, R121): the topmost join entry, and where the lanes that complete it go on. -/

namespace Sys2Proof.Machine

/-- The topmost join entry of a stack lies between path entries alone and the rest. -/
theorem splitJoin_eq_some {st above below : List StackEntry} {rejoin : VA} {member arrived : Mask}
    (h : splitJoin st = some (above, (rejoin, member, arrived), below)) :
    st = above ++ .join rejoin member arrived :: below ∧ ∀ e ∈ above, ∃ pc m, e = .path pc m := by
  induction st generalizing above with
  | nil => cases h
  | cons e rest ih =>
    cases e with
    | join r m a =>
      simp only [splitJoin, Option.some.injEq, Prod.mk.injEq] at h
      obtain ⟨rfl, ⟨rfl, rfl, rfl⟩, rfl⟩ := h
      exact ⟨rfl, fun _ he => by cases he⟩
    | path pc m =>
      simp only [splitJoin, Option.map_eq_some_iff] at h
      obtain ⟨⟨above', entry, below'⟩, hs, he⟩ := h
      simp only [Prod.mk.injEq] at he
      obtain ⟨rfl, rfl, rfl⟩ := he
      obtain ⟨rfl, hpaths⟩ := ih hs
      refine ⟨rfl, fun e he => ?_⟩
      rcases List.mem_cons.mp he with rfl | he
      · exact ⟨pc, m, rfl⟩
      · exact hpaths e he

/-- The clks that the removal of an entry costs which refills the resident part of a stack (R105). -/
def refillClks (st : List StackEntry) : Nat := if 4 ≤ st.length then 20 else 0

/-- The slot of JOIN for the lanes that are no members: it is free when there are none. -/
def leftSlot (x : Issue) (member : Mask) (extra : Nat) : PcSlot :=
  if x.mask &&& ~~~member = 0 then {} else movedTo x extra (x.pc + 4) (x.mask &&& ~~~member)

theorem leftSlot_mask (x : Issue) (member : Mask) (extra : Nat) : (leftSlot x member extra).mask = x.mask &&& ~~~member := by
  unfold leftSlot
  split
  next h => exact h.symm
  next => rfl

theorem joinFlow_without_entry {f : Flow} (x : Issue) (h : splitJoin f.stack = none) :
    joinFlow f x = f.setSlot x.slot (movedTo x 0 (x.pc + 4) x.mask) := by simp only [joinFlow, h]

section

variable {f : Flow} {x : Issue} {above below : List StackEntry} {rejoin : VA} {member arrived : Mask}
  (h : splitJoin f.stack = some (above, (rejoin, member, arrived), below))
include h

/-- While a member is missing, the entry remembers those that came (R29). -/
theorem joinFlow_incomplete (ha : (arrived ||| (x.mask &&& member)) ≠ member) :
    joinFlow f x = { f with stack := above ++ StackEntry.join rejoin member (arrived ||| (x.mask &&& member)) :: below }.setSlot x.slot (leftSlot x member 0) := by
  simp only [joinFlow, h, ha, ne_eq, not_false_eq_true, if_true]
  rfl

variable (ha : (arrived ||| (x.mask &&& member)) = member) (hr : f.isRegion below = false)
include ha hr

/-- A completed entry is removed (R29): its members take the issuing slot when that is free. -/
theorem joinFlow_own_slot (hn : x.mask &&& ~~~member = 0) :
    joinFlow f x = { f with stack := above ++ below }.setSlot x.slot (movedTo x (refillClks (above ++ below)) (rejoin + 4) member) := by
  simp only [joinFlow, h, ha, hr, hn, mergedSlot, ne_eq, not_true_eq_false, Bool.or_false, Bool.false_eq_true, if_false, if_true]
  rfl

/-- Else they take the other slot when that is free. -/
theorem joinFlow_other_slot (hn : x.mask &&& ~~~member ≠ 0) (ho : (f.slot (1 - x.slot)).live = false) :
    joinFlow f x = ({ f with stack := above ++ below }.setSlot x.slot (leftSlot x member (refillClks (above ++ below)))).setSlot (1 - x.slot)
      (movedTo x (refillClks (above ++ below)) (rejoin + 4) member) := by
  simp only [joinFlow, h, ha, hr, hn, ho, leftSlot, mergedSlot, ne_eq, not_true_eq_false, Bool.or_false, Bool.not_false, Bool.false_eq_true, if_false,
    if_true]
  rfl

/-- Else they wait in a path entry. -/
theorem joinFlow_path (hn : x.mask &&& ~~~member ≠ 0) (ho : (f.slot (1 - x.slot)).live ≠ false) :
    joinFlow f x = { f with stack := .path (rejoin + 4) member :: (above ++ below) }.setSlot x.slot
      (leftSlot x member (refillClks (above ++ below) + refillClks (above ++ below))) := by
  simp only [joinFlow, h, ha, hr, hn, ho, leftSlot, ne_eq, not_true_eq_false, Bool.or_false, Bool.not_eq_true', Bool.false_eq_true, if_false]
  rfl

end

variable {s : State} {i : Instr} {x : Issue} {g : Group} {f : Flow}

/-- An instruction that may complete a join entry moves its group's slots and stack, when no spilled entry that it reads has an error. -/
theorem joinDone_moves {body} (h : Issues s i x g) (he : exec i s = issueFlow s i body)
    (hb : body (s.openIssue x) x g = joinDone (s.openIssue x) x f) (hs : (s.openIssue x).spillBad x.gid f.stack = false) :
    Moves s i x g ((((s.openIssue x).setFlow x.gid f).afterFlow x.gid).waitReturn x.gid) :=
  he.trans (issueFlow_done h (by rw [hb, joinDone, hs]; rfl))

theorem joinDone_traps {body} (h : Issues s i x g) (he : exec i s = issueFlow s i body)
    (hb : body (s.openIssue x) x g = joinDone (s.openIssue x) x f) (hs : (s.openIssue x).spillBad x.gid f.stack = true) :
    Traps s i x g (x.trap .uncorrectable) :=
  flow_traps h he (by rw [hb, joinDone, hs]; rfl)

/-- Settles O14: what JOIN does of its slots and stack, by the topmost join entry. -/
theorem joinResult : Obligations.JoinResult := by
  unfold Obligations.JoinResult
  intro s x g hi s0
  refine ⟨fun hs => joinDone_moves hi (by change execJoin s = _; unfold execJoin; rfl) rfl hs,
    fun hs => joinDone_traps hi (by change execJoin s = _; unfold execJoin; rfl) rfl hs, fun h => joinFlow_without_entry x h, ?_⟩
  intro above below rejoin member arrived h
  obtain ⟨hstack, hpaths⟩ := splitJoin_eq_some h
  refine ⟨hstack, hpaths, fun ha => ?_, fun o ho hr ha => ?_⟩
  · rw [joinFlow_incomplete h ha]
    exact ⟨Flow.setSlot_stack _ _ _, Flow.slot_setSlot_other _ _ _, by rw [Flow.slot_setSlot_self, leftSlot_mask]⟩
  · subst ho
    by_cases hn : x.mask &&& ~~~member = 0
    · have hf := joinFlow_own_slot h ha hr hn
      simp only [hn, if_true, hf]
      exact ⟨Flow.setSlot_stack _ _ _, Flow.slot_setSlot_other _ _ _, by rw [Flow.slot_setSlot_self]; rfl, by rw [Flow.slot_setSlot_self]; rfl⟩
    · by_cases hl : (g.flow.slot (1 - x.slot)).live = false
      · have hf := joinFlow_other_slot h ha hr hn hl
        simp only [hn, hl, if_true, if_false, hf]
        exact ⟨by rw [Flow.setSlot_stack, Flow.setSlot_stack],
          by rw [Flow.slot_setSlot_of_other, Flow.slot_setSlot_self, leftSlot_mask],
          by rw [Flow.slot_setSlot_self]; rfl, by rw [Flow.slot_setSlot_self]; rfl⟩
      · have hf := joinFlow_path h ha hr hn hl
        simp only [hn, hl, if_false, hf]
        exact ⟨Flow.setSlot_stack _ _ _, by rw [Flow.slot_setSlot_self, leftSlot_mask], Flow.slot_setSlot_other _ _ _⟩

end Sys2Proof.Machine

/-! EXIT and the release of an exited group (R31, R40, R120). -/

namespace Sys2Proof.Machine

/-! ### The lanes that leave the stack (R31) -/

/-- Path entries name no lane that an exit removes. -/
theorem exitStack_paths {gone : Mask} {keep : Nat} {st : List StackEntry} (h : ∀ e ∈ st, ∃ pc m, e = .path pc m) :
    exitStack gone keep st = (st, []) := by
  induction st with
  | nil => rfl
  | cons e rest ih =>
    obtain ⟨pc, m, rfl⟩ := h e List.mem_cons_self
    simp only [exitStack, ih fun e he => h e (List.mem_cons_of_mem _ he)]

/-- A stack that is resident as a whole has no entry to rewrite in the spill area (R105). -/
theorem spilledRewrites_resident {gone : Mask} {st : List StackEntry} (h : st.length ≤ 4) : spilledRewrites gone st = 0 := by
  rw [spilledRewrites, List.length_eq_zero_iff, List.filter_eq_nil_iff]
  intro p hp
  have hlt : p.1 < st.length := List.mem_range.mp (List.of_mem_zip hp).1
  have hno : ¬ 4 ≤ p.1 := by omega
  simp [hno]

theorem removeLanes_of_stack_nil {f : Flow} (gone : Mask) (ready : Nat) (h : f.stack = []) : f.removeLanes gone ready = f := by
  obtain ⟨⟩ := f
  subst h
  rfl

section

variable {f : Flow} {gone : Mask} {ready : Nat} {st : List StackEntry}

/-- Nothing is placed when no entry is completed. -/
theorem removeLanes_none_done (h : exitStack gone f.floor f.stack = (st, [])) : f.removeLanes gone ready = { f with stack := st } := by
  simp only [Flow.removeLanes, h, List.foldl_nil]

/-- The members of the one entry that is completed take S0 when it is free. -/
theorem removeLanes_one_done {rejoin : VA} {m : Mask} {depth : Nat} (h : exitStack gone f.floor f.stack = (st, [(rejoin, m, depth)]))
    (hr : f.region = false) (h0 : f.s0.live = false) : f.removeLanes gone ready =
      { f with stack := st, s0 := { pc := rejoin + 4, mask := m, hold := .none, readyAt := ready + f.removalCost gone } } := by
  simp only [Flow.removeLanes, h, List.foldl_cons, List.foldl_nil, hr, h0, Bool.false_and, Bool.or_false, Bool.not_false, Bool.false_eq_true, if_true,
    if_false]

/-- An exit that completes one entry of a resident stack costs nothing (R105). -/
theorem removalCost_resident {done : List (VA × Mask × Nat)} (h : exitStack gone f.floor f.stack = (st, done)) (hl : f.stack.length ≤ 4)
    (hs : st.length < 4) : f.removalCost gone = 0 := by
  simp [Flow.removalCost, h, spilledRewrites_resident hl, Nat.not_le.mpr hs]

theorem exitStack_join {pc : VA} {member arrived : Mask} {below : List StackEntry} (hb : ∀ e ∈ below, ∃ pc m, e = .path pc m) :
    exitStack gone 0 (.join pc member arrived :: below) =
      if member &&& ~~~gone = 0 then (below, [])
      else if arrived = member &&& ~~~gone then (below, [(pc, member &&& ~~~gone, below.length)])
      else (.join pc (member &&& ~~~gone) arrived :: below, []) := by
  simp only [exitStack, exitStack_paths hb, Nat.not_lt_zero, if_false]

end

/-! ### EXIT -/

section

variable {s : State} {i : Instr} {x : Issue} {g : Group} {f : Flow} {n : Nat}

theorem popInto_atReturn (f : Flow) (n clk : Nat) : (f.popInto n clk).atReturn = f.atReturn := by
  unfold Flow.popInto Flow.setSlot
  split
  · rfl
  · split
    · rfl
    · split <;> rfl

theorem settle_atReturn (f : Flow) (clk : Nat) : (f.settle clk).atReturn = f.atReturn := by
  rw [Flow.settle, popInto_atReturn, popInto_atReturn]

/-- The spill area of a group that is undisturbed holds no error at its issue. -/
theorem openIssue_good (h : Issues s i x g) (hd : Undisturbed s g) : SpillGood (s.openIssue x) x.gid := by
  intro k hk t ht
  rw [openIssue_find (issuing_group h.issuing).1] at hk
  cases hk
  exact hd.spill t (by simpa [State.openIssue, State.modOps] using ht)

/-- A group that has not come to the end of its region and that has a slot to go on does not wait for a return. -/
theorem joinDone_of_free (hi : Issues s i x g) (hd : Undisturbed s g) (ha : f.atReturn = false) (hf : (f.slot n).free) :
    joinDone (s.openIssue x) x f = flowDone (s.openIssue x) x f := by
  have hgood := openIssue_good hi hd
  have hfind : Store.find ((s.openIssue x).modFlow x.gid fun _ => f).groups x.gid = some { g with ops := stepWindows g.ops, flow := f } := by
    simp [State.modFlow, openIssue_find (issuing_group hi.issuing).1]
  have hgood' : SpillGood ((s.openIssue x).modFlow x.gid fun _ => f) x.gid := by
    intro k hk t ht
    rw [hfind] at hk
    cases hk
    exact hd.spill t (by simpa [State.openIssue, State.modOps, State.modFlow] using ht)
  have hwait : ∀ clk, (((s.openIssue x).modFlow x.gid fun _ => f).modFlow x.gid fun _ => f.settle clk).waitReturn x.gid =
      ((s.openIssue x).modFlow x.gid fun _ => f).modFlow x.gid fun _ => f.settle clk := fun clk => by
    rw [State.waitReturn, State.modFlow, State.modGroup_find_self, hfind]
    simp only [Option.map_some, settle_atReturn, ha, Bool.false_and, Bool.false_eq_true, if_false]
  rw [joinDone, flowDone, spillBad_good hgood, setFlow_good hgood, afterFlow_free hfind hf hgood', hwait]

/-- A group that goes on after it has lost lanes completes with the slots and the stack that are left. -/
theorem joinDone_completes {body} (h : Issues s i x g) (hd : Undisturbed s g) (he : exec i s = issueFlow s i body)
    (hb : body (s.openIssue x) x g = joinDone (s.openIssue x) x f) (ha : f.atReturn = false) (hf : (f.slot n).free) :
    CompletesAs s i x g g.regs (f.settle x.clk) :=
  flow_completes h hd he (hb.trans (joinDone_of_free h hd ha hf)) hf

end

/-! ### The release of an exited group (R40) -/

theorem releasable_of {g : Group} (he : g.flow.exited = true) (hr : g.flow.region = false) (ho : g.eng.out = []) (hu : g.unwritten = false) :
    g.releasable = true := by simp [Group.releasable, he, hr, ho, hu]

/-- A group that may be released and that has no line in a probe set leaves its slot and gives its extended blocks back. -/
theorem execGroupExitRelease_next {s : State} {gid : Nat} {g : Group} (hg : Store.find s.groups gid = some g) (hr : g.releasable = true)
    (hp : ∀ o ∈ g.ops, o.probing = none) : ∃ parts, execGroupExitRelease gid s = .next
      { s.modBench (gid / 8) (fun b => b.release g.regs.ext (s.core (coreOf gid)).clk) with groups := Store.erase s.groups gid, parts := parts } := by
  have hnone : (g.ops.filter fun o => o.probing.isSome) = [] := List.filter_eq_nil_iff.mpr fun o ho => by simp [hp o ho]
  simp only [execGroupExitRelease, hg, hr, hnone, if_true, List.foldl_nil]
  split
  · unfold State.modDisp State.modPart
    split
    · exact ⟨_, rfl⟩
    · exact ⟨_, rfl⟩
  · exact ⟨_, rfl⟩

/-- Settles O16: the slots and the stack that EXIT leaves, what it takes out of one join entry, and the release. -/
theorem exitResult : Obligations.ExitResult := by
  unfold Obligations.ExitResult
  refine ⟨?exit, ?removeNothing, ?removeOne, ?release⟩
  case exit =>
    intro s x g hi s0 f
    exact ⟨fun hs => joinDone_moves hi (by change execExit s = _; unfold execExit; rfl) rfl hs,
      fun hs => joinDone_traps hi (by change execExit s = _; unfold execExit; rfl) rfl hs,
      fun n hd ha hl hh => joinDone_completes hi hd (by change execExit s = _; unfold execExit; rfl) rfl ha ⟨hl, hh⟩⟩
  case removeNothing =>
    intro f gone ready _ hst
    exact removeLanes_of_stack_nil gone ready hst
  case removeOne =>
    intro f gone member arrived pc below ready hr hst hlen hb h0 left
    have hfloor : f.floor = 0 := by simp [Flow.floor, hr]
    have hexit := exitStack_join (gone := gone) (pc := pc) (member := member) (arrived := arrived) hb
    rw [← hst, ← hfloor] at hexit
    refine ⟨fun hz => ?_, fun hz ha => ?_, fun hz ha => ?_⟩
    · rw [if_pos hz] at hexit
      rw [removeLanes_none_done hexit]
      exact ⟨rfl, rfl⟩
    · rw [if_neg hz, if_pos ha] at hexit
      have hcost := removalCost_resident hexit (by rw [hst]; exact hlen) hlen
      rw [removeLanes_one_done hexit hr h0, hcost]
      exact ⟨rfl, rfl⟩
    · rw [if_neg hz, if_neg ha] at hexit
      rw [removeLanes_none_done hexit]
      exact ⟨rfl, rfl⟩
  case release =>
    intro s gid g hg he hr ho hu hp
    obtain ⟨parts, hexec⟩ := execGroupExitRelease_next hg (releasable_of he hr ho hu) hp
    refine ⟨_, hexec, ?_, fun k hk => ?_, rfl, rfl, ?_⟩
    · simp [Store.find_erase]
    · simp [Store.find_erase, hk]
    · have hbench := State.modBench_bench s (gid / 8) (fun b => b.release g.regs.ext (s.core (coreOf gid)).clk) (gid / 8)
      rwa [if_pos rfl] at hbench

end Sys2Proof.Machine

/-! What the memory system leaves (R205 to R219, R334 to R339): the groups, the devices, the cores and the launches of every partition are no part of what a read
or a write at the home slices changes, nor of what a walk reads. -/

namespace Sys2Proof.Machine

/-- Two states with the same groups, devices, cores and launches. -/
structure Serves (s t : State) : Prop where
  groups : t.groups = s.groups
  vdevs : t.vdevs = s.vdevs
  cores : t.cores = s.cores
  launches : ∀ p, (t.part p).disp.launches = (s.part p).disp.launches

namespace Serves

variable {s t u : State}

theorem refl (s : State) : Serves s s := ⟨rfl, rfl, rfl, fun _ => rfl⟩

theorem trans (h : Serves s t) (k : Serves t u) : Serves s u :=
  ⟨k.groups.trans h.groups, k.vdevs.trans h.vdevs, k.cores.trans h.cores, fun p => (k.launches p).trans (h.launches p)⟩

/-- A change that leaves the four stores. -/
theorem of_eq (hg : t.groups = s.groups) (hv : t.vdevs = s.vdevs) (hc : t.cores = s.cores) (hp : t.parts = s.parts) : Serves s t :=
  ⟨hg, hv, hc, fun p => by rw [State.part_congr hp]⟩

theorem foldl {α : Type} {f : State → α → State} (hf : ∀ s a, Serves s (f s a)) (l : List α) (s : State) : Serves s (l.foldl f s) :=
  List.foldlRecOn l f (refl s) fun _ h a _ => h.trans (hf _ a)

/-- A chain of accesses of which each may have to wait. -/
theorem foldl_bind {α : Type} {f : State → α → Option State} (hf : ∀ s a t, f s a = some t → Serves s t) (l : List α) {acc : Option State}
    (ha : ∀ t, acc = some t → Serves s t) (h : l.foldl (fun acc a => acc.bind fun s => f s a) acc = some t) : Serves s t := by
  induction l generalizing acc with
  | nil => exact ha t h
  | cons a rest ih =>
    refine ih (fun u hu => ?_) h
    obtain ⟨v, hv, hu⟩ := Option.bind_eq_some_iff.mp hu
    exact (ha v hv).trans (hf v a u hu)

/-- An access that is left out when it has to wait. -/
theorem getD {o : Option State} (h : ∀ t, o = some t → Serves s t) : Serves s (o.getD s) := by
  cases o with
  | none => exact refl s
  | some t => exact h t rfl

theorem modPart (s : State) (p : Nat) {f : Part → Part} (hf : ∀ x, (f x).disp.launches = x.disp.launches) : Serves s (s.modPart p f) := by
  refine ⟨by simp, by simp, by simp, fun k => ?_⟩
  simp only [State.part, Store.get_of_find, State.modPart_find]
  split
  next hk => subst hk; cases Store.find s.parts k <;> simp [hf]
  next => rfl

theorem ite {p : Prop} [Decidable p] (h : Serves s t) (k : Serves s u) : Serves s (if p then t else u) := by
  split
  · exact h
  · exact k

theorem modLlc (s : State) (q : Nat) (f : Llc → Llc) : Serves s (s.modLlc q f) := of_eq rfl rfl rfl rfl

theorem modTeam (s : State) (t : Nat) (f : Team → Team) : Serves s (s.modTeam t f) := of_eq (by simp) (by simp) (by simp) (by simp)

end Serves

variable {s t : State}

/-! ### The event log and counters (R315, R390) -/

theorem logEvent_serves (s : State) (part : Nat) (e : EventRecord) : Serves s (s.logEvent part e) := by
  unfold State.logEvent
  dsimp only
  split
  · exact Serves.modPart s part fun _ => rfl
  · split
    · exact Serves.modPart s part fun _ => rfl
    · have hlog : Serves s (s.modPart part fun p => { p with log := { p.log with records := p.log.records ++ [e], fresh := true } }) :=
        Serves.modPart s part fun _ => rfl
      split
      · exact hlog.trans (Serves.of_eq rfl rfl rfl rfl)
      · exact hlog

theorem count_serves (s : State) (q vdev sel n : Nat) : Serves s (s.count q vdev sel n) := Serves.of_eq rfl rfl rfl rfl

theorem detect_serves (s : State) (site : ErrorSite) : Serves s (s.detect site) := (count_serves s _ _ _ _).trans (logEvent_serves _ _ _)

/-! ### The last-level cache (R205, R206) -/

theorem anyBytes_serves (s : State) (n : Nat) : Serves s (s.anyBytes n).2 := by
  obtain ⟨_, _, _, _, h⟩ := anyBytes_drawsOnly s n
  rw [h]
  exact Serves.of_eq rfl rfl rfl rfl

theorem evictSector_serves (s : State) (a : Nat) (bad : Bool) : Serves s (s.evictSector a bad) := by
  unfold State.evictSector
  refine Serves.ite (Serves.of_eq rfl rfl rfl rfl) ?_
  extract_lets s1
  have h1 : Serves s s1 := Serves.ite (Serves.of_eq rfl rfl rfl rfl) (Serves.refl s)
  have h2 := h1.trans (anyBytes_serves s1 64)
  exact ⟨h2.groups, h2.vdevs, h2.cores, h2.launches⟩

theorem dropLine_serves (s : State) (q line vdev : Nat) : Serves s (s.dropLine q line vdev) := by
  have hevict : ∀ (s : State) (on : Bool) a bad, Serves s (if on then s.evictSector a bad else s) := fun s on a bad =>
    Serves.ite (evictSector_serves s a bad) (Serves.refl s)
  unfold State.dropLine
  split
  · exact Serves.refl s
  next l hl =>
    extract_lets wb s1 s2 s3
    have h3 : Serves s s3 := ((Serves.modLlc s q _).trans (hevict s1 l.dirty0 _ _)).trans (hevict s2 l.dirty1 _ _)
    exact Serves.ite h3 (h3.trans (count_serves _ _ _ _ _))

theorem llcPut_serves {q a vdev : Nat} {write full : Bool} (h : s.llcPut q a vdev write full = some t) : Serves s t := by
  unfold State.llcPut at h
  dsimp only at h
  split at h
  next l hl =>
    simp only [Option.some.injEq] at h
    subst h
    exact Serves.ite ((Serves.modLlc s q _).trans (count_serves _ _ _ _ _))
      (Serves.ite (Serves.modLlc s q _) ((Serves.modLlc s q _).trans (count_serves _ _ _ _ _)))
  next =>
    obtain ⟨s1, hroom, rfl⟩ := Option.map_eq_some_iff.mp h
    have hs1 : Serves s s1 := by
      split at hroom
      · simp only [Option.some.injEq] at hroom; subst hroom; exact Serves.refl s
      · obtain ⟨v, -, rfl⟩ := Option.map_eq_some_iff.mp hroom; exact dropLine_serves s _ _ _
    exact hs1.trans (Serves.ite (Serves.modLlc s1 q _) ((Serves.modLlc s1 q _).trans (count_serves _ _ _ _ _)))

theorem llcStore_serves (s : State) (members : List Nat) (a vdev : Nat) (data : List Byte) : Serves s (s.llcStore members a vdev data) := by
  unfold State.llcStore
  split
  · exact Serves.of_eq rfl rfl rfl rfl
  · split
    next hput => exact (llcPut_serves hput).trans (Serves.of_eq rfl rfl rfl rfl)
    next => exact Serves.of_eq rfl rfl rfl rfl

/-- The mark of a dirty page takes its place in the LLC, where it can, and writes a byte (R339). -/
theorem markDirty_serves (s : State) (vdev gpa : Nat) : Serves s (s.markDirty vdev gpa) := by
  unfold State.markDirty
  split
  · exact Serves.refl s
  · refine Serves.trans (Serves.getD fun u hu => ?_) (Serves.of_eq rfl rfl rfl rfl)
    obtain ⟨q, -, hput⟩ := Option.bind_eq_some_iff.mp hu
    exact llcPut_serves hput

/-! ### Stash-held lines (R214, R215) -/

theorem writeBackLine_serves (s : State) (tid lineNo : Nat) : Serves s (s.writeBackLine tid lineNo) := by
  unfold State.writeBackLine
  split
  · exact Serves.refl s
  next tm ht =>
  split
  · exact Serves.refl s
  next w hw =>
  split
  · exact Serves.refl s
  · dsimp only
    have hclean : ∀ f, Serves s (s.modTeamMem tid f) := fun f => Serves.modTeam s tid _
    split
    · exact (hclean _).trans (Serves.modTeam _ tid _)
    · refine Serves.trans ?_ (markDirty_serves _ _ _)
      have hput : ∀ (s : State) (on : Bool) (homes : List Nat) members vdev data,
          Serves s (if on then homes.foldl (fun s a => s.llcStore members a vdev data) s else s) := fun s on homes members vdev data => by
        split
        · exact Serves.foldl (fun s a => llcStore_serves s members a vdev data) homes s
        · exact Serves.refl s
      refine Serves.trans (Serves.trans ?_ (hput _ _ _ _ _ _)) (hput _ _ _ _ _ _)
      split
      · exact (hclean _).trans (Serves.of_eq rfl rfl rfl rfl)
      · exact hclean _

theorem recallLine_serves (s : State) (tid lineNo : Nat) : Serves s (s.recallLine tid lineNo) :=
  (writeBackLine_serves s tid lineNo).trans (Serves.modTeam _ tid _)

theorem directory_serves {line : Nat} {write : Bool} (h : s.directory line write = some t) : Serves s t := by
  unfold State.directory at h
  split at h
  · cases h
  · cases h
    refine Serves.foldl (fun s p => ?_) _ s
    split
    · exact recallLine_serves s _ _
    · exact writeBackLine_serves s _ _

theorem recallSet_serves (s : State) (q a : Nat) : Serves s (s.recallSet q a) := by
  unfold State.recallSet
  split
  · exact Serves.getD fun _ => directory_serves
  · exact Serves.refl s

/-! ### Accesses at the home slices -/

theorem llcSector_serves {q a vdev : Nat} {write full : Bool} (h : s.llcSector q a vdev write full = some t) : Serves s t := by
  unfold State.llcSector at h
  split at h
  next hput => cases h; exact llcPut_serves hput
  next => exact (recallSet_serves s q a).trans (llcPut_serves h)

theorem llcAccess_serves {members : List Nat} {a n vdev : Nat} {write : Bool} {covers : Nat → Bool}
    (h : s.llcAccess members a n vdev write covers = some t) : Serves s t := by
  unfold State.llcAccess at h
  split at h
  · cases h; exact Serves.refl s
  · refine Serves.foldl_bind (fun s k u hu => ?_) _ (fun u hu => ?_) h
    · dsimp only at hu
      split at hu
      · cases hu; exact Serves.refl s
      · exact llcSector_serves hu
    · cases hu; exact Serves.of_eq rfl rfl rfl rfl

theorem applyAt_serves {members : List Nat} {a : Nat} {data : List Byte} (h : s.applyAt members a data = some t) : Serves s t := by
  unfold State.applyAt at h
  obtain ⟨s2, hacc, rfl⟩ := Option.map_eq_some_iff.mp h
  exact (((Serves.getD fun _ => directory_serves).trans (llcAccess_serves hacc)).trans
    (Serves.foldl (fun s k => detect_serves s _) _ s2)).trans (Serves.of_eq rfl rfl rfl rfl)

theorem applyWrite_serves {members : List Nat} {a : Nat} {data : List Byte} (h : s.applyWrite members a data = some t) : Serves s t :=
  Serves.foldl_bind (fun _ _ _ hu => applyAt_serves hu) _ (fun u hu => by cases hu; exact Serves.refl s) h

theorem coherentWrite_serves (s : State) (members : List Nat) (a : Nat) (data : List Byte) : Serves s (s.coherentWrite members a data) := by
  refine Serves.foldl (fun s x => ?_) _ s
  split
  · exact Serves.refl s
  · split
    next hw =>
      split at hw
      · cases hw
      · exact applyWrite_serves hw
    next => exact Serves.of_eq rfl rfl rfl rfl

theorem coherentRead_serves {members : List Nat} {a n vdev : Nat} (h : s.coherentRead members a n vdev = some t) : Serves s t := by
  refine Serves.foldl_bind (fun s line u hu => ?_) _ (fun u hu => by cases hu; exact Serves.refl s) h
  obtain ⟨s1, hdir, hacc⟩ := Option.bind_eq_some_iff.mp hu
  exact (directory_serves hdir).trans (llcAccess_serves hacc)

theorem servedReads_serves (s : State) (part vdev : Nat) (reads : List (Nat × Nat)) : Serves s (s.servedReads part vdev reads) :=
  Serves.foldl (fun _ _ => Serves.getD fun _ => coherentRead_serves) _ s

theorem locate_serves (s : State) (part vdev va : Nat) (need : Need) : Serves s (s.locate part vdev va need).1 := by
  unfold State.locate
  split
  · exact Serves.refl s
  · exact servedReads_serves s part vdev _

theorem guestWriteAux_serves (s : State) (part vdev fuel va : Nat) (data : List Byte) (done : Nat) :
    Serves s (s.guestWriteAux part vdev fuel va data done).1 := by
  induction fuel generalizing s va data done with
  | zero => exact Serves.refl s
  | succ fuel ih =>
    unfold State.guestWriteAux
    split
    · exact Serves.refl s
    · dsimp only
      have hlocate := locate_serves s part vdev (va % 2 ^ 56) .write
      split
      next hl => rw [hl] at hlocate; exact hlocate
      next hl =>
        rw [hl] at hlocate
        exact ((hlocate.trans (markDirty_serves _ _ _)).trans (coherentWrite_serves _ _ _ _)).trans (ih _ _ _ _)

theorem guestWrite_serves (s : State) (part vdev va : Nat) (data : List Byte) : Serves s (s.guestWrite part vdev va data).1 :=
  guestWriteAux_serves s part vdev _ va data 0

end Sys2Proof.Machine

/-! The checks of an instruction, the faults that a group takes, and the abort of a launch (R42, R78, R312 to R320). -/

namespace Sys2Proof.Store

theorem find_mapVals {α : Type} (m : Store α) (f : Nat → α → α) (k : Nat) : find (mapVals m f) k = (find m k).map (f k) := by
  induction m with
  | nil => rfl
  | cons e rest ih =>
    obtain ⟨k', x⟩ := e
    by_cases hk : k' = k
    · subst hk; simp [mapVals, find]
    · simp only [mapVals, List.map_cons, find, if_neg hk]
      exact ih

end Sys2Proof.Store

namespace Sys2Proof.Machine

/-! ### Instructions that a check stops (R78) -/

section

variable {s : State} {i : Instr} {x : Issue} {g : Group} {c : FaultCode} (h : s.issuing i = some (x, g)) (hc : precheck s x g i = some c)
include h hc

theorem issue_refused {body} : issue s i body = .next (s.stopWhenDone x g (s.takeFault x.gid (x.trap c))) := issueFlow_refused h hc

theorem issueRegs_refused {f} : issueRegs s i f = .next (s.stopWhenDone x g (s.takeFault x.gid (x.trap c))) := issue_refused h hc

theorem issueAlgebra_refused {f} : issueAlgebra s i f = .next (s.stopWhenDone x g (s.takeFault x.gid (x.trap c))) := issue_refused h hc

theorem indirectJump_refused {a} : indirectJump s i a = .next (s.stopWhenDone x g (s.takeFault x.gid (x.trap c))) := issueFlow_refused h hc

/-- Every instruction with an encoding issues in one of five ways, of which each makes the shared checks first. -/
theorem exec_refused (he : i.isEvent = false) : exec i s = .next (s.stopWhenDone x g (s.takeFault x.gid (x.trap c))) := by
  cases i <;> cases he
  all_goals
    unfold exec
    first
    | exact issueRegs_refused h hc
    | exact issue_refused h hc
    | exact issueFlow_refused h hc
    | exact issueAlgebra_refused h hc
    | exact indirectJump_refused h hc

theorem refused_traps (he : i.isEvent = false) : Traps s i x g (x.trap c) := by
  rw [Traps, exec_refused h hc he, stopWhenDone_eq]

end

section

variable {s : State} {i : Instr} {x : Issue} {g : Group}

theorem precheck_recipe (hr : g.flow.recipe.isSome = true) (ha : recipeAllows i = false) : precheck s x g i = some .illegalOpcode := by
  simp [precheck, hr, ha]

theorem precheck_privileged (hr : g.flow.recipe = none) (hp : isPrivileged i = true) (hf : g.flow.fw = none) : precheck s x g i = some .privileged := by
  simp [precheck, hr, hp, hf]

end

/-! ### What the report of a fault leaves (R314, R409) -/

/-- What a group keeps while records enter the fault queue: its registers, its slots and stack, and its park. -/
def Group.standing (g : Group) : Regs × Flow × Option Parked := (g.regs, g.flow, g.stops.parked)

/-- Two states between which faults are recorded: every group stands as it was, and so do the cores and the launches. -/
structure Reports (s t : State) : Prop where
  standing : ∀ k, (Store.find t.groups k).map Group.standing = (Store.find s.groups k).map Group.standing
  cores : t.cores = s.cores
  launches : ∀ p, (t.part p).disp.launches = (s.part p).disp.launches

namespace Reports

variable {s t u : State}

theorem refl (s : State) : Reports s s := ⟨fun _ => rfl, rfl, fun _ => rfl⟩

theorem trans (h : Reports s t) (k : Reports t u) : Reports s u :=
  ⟨fun n => (k.standing n).trans (h.standing n), k.cores.trans h.cores, fun p => (k.launches p).trans (h.launches p)⟩

theorem of_serves (h : Serves s t) : Reports s t := ⟨fun k => by rw [h.groups], h.cores, h.launches⟩

theorem ite {p : Prop} [Decidable p] (h : Reports s t) (k : Reports s u) : Reports s (if p then t else u) := by
  split
  · exact h
  · exact k

theorem foldl {α : Type} {f : State → α → State} (hf : ∀ s a, Reports s (f s a)) (l : List α) (s : State) : Reports s (l.foldl f s) :=
  List.foldlRecOn l f (refl s) fun _ h a _ => h.trans (hf _ a)

theorem modVdev (s : State) (v : Nat) (f : Vdev → Vdev) : Reports s (s.modVdev v f) :=
  ⟨fun k => by rw [State.modVdev_groups], State.modVdev_cores s v f, fun p => by rw [State.part_congr (State.modVdev_parts s v f)]⟩

theorem modGroup (s : State) (gid : Nat) {f : Group → Group} (hf : ∀ g, (f g).standing = g.standing) : Reports s (s.modGroup gid f) := by
  refine ⟨fun k => ?_, State.modGroup_cores s gid f, fun p => by rw [State.part_congr (State.modGroup_parts s gid f)]⟩
  rw [State.modGroup_find]
  split
  next hk => subst hk; rw [Option.map_map, show Group.standing ∘ f = Group.standing from funext hf]
  next => rfl

theorem modStops (s : State) (gid : Nat) {f : Stops → Stops} (hf : ∀ x, (f x).parked = x.parked) : Reports s (s.modStops gid f) :=
  modGroup s gid fun g => by simp only [Group.standing, hf]

/-- The group itself, when it is resident. -/
theorem group (h : Reports s t) {gid : Nat} {g : Group} (hg : Store.find s.groups gid = some g) :
    ∃ k, Store.find t.groups gid = some k ∧ k.regs = g.regs ∧ k.flow = g.flow ∧ k.stops.parked = g.stops.parked := by
  have hk := h.standing gid
  rw [hg, Option.map_some, Option.map_eq_some_iff] at hk
  obtain ⟨k, hk, hs⟩ := hk
  simp only [Group.standing, Prod.mk.injEq] at hs
  exact ⟨k, hk, hs⟩

end Reports

theorem hitTrigger_reports (s : State) (vdev gid kind value : Nat) : Reports s (s.hitTrigger vdev gid kind value) := by
  unfold State.hitTrigger
  split
  · exact Reports.refl s
  next d hd =>
    split
    · exact Reports.refl s
    next tr htr =>
      have hv := Reports.modVdev s vdev fun v => { v with debugger := some { d with hit := some (some gid) } }
      exact Reports.ite ⟨hv.standing, hv.cores, hv.launches⟩ (Reports.refl s)

theorem writeRecord_reports (s : State) (part vdev : Nat) (r : FaultRecord) : Reports s (s.writeRecord part vdev r) := by
  unfold State.writeRecord
  split
  · exact Reports.refl s
  · exact (Reports.of_serves (guestWrite_serves s _ _ _ _)).trans (Reports.modVdev _ _ _)

theorem enterPending_reports {s t : State} {part vdev : Nat} (h : s.enterPending part vdev = some t) : Reports s t := by
  unfold State.enterPending at h
  split at h
  next who r v _ _ =>
    split at h
    · cases h
    · dsimp only at h
      split at h <;> cases h
      · exact (writeRecord_reports s _ _ _).trans (Reports.modStops _ _ fun _ => rfl)
      · exact (writeRecord_reports s _ _ _).trans (Reports.modVdev _ _ _)
  next => cases h

theorem flushPending_reports (s : State) (part vdev n : Nat) : Reports s (s.flushPending part vdev n) := by
  induction n generalizing s with
  | zero => exact Reports.refl s
  | succ n ih =>
    unfold State.flushPending
    split
    next s1 h1 => exact (enterPending_reports h1).trans (ih s1)
    next => exact Reports.refl s

theorem enterRecord_reports (s : State) (part vdev gid : Nat) (r : FaultRecord) : Reports s (s.enterRecord part vdev gid r).1 := by
  unfold State.enterRecord
  extract_lets s0
  have h0 : Reports s s0 := flushPending_reports s part vdev 256
  split
  · exact h0
  · dsimp only
    split
    · split
      · exact h0.trans (Reports.modVdev _ _ _)
      · split
        · dsimp only
          refine h0.trans ?_
          exact Reports.modStops s0 gid fun _ => rfl
        · exact h0.trans (Reports.modVdev _ _ _)
    · exact h0.trans (writeRecord_reports _ _ _ _)

theorem touchPull_reports (s : State) (part vdev va : Nat) : Reports s (s.touchPull part vdev va) := by
  unfold State.touchPull
  split
  · exact Reports.modVdev _ _ _
  · exact Reports.refl s

theorem logEvent_reports (s : State) (part : Nat) (e : EventRecord) : Reports s (s.logEvent part e) := Reports.of_serves (logEvent_serves s part e)

/-! ### Taking a fault (R313 to R318) -/

/-- What a page fault makes of a group's stops (R318, R321): it parks, with the lanes that are unfinished. -/
def Trap.park (t : Trap) (x : Stops) : Stops :=
  { x with
    parked := some (match x.parked with
      | some p => { p with unfinished := if p.answered then t.aux1 else p.unfinished ||| t.aux1, answered := false, hyper := p.hyper || t.hyper }
      | none => { unfinished := t.aux1, serial := t.serial, slot := t.slot, hyper := t.hyper })
    wait := x.wait.parked }

/-- What a completion record will name of a fatal fault of a group (R42). -/
def Trap.summary (t : Trap) (s : State) (team group : Nat) : FatalSummary := ⟨t.code.code, team, group, t.pc, t.mask, s.now, s.mod.tick / 35⟩

/-- How a fault of a device is taken: under its trap servicing, as its context says it. -/
def State.kindUnder (s : State) (vdev : Nat) (c : FaultCode) : FaultKind := kindOf (((Store.find s.vdevs vdev).map fun v : Vdev => v.ctx).getD {}).trapsvc c

theorem kindUnder_of_find {s : State} {vdev : Nat} {v : Vdev} (h : Store.find s.vdevs vdev = some v) (c : FaultCode) :
    s.kindUnder vdev c = kindOf v.ctx.trapsvc c := by
  rw [State.kindUnder, h]
  rfl

section

variable {s : State} {gid : Nat} {t : Trap} {g : Group} {m : Team} (hg : Store.find s.groups gid = some g)
  (hm : Store.find s.teams g.tid = some m) (hs : t.spread = false)
include hg hm hs

/-- A fault is recorded, and then parks the group, stops it, or stops it and is reported for its launch. -/
theorem takeFault_cases : ∃ s1 idx, Reports s s1 ∧
    match s.kindUnder m.id.vdev t.code with
    | .replayable => s.takeFault gid t = s1.modStops gid t.park
    | .fatal => s.takeFault gid t = ((s1.stopGroup gid t idx).withdrawXacq gid).reportFatal m.id.part m.id.launch (t.summary s m.id.number g.number)
    | _ => s.takeFault gid t = s1.stopGroup gid t idx := by
  unfold State.takeFault State.kindUnder
  simp only [hg, hm, hs]
  generalize hr : (if (t.hyper || t.quiet) = true then _ else _ : State × Nat) = r
  have h0 : ∀ f, Reports s (s.modEng gid f) := fun f => Reports.modGroup s gid fun _ => rfl
  have h1 : Reports s r.1 := by
    subst hr
    cases t.clears with
    | none =>
      dsimp only
      split
      · exact Reports.refl s
      · exact enterRecord_reports s _ _ _ _
    | some k =>
      dsimp only
      split
      · exact h0 fun e => { e with f := Store.erase e.f k }
      · exact (h0 _).trans (enterRecord_reports _ _ _ _ _)
  obtain ⟨s1, idx⟩ := r
  dsimp only at h1 ⊢
  generalize (if (decide (t.code ≠ .uncorrectable) || t.noted) = true then ([] : List ErrorSite) else _) = sites
  have h2 := (h1.trans (Reports.foldl (fun s x => Reports.of_serves (detect_serves s x)) sites s1)).trans
    (hitTrigger_reports _ m.id.vdev gid 1 t.code.code)
  revert h2
  generalize (sites.foldl (fun s x => s.detect x) s1).hitTrigger m.id.vdev gid 1 t.code.code = s2
  intro h2
  cases kindOf (((Store.find s.vdevs m.id.vdev).map fun v : Vdev => v.ctx).getD {}).trapsvc t.code with
  | replayable => exact ⟨_, 0, h2.trans (Reports.ite (touchPull_reports s2 _ _ _) (Reports.refl s2)), rfl⟩
  | fatal => exact ⟨_, idx, h2.trans (Reports.ite ((logEvent_reports s2 _ _).trans (logEvent_reports _ _ _)) (logEvent_reports s2 _ _)), rfl⟩
  | serviced => exact ⟨s2, idx, h2, rfl⟩
  | engine => exact ⟨s2, idx, h2, rfl⟩
  | debugger => exact ⟨s2, idx, h2, rfl⟩

variable {v : Vdev} (hv : Store.find s.vdevs m.id.vdev = some v)
include hv

/-- A page fault parks its group (R318). -/
theorem takeFault_parks (hk : kindOf v.ctx.trapsvc t.code = .replayable) : ∃ h, Store.find (s.takeFault gid t).groups gid = some h ∧
    h.regs = g.regs ∧ h.flow = g.flow ∧ h.stops.parked = (t.park g.stops).parked := by
  obtain ⟨s1, idx, h1, ht⟩ := takeFault_cases hg hm hs
  rw [kindUnder_of_find hv, hk] at ht
  obtain ⟨k, hfind, hr, hf, hp⟩ := h1.group hg
  refine ⟨{ k with stops := t.park k.stops }, ?_, hr, hf, ?_⟩
  · rw [show s.takeFault gid t = s1.modStops gid t.park from ht, State.modStops, State.modGroup_find_self, hfind, Option.map_some]
  · simp only [Trap.park, hp]

end

/-! ### The stop of a group and the fault of its launch (R42, R316) -/

section

variable {s : State} {gid : Nat} {k : Group}

theorem stopGroup_find (t : Trap) (idx : Nat) (hk : Store.find s.groups gid = some k) :
    ∃ h, Store.find (s.stopGroup gid t idx).groups gid = some h ∧ h.regs = k.regs ∧ h.flow = k.flow ∧
      h.stops.stop = some ⟨t.code, idx, t.resume, t.slot⟩ := by
  simp only [State.stopGroup, State.modStops, State.modGroup_find_self, hk, Option.map_some]
  exact ⟨_, rfl, rfl, rfl, rfl⟩

theorem stopGroup_parts (s : State) (gid : Nat) (t : Trap) (idx : Nat) : (s.stopGroup gid t idx).parts = s.parts := by
  simp only [State.stopGroup, State.modStops, State.modGroup_parts]

/-- A partition with a launch in its table exists. -/
theorem part_of_launch {part launch : Nat} {e : LaunchEntry} (h : Store.find (s.part part).disp.launches launch = some e) :
    Store.find s.parts part = some (s.part part) := by
  rw [State.part, Store.get_of_find] at h ⊢
  cases hp : Store.find s.parts part with
  | none => rw [hp] at h; cases h
  | some x => rfl

/-- What the launch table holds after a change of the dispatcher. -/
theorem modDisp_launches {part launch : Nat} {e : LaunchEntry} (h : Store.find (s.part part).disp.launches launch = some e)
    (f : Dispatcher → Dispatcher) : ((s.modDisp part f).part part).disp = f (s.part part).disp := by
  rw [State.part, Store.get_of_find, State.modDisp, State.modPart_find, if_pos rfl, part_of_launch h, Option.map_some, Option.getD_some]

theorem reportFatal_find {part launch : Nat} {e : LaunchEntry} (f : FatalSummary)
    (h : Store.find (s.part part).disp.launches launch = some e) (he : e.phase ≠ .aborted) :
    Store.find ((s.reportFatal part launch f).part part).disp.launches launch = some { e with phase := .faulted, fatal := some (f.firstOf e.fatal) } := by
  rw [State.reportFatal, modDisp_launches h]
  simp only [h, if_neg he, Store.find_put_self]

end

section

variable {s : State} {gid : Nat} {t : Trap} {g : Group} {m : Team} {v : Vdev} (hg : Store.find s.groups gid = some g)
  (hm : Store.find s.teams g.tid = some m) (hs : t.spread = false) (hv : Store.find s.vdevs m.id.vdev = some v)
include hg hm hs hv

/-- A serviced fault, one for the debugger and a fatal one stop the group (R316). -/
theorem takeFault_stops (hk : kindOf v.ctx.trapsvc t.code = .serviced ∨ kindOf v.ctx.trapsvc t.code = .debugger ∨ kindOf v.ctx.trapsvc t.code = .fatal) :
    ∃ h idx, Store.find (s.takeFault gid t).groups gid = some h ∧ h.regs = g.regs ∧ h.flow = g.flow ∧
      h.stops.stop = some ⟨t.code, idx, t.resume, t.slot⟩ := by
  obtain ⟨s1, idx, h1, ht⟩ := takeFault_cases hg hm hs
  obtain ⟨k, hfind, hr, hf, -⟩ := h1.group hg
  obtain ⟨h, hh, hr', hf', hstop⟩ := stopGroup_find t idx hfind
  refine ⟨h, idx, ?_, hr'.trans hr, hf'.trans hf, hstop⟩
  rw [kindUnder_of_find hv] at ht
  rcases hk with hk | hk | hk <;> rw [hk] at ht <;> dsimp only at ht <;> rw [ht]
  · exact hh
  · exact hh
  · rw [State.reportFatal, State.modDisp_groups, State.withdrawXacq, State.modBench_groups, hh]

/-- A fatal fault marks the launch with the first of its faults (R42). -/
theorem takeFault_faults {e : LaunchEntry} (hk : kindOf v.ctx.trapsvc t.code = .fatal)
    (hl : Store.find (s.part m.id.part).disp.launches m.id.launch = some e) (he : e.phase ≠ .aborted) :
    ∃ e', Store.find ((s.takeFault gid t).part m.id.part).disp.launches m.id.launch = some e' ∧ e'.phase = .faulted ∧
      e'.fatal = some ((t.summary s m.id.number g.number).firstOf e.fatal) := by
  obtain ⟨s1, idx, h1, ht⟩ := takeFault_cases hg hm hs
  rw [kindUnder_of_find hv, hk] at ht
  have hpart : ((s1.stopGroup gid t idx).withdrawXacq gid).part m.id.part = s1.part m.id.part :=
    congrFun (State.part_congr (stopGroup_parts s1 gid t idx)) _
  rw [← h1.launches m.id.part, ← hpart] at hl
  exact ⟨_, by rw [ht]; exact reportFatal_find _ hl he, rfl, rfl⟩

end

/-! ### The end of the period of a fatal fault, and the abort of a launch (R42) -/

theorem step_aborts {s t : State} (ha : s.sched.agenda = []) (h : s.abortsNow = some t) : step s = .next t := by
  rw [step, State.plan]
  simp only [ha, h]

/-- What stops a launch for good: its first fatal fault, when the period of that fault is over. -/
theorem abortsNow_cases {s t : State} (h : s.abortsNow = some t) :
    ∃ p ∈ s.parts, ∃ e ∈ p.2.disp.launches, ∃ f, e.2.phase = .faulted ∧ e.2.fatal = some f ∧ f.period < s.mod.tick / 35 ∧
      let held := ((Store.find s.vdevs e.2.vdev).map (·.ctx.dumphold)).getD false
      (held = false → t = s.abortLaunch p.1 e.1 f) ∧
      (held = true → t = s.modCtx e.2.vdev fun c =>
        { c with halted := true, haltFault := (s.faultedLaunches p.1 e.2.vdev).foldl (fun acc x => some (x.2.firstOf acc)) none }) := by
  obtain ⟨p, hp, h⟩ := List.exists_of_findSome?_eq_some h
  obtain ⟨e, he, h⟩ := List.exists_of_findSome?_eq_some h
  refine ⟨p, hp, e, he, ?_⟩
  split at h
  next f hphase hfatal =>
    extract_lets ctx at h
    have hheld : ((Store.find s.vdevs e.2.vdev).map fun v => v.ctx.dumphold).getD false = ctx.dumphold := by
      simp only [ctx]
      cases Store.find s.vdevs e.2.vdev <;> rfl
    split at h
    · cases h
    next hperiod =>
      refine ⟨f, hphase, hfatal, by omega, ?_⟩
      simp only [hheld]
      cases hd : ctx.dumphold with
      | false =>
        simp only [hd, Bool.not_false, if_true, Option.some.injEq] at h
        exact ⟨fun _ => h.symm, fun k => by cases k⟩
      | true =>
        simp only [hd, Bool.not_true, Bool.false_eq_true, if_false] at h
        split at h <;> cases h
        exact ⟨fun k => (by cases k), fun _ => rfl⟩
  next => cases h

/-- Two states with the same launch tables. -/
def SameLaunches (s t : State) : Prop := ∀ p, (t.part p).disp.launches = (s.part p).disp.launches

namespace SameLaunches

variable {s t u : State}

theorem refl (s : State) : SameLaunches s s := fun _ => rfl

theorem trans (h : SameLaunches s t) (k : SameLaunches t u) : SameLaunches s u := fun p => (k p).trans (h p)

theorem of_parts (h : t.parts = s.parts) : SameLaunches s t := fun p => by rw [State.part_congr h]

theorem ite {p : Prop} [Decidable p] (h : SameLaunches s t) (k : SameLaunches s u) : SameLaunches s (if p then t else u) := by
  split
  · exact h
  · exact k

theorem foldl {α : Type} {f : State → α → State} (hf : ∀ s a, SameLaunches s (f s a)) (l : List α) (s : State) : SameLaunches s (l.foldl f s) :=
  List.foldlRecOn l f (refl s) fun _ h a _ => h.trans (hf _ a)

end SameLaunches

theorem dropOp_launches (s : State) (gid : Nat) (o : LongOp) : SameLaunches s (s.dropOp gid o) := by
  unfold State.dropOp
  extract_lets core s1 s2
  have h1 : SameLaunches s s1 := SameLaunches.of_parts (State.modGroup_parts s gid _)
  have h2 : SameLaunches s1 s2 := (SameLaunches.of_parts (State.modCore_parts s1 core _)).trans
    (Serves.modPart _ _ fun p => by split <;> rfl).launches
  exact (h1.trans h2).trans (SameLaunches.of_parts rfl)

theorem dropOps_launches (s : State) (gid : Nat) : SameLaunches s (s.dropOps gid) := by
  unfold State.dropOps
  split
  · exact SameLaunches.refl s
  · refine SameLaunches.trans (SameLaunches.foldl (fun s o => ?_) _ s) (SameLaunches.of_parts (State.modEng_parts _ gid _))
    exact SameLaunches.ite (dropOp_launches s.choose.2 gid o) (SameLaunches.refl s)

theorem abortTeam_launches (s : State) (tid : Nat) : SameLaunches s (s.abortTeam tid) := by
  unfold State.abortTeam
  extract_lets core gs s1 s2 holds s3 s4 s6 s7
  have h1 : SameLaunches s s1 := SameLaunches.foldl (fun s g => SameLaunches.of_parts (State.modGroup_parts s g _)) gs s
  have h2 : SameLaunches s1 s2 := SameLaunches.of_parts (State.modSync_parts s1 tid _)
  have h3 : SameLaunches s2 s3 := SameLaunches.ite (SameLaunches.of_parts rfl) (SameLaunches.refl s2)
  have h6 : SameLaunches s4 s6 := SameLaunches.foldl dropOps_launches gs s4
  have h7 : SameLaunches s6 s7 := SameLaunches.foldl (fun s g => SameLaunches.of_parts (State.modBench_parts s _ _)) gs s6
  exact ((((h1.trans h2).trans h3).trans (SameLaunches.of_parts rfl : SameLaunches s3 s4)).trans h6).trans (h7.trans (SameLaunches.of_parts rfl))

theorem writeCompletion_launches (s : State) (part vdev : Nat) (p : List Byte) (status reason : Nat) (f : Option FatalSummary) :
    SameLaunches s (s.writeCompletion part vdev p status reason f) :=
  SameLaunches.ite (SameLaunches.refl s) (guestWrite_serves s _ _ _ _).launches

/-- A launch that has aborted. -/
def HasAborted (s : State) (part launch : Nat) : Prop :=
  ∃ e, Store.find (s.part part).disp.launches launch = some e ∧ e.phase = .aborted

namespace HasAborted

variable {s t : State} {part launch : Nat}

theorem of_same (h : HasAborted s part launch) (k : SameLaunches s t) : HasAborted t part launch := by
  rw [HasAborted, k part]
  exact h

end HasAborted

/-- Dependents are cancelled while they run; a launch that has aborted is none of them (R275). -/
theorem cancelDependents_aborted {s : State} {part launch : Nat} (h : HasAborted s part launch) (vdev bmp : Nat) :
    HasAborted (s.cancelDependents part vdev bmp) part launch := by
  unfold State.cancelDependents
  split
  · exact h
  · extract_lets depends cancel lost s1
    obtain ⟨e, he, hphase⟩ := h
    have h1 : HasAborted s1 part launch := by
      refine ⟨cancel launch e, ?_, ?_⟩
      · rw [modDisp_launches he]
        exact (Store.find_mapVals _ _ _).trans (by rw [he, Option.map_some])
      · have hrun : (e.phase == .running) = false := by rw [hphase]; rfl
        simp only [cancel, hrun, Bool.and_false, Bool.false_eq_true, if_false]
        exact hphase
    refine h1.of_same (SameLaunches.foldl (fun s q => SameLaunches.foldl (fun s kv => ?_) _ s) _ s1)
    refine SameLaunches.ite (SameLaunches.refl s) ?_
    exact (SameLaunches.foldl (fun s x => writeCompletion_launches s _ _ _ _ _ _) _ s).trans (SameLaunches.of_parts rfl)

theorem abortLaunch_aborts {s : State} {part launch : Nat} {e : LaunchEntry} (f : FatalSummary)
    (h : Store.find (s.part part).disp.launches launch = some e) (he : e.phase ≠ .aborted) : HasAborted (s.abortLaunch part launch f) part launch := by
  unfold State.abortLaunch
  rw [h]
  dsimp -zeta only
  rw [if_neg he]
  extract_lets s1 tids s2 s3
  have h1 : HasAborted s1 part launch := by
    refine ⟨{ e with phase := .aborted, fatal := some (f.firstOf e.fatal) }, ?_, rfl⟩
    rw [modDisp_launches h]
    exact Store.find_put_self _ _ _
  have h2 : SameLaunches s1 s2 := SameLaunches.foldl abortTeam_launches tids s1
  have h3 : SameLaunches s2 s3 := SameLaunches.of_parts (State.modVdev_parts _ _ _)
  exact cancelDependents_aborted ((h1.of_same h2).of_same h3) _ _

/-- Settles O55: the form in which each instruction issues makes the shared checks first; what the record of a fault changes leaves the group and
the launches as they were; the parts of an abort keep the phase. -/
theorem faultsTaken : Obligations.FaultsTaken := by
  refine ⟨fun s i x g he hi => ⟨fun c hc => refused_traps hi hc he, fun hr ha => ?_, fun hr hp hf => ?_⟩,
    fun s gid t g m v hg hm hv hs => ⟨fun hk => ?_, fun hk => ?_, fun e hk hl ha => ?_⟩,
    fun s t ha h => ⟨step_aborts ha h, abortsNow_cases h⟩, fun s part launch f e h he => abortLaunch_aborts f h he⟩
  · exact refused_traps hi (precheck_recipe hr ha) he
  · exact refused_traps hi (precheck_privileged hr hp hf) he
  · exact takeFault_parks hg hm hs hv hk
  · exact takeFault_stops hg hm hs hv hk
  · exact takeFault_faults hg hm hs hv hk hl ha

end Sys2Proof.Machine

/-! The dispatcher (R274 to R283), and the admission, preemption and release of devices (R324 to R332, R345 to R352): what each event does when it
is due. -/

namespace Sys2Proof.Machine

variable {s : State}

/-! ### The dispatcher -/

theorem execGangFence_due {part k : Nat} (h : s.fenceDue part = some k) :
    execGangFence part s = .next (s.modDisp part fun d => { d with fence := some k, decide := true }) := by
  rw [execGangFence, h]

/-- A dependency that nothing will meet any more ends its launch, once it has waited its time (R275). -/
theorem execDependencyTimeout_due {part launch : Nat} {e : LaunchEntry} (he : Store.find (s.part part).disp.launches launch = some e)
    (ho : s.depOverdue e = true) (hn : s.orphaned part e = true) :
    execDependencyTimeout part launch s = .next ((s.modDisp part fun d => { (d.dropGangs fun g => g.launch == launch && !g.restored) with
      launches := Store.put d.launches launch { e with phase := .cancelled 3, depFrom := none } }).settleLaunch part launch) := by
  simp only [execDependencyTimeout, he, ho, hn, Bool.and_self, if_true]

/-- A team of which every group is gone retires, and its launch counts it (R281). -/
theorem execTeamRetire_counted {tid : Nat} {t : Team} {e : LaunchEntry} (ht : Store.find s.teams tid = some t) (hr : s.retires tid = true) :
    let s2 := (((s.drainPath (tid / 16) none).writeBackTeam tid).ownershipFault tid).freeTeamSlot tid
    Store.find (s2.part t.id.part).disp.launches t.id.launch = some e →
    let s3 := (if e.phase = LaunchPhase.aborted ∨ e.phase = LaunchPhase.faulted then s2 else s2.setDoneBit t.id.part e t.id.number).modDisp t.id.part fun d =>
      { d with launches := Store.put d.launches t.id.launch { e with retired := e.retired + 1 }, decide := true }
    execTeamRetire tid s = .next ((if (s3.clusterTeams t.id).isEmpty then { s3 with clusters := Store.erase s3.clusters (clusterKey t.id) }
      else s3).settleLaunch t.id.part t.id.launch) := by
  intro s2 he s3
  simp only [execTeamRetire, hr, ht, Bool.not_true, Bool.false_eq_true, if_false]
  rw [show Store.find _ _ = some e from he]

/-- Settles O44: each event of the dispatcher, under the condition that brings it. -/
theorem dispatchEvents : Obligations.DispatchEvents :=
  ⟨fun _ _ => rfl, fun _ _ _ h => execGangFence_due h, fun _ _ _ _ he ho hn => execDependencyTimeout_due he ho hn,
    fun _ _ _ _ ht hr => execTeamRetire_counted ht hr⟩

/-! ### Admission and the end of a slice -/

section

variable {vdev : Nat} {v : Vdev}

/-- The device whose turn it is gets its cores, and its slice starts (R346 to R350). -/
theorem execAdmission_due {part : Nat} {cs : List Nat} (hn : s.nextAdmission part = some vdev) (hv : Store.find s.vdevs vdev = some v)
    (hc : s.coreSetFor part v.desc = some cs) :
    execAdmission vdev part s = .next
      ((s.modPart part fun p => { p with
        regs := { p.regs with lastAdmitted := vdev },
        disp := { p.disp with resident := Store.put p.disp.resident vdev cs, decide := true } }).modVdev vdev fun v => { v with
        ctx := { v.ctx with sliceFrom := s.mod.tick },
        saved := { v.saved with teams := v.saved.teams.map fun t => { t with restoredAt := s.mod.tick } } }) := by
  simp only [execAdmission, hn, hv, hc, ne_eq, not_true_eq_false, if_false]

theorem execCoreSetReplacement_due {old new : Nat} (hv : Store.find s.vdevs vdev = some v)
    (hr : s.replacement (descPart v.desc) vdev old v = some new) :
    execCoreSetReplacement vdev old new s = .next (s.modDisp (descPart v.desc) fun d => { d with
      resident := Store.put d.resident vdev ((s.coreSet (descPart v.desc) vdev).map fun c => if c = old then new else c), decide := true }) := by
  simp only [execCoreSetReplacement, hv, hr, if_true]

theorem execSliceEnd_due (hv : Store.find s.vdevs vdev = some v) (hd : s.sliceDue vdev v = true) :
    execSliceEnd vdev s = .next (s.startSave vdev (if v.ckpt.mode = 0 then .slice else .epoch)) := by
  simp only [execSliceEnd, hv, hd, if_true]

end

/-- Run-on past its limit ends in a whole save of every group that is not saving and has not ended (R326, R327). -/
theorem execUnrwlimExpiry_due {tid : Nat} {t : Team} (ht : Store.find s.teams tid = some t) (ho : s.runOnOver t = true) :
    execUnrwlimExpiry tid s = .next
      ((s.groupsOf tid).foldl (fun (s : State) kv =>
        if kv.2.stops.saving.isSome || (kv.2.flow.exited && !kv.2.flow.region) then s else s.stopForSave kv.1 .whole)
        (s.modSync tid fun y => { y with runOnFrom := none })) := by
  simp only [execUnrwlimExpiry, ht, ho, if_true]

/-! ### The image of a save -/

section

variable {vdev : Nat} {v : Vdev} (hv : Store.find s.vdevs vdev = some v) (hd : s.drained vdev = true)
  (ho : ((s.settleMemory vdev).teamsOf vdev).find? (fun t => t.2.sync.ownershipEvent) = none)
include hv hd ho

/-- At the end of a slice the device only makes room: it goes on in place of its image (R324, R328). -/
theorem execSaveImageTaken_slice (hp : v.saved.phase = .stopping .slice) : execSaveImageTaken vdev s = .next
    (((s.settleMemory vdev).takeImage (descPart v.desc) vdev).modVdev vdev fun v => { v with saved := { v.saved with phase := .running } }) := by
  simp only [execSaveImageTaken, hv, hp, hd, ho, Bool.not_true, Bool.false_eq_true, if_false]

/-- At the end of an epoch the image is kept with the number of the epoch, which closes (R331). -/
theorem execSaveImageTaken_epoch {n : Nat} {s1 : State} {w : Vdev} (hp : v.saved.phase = .stopping .epoch)
    (hl : (s.settleMemory vdev).imageLength = (n, s1)) (hw : Store.find (s1.takeImage (descPart v.desc) vdev).vdevs vdev = some w) :
    let s2 := s1.takeImage (descPart v.desc) vdev
    execSaveImageTaken vdev s = .next (s2.modVdev vdev fun u =>
      { u with saved := { u.saved with phase := .saved, image := some (s2.imageOf (descPart v.desc) vdev w n (some w.ckpt.epoch)) },
               ckpt := { u.ckpt with closing := true } }) := by
  simp only [execSaveImageTaken, hv, hp, hd, ho, hl, hw, Bool.not_true, Bool.false_eq_true, if_false, Option.map_some]

variable {m : Nat} {buf len n : Nat} {s1 : State} (hp : v.saved.phase = .stopping (.save m buf len))
  (hl : (s.settleMemory vdev).imageLength = (n, s1))
include hp hl

/-- A buffer that does not hold the image ends the SAVE with status 1 and the length that it needs (R330). -/
theorem execSaveImageTaken_refused (hs : len < n ∨ s1.hostRange buf (max n 1) = false) :
    execSaveImageTaken vdev s = .next ((s1.continueInPlace vdev).endCommand (.mailbox m) 1 0 (bytesOf 8 n ++ bytesOf 8 0)) := by
  simp only [execSaveImageTaken, hv, hp, hd, ho, hl, Bool.not_true, Bool.false_eq_true, if_false]
  rw [if_pos (by simpa using hs)]

/-- A SAVE writes the image to its buffer, and the device leaves its cores (R330). -/
theorem execSaveImageTaken_saved {w : Vdev} (hn : n ≤ len) (hr : s1.hostRange buf (max n 1) = true)
    (hw : Store.find (s1.takeImage (descPart v.desc) vdev).vdevs vdev = some w) :
    let s2 := s1.takeImage (descPart v.desc) vdev
    let img := s2.imageOf (descPart v.desc) vdev w n none
    execSaveImageTaken vdev s = .next
      ((((s2.moveOut (descPart v.desc) vdev).coherentWrite (s2.quadsOf (descPart v.desc)) buf (imageBytes w.ctx img)).modVdev vdev fun v =>
        { v with saved := { phase := .saved, teams := [], image := some img } }).endCommand (.mailbox m) 0 0
        (bytesOf 8 n ++ bytesOf 8 w.ctx.saves)) := by
  simp only [execSaveImageTaken, hv, hp, hd, ho, hl, Bool.not_true, Bool.false_eq_true, if_false]
  rw [if_neg (by simp [hr, hn]), hw]

end

/-! ### The release of a halted device, and its carve -/

theorem execHaltRelease_halted {vdev : Nat} {v : Vdev} (hv : Store.find s.vdevs vdev = some v) (hh : v.ctx.halted = true) :
    execHaltRelease vdev s = .next ((s.faultedLaunches (descPart v.desc) vdev).foldl (fun s e => s.abortLaunch (descPart v.desc) e.1 e.2)
      (s.modCtx vdev fun c => { c with halted := false, haltFault := none })) := by
  simp only [execHaltRelease, hv, hh, Bool.not_true, Bool.false_eq_true, if_false]

theorem execCarveApply_stale {core : Nat} (hc : s.carveStale core = true) :
    let w := ((Store.find s.vdevs (s.core core).vdev).map (·.vcarve)).getD 0
    execCarveApply core s = .next ((s.modCore core fun c => { c with stash := carveStash w, lane := carveLane w }).l1Clear core) := by
  simp only [execCarveApply, hc, Bool.not_true, Bool.false_eq_true, if_false]

/-- Settles O47: each event under the condition that brings it; an image by the cause of its save. -/
theorem preemptionEvents : Obligations.PreemptionEvents := fun _ =>
  ⟨fun _ _ _ _ hn hv hc => execAdmission_due hn hv hc, fun _ _ _ _ hv hr => execCoreSetReplacement_due hv hr,
    fun _ _ hv hd => execSliceEnd_due hv hd, fun _ _ ht ho => execUnrwlimExpiry_due ht ho,
    fun _ _ hv hd ho => ⟨execSaveImageTaken_slice hv hd ho, fun _ _ _ hp hl hw => execSaveImageTaken_epoch hv hd ho hp hl hw,
      fun _ _ _ _ _ hp hl hs => execSaveImageTaken_refused hv hd ho hp hl hs,
      fun _ _ _ _ _ _ hp hl hn hr hw => execSaveImageTaken_saved hv hd ho hp hl hn hr hw⟩,
    fun _ _ hv hh => execHaltRelease_halted hv hh, fun _ hc => execCarveApply_stale hc⟩

end Sys2Proof.Machine

/-! BRP and the order in which regrouping takes the lanes (R32 to R34, R122 to R124): the sort of the live lanes, and the registers that move with them. -/

namespace Sys2Proof.Store

variable {α : Type}

theorem mem_of_find {m : Store α} {k : Nat} {v : α} (h : find m k = some v) : (k, v) ∈ m := by
  induction m with
  | nil => cases h
  | cons e rest ih =>
    obtain ⟨k', x⟩ := e
    unfold find at h
    split at h
    next hk => cases h; subst hk; exact List.mem_cons_self
    next => exact List.mem_cons_of_mem _ (ih h)

/-- What a store holds after writes at several keys of what each key determines. -/
theorem get_foldl_set [DecidableEq α] (d : α) (f : Nat → α) (keys : List Nat) (m : Store α) (k : Nat) :
    get d (keys.foldl (fun st n => set d st n (f n)) m) k = if k ∈ keys then f k else get d m k := by
  induction keys generalizing m with
  | nil => simp
  | cons n rest ih =>
    rw [List.foldl_cons, ih, get_set]
    by_cases hr : k ∈ rest
    · simp [hr]
    · by_cases hk : k = n
      · simp [hk]
      · simp [hr, hk]

theorem get_of_not_mem {d : α} {m : Store α} {k : Nat} (h : k ∉ m.map (·.1)) : get d m k = d := by
  induction m with
  | nil => rfl
  | cons e rest ih =>
    simp only [List.map_cons, List.mem_cons, not_or] at h
    rw [get, if_neg (Ne.symm h.1), ih h.2]

end Sys2Proof.Store

namespace Sys2Proof.Machine

/-! ### Masks by their lanes -/

theorem laneSum_lt (f : Nat → Bool) (n : Nat) : (List.range n).foldl (fun acc l => if f l then acc + 2 ^ l else acc) 0 < 2 ^ n := by
  induction n with
  | zero => simp
  | succ n ih =>
    rw [List.range_succ, List.foldl_append, List.foldl_cons, List.foldl_nil, Nat.pow_succ]
    split <;> omega

theorem testBit_laneSum (f : Nat → Bool) (n k : Nat) :
    ((List.range n).foldl (fun acc l => if f l then acc + 2 ^ l else acc) 0).testBit k = (decide (k < n) && f k) := by
  induction n with
  | zero => simp
  | succ n ih =>
    rw [List.range_succ, List.foldl_append, List.foldl_cons, List.foldl_nil]
    have hlt := laneSum_lt f n
    generalize (List.range n).foldl (fun acc l => if f l then acc + 2 ^ l else acc) 0 = acc at ih hlt ⊢
    by_cases hf : f n = true
    · rw [if_pos hf, Nat.add_comm, ← Nat.mul_one (2 ^ n), Nat.two_pow_add_eq_or_of_lt hlt, Nat.mul_one, Nat.testBit_or, ih, Nat.testBit_two_pow]
      rcases Nat.lt_trichotomy k n with h | rfl | h
      · simp [h, Nat.lt_succ_of_lt h, (Nat.ne_of_lt h).symm]
      · simp [hf]
      · simp [show ¬ k < n by omega, show ¬ k < n + 1 by omega, Nat.ne_of_lt h]
    · rw [if_neg hf, ih]
      rcases Nat.lt_trichotomy k n with h | rfl | h
      · simp [h, Nat.lt_succ_of_lt h]
      · simp [hf]
      · simp [show ¬ k < n by omega, show ¬ k < n + 1 by omega]

theorem getLsbD_maskOf (f : Nat → Bool) {l : Nat} (hl : l < 32) : (maskOf f).getLsbD l = f l := by
  rw [maskOf, upTo, BitVec.getLsbD_ofNat, testBit_laneSum]
  simp [hl]

theorem mem_distinct {l : List Nat} {x : Nat} : x ∈ distinct l ↔ x ∈ l := by
  induction l with
  | nil => rfl
  | cons y rest ih =>
    simp only [distinct, List.mem_cons, List.mem_filter, ih, decide_eq_true_eq]
    tauto

/-! ### Sorting by a key -/

theorem lexLe_total (a b : List Int) : lexLe a b = true ∨ lexLe b a = true := by
  induction a generalizing b with
  | nil => exact Or.inl (by unfold lexLe; rfl)
  | cons x xs ih =>
    cases b with
    | nil => exact Or.inr (by unfold lexLe; rfl)
    | cons y ys =>
      unfold lexLe
      rcases Int.lt_trichotomy x y with h | rfl | h
      · simp [h]
      · simpa using ih ys
      · simp [h]

theorem lexLe_trans {a b c : List Int} (h : lexLe a b = true) (k : lexLe b c = true) : lexLe a c = true := by
  induction a generalizing b c with
  | nil => unfold lexLe; rfl
  | cons x xs ih =>
    match b, c with
    | [], _ => simp [lexLe] at h
    | _ :: _, [] => simp [lexLe] at k
    | y :: ys, z :: zs =>
      simp only [lexLe] at h k ⊢
      split at h <;> split at k
      · rw [if_pos (by omega)]
      · split at k
        · cases k
        · rw [if_pos (by omega)]
      · split at h
        · cases h
        · rw [if_pos (by omega)]
      · split at h
        · cases h
        · split at k
          · cases k
          · rw [if_neg (by omega), if_neg (by omega)]
            exact ih h k

/-- Numbers in pairs are in the order of the first of them, and then of the second. -/
theorem lexLe_pair {u v i j : Nat} : lexLe [Int.ofNat u, Int.ofNat i] [Int.ofNat v, Int.ofNat j] = true ↔ u < v ∨ (u = v ∧ i ≤ j) := by
  simp only [lexLe, Int.ofNat_eq_natCast]
  split
  · simp; omega
  · split
    · simp; omega
    · split
      · simp; omega
      · split
        · simp; omega
        · simp; omega

section

variable {α : Type} (key : α → List Int)

theorem insertBy_perm (le : List Int → List Int → Bool) (x : α) (l : List α) : (insertBy key le x l).Perm (x :: l) := by
  induction l with
  | nil => exact List.Perm.refl _
  | cons y rest ih =>
    unfold insertBy
    split
    · exact (ih.cons y).trans (List.Perm.swap x y rest)
    · exact List.Perm.refl _

theorem sortBy_perm (l : List α) : (sortBy key l).Perm l := by
  induction l with
  | nil => exact List.Perm.refl _
  | cons x rest ih => exact (insertBy_perm key lexLe x _).trans (ih.cons x)

theorem insertBy_pairwise (x : α) {l : List α} (h : l.Pairwise fun a b => lexLe (key a) (key b) = true) :
    (insertBy key lexLe x l).Pairwise fun a b => lexLe (key a) (key b) = true := by
  induction l with
  | nil => exact List.pairwise_singleton _ _
  | cons y rest ih =>
    obtain ⟨hy, hrest⟩ := List.pairwise_cons.mp h
    unfold insertBy
    split
    next hle =>
      refine List.pairwise_cons.mpr ⟨fun z hz => ?_, ih hrest⟩
      rcases List.mem_cons.mp ((insertBy_perm key lexLe x rest).mem_iff.mp hz) with rfl | hz
      · exact hle
      · exact hy z hz
    next hle =>
      have hxy := (lexLe_total (key y) (key x)).resolve_left hle
      refine List.pairwise_cons.mpr ⟨fun z hz => ?_, h⟩
      rcases List.mem_cons.mp hz with rfl | hz
      · exact hxy
      · exact lexLe_trans hxy (hy z hz)

theorem sortBy_pairwise (l : List α) : (sortBy key l).Pairwise fun a b => lexLe (key a) (key b) = true := by
  induction l with
  | nil => exact List.Pairwise.nil
  | cons x rest ih => exact insertBy_pairwise key x ih

end

/-! ### The order of the lanes at a position (R33) -/

/-- The target of the lane that a group supplies at a position, when that lane is live at the group's BRP. -/
def laneTarget (gs : List (Nat × Group)) (l i : Nat) : Option Nat := (gs[i]?.bind fun kv => kv.2.brpHold).bind fun h =>
  if h.2.2.2.getLsbD l then some (brpTarget h.1 (h.2.1.at l)).toNat else none

/-- The key by which the live lanes of a position are sorted. -/
def laneKey (gs : List (Nat × Group)) (l i : Nat) : List Int := [Int.ofNat ((laneTarget gs l i).getD 0), Int.ofNat i]

/-- The live lanes of a position in order. -/
def liveOrder (gs : List (Nat × Group)) (l : Nat) : List Nat := sortBy (laneKey gs l) ((List.range gs.length).filter fun i => (laneTarget gs l i).isSome)

section

variable (gs : List (Nat × Group)) (l : Nat)

theorem regroupOrder_eq : regroupOrder gs l =
    (liveOrder gs l ++ (List.range gs.length).filter (fun i => (laneTarget gs l i).isNone), (liveOrder gs l).length) := by
  unfold regroupOrder
  extract_lets idx lane live
  have hlane : lane = laneTarget gs l := by
    funext i
    simp only [lane, laneTarget]
    cases gs[i]? with
    | none => rfl
    | some kv => cases h : kv.2.brpHold <;> simp [h]
  simp only [live, idx, hlane]
  rfl

theorem liveOrder_perm : (liveOrder gs l).Perm ((List.range gs.length).filter fun i => (laneTarget gs l i).isSome) := sortBy_perm _ _

theorem regroupOrder_perm : (regroupOrder gs l).1.Perm (List.range gs.length) := by
  rw [regroupOrder_eq]
  refine ((liveOrder_perm gs l).append_right _).trans ?_
  have hnot : (fun i => (laneTarget gs l i).isNone) = fun i => !(laneTarget gs l i).isSome := by
    funext i
    cases laneTarget gs l i <;> rfl
  rw [hnot]
  exact List.filter_append_perm _ _

theorem regroupOrder_count : (regroupOrder gs l).2 = ((List.range gs.length).filter fun i => (laneTarget gs l i).isSome).length := by
  rw [regroupOrder_eq]
  exact (liveOrder_perm gs l).length_eq

/-- The live lanes come first. -/
theorem regroupOrder_live {j : Nat} (hj : j < gs.length) :
    (laneTarget gs l ((regroupOrder gs l).1.getD j 0)).isSome = decide (j < (regroupOrder gs l).2) := by
  have hlen : j < (regroupOrder gs l).1.length := by rw [(regroupOrder_perm gs l).length_eq, List.length_range]; exact hj
  rw [List.getD_eq_getElem _ _ hlen]
  simp only [regroupOrder_eq]
  by_cases hl : j < (liveOrder gs l).length
  · rw [List.getElem_append_left hl, decide_eq_true hl]
    exact (List.mem_filter.mp ((liveOrder_perm gs l).mem_iff.mp (List.getElem_mem hl))).2
  · rw [List.getElem_append_right (Nat.not_lt.mp hl), decide_eq_false hl]
    have hmem := (List.mem_filter.mp (List.getElem_mem (l := (List.range gs.length).filter fun i => (laneTarget gs l i).isNone)
      (n := j - (liveOrder gs l).length) (by simp only [regroupOrder_eq, List.length_append] at hlen; omega))).2
    simpa using hmem

/-- The live lanes are in the order of their targets, and then of their groups. -/
theorem regroupOrder_sorted {j k u v : Nat} (hjk : j < k) (hk : k < (regroupOrder gs l).2)
    (hu : laneTarget gs l ((regroupOrder gs l).1.getD j 0) = some u) (hv : laneTarget gs l ((regroupOrder gs l).1.getD k 0) = some v) :
    u < v ∨ (u = v ∧ (regroupOrder gs l).1.getD j 0 < (regroupOrder gs l).1.getD k 0) := by
  simp only [regroupOrder_eq] at hk hu hv ⊢
  have hj : j < (liveOrder gs l).length := Nat.lt_trans hjk hk
  rw [List.getD_append _ _ _ _ hj, List.getD_eq_getElem _ _ hj] at hu ⊢
  rw [List.getD_append _ _ _ _ hk, List.getD_eq_getElem _ _ hk] at hv ⊢
  have hsorted := List.pairwise_iff_getElem.mp (sortBy_pairwise (laneKey gs l) ((List.range gs.length).filter fun i => (laneTarget gs l i).isSome)) j k hj hk hjk
  have hne := List.pairwise_iff_getElem.mp ((liveOrder_perm gs l).nodup_iff.mpr (List.nodup_range.filter _)) j k hj hk hjk
  change lexLe (laneKey gs l (liveOrder gs l)[j]) (laneKey gs l (liveOrder gs l)[k]) = true at hsorted
  rw [laneKey, laneKey, hu, hv, Option.getD_some, Option.getD_some, lexLe_pair] at hsorted
  omega

end

/-! ### The registers that move with the lanes (R34) -/

section

variable {gs : List (Nat × Group)} {r : Regs} {src : Nat → Nat} {l : Nat} {kv : Nat × Group} (hl : l < 32) (hs : gs[src l]? = some kv)
include hl hs

theorem gatherRegs_vec {n : Nat} (hn : n < 120) : ((gatherRegs gs r src).vec n).at l = (kv.2.regs.vec n).at l := by
  simp only [Regs.vec, hn, if_true, gatherRegs, Store.get_foldl_set, mem_distinct]
  split
  next => rw [Lanes.at_lanesBy _ hl, hs]
  next hno =>
    have hkey : n ∉ kv.2.regs.v.map (·.1) := fun hk => hno (List.mem_flatMap.mpr ⟨kv, List.mem_of_getElem? hs, hk⟩)
    rw [Store.get_of_not_mem hkey]
    rfl

theorem gatherRegs_pred {n : Nat} (hn : n < 8) : ((gatherRegs gs r src).pred n).getLsbD l = (kv.2.regs.pred n).getLsbD l := by
  simp only [Regs.pred, gatherRegs, Store.get_foldl_set, upTo, List.mem_range, hn, if_true, getLsbD_maskOf _ hl, hs]

end

/-! ### BRP (R122 to R124) -/

section

variable {s : State} {i : Instr} {x : Issue} {g : Group} {f : Flow}

/-- An instruction that makes new slots and a new stack, whatever follows of it. -/
theorem flow_moves {body} (h : Issues s i x g) (hd : Undisturbed s g) (he : exec i s = issueFlow s i body)
    (hb : body (s.openIssue x) x g = flowDone (s.openIssue x) x f) :
    Moves s i x g (((s.openIssue x).modFlow x.gid fun _ => f).afterFlow x.gid) := by
  have hgood := openIssue_good h hd
  refine he.trans (issueFlow_done h ?_)
  rw [hb, flowDone, spillBad_good hgood, setFlow_good hgood]
  rfl

variable {a : BitVec 7} {j : BitVec 11}

/-- What BRP makes of the slots outside a region: the issuing slot joins the other one when that is held at the same BRP, else it is held. -/
def brpFlow (g : Group) (x : Issue) (a : BitVec 7) (j : BitVec 11) : Flow :=
  let o := g.flow.slot (1 - x.slot)
  let words := g.regs.vec a.toNat
  if o.live && (match o.hold with
      | .brp pc _ _ => pc == x.pc
      | _ => false) then
    (g.flow.setSlot (1 - x.slot) (o.joinHold words x.mask)).setSlot x.slot {}
  else g.flow.setSlot x.slot { (g.flow.slot x.slot) with hold := .brp x.pc words (x.pc + BitVec.ofNat 56 (4 * j.toNat)) }

theorem brpFlow_joined {b : Lanes} {r : VA} (hl : (g.flow.slot (1 - x.slot)).live = true) (hh : (g.flow.slot (1 - x.slot)).hold = .brp x.pc b r) :
    brpFlow g x a j = (g.flow.setSlot (1 - x.slot) { g.flow.slot (1 - x.slot) with
      mask := (g.flow.slot (1 - x.slot)).mask ||| x.mask, hold := .brp x.pc (b.merge (g.regs.vec a.toNat) x.mask) r }).setSlot x.slot {} := by
  simp only [brpFlow, hl, hh, PcSlot.joinHold, beq_self_eq_true, Bool.and_self, if_true]

theorem brpFlow_held (hno : (g.flow.slot (1 - x.slot)).live = false ∨ ∀ b r, (g.flow.slot (1 - x.slot)).hold ≠ .brp x.pc b r) :
    brpFlow g x a j = g.flow.setSlot x.slot
      { (g.flow.slot x.slot) with hold := .brp x.pc (g.regs.vec a.toNat) (x.pc + BitVec.ofNat 56 (4 * j.toNat)) } := by
  refine if_neg fun hsame => ?_
  obtain ⟨hlive, hsame⟩ := Bool.and_eq_true_iff.mp hsame
  split at hsame
  next pc b r hh =>
    refine hno.elim (fun hdead => ?_) fun hne => hne b r ?_
    · rw [hdead] at hlive; cases hlive
    · rw [hh, eq_of_beq hsame]
  next => cases hsame

section

variable (h : Issues s (.brp a j) x g)
include h

theorem brp_held_moves (hd : Undisturbed s g) (hr : g.flow.region = false) :
    Moves s (.brp a j) x g (((s.openIssue x).modFlow x.gid fun _ => brpFlow g x a j).afterFlow x.gid) := by
  refine flow_moves h hd (by change execBrp a j s = _; unfold execBrp; rfl) ?_
  simp only [hr, Bool.false_eq_true, if_false]
  exact (apply_ite (flowDone (s.openIssue x) x) _ _ _).symm

/-- A BRP that leaves the other slot going on holds its own slot only. -/
theorem brp_held_completes (hd : Undisturbed s g) (hr : g.flow.region = false) (hl : (g.flow.slot (1 - x.slot)).live = true)
    (hh : (g.flow.slot (1 - x.slot)).hold = .none) :
    CompletesAs s (.brp a j) x g g.regs ((g.flow.setSlot x.slot
      { (g.flow.slot x.slot) with hold := .brp x.pc (g.regs.vec a.toNat) (x.pc + BitVec.ofNat 56 (4 * j.toNat)) }).settle x.clk) := by
  rw [← brpFlow_held (Or.inr fun b r hb => by rw [hh] at hb; cases hb)]
  refine flow_completes (n := 1 - x.slot) h hd (by change execBrp a j s = _; unfold execBrp; rfl) ?_ ?_
  · simp only [hr, Bool.false_eq_true, if_false]
    exact (apply_ite (flowDone (s.openIssue x) x) _ _ _).symm
  · rw [brpFlow_held (Or.inr fun b r hb => by rw [hh] at hb; cases hb), Flow.slot_setSlot_other]
    exact ⟨hl, hh⟩

variable (hr : g.flow.region = true)
include hr

/-- Inside a region BRP branches at once (R124). -/
theorem brp_region_moves {c : Nat} (hd : Undisturbed s g)
    (hs : splitByTarget g.flow (pathOf (g.flow.slot (1 - x.slot))) (x.pc + BitVec.ofNat 56 (4 * j.toNat)) x.mask
      (fun l => brpTarget x.pc ((g.regs.vec a.toNat).at l)) x.ready = some (f, c)) :
    Moves s (.brp a j) x g (((s.openIssue x).modFlow x.gid fun _ => f).afterFlow x.gid) :=
  flow_moves h hd (by change execBrp a j s = _; unfold execBrp; rfl) (by simp only [hr, if_true, hs])

theorem brp_region_overflows
    (hs : splitByTarget g.flow (pathOf (g.flow.slot (1 - x.slot))) (x.pc + BitVec.ofNat 56 (4 * j.toNat)) x.mask
      (fun l => brpTarget x.pc ((g.regs.vec a.toNat).at l)) x.ready = none) : Traps s (.brp a j) x g (x.trap .joinStackOverflow) :=
  flow_traps h (by change execBrp a j s = _; unfold execBrp; rfl) (by simp only [hr, if_true, hs])

end

end

end Sys2Proof.Machine

/-! The return from a regrouped region (R35): each lane goes back with its registers to its home group. -/

namespace Sys2Proof.Store

theorem put_put {α : Type} (m : Store α) (k : Nat) (x y : α) : put (put m k x) k y = put m k y := by
  induction m with
  | nil => simp [put]
  | cons e rest ih =>
    obtain ⟨n, v⟩ := e
    unfold put
    rcases Nat.lt_trichotomy k n with h | rfl | h
    · simp [h, put]
    · simp [put]
    · simp [Nat.not_lt.mpr (Nat.le_of_lt h), Nat.ne_of_gt h, put, ih]

end Sys2Proof.Store

namespace Sys2Proof.Machine

theorem State.modGroup_modGroup (s : State) (k : Nat) (f h : Group → Group) : (s.modGroup k f).modGroup k h = s.modGroup k fun g => h (f g) := by
  unfold State.modGroup
  cases hg : Store.find s.groups k with
  | none => simp only [hg]
  | some g => simp only [State.setGroup, Store.find_put_self, Store.put_put]

/-! ### Changes of several groups -/

section

variable {s : State} {gid : Nat}

theorem SpillGood.modGroup (h : SpillGood s gid) (k : Nat) {f : Group → Group} (hf : ∀ g, (f g).tid = g.tid) : SpillGood (s.modGroup k f) gid := by
  intro g hg t ht
  rw [State.modGroup_teams] at ht
  rw [State.modGroup_find] at hg
  split at hg
  next hk =>
    subst hk
    obtain ⟨g', hg', rfl⟩ := Option.map_eq_some_iff.mp hg
    exact h g' hg' t (by rwa [hf] at ht)
  next => exact h g hg t ht

/-- Groups that are each changed once. -/
theorem foldl_modGroup_find {β : Type} (key : β → Nat) (f : β → Group → Group) {l : List β} (hn : (l.map key).Nodup) {x : β} (hx : x ∈ l) (s : State) :
    Store.find (l.foldl (fun s x => s.modGroup (key x) (f x)) s).groups (key x) = (Store.find s.groups (key x)).map (f x) := by
  have hother : ∀ (l : List β) (s : State), key x ∉ l.map key →
      Store.find (l.foldl (fun s x => s.modGroup (key x) (f x)) s).groups (key x) = Store.find s.groups (key x) := by
    intro l
    induction l with
    | nil => intro s _; rfl
    | cons y rest ih =>
      intro s hno
      simp only [List.map_cons, List.mem_cons, not_or] at hno
      rw [List.foldl_cons, ih _ hno.2, State.modGroup_find, if_neg hno.1]
  induction l generalizing s with
  | nil => cases hx
  | cons y rest ih =>
    obtain ⟨hy, hrest⟩ := List.nodup_cons.mp hn
    rw [List.foldl_cons]
    rcases List.mem_cons.mp hx with rfl | hx
    · rw [hother rest _ hy, State.modGroup_find_self]
    · rw [ih hrest hx, State.modGroup_find, if_neg fun hk : key x = key y => hy (hk ▸ List.mem_map_of_mem hx)]

/-- A group with S0 free and an empty stack only goes on. -/
theorem afterFlow_stands {g : Group} (hg : Store.find s.groups gid = some g) (hf : g.flow.s0.free) (hst : g.flow.stack = []) (hs : SpillGood s gid) :
    (∀ k, Store.find (s.afterFlow gid).groups k = Store.find s.groups k) ∧ (s.afterFlow gid).teams = s.teams := by
  rw [afterFlow_free (n := 0) hg hf hs, Flow.settle_of_no_path (by simp [Flow.topPath, hst])]
  refine ⟨fun k => ?_, State.modGroup_teams s gid _⟩
  rw [State.modFlow, State.modGroup_find]
  split
  next hk => subst hk; rw [hg]; rfl
  next => rfl

/-- Groups that each only go on. -/
theorem foldl_afterFlow_stands {β : Type} (key : β → Nat) {l : List β}
    (h : ∀ x ∈ l, ∃ g, Store.find s.groups (key x) = some g ∧ g.flow.s0.free ∧ g.flow.stack = [] ∧ SpillGood s (key x)) (k : Nat) :
    Store.find (l.foldl (fun s x => s.afterFlow (key x)) s).groups k = Store.find s.groups k := by
  have hall : (∀ k, Store.find (l.foldl (fun s x => s.afterFlow (key x)) s).groups k = Store.find s.groups k) ∧
      (l.foldl (fun s x => s.afterFlow (key x)) s).teams = s.teams := by
    refine List.foldlRecOn (motive := fun (t : State) => (∀ k, Store.find t.groups k = Store.find s.groups k) ∧ t.teams = s.teams) l _ ⟨fun _ => rfl, rfl⟩ ?_
    rintro t ⟨hgroups, hteams⟩ x hx
    obtain ⟨g, hg, hf, hst, hs⟩ := h x hx
    obtain ⟨hgroups', hteams'⟩ := afterFlow_stands ((hgroups _).trans hg) hf hst fun g' hg' u hu =>
      hs g' ((hgroups _).symm.trans hg') u (by rwa [hteams] at hu)
    exact ⟨fun k => (hgroups' k).trans (hgroups k), hteams'.trans hteams⟩
  exact hall.1 k

end

/-! ### The parts of the return -/

section

variable (gs : List (Nat × Group))

/-- The lanes of a group of a region that go on behind its JOIN. -/
def runningLanes (kv : Nat × Group) : Mask := if kv.2.flow.exited then 0 else kv.2.flow.s0.mask ||| kv.2.flow.s1.mask

/-- The place, among the groups of a region, of the one that holds the lane of a home group at a position. -/
def returnHolder (number l : Nat) : Nat := match ((upTo 32).map fun l => regroupSources gs l)[l]? with
  | some names => names.findIdx (· == number)
  | none => 0

/-- The lanes of a home group that go on. -/
def returnLanes (number : Nat) : Mask := maskOf fun l => match gs[returnHolder gs number l]? with
  | some n => (runningLanes n).getLsbD l
  | none => false

/-- The lanes of a home group that have exited in the region. -/
def goneLanes (number : Nat) : Mask := maskOf fun l => match gs[returnHolder gs number l]? with
  | some n => Store.get 32 n.2.flow.home l != 32 && !(runningLanes n).getLsbD l
  | none => false

/-- The PC of the JOIN at the end of a region. -/
def returnJoin : VA := gs.foldl (fun acc kv => if kv.2.flow.exited then acc else if kv.2.flow.s0.live then kv.2.flow.s0.pc else kv.2.flow.s1.pc) 0

/-- The slots and the stack with which a home group leaves the region, before the lanes that have exited leave the stack. -/
def homeFlow (g : Group) : Flow :=
  { g.flow with
    s0 := if returnLanes gs g.number = 0 then {} else { pc := returnJoin gs + 4, mask := returnLanes gs g.number }
    s1 := {}
    region := false
    regionDepth := 0
    regionBench := 0
    home := []
    atReturn := false
    exited := false }

/-- What the return makes of a group, of which `g` stood in the region: new slots and stack, and the registers that come back. -/
def Group.comesHome (g : Group) (f : Flow) (ready : Nat) (now : Group) : Group :=
  { now with
    flow := f.readyFrom ready
    regs := gatherRegs gs g.regs (returnHolder gs g.number)
    stops := if now.stops.wait = .regroupJoin then { now.stops with wait := .none, waitUs := 0 } else now.stops }

theorem returnBench_eq (s : State) (tid bench : Nat) : s.returnBench tid bench =
    let gs := s.regionGroups tid bench
    let flows := gs.map fun kv => (kv, ((homeFlow gs kv.2).removeLanes (goneLanes gs kv.2.number) 0, (homeFlow gs kv.2).removalCost (goneLanes gs kv.2.number)))
    let ready := (s.core (tid / 16)).clk + 10 + (flows.map fun x => x.2.2).sum
    gs.foldl (fun s kv => s.afterFlow kv.1) (flows.foldl (fun s x => (s.moveFlow x.1.1 (x.2.1.readyFrom ready)).modGroup x.1.1 fun g =>
        { g with
          regs := gatherRegs gs x.1.2.regs (returnHolder gs x.1.2.number)
          stops := if g.stops.wait = .regroupJoin then { g.stops with wait := .none, waitUs := 0 } else g.stops })
      (s.modSync tid fun y => { y with exited := gs.foldl (fun m kv => m &&& ~~~(groupBit kv.2.number)) y.exited })) := rfl

end

/-! ### Where the lanes of a home group are -/

section

variable {gs : List (Nat × Group)} {l j : Nat} {new : Nat × Group}

theorem removalCost_of_stack_nil {f : Flow} (gone : Mask) (h : f.stack = []) : f.removalCost gone = 0 := by
  simp [Flow.removalCost, h, exitStack, spilledRewrites, upTo]

/-- A home group without a join entry loses nothing with the lanes that have exited, at no cost. -/
theorem homeFlow_removeLanes {g : Group} (gone : Mask) (h : g.flow.stack = []) :
    ((homeFlow gs g).removeLanes gone 0, (homeFlow gs g).removalCost gone) = (homeFlow gs g, 0) := by
  have hst : (homeFlow gs g).stack = [] := h
  rw [removeLanes_of_stack_nil _ _ hst, removalCost_of_stack_nil _ hst]

/-- The moves of the home groups with their registers, while no spilled entry of theirs has an error, as one change of each. -/
theorem foldl_moveFlow_comesHome {ready : Nat} (l : List (Nat × Group)) {s : State} (h : ∀ kv ∈ l, SpillGood s kv.1) :
    l.foldl (fun s kv => (s.moveFlow kv.1 ((homeFlow gs kv.2).readyFrom ready)).modGroup kv.1 fun g =>
      { g with
        regs := gatherRegs gs kv.2.regs (returnHolder gs kv.2.number)
        stops := if g.stops.wait = .regroupJoin then { g.stops with wait := .none, waitUs := 0 } else g.stops }) s =
    l.foldl (fun s kv => s.modGroup kv.1 (kv.2.comesHome gs (homeFlow gs kv.2) ready)) s := by
  induction l generalizing s with
  | nil => rfl
  | cons kv rest ih =>
    rw [List.foldl_cons, List.foldl_cons, moveFlow_good (h kv List.mem_cons_self), State.modFlow, State.modGroup_modGroup]
    exact ih fun k hk => (h k (List.mem_cons_of_mem _ hk)).modGroup _ fun _ => rfl

/-- Where the sources of a position name each group once, the place of a group is where it is named. -/
theorem returnHolder_eq {number : Nat} (hl : l < 32) (hn : (regroupSources gs l).Nodup) (hj : (regroupSources gs l)[j]? = some number) :
    returnHolder gs number l = j := by
  have hsrcs : ((upTo 32).map fun l => regroupSources gs l)[l]? = some (regroupSources gs l) := by simp [upTo, hl]
  obtain ⟨hlen, rfl⟩ := List.getElem?_eq_some_iff.mp hj
  rw [returnHolder, hsrcs]
  exact hn.idxOf_getElem j hlen

/-- The JOIN of a region is where any group stands that has not exited. -/
theorem returnJoin_eq {join : VA} (h : ∀ kv ∈ gs, kv.2.flow.exited = false → (if kv.2.flow.s0.live then kv.2.flow.s0.pc else kv.2.flow.s1.pc) = join)
    (hex : ∃ kv ∈ gs, kv.2.flow.exited = false) : returnJoin gs = join := by
  have hfold : ∀ (l : List (Nat × Group)) (acc : VA),
      (∀ kv ∈ l, kv.2.flow.exited = false → (if kv.2.flow.s0.live then kv.2.flow.s0.pc else kv.2.flow.s1.pc) = join) →
      (acc = join ∨ ∃ kv ∈ l, kv.2.flow.exited = false) →
      l.foldl (fun acc kv => if kv.2.flow.exited then acc else if kv.2.flow.s0.live then kv.2.flow.s0.pc else kv.2.flow.s1.pc) acc = join := by
    intro l
    induction l with
    | nil => intro acc _ hor; simpa using hor
    | cons kv rest ih =>
      intro acc hall hor
      refine ih _ (fun k hk => hall k (List.mem_cons_of_mem _ hk)) ?_
      cases hx : kv.2.flow.exited with
      | false => exact Or.inl (by simpa [hx] using hall kv List.mem_cons_self hx)
      | true => simpa [hx] using hor
  exact hfold gs 0 h (Or.inr hex)

end

/-! ### The return of a bench -/

section

variable {s : State} {tid bench : Nat}

theorem mem_regionGroups {kv : Nat × Group} : kv ∈ s.regionGroups tid bench ↔
    kv ∈ s.groups ∧ kv.2.tid = tid ∧ kv.2.flow.region = true ∧ kv.2.flow.regionBench = bench := by
  rw [State.regionGroups, (sortBy_perm _ _).mem_iff]
  simp only [State.groupsOf, List.mem_filter, Bool.and_eq_true, beq_iff_eq, and_assoc]

/-- What the return makes of each group, when no entry of a stack is left and no spilled entry has an error. -/
theorem returnBench_find (hgood : ∀ t, Store.find s.teams tid = some t → t.mem.spillUpset = [])
    (hn : ((s.regionGroups tid bench).map (·.1)).Nodup)
    (hfind : ∀ kv ∈ s.regionGroups tid bench, Store.find s.groups kv.1 = some kv.2)
    (hst : ∀ kv ∈ s.regionGroups tid bench, kv.2.flow.stack = [])
    (hlive : ∀ kv ∈ s.regionGroups tid bench, returnLanes (s.regionGroups tid bench) kv.2.number ≠ 0)
    {kv : Nat × Group} (hkv : kv ∈ s.regionGroups tid bench) :
    Store.find (s.returnBench tid bench).groups kv.1 = some (kv.2.comesHome (s.regionGroups tid bench) (homeFlow (s.regionGroups tid bench) kv.2)
      ((s.core (tid / 16)).clk + 10) kv.2) := by
  have htid : ∀ kv ∈ s.regionGroups tid bench, kv.2.tid = tid := fun kv hkv => (mem_regionGroups.mp hkv).2.1
  rw [returnBench_eq]
  generalize s.regionGroups tid bench = gs at *
  have hflows : (gs.map fun kv => (kv, ((homeFlow gs kv.2).removeLanes (goneLanes gs kv.2.number) 0,
      (homeFlow gs kv.2).removalCost (goneLanes gs kv.2.number)))) = gs.map fun kv => (kv, (homeFlow gs kv.2, 0)) :=
    List.map_congr_left fun kv hkv => by rw [homeFlow_removeLanes _ (hst kv hkv)]
  have hsum : ((gs.map fun kv => (kv, (homeFlow gs kv.2, 0))).map fun x => x.2.2).sum = 0 := by simp [Function.comp_def]
  dsimp only
  rw [hflows, hsum, List.foldl_map, Nat.add_zero]
  generalize (s.core (tid / 16)).clk + 10 = ready
  generalize hs1 : s.modSync tid _ = s1
  have hgroups : s1.groups = s.groups := by rw [← hs1, State.modSync_groups]
  have hgood1 : ∀ kv ∈ gs, SpillGood s1 kv.1 := by
    intro kv hkv g hg t ht
    rw [hgroups, hfind kv hkv] at hg
    cases hg
    rw [htid kv hkv, ← hs1, State.modSync, State.modTeam_find, if_pos rfl] at ht
    obtain ⟨t', ht', rfl⟩ := Option.map_eq_some_iff.mp ht
    exact hgood t' ht'
  rw [foldl_moveFlow_comesHome gs hgood1]
  have hhome : ∀ kv ∈ gs, Store.find (gs.foldl (fun s kv => s.modGroup kv.1 (kv.2.comesHome gs (homeFlow gs kv.2) ready)) s1).groups kv.1 =
      some (kv.2.comesHome gs (homeFlow gs kv.2) ready kv.2) := fun kv hkv => by
    rw [foldl_modGroup_find (·.1) (fun kv => kv.2.comesHome gs (homeFlow gs kv.2) ready) hn hkv, hgroups, hfind kv hkv, Option.map_some]
  rw [foldl_afterFlow_stands (fun kv : Nat × Group => kv.1) ?stands]
  case stands =>
    intro kv hkv
    refine ⟨_, hhome kv hkv, ⟨?_, ?_⟩, hst kv hkv, ?_⟩
    · simp only [Group.comesHome, Flow.readyFrom, homeFlow, if_neg (hlive kv hkv)]
      exact live_of_mask (hlive kv hkv)
    · simp only [Group.comesHome, Flow.readyFrom, homeFlow, if_neg (hlive kv hkv)]
    · exact List.foldlRecOn (motive := fun t => SpillGood t kv.1) gs _ (hgood1 kv hkv) fun t ht x _ => ht.modGroup _ fun _ => rfl
  exact hhome kv hkv

/-- The teams of which a region is to return: every group of it has come to the JOIN or exited (R35). -/
theorem returnReady_at {core : Nat} {gid : Nat} {g : Group} (h : tid ∈ s.returnReady core bench) (hg : Store.find s.groups gid = some g) (ht : g.tid = tid)
    (hr : g.flow.region = true) (hb : g.flow.regionBench = bench) : g.flow.atReturn = true ∨ g.flow.exited = true := by
  obtain ⟨-, hall⟩ := List.mem_filter.mp h
  have hgid := List.all_eq_true.mp hall (gid, g) (mem_regionGroups.mpr ⟨Store.mem_of_find hg, ht, hr, hb⟩)
  simpa using hgid

end

/-! ### The sources of a position -/

/-- The source of one group at a position: the one that its map names, or the next of those that no map names. -/
def sourceStep (acc : List Nat × List Nat) (n : Nat) : List Nat × List Nat :=
  if n = 32 then (acc.1 ++ [acc.2.headD 32], acc.2.drop 1) else (acc.1 ++ [n], acc.2)

theorem foldl_sourceStep (ns : List Nat) (acc : List Nat × List Nat) :
    ∃ tail, (ns.foldl sourceStep acc).1 = acc.1 ++ tail ∧ ∀ j n : Nat, ns[j]? = some n → n ≠ 32 → tail[j]? = some n := by
  induction ns generalizing acc with
  | nil => exact ⟨[], by simp, fun j n h => by simp at h⟩
  | cons m rest ih =>
    obtain ⟨tail, htail, hat⟩ := ih (sourceStep acc m)
    have hhead : ∃ x, (sourceStep acc m).1 = acc.1 ++ [x] ∧ (m ≠ 32 → x = m) := by
      unfold sourceStep
      split
      next hm => exact ⟨_, rfl, fun hne => absurd hm hne⟩
      next => exact ⟨_, rfl, fun _ => rfl⟩
    obtain ⟨x, hx, hm⟩ := hhead
    refine ⟨x :: tail, by rw [List.foldl_cons, htail, hx, List.append_assoc, List.singleton_append], fun j n hj hn => ?_⟩
    cases j with
    | zero =>
      simp only [List.getElem?_cons_zero, Option.some.injEq] at hj ⊢
      subst hj
      exact hm hn
    | succ j => exact hat j n hj hn

/-- A group whose map names a source at a position has it. -/
theorem regroupSources_named {gs : List (Nat × Group)} {l j n : Nat} {kv : Nat × Group} (hj : gs[j]? = some kv) (hn : Store.get 32 kv.2.flow.home l = n)
    (hne : n ≠ 32) : (regroupSources gs l)[j]? = some n := by
  have hget : Store.get kv.2.number kv.2.flow.home l = n := by
    rw [Store.get_of_find] at hn ⊢
    cases hf : Store.find kv.2.flow.home l with
    | none => rw [hf] at hn; exact absurd hn.symm hne
    | some m => rw [hf] at hn; exact hn
  obtain ⟨tail, htail, hat⟩ := foldl_sourceStep (gs.map fun kv => Store.get kv.2.number kv.2.flow.home l)
    ([], (gs.map fun kv => kv.2.number).filter fun n => !(gs.map fun kv => Store.get kv.2.number kv.2.flow.home l).contains n)
  have hsources : regroupSources gs l = tail := htail
  rw [hsources]
  exact hat j n (by rw [List.getElem?_map, hj, Option.map_some, hget]) hne

/-! ### What a home group gets back -/

section

variable {gs : List (Nat × Group)}

theorem returnLanes_at {l number j : Nat} {new : Nat × Group} (hl : l < 32) (hn : (regroupSources gs l).Nodup) (hj : gs[j]? = some new)
    (hname : (regroupSources gs l)[j]? = some number) : (returnLanes gs number).getLsbD l = (runningLanes new).getLsbD l := by
  rw [returnLanes, getLsbD_maskOf _ hl, returnHolder_eq hl hn hname, hj]

theorem returnLanes_ne_zero {l number j : Nat} {new : Nat × Group} (hl : l < 32) (hn : (regroupSources gs l).Nodup) (hj : gs[j]? = some new)
    (hname : (regroupSources gs l)[j]? = some number) (hrun : (runningLanes new).getLsbD l = true) : returnLanes gs number ≠ 0 := by
  intro hz
  have hat := returnLanes_at hl hn hj hname
  rw [hz, hrun] at hat
  simp at hat

/-- A group of which a lane goes on has not exited. -/
theorem not_exited_of_running {kv : Nat × Group} {l : Nat} (h : (runningLanes kv).getLsbD l = true) : kv.2.flow.exited = false := by
  cases hx : kv.2.flow.exited with
  | false => rfl
  | true => simp [runningLanes, hx] at h

variable {g : Group} {f : Flow} {ready : Nat} {now : Group}

theorem comesHome_wait : (g.comesHome gs f ready now).stops.wait ≠ .regroupJoin := by
  unfold Group.comesHome
  dsimp only
  split
  · exact nofun
  next h => exact h

end

end Sys2Proof.Machine

/-! The clocks of the cores while a bench regroups (R32 to R34, R125): nothing of a regrouping lets a clk pass, so that all benches of a team are ready
again at the same clk; and what BRP, BRP_SYNCHRONISE and REGROUP_RETURN do. -/

namespace Sys2Proof.Machine

/-- Two states with the same clk on every core. -/
def SameClocks (s t : State) : Prop := ∀ c, (t.core c).clk = (s.core c).clk

namespace SameClocks

variable {s t u : State}

theorem refl (s : State) : SameClocks s s := fun _ => rfl

theorem trans (h : SameClocks s t) (k : SameClocks t u) : SameClocks s u := fun c => (k c).trans (h c)

theorem of_cores (h : t.cores = s.cores) : SameClocks s t := fun c => by rw [State.core_congr h]

theorem ite {p : Prop} [Decidable p] (h : SameClocks s t) (k : SameClocks s u) : SameClocks s (if p then t else u) := by
  split
  · exact h
  · exact k

theorem foldl {α : Type} {f : State → α → State} (hf : ∀ s a, SameClocks s (f s a)) (l : List α) (s : State) : SameClocks s (l.foldl f s) :=
  List.foldlRecOn l f (refl s) fun _ h a _ => h.trans (hf _ a)

theorem modCore (s : State) (c : Nat) {f : Core → Core} (hf : ∀ x, (f x).clk = x.clk) : SameClocks s (s.modCore c f) := fun k => by
  rw [State.modCore_core]
  split
  next hk => subst hk; exact hf _
  next => rfl

theorem modMem (s : State) (c : Nat) (f : CoreMem → CoreMem) : SameClocks s (s.modMem c f) := modCore s c fun _ => rfl

end SameClocks

/-! ### Releases and acquires (R229) -/

theorem performStore_clocks (s : State) (core : Nat) (p : PathStore) : SameClocks s (s.performStore core p) := by
  unfold State.performStore
  extract_lets s0 s1
  have h0 : Serves s s0 := Serves.foldl (fun s (h : Nat × Nat) => recallLine_serves s h.1 h.2) _ s
  have h1 : Serves s0 s1 := Serves.ite (Serves.refl s0) (Serves.getD fun _ => llcAccess_serves)
  exact (SameClocks.of_cores (h0.trans h1).cores).trans ((SameClocks.of_cores rfl).trans (SameClocks.modMem _ core _))

theorem drainStores_clocks (s : State) (core : Nat) (last : Option Nat) (path : List PathStore) :
    SameClocks s (s.drainStores core last path).1 := by
  induction path generalizing s with
  | nil => exact SameClocks.refl s
  | cons p rest ih =>
    unfold State.drainStores
    generalize (_ || s.storeWaits p) = waits
    cases waits with
    | true => exact SameClocks.refl s
    | false => exact (performStore_clocks s core p).trans (ih _)

theorem releaseAt_clocks (s : State) (core tid scope : Nat) : SameClocks s (s.releaseAt core tid scope) := by
  unfold State.releaseAt
  extract_lets s1
  have h1 : SameClocks s s1 := SameClocks.ite ((drainStores_clocks s core none _).trans (SameClocks.modMem _ core _)) (SameClocks.refl s)
  refine h1.trans (SameClocks.ite ?_ (SameClocks.refl s1))
  unfold State.writeBackTeam
  split
  · exact SameClocks.refl s1
  · exact SameClocks.foldl (fun s (l : Nat × WinLine) => SameClocks.of_cores (writeBackLine_serves s tid l.1).cores) _ s1

theorem acquireAt_clocks (s : State) (core scope : Nat) : SameClocks s (s.acquireAt core scope) :=
  SameClocks.ite (SameClocks.modMem s core _) (SameClocks.refl s)

/-! ### Barriers and exits (R40, R290 to R292) -/

theorem departTeam_clocks (s : State) (tid : Nat) (p : Hold → Bool) (delay : Nat) : SameClocks s (s.departTeam tid p delay) :=
  SameClocks.foldl (fun s (kv : Nat × Group) => SameClocks.ite (SameClocks.refl s) (SameClocks.of_cores (State.modGroup_cores s kv.1 _))) _ s

theorem tryBarriers_clocks (s : State) (tid : Nat) : SameClocks s (s.tryBarriers tid) :=
  SameClocks.foldl (fun s _ => SameClocks.ite ((SameClocks.of_cores (State.modSync_cores s tid _)).trans (departTeam_clocks _ tid _ 2))
    (SameClocks.refl s)) _ s

theorem tryCluster_clocks (s : State) (tid : Nat) : SameClocks s (s.tryCluster tid) := by
  unfold State.tryCluster
  split
  · exact SameClocks.refl s
  · extract_lets key
    split
    · exact SameClocks.refl s
    · refine SameClocks.ite ?_ (SameClocks.of_cores rfl)
      refine SameClocks.trans ?_ (SameClocks.foldl (fun s u => (acquireAt_clocks s _ 2).trans (departTeam_clocks _ _ _ _)) _ _)
      refine SameClocks.trans (SameClocks.of_cores rfl) (SameClocks.foldl (fun s u => ?_) _ _)
      exact SameClocks.ite (releaseAt_clocks s _ _ 2) (SameClocks.refl s)

theorem exitArrives_clocks (s : State) (gid : Nat) : SameClocks s (s.exitArrives gid) := by
  unfold State.exitArrives
  split
  · exact SameClocks.refl s
  next g hg =>
    extract_lets s2 last s3
    have h2 : SameClocks s s2 := SameClocks.of_cores (State.modSync_cores s g.tid _)
    have h3 : SameClocks s2 s3 := SameClocks.ite (releaseAt_clocks s2 _ _ 2) (SameClocks.refl s2)
    exact (h2.trans h3).trans ((tryBarriers_clocks s3 g.tid).trans (tryCluster_clocks _ g.tid))

theorem closeTile_clocks (s : State) (gid : Nat) : SameClocks s (s.closeTile gid) := by
  unfold State.closeTile
  split
  · exact SameClocks.refl s
  · split
    · exact SameClocks.refl s
    · exact (SameClocks.of_cores (State.modEng_cores s gid _)).trans (SameClocks.modCore _ _ fun _ => rfl)

theorem exitGroup_clocks (s : State) (gid : Nat) : SameClocks s (s.exitGroup gid) := by
  unfold State.exitGroup
  split
  · exact SameClocks.refl s
  · extract_lets clk s1 s2
    have h1 : SameClocks s s1 := SameClocks.of_cores (State.modGroup_cores s gid _)
    have h2 : SameClocks s1 s2 := SameClocks.ite (SameClocks.refl s1) (closeTile_clocks s1 gid)
    exact (h1.trans h2).trans (exitArrives_clocks s2 gid)

/-! ### Faults and moves -/

/-- No fault touches the cores, but for a debugger's that stops more than its group (R409). -/
theorem takeFault_cores (s : State) (gid : Nat) {t : Trap} (hs : t.spread = false) : (s.takeFault gid t).cores = s.cores := by
  cases hg : Store.find s.groups gid with
  | none => rw [State.takeFault, hg]
  | some g =>
    cases hm : Store.find s.teams g.tid with
    | none => simp only [State.takeFault, hg, hm]
    | some m =>
      obtain ⟨s1, idx, h1, ht⟩ := takeFault_cases hg hm hs
      have hstop : (s1.stopGroup gid t idx).cores = s1.cores := by simp only [State.stopGroup, State.modStops_cores, State.modGroup_cores]
      rw [← h1.cores]
      split at ht <;> rw [ht]
      · exact State.modStops_cores s1 gid _
      · rw [State.reportFatal, State.modDisp_cores, State.withdrawXacq, State.modBench_cores, hstop]
      · exact hstop

theorem moveFlow_cores (s : State) (gid : Nat) (f : Flow) : (s.moveFlow gid f).cores = s.cores := by
  have hset : (s.setFlow gid f).cores = s.cores := by
    unfold State.setFlow
    split
    · rfl
    · rw [State.modFlow_cores, State.writeSpill]
      split
      · rfl
      · split
        · exact State.modTeamMem_cores s _ _
        · rfl
  unfold State.moveFlow
  extract_lets s1 n sl
  split
  · exact (takeFault_cores s1 gid rfl).trans hset
  · exact hset

theorem brpTrap_spread (g : Group) (c : FaultCode) : (g.brpTrap c).spread = false := by
  unfold Group.brpTrap
  split <;> rfl

theorem regroupBench_clocks (s : State) (r : Regrouping) (ready : Nat) : SameClocks s (s.regroupBench r ready) := by
  unfold State.regroupBench
  split
  · exact SameClocks.foldl (fun s (kv : Nat × Group) => SameClocks.of_cores (takeFault_cores s kv.1 (brpTrap_spread kv.2 _))) _ s
  · extract_lets js s2
    have h2 : SameClocks s s2 := SameClocks.foldl (fun s x => by
      split
      · exact SameClocks.refl s
      · exact SameClocks.of_cores ((State.modGroup_cores _ _ _).trans (moveFlow_cores s _ _))) js s
    refine h2.trans (SameClocks.foldl (fun s x => ?_) js s2)
    split
    · exact SameClocks.of_cores (takeFault_cores s _ (brpTrap_spread _ _))
    · exact SameClocks.ite (exitGroup_clocks s _) (SameClocks.refl s)

/-- Whether the clk at which the benches are ready is read before them all or at each of them, it is one clk. -/
theorem foldl_regroupBench_clock (core cost : Nat) (plans : List Regrouping) (t : State) {clk : Nat} (h : (t.core core).clk = clk) :
    plans.foldl (fun s p => s.regroupBench p (clk + 10 + cost)) t = plans.foldl (fun s p => s.regroupBench p ((s.core core).clk + 10 + cost)) t := by
  induction plans generalizing t with
  | nil => rfl
  | cons p rest ih =>
    rw [List.foldl_cons, List.foldl_cons, h]
    exact ih _ ((regroupBench_clocks t p _ core).trans h)

/-- Settles O19: BRP by the state of the other slot, the order of the lanes as a sort, and the return as one change of each group. -/
theorem regroupResult : Obligations.RegroupResult := by
  unfold Obligations.RegroupResult
  refine ⟨?brp, ?synchronise, ?order, ?registers, fun _ _ _ => rfl, ?back, fun gs l j n kv hj hn hne => regroupSources_named hj hn hne,
    fun s core bench tid gid g h hg ht hr hb => returnReady_at h hg ht hr hb⟩
  case brp =>
    intro s x g a i h hd rejoin words o goes split
    exact ⟨fun hr hs => brp_region_overflows h hr hs, fun f c hr hs => brp_region_moves h hr hd hs,
      fun b r hr hl hh => by rw [← brpFlow_joined (a := a) (j := i) hl hh]; exact brp_held_moves h hd hr,
      fun hr hno => by rw [← brpFlow_held hno]; exact brp_held_moves h hd hr,
      fun hr hl hh => brp_held_completes h hd hr hl hh⟩
  case synchronise =>
    intro s tid h plans
    rw [show exec (.brpSynchronise tid) s = execBrpSynchronise tid s from rfl, execBrpSynchronise, if_pos h]
    exact congrArg Host.Outcome.next (foldl_regroupBench_clock (tid / 16) _ plans _ (by rw [State.core_congr (State.modSync_cores s tid _)]))
  case order =>
    intro gs l target order
    exact ⟨regroupOrder_perm gs l, regroupOrder_count gs l, fun j hj => regroupOrder_live gs l hj,
      fun j k u v hjk hk hu hv => regroupOrder_sorted gs l hjk hk hu hv⟩
  case registers =>
    intro gs r src l kv hl hs
    exact ⟨fun n hn => gatherRegs_vec hl hs hn, fun n hn => gatherRegs_pred hl hs hn, rfl, rfl, rfl⟩
  case back =>
    intro s tid bench gid g join gs names running hgood hids hnumbers hfind hperm hjoin hlanes hmem
    have hnodup : ∀ l, l < 32 → (regroupSources gs l).Nodup := fun l hl => (hperm l hl).nodup_iff.mpr hnumbers
    have hlive : ∀ kv ∈ gs, returnLanes gs kv.2.number ≠ 0 := fun kv hkv => by
      obtain ⟨-, l, j, new, hl, hj, hname, hrun⟩ := hlanes kv hkv
      exact returnLanes_ne_zero hl (hnodup l hl) hj hname hrun
    have hreturnJoin : returnJoin gs = join := by
      obtain ⟨-, l, j, new, -, hj, -, hrun⟩ := hlanes _ hmem
      exact returnJoin_eq hjoin ⟨new, List.mem_of_getElem? hj, not_exited_of_running hrun⟩
    have hhome := returnBench_find hgood hids (fun kv hkv => (hfind kv hkv).1) (fun kv hkv => (hlanes kv hkv).1) hlive hmem
    have hs0 : (homeFlow gs g).s0 = { pc := join + 4, mask := returnLanes gs g.number } := by
      rw [homeFlow, hreturnJoin]
      exact if_neg (hlive _ hmem)
    refine ⟨_, hhome, rfl, rfl, (hlanes _ hmem).1, rfl, ?_, rfl, rfl, comesHome_wait, fun l j new hl hj hname => ⟨?_, fun n hn => ?_, fun n hn => ?_⟩⟩
    · change (homeFlow gs g).s0.pc = _
      rw [hs0]
    · change (homeFlow gs g).s0.mask.getLsbD l = _
      rw [hs0]
      exact returnLanes_at hl (hnodup l hl) hj hname
    · exact gatherRegs_vec hl (by rw [returnHolder_eq hl (hnodup l hl) hname, hj]) hn
    · exact gatherRegs_pred hl (by rw [returnHolder_eq hl (hnodup l hl) hname, hj]) hn

end Sys2Proof.Machine

/-! The vector ALU (R44, R45, R132, R143): the elements of a packed word, and the two forms of B. -/

namespace Sys2Proof.Machine

/-! ### The elements of a word -/

theorem packElems_elem (w : Nat) (es : List Nat) (k : Nat) : packElems w es / 2 ^ (w * k) % 2 ^ w = es.getD k 0 % 2 ^ w := by
  have hw : 0 < 2 ^ w := by positivity
  induction es generalizing k with
  | nil => simp [packElems]
  | cons e rest ih =>
    cases k with
    | zero => simp [packElems]
    | succ k =>
      rw [Nat.mul_succ, Nat.add_comm (w * k), Nat.pow_add, ← Nat.div_div_eq_div_mul, packElems, Nat.add_mul_div_left _ _ hw,
        Nat.div_eq_of_lt (Nat.mod_lt _ hw), Nat.zero_add, List.getD_cons_succ]
      exact ih k

/-- An element that lies in a word is the same whether or not the bits above the word are there. -/
theorem elemAt_ofNat {w k : Nat} (h : w * k + w ≤ 32) (n : Nat) : elemAt w (BitVec.ofNat 32 n) k = n / 2 ^ (w * k) % 2 ^ w := by
  have hsplit : 2 ^ 32 = 2 ^ (w * k) * 2 ^ (32 - w * k) := by rw [← Nat.pow_add]; congr 1; omega
  rw [elemAt, BitVec.toNat_ofNat, hsplit, Nat.mod_mul_right_div_self, Nat.mod_mod_of_dvd _ (Nat.pow_dvd_pow 2 (by omega))]

/-- Element k of a word that is computed by elements is the one computed for k (R45). -/
theorem elemAt_elemsBy {w k : Nat} (hk : k < 32 / w) (f : Nat → Nat) : elemAt w (elemsBy w f) k = f k % 2 ^ w := by
  have hfits : w * k + w ≤ 32 := (Nat.mul_le_mul_left w hk).trans (Nat.mul_div_le 32 w)
  rw [elemsBy, elemAt_ofNat hfits, packElems_elem]
  simp [upTo, hk]

/-! ### Results that fit their elements -/

theorem Num.wrapNat_lt (w : Nat) (z : Int) : Num.wrapNat w z < 2 ^ w := by
  have hpos : (0 : Int) < 2 ^ w := by positivity
  have hlt := Int.emod_lt_of_pos z hpos
  have hnonneg := Int.emod_nonneg z hpos.ne'
  rw [Num.wrapNat, Int.toNat_lt hnonneg]
  exact_mod_cast hlt

/-- A result is saturated when SAT is set and its operation saturates, else wrapped (R46, R132). -/
theorem OpResult.narrow_eq (h : IntShape) (sat : Bool) (o : OpResult) : o.narrow h sat =
    if sat ∧ o.saturates then Num.wrapNat h.width (max (Num.loEnd h.sgn h.width) (min o.z (Num.hiEnd h.sgn h.width)))
    else Num.wrapNat h.width o.z := by
  simp only [OpResult.narrow, Num.satInt, Bool.and_eq_true, min_comm o.z]

theorem OpResult.narrow_lt (h : IntShape) (sat : Bool) (o : OpResult) : o.narrow h sat < 2 ^ h.width := by
  unfold OpResult.narrow
  split <;> exact Num.wrapNat_lt _ _

/-- Element k of a result is the narrowed result of the elements k of the operands (R132). -/
theorem elemAt_onElems {t : ElemType} {k : Nat} (hk : k < 32 / (intShape t).width) (sat : Bool) (f : IntShape → Int → Int → OpResult) (a b : Word) :
    let h := intShape t
    elemAt h.width (onElems t sat f a b) k =
      (f h (Num.readInt h.sgn h.width (elemAt h.width a k)) (Num.readInt h.sgn h.width (elemAt h.width b k))).narrow h sat :=
  (elemAt_elemsBy hk _).trans (Nat.mod_eq_of_lt (OpResult.narrow_lt _ _ _))

/-! ### The two forms of B -/

/-- Each operation of the vector ALU is vecAlu with its row's result, on the lanes of B or on the scalar B in every lane (R143). -/
theorem exec_vectorAlu : ∀ op ∈ vectorAluTable, ∀ (s : State) (d a b : BitVec 7),
    (exec (op.1 d a b) s = issueRegs s (op.1 d a b) fun x r => .ok (r.vecAlu x op.2.2 d (r.vec a.toNat) (r.vec b.toNat))) ∧
    (exec (op.2.1 d a b) s =
      issueRegs s (op.2.1 d a b) fun x r => .ok (r.vecAlu x op.2.2 d (r.vec a.toNat) (lanesBy fun _ => r.sc b.toNat))) := by
  simp only [vectorAluTable, List.forall_mem_cons, List.not_mem_nil, IsEmpty.forall_iff, implies_true, and_true]
  and_intros
  all_goals exact fun _ _ _ _ => ⟨rfl, rfl⟩

/-- Settles O4: the rows of the table by their one meaning, and an element of a packed result by the digits of the word. -/
theorem vectorAluResult : Obligations.VectorAluResult := by
  unfold Obligations.VectorAluResult
  refine ⟨fun op hop s x g d a b hd => ?forms, fun t sat f a b k hk => ?elements⟩
  case forms =>
    obtain ⟨hvector, hscalar⟩ := exec_vectorAlu op hop s d a b
    exact ⟨fun h => issueRegs_completes h hd hvector rfl, fun h => issueRegs_completes h hd hscalar rfl⟩
  case elements => exact (elemAt_onElems hk sat f a b).trans (OpResult.narrow_eq _ sat _)

end Sys2Proof.Machine

/-! The decoder reads back what the encoder writes (R68 to R77): the codes of the selections, and the instructions of each family of opcodes. -/

namespace Sys2Proof

/-! ### The codes of the selections, in fields of three and of four bits -/

@[simp] theorem ElemType.ofCode_code (t : ElemType) : ElemType.ofCode (t.code % 16) = some t := by cases t <;> rfl
@[simp] theorem ScmpCond.ofCode_code (c : ScmpCond) : ScmpCond.ofCode (c.code % 16) = some c := by cases c <;> rfl
@[simp] theorem BruCond.ofCode_code (c : BruCond) : BruCond.ofCode (c.code % 8) = some c := by cases c <;> rfl
@[simp] theorem IcmpCond.ofCode_code (c : IcmpCond) : IcmpCond.ofCode (c.code % 16) = some c := by cases c <;> rfl
@[simp] theorem FcmpCond.ofCode_code (c : FcmpCond) : FcmpCond.ofCode (c.code % 16) = some c := by cases c <;> rfl
@[simp] theorem VoteMode.ofCode_code (v : VoteMode) : VoteMode.ofCode (v.code % 16) = some v := by cases v <;> rfl
@[simp] theorem ShflMode.ofCode_code (v : ShflMode) : ShflMode.ofCode (v.code % 16) = some v := by cases v <;> rfl
@[simp] theorem RedOp.ofCode_code (o : RedOp) : RedOp.ofCode (o.code % 16) = some o := by cases o <;> rfl
@[simp] theorem RedOp.ofCode_code_three (o : RedOp) : RedOp.ofCode (o.code % 8) = some o := by cases o <;> rfl
@[simp] theorem AtomOp.ofCode_code (o : AtomOp) : AtomOp.ofCode (o.code % 16) = some o := by cases o <;> rfl
@[simp] theorem CollOp.ofCode_code (g : CollOp) : CollOp.ofCode (g.code % 8) = some g := by cases g <;> rfl

/-! ### The word of an instruction -/

/-- Of a well-formed instruction, an arm asks only for its zero fields. -/
theorem arm_eq {i : Instr} (h : i.wellFormed = true) (zeros : List Bool) :
    arm zeros i = if zeros.all id then .ok i else .error .nonzeroField := by
  split
  next hz => exact arm_wellFormed hz h
  next hz => exact if_neg hz

/-- LIT alone has two words (R68, R79). -/
theorem encode_lit_or_word {i : Instr} (he : i.isEvent = false) : (∃ d l, i = .lit d l) ∨ ∃ w, encode i = [w] := by
  cases i <;> cases he
  case lit d l => exact .inl ⟨d, l, rfl⟩
  all_goals exact .inr ⟨_, rfl⟩

theorem isLit_packI (d : BitVec 7) : isLit (packI 0x14#7 d 0#7 0#11) = true := by simp [isLit]

theorem decodeWord_packI_lit (d : BitVec 7) (l : Word) : decodeWord (packI 0x14#7 d 0#7 0#11) l = .ok (.lit d l) := by
  simp [decodeWord, decodeScalar, arm_eq (i := .lit d l) rfl]

section

variable {i : Instr} {w : Word}

/-- No instruction of one word has the opcode of LIT. -/
theorem isLit_of_encode (he : encode i = [w]) : isLit w = false := by cases i <;> cases he <;> simp [isLit]

/-- Each family by its decoder, and then the instructions of all families with a field of several parts. Such a field is a concatenation: its width
stays a sum (without Nat.reduceAdd), so that the laws of concatenations give its parts. -/
theorem decodeWord_of_encode (he : encode i = [w]) (hw : i.wellFormed = true) : decodeWord w 0 = .ok i := by
  cases i <;> cases he
  case nop | bra | brc | bru | mark | join | brp | call | ret | jmpr | exit | flashpt | trap | bkpt | yield =>
    simp [decodeWord, decodeControl, arm_eq hw]
  case sadd | ssub | smul | smulh | sand | sor | sxor | sshl | sshr | ssra | smin | smax | sminn | smaxn | saddi | sandi | sori | scmp | ssel | sld |
      sst | mfs =>
    simp [decodeWord, decodeScalar, arm_eq hw]
  case iadd | isub | imul | imulh | imin | imax | iabs | ineg | iand | ior | ixor | inot | ishl | ishr | iaddScalarB | isubScalarB | imulScalarB |
      imulhScalarB | iminScalarB | imaxScalarB | iandScalarB | iorScalarB | ixorScalarB | ishlScalarB | ishrScalarB | imad | icmp | popc | clz | ctz |
      brev | bfi | lea | iaddi | ishli | ishri | vmov | vli =>
    simp [decodeWord, decodeVecInt, arm_eq hw]
  case fadd | fsub | fmul | fmin | fmax | fabs | fneg | fcopysign | faddScalarB | fsubScalarB | fmulScalarB | fminScalarB | fmaxScalarB |
      fcopysignScalarB | ffma | ffms | fnfma | fcmp | frcp | frsq | fsqrt | fexp2 | flog2 | fsin | fcos | fdiv | fcvt | fround | fclass =>
    simp [decodeWord, decodeFloat, arm_eq hw]
  case pand | por | pxor | pnot | pmov | ballot | pfroms | vote | shfl | stov | gred =>
    simp [decodeWord, decodeLane, arm_eq hw]
  case hmul | hconj | hnorm | hfma | pnpk | algld =>
    simp [decodeWord, decodeAlgebra, arm_eq hw]
  case ld | st | lds | sts | ldl | stl | pref | atom | atoms | acqrm | mcst | redld =>
    simp [decodeWord, decodeMemory, arm_eq hw]
  case barc | sigwait | sigadd | xrel | recld | accz | omap =>
    simp [decodeWord, decodeEngine, arm_eq hw]
  case launch | coll | ckclr | boost | rdlife | rdcnt | rdtime | tileb | tilee | mfsr | mtsr | ecall | eret =>
    simp [decodeWord, decodeSystem, arm_eq hw]
  case setmode | setgrd | setmem | isel | bfe | vtos | gscan | pnunpk | pnexp | fence | bar | waitc | xacq | cpin | cpout | cpst | cpgath | clampld |
      mma | mmar | accld | accst | ckfold | cktest | rdwear | tlbi =>
    simp (disch := omega) [decodeWord, decodeControl, decodeVecInt, decodeLane, decodeAlgebra, decodeMemory, decodeEngine, decodeSystem, arm_eq hw,
      extract_append_low, extract_append_high, BitVec.getLsbD_append, -BitVec.getLsbD_eq_getElem, -Nat.reduceAdd]

end

end Sys2Proof

namespace Sys2Proof.Machine

/-- Settles O56: the two words of LIT, and the one word of any other instruction, which its family's decoder reads. -/
theorem decodeEncodeRoundTrip : Obligations.DecodeEncodeRoundTrip := by
  unfold Obligations.DecodeEncodeRoundTrip
  intro i rest he hw
  obtain ⟨d, l, rfl⟩ | ⟨w, h⟩ := encode_lit_or_word he
  · rw [encode, List.flatMap_cons, List.flatMap_singleton, List.append_assoc, decodeBytes_lit _ _ _ (isLit_packI d), decodeWord_packI_lit]
    rfl
  · rw [h, List.flatMap_singleton, decodeBytes_word _ _ (isLit_of_encode h), decodeWord_of_encode h hw]
    rfl

/-- Settles O57: each word is decoded. -/
theorem decodeReadsTableWords : Obligations.DecodeReadsTableWords := by
  unfold Obligations.DecodeReadsTableWords
  and_intros <;> rfl

end Sys2Proof.Machine

/-! The mode instructions (R73, R112 to R114): the fields of gmode that they write, bit by bit. -/

namespace Sys2Proof.Machine

/-! ### The bits that a write of selected fields changes -/

section

variable (g : BitVec 32) (w : BitVec 5) (v : BitVec 11) (u : BitVec 5) (q : BitVec 2) {i : Nat}

/-- A write under a mask takes the bits of the mask from the value and the others from what stood there. -/
theorem getLsbD_underMask (sel val : BitVec 32) (hi : i < 32) :
    ((g &&& ~~~sel) ||| (val &&& sel)).getLsbD i = if sel.getLsbD i then val.getLsbD i else g.getLsbD i := by
  rw [BitVec.getLsbD_or, BitVec.getLsbD_and, BitVec.getLsbD_and, BitVec.getLsbD_not, decide_eq_true hi]
  cases sel.getLsbD i <;> simp

theorem getLsbD_iteMask (b : Bool) (m : BitVec 32) : (if b then m else 0).getLsbD i = (m.getLsbD i && b) := by cases b <;> simp

theorem getLsbD_zeroExtend_shiftLeft {n : Nat} (z : BitVec n) {k : Nat} (hk : k ≤ i) (hi : i < 32) :
    (z.zeroExtend 32 <<< k).getLsbD i = z.getLsbD (i - k) := by
  simp [hi, hk]

/-- The masks of TYPE, RND, SAT, FTZ, ALG, MSCOPE, MORD and the guard fields (R73). -/
theorem getLsbD_fieldMasks : ∀ i < 32,
    (0x1E0 : BitVec 32).getLsbD i = decide (5 ≤ i ∧ i < 9) ∧ (0xE00 : BitVec 32).getLsbD i = decide (9 ≤ i ∧ i < 12) ∧
    (0x1000 : BitVec 32).getLsbD i = decide (i = 12) ∧ (0x2000 : BitVec 32).getLsbD i = decide (i = 13) ∧
    (0xC000 : BitVec 32).getLsbD i = decide (14 ≤ i ∧ i < 16) ∧ (0x070000 : BitVec 32).getLsbD i = decide (16 ≤ i ∧ i < 19) ∧
    (0x180000 : BitVec 32).getLsbD i = decide (19 ≤ i ∧ i < 21) ∧ (0x1F#32).getLsbD i = decide (i < 5) := by decide

theorem getLsbD_setModeFields (hi : i < 32) : (setModeFields g w v).getLsbD i =
    if 5 ≤ i ∧ i < 9 ∧ w.getLsbD 0 ∨ 9 ≤ i ∧ i < 12 ∧ w.getLsbD 1 ∨ i = 12 ∧ w.getLsbD 2 ∨ i = 13 ∧ w.getLsbD 3 ∨
      14 ≤ i ∧ i < 16 ∧ w.getLsbD 4 then v.getLsbD (i - 5) else g.getLsbD i := by
  obtain ⟨htype, hrnd, hsat, hftz, halg, -⟩ := getLsbD_fieldMasks i hi
  simp only [setModeFields, getLsbD_underMask _ _ _ hi, BitVec.getLsbD_or, getLsbD_iteMask, htype, hrnd, hsat, hftz, halg, Bool.or_eq_true,
    Bool.and_eq_true, decide_eq_true_eq]
  by_cases h : 5 ≤ i
  · simp only [getLsbD_zeroExtend_shiftLeft v h hi, and_assoc, or_assoc]
  · rw [if_neg (by omega), if_neg (by omega)]

theorem getLsbD_setGuardFields (hi : i < 32) : (setGuardFields g u).getLsbD i = if i < 5 then u.getLsbD i else g.getLsbD i := by
  obtain ⟨-, -, -, -, -, -, -, hguard⟩ := getLsbD_fieldMasks i hi
  rw [setGuardFields, BitVec.getLsbD_or, BitVec.getLsbD_and, BitVec.getLsbD_not, hguard]
  by_cases h : i < 5
  · simp [h, hi]
  · simp [h, hi, BitVec.getLsbD_of_ge u i (by omega)]

theorem getLsbD_setMemFields (hi : i < 32) : (setMemFields g q u).getLsbD i =
    if 16 ≤ i ∧ i < 19 ∧ q.getLsbD 0 ∨ 19 ≤ i ∧ i < 21 ∧ q.getLsbD 1 then u.getLsbD (i - 16) else g.getLsbD i := by
  obtain ⟨-, -, -, -, -, hscope, hord, -⟩ := getLsbD_fieldMasks i hi
  simp only [setMemFields, getLsbD_underMask _ _ _ hi, BitVec.getLsbD_or, getLsbD_iteMask, hscope, hord, Bool.or_eq_true, Bool.and_eq_true,
    decide_eq_true_eq]
  by_cases h : 16 ≤ i
  · simp only [getLsbD_zeroExtend_shiftLeft u h hi, and_assoc]
  · rw [if_neg (by omega), if_neg (by omega)]

end

/-! ### The instructions -/

section

variable {s : State} {i : Instr} {x : Issue} {g : Group}

/-- An instruction of which the meaning is a function of its group's registers takes the fault that the function names. -/
theorem issueRegs_traps {f} {c : FaultCode} (h : Issues s i x g) (he : exec i s = issueRegs s i f) (hf : f x g.regs = .error c) :
    Traps s i x g (x.trap c) := by
  rw [Traps, he, issueRegs_error h hf, stopWhenDone_eq]

/-- An instruction that refuses some values and writes its group's registers by the others. -/
theorem issueRegs_guarded {f} {p : Bool} {c : FaultCode} {r : Regs} (h : Issues s i x g) (hd : Undisturbed s g)
    (he : exec i s = issueRegs s i f) (hf : f x g.regs = if p then .error c else .ok r) :
    if p then Traps s i x g (x.trap c) else Completes s i x g r := by
  cases p
  case true => exact issueRegs_traps h he hf
  case false => exact issueRegs_completes h hd he hf

/-- NOP issues and leaves its group's registers (R112). -/
theorem nop_completes (h : Issues s .nop x g) (hd : Undisturbed s g) : Completes s .nop x g g.regs :=
  issue_completes (body := fun s _ _ => .done s) h hd rfl rfl (Apart.refl _ _) (openIssue_find (issuing_group h.issuing).1)

end

/-- Settles O10: a mode instruction is a function of its group's registers, and each field of gmode is written under its mask. -/
theorem modeWrites : Obligations.ModeWrites := by
  unfold Obligations.ModeWrites
  refine ⟨fun s x g src a hd => ⟨fun w i h => ?mode, fun i h => ?guard, fun w i h => ?mem⟩, fun g w v u q i hi => ?bits,
    fun s x g h hd => nop_completes h hd⟩
  case mode => exact issueRegs_guarded h hd (rfl : exec _ s = execSetmode src w a i s) rfl
  case guard => exact issueRegs_completes h hd (rfl : exec _ s = execSetgrd src a i s) rfl
  case mem => exact issueRegs_guarded h hd (rfl : exec _ s = execSetmem src w a i s) rfl
  case bits => exact ⟨getLsbD_setModeFields g w v hi, getLsbD_setGuardFields g u hi, getLsbD_setMemFields g u q hi⟩

end Sys2Proof.Machine

/-! Long-latency operations (R85 to R87, R250, R251): when an operation is performed or reported, and what the answer to a REDLD ends with
(R264, R265). -/

namespace Sys2Proof.Machine

section

variable {s : State} {gid : Nat} {g : Group} {o : LongOp} (hg : Store.find s.groups gid = some g)

include hg

section

variable {n : Nat} (ho : (g.ops.find? fun o => o.serial == n) = some o)

include ho

theorem execLongLatencyComplete_held (h : (o.done || o.reported || s.held g gid o) = true) : execLongLatencyComplete gid n s = .next s := by
  simp only [execLongLatencyComplete, hg, ho, h, if_true]

theorem execLongLatencyComplete_performs (h : (o.done || o.reported || s.held g gid o) = false) (hf : o.failure = none) :
    execLongLatencyComplete gid n s = .next (s.runOp gid g o) := by
  simp only [execLongLatencyComplete, hg, ho, h, hf, Bool.false_eq_true, if_false]

/-- A fault is reported when the group waits for the operation and no earlier access of it is open (R87, R314). -/
theorem execLongLatencyComplete_reports {c : FaultCode} {addr : Nat} (h : (o.done || o.reported || s.held g gid o) = false)
    (hf : o.failure = some (c, addr)) :
    execLongLatencyComplete gid n s = .next (if g.awaits o && g.reportable o then s.reportOp gid g o c addr else s) := by
  simp only [execLongLatencyComplete, hg, ho, h, hf, Bool.false_eq_true, if_false]
  exact (apply_ite Host.Outcome.next _ _ _).symm

end

/-- The answer to a lane of a REDLD ends a pass over that lane alone: with PERMISSION where no reduction group has the address, with the value
where the switches answer, and else with REMOTE_UNREACHABLE. -/
theorem execRedldResponse_lane {s1 : State} {lane : Nat} {v : BitVec 64} {reach : Bool} {a : LaneAccess} {t : Translation}
    (ho : (g.ops.find? fun o => o.kind == .redld && !o.done && o.failure.isNone && !s.held g gid o && o.accesses.any fun a => a.lane == lane) = some o)
    (ha : (o.accesses.find? fun a => a.lane == lane) = some a)
    (ht : s.translate (s.party g.tid gid).core (s.party g.tid gid).vdev a.addr .read = .ok (t, s1)) :
    execRedldResponse gid lane v reach s = .next (s1.endPass (s.party g.tid gid) o
      (if (s1.reductionGroup (s.party g.tid gid) (t.physAddr a.addr)).isNone then { s := s1, fault := some (lane, .permission, a.addr) }
       else if reach then { s := s1, got := [(lane, bytesOf o.bytes v.toNat)] }
       else { s := s1, fault := some (lane, .remoteUnreachable, a.addr) })
      (o.accesses.filter fun b => b.lane != lane)) := by
  simp only [execRedldResponse, hg, ho, ha, ht]
  cases (s1.reductionGroup (s.party g.tid gid) (t.physAddr a.addr)).isNone <;> cases reach <;> rfl

end

/-- Settles O21: the two events by the operation that they find. When an operation is performed, and which of its accesses are then performed, is the
model's reading (logs 8 and 9). -/
theorem longLatencyResult : Obligations.LongLatencyResult := by
  unfold Obligations.LongLatencyResult
  refine ⟨fun s gid n g o hg ho => ⟨fun h => ?held, fun h hf => ?performs, fun c addr h hf => ?reports⟩,
    fun s s1 gid lane v reach g o a t hg ho ha ht => ?answer⟩
  case held => exact execLongLatencyComplete_held hg ho h
  case performs => exact execLongLatencyComplete_performs hg ho h hf
  case reports => exact execLongLatencyComplete_reports hg ho h hf
  case answer => exact execRedldResponse_lane hg ho ha ht

end Sys2Proof.Machine

/-! The extended registers (R96 to R98, R296): what XACQ answers, the grant of a queued request, and the release. -/

namespace Sys2Proof.Machine

/-! ### Instructions by what their bodies answer -/

section

variable {s t : State} {i : Instr} {x : Issue} {g : Group}

theorem flow_done {body} (h : Issues s i x g) (he : exec i s = issueFlow s i body) (hb : body (s.openIssue x) x g = .done t) :
    Moves s i x g t := he.trans (issueFlow_done h hb)

theorem issue_steps {body} (h : Issues s i x g) (he : exec i s = issue s i body) (hb : body (s.openIssue x) x g = .done t) :
    Steps s i x g t := he.trans (issue_done h hb)

theorem issue_traps {body} {p : Trap} (h : Issues s i x g) (he : exec i s = issue s i body) (hb : body (s.openIssue x) x g = .trap p) :
    Traps s i x g p := by
  rw [Traps, he, issue_trap h hb, stopWhenDone_eq]

end

/-! ### XACQ -/

/-- The number of blocks that an XACQ asks for: in a scalar register or as its immediate (R97). -/
def xacqBlocks (g : Group) (r : Bool) (a : BitVec 7) (i : BitVec 11) : Nat := if r then (g.regs.sc a.toNat).toNat else i.toNat

/-- The blocks that each group of a team may hold (R97). -/
def State.ceilBlocks (s : State) (tid : Nat) : Nat := ((Store.find s.teams tid).map (·.id.extCeil)).getD 0 / 8

/-- A bench grants a request for n blocks at the clk of its arrival (R98). -/
def Bench.grantsNow (b : Bench) (n clk : Nat) : Bool := mayGrant (b.freeAt clk) n (b.acq.head?.map (·.n))

/-- No check of R97 refuses a request of n blocks, of a group that may hold some number of them. -/
def LegalRequest (g : Group) (ceil n : Nat) : Prop := 1 ≤ n ∧ n ≤ 11 ∧ n ≤ ceil ∧ g.regs.ext = 0

theorem blocksInRange_iff {n : Nat} : ¬ (n = 0 ∨ 11 < n) ↔ 1 ≤ n ∧ n ≤ 11 := by omega

theorem LegalRequest.inRange {g : Group} {ceil n : Nat} (hl : LegalRequest g ceil n) : ¬ (n = 0 ∨ 11 < n) := by
  obtain ⟨hlo, hhi, -, -⟩ := hl
  exact blocksInRange_iff.mpr ⟨hlo, hhi⟩

theorem LegalRequest.extensible {g : Group} {ceil n : Nat} (hl : LegalRequest g ceil n) : ¬ (ceil < n ∨ g.regs.ext ≠ 0) := by
  obtain ⟨-, -, hceil, hext⟩ := hl
  exact not_or.mpr ⟨Nat.not_lt.mpr hceil, not_not.mpr hext⟩

section

variable {s : State} {x : Issue} {g : Group} {r : Bool} {a : BitVec 7} {i : BitVec 11} (h : Issues s (.xacq r a i) x g)

include h

theorem xacq_out_of_range (hn : ¬ (1 ≤ xacqBlocks g r a i ∧ xacqBlocks g r a i ≤ 11)) : Traps s (.xacq r a i) x g (x.trap .illegalOperand) :=
  flow_traps h (by change execXacq r a i s = _; unfold execXacq; rfl) (if_pos (not_not.mp (mt blocksInRange_iff.mp hn)))

theorem xacq_not_extensible (hn : 1 ≤ xacqBlocks g r a i ∧ xacqBlocks g r a i ≤ 11)
    (hx : (s.openIssue x).ceilBlocks x.tid < xacqBlocks g r a i ∨ g.regs.ext ≠ 0) : Traps s (.xacq r a i) x g (x.trap .extensionFault) :=
  flow_traps h (by change execXacq r a i s = _; unfold execXacq; rfl) ((if_neg (blocksInRange_iff.mpr hn)).trans (if_pos hx))

variable (hl : LegalRequest g ((s.openIssue x).ceilBlocks x.tid) (xacqBlocks g r a i))

include hl

theorem xacq_granted (hgrant : ((s.openIssue x).bench (x.gid / 8)).grantsNow (xacqBlocks g r a i) x.clk = true) :
    Moves s (.xacq r a i) x g (((((s.openIssue x).modBench (x.gid / 8) fun b => b.grant (xacqBlocks g r a i) x.clk).modRegs x.gid
      fun y => y.granted (xacqBlocks g r a i)).advance x (.xacq r a i)).departLater x) :=
  flow_done h (by change execXacq r a i s = _; unfold execXacq; rfl)
    ((if_neg hl.inRange).trans ((if_neg hl.extensible).trans (if_pos hgrant)))

theorem xacq_queued (hgrant : ((s.openIssue x).bench (x.gid / 8)).grantsNow (xacqBlocks g r a i) x.clk = false) :
    Moves s (.xacq r a i) x g (((s.openIssue x).modBench (x.gid / 8) fun b =>
      { b with acq := b.acq ++ [⟨x.gid, xacqBlocks g r a i, x.clk⟩] }).startWait x.gid .xacq) :=
  flow_done h (by change execXacq r a i s = _; unfold execXacq; rfl)
    ((if_neg hl.inRange).trans ((if_neg hl.extensible).trans (if_neg (Bool.eq_false_iff.mp hgrant))))

end

/-! ### XACQ_GRANT -/

/-- A group that waited at its XACQ and has its blocks goes on after it, 2 clk after the grant (R98). -/
def Group.afterGrant (g : Group) (n clk : Nat) : Group :=
  { g with
    regs := g.regs.granted n
    flow := g.flow.setSlot g.flow.last { g.flow.slot g.flow.last with pc := (g.flow.slot g.flow.last).pc + 4, readyAt := clk + 2 }
    time := { g.time with nextClk := clk + 2 }
    stops := { g.stops with wait := .none, waitUs := 0 } }

theorem Group.afterGrant_pc (g : Group) (n clk : Nat) :
    ((g.afterGrant n clk).flow.slot g.flow.last).pc = (g.flow.slot g.flow.last).pc + 4 :=
  congrArg PcSlot.pc (Flow.slot_setSlot_self ..)

/-- The grant of the request that is next takes its blocks from the pool and the request from the queue. -/
theorem exec_xacqGrant {s : State} {q : XacqRequest} (hq : (s.bench (q.gid / 8)).nextGrant (s.core (coreOf q.gid)).clk = some q) :
    exec (.xacqGrant q.gid) s = .next ((s.modBench (q.gid / 8) fun b =>
      { b.grant q.n (s.core (coreOf q.gid)).clk with acq := b.acq.filter fun p => p.gid != q.gid }).modGroup q.gid
        fun g => g.afterGrant q.n (s.core (coreOf q.gid)).clk) := by
  change execXacqGrant q.gid s = _
  simp only [execXacqGrant, hq, ne_eq, not_true_eq_false, if_false]
  rfl

/-! ### XREL -/

section

variable {s : State} {x : Issue} {g : Group} (h : Issues s .xrel x g)

include h

theorem xrel_holds_none (he : g.regs.ext = 0) : Traps s .xrel x g (x.trap .extensionFault) :=
  issue_traps h (by change execXrel s = _; unfold execXrel; rfl) (if_pos he)

theorem xrel_releases (he : g.regs.ext ≠ 0) : Steps s .xrel x g
    ((((s.openIssue x).modBench (x.gid / 8) fun b => b.release g.regs.ext x.clk).modRegs x.gid fun r => r.granted 0).departLater x) :=
  issue_steps h (by change execXrel s = _; unfold execXrel; rfl) (if_neg he)

end

/-- Settles O30: the ranges of XACQ in their order, the grant of the next request, and XREL. -/
theorem extendedRegisters : Obligations.ExtendedRegisters := by
  unfold Obligations.ExtendedRegisters
  refine ⟨fun s x g r a i h => ⟨fun hn => ?range, fun hlo hhi hx => ?extension, fun hl hg => ?granted, fun hl hg => ?queued⟩,
    fun s x g h => ⟨fun he => ?none, fun he => ?released⟩, fun s gid g q hg hgid hq => ?grant⟩
  case range => exact xacq_out_of_range h hn
  case extension => exact xacq_not_extensible h ⟨hlo, hhi⟩ hx
  case granted => exact xacq_granted h hl hg
  case queued => exact xacq_queued h hl hg
  case none => exact xrel_holds_none h he
  case released => exact xrel_releases h he
  case grant =>
    subst hgid
    exact ⟨_, g.afterGrant q.n (s.core (coreOf q.gid)).clk, exec_xacqGrant hq, by simp [hg], rfl, g.afterGrant_pc .., rfl, by simp, by simp,
      fun k hk => State.modGroup_find_ne _ _ _ hk⟩

end Sys2Proof.Machine

/-! What ends a wait: the register-wait deadlock of a team (R99, R100) and the watchdog (R321); and the guard of a group (R285). -/

namespace Sys2Proof.Machine

variable {s : State}

theorem exec_registerWaitDeadlock {tid : Nat} {t : Team} (ht : Store.find s.teams tid = some t) (hd : 1024 ≤ t.sync.deadlockTimer) :
    exec (.registerWaitDeadlock tid) s = .next (((s.groupsOf tid).filter fun kv => kv.2.stops.wait == .xacq).foldl
      (fun s kv => s.takeFault kv.1 (kv.2.waitTrap .registerWaitDeadlock)) (s.modSync tid fun y => { y with deadlockTimer := 0 })) := by
  change execRegisterWaitDeadlock tid s = _
  simp only [execRegisterWaitDeadlock, ht, Nat.not_lt.mpr hd, if_false]

section

variable {gid : Nat} {g : Group} (hg : Store.find s.groups gid = some g)

include hg

theorem exec_watchdogExpiry : exec (.watchdogExpiry gid) s =
    .next (if s.overdue g then s.takeFault gid (g.waitTrap .waitTimeout) else s) := by
  change execWatchdogExpiry gid s = _
  simp only [execWatchdogExpiry, hg]
  exact (apply_ite Host.Outcome.next _ _ _).symm

theorem exec_groupGuarded (hr : g.time.readySince + 32 ≤ (s.core (coreOf gid)).clk) (hx : g.flow.exited = false) :
    exec (.groupGuarded gid) s = .next (s.modGroup gid fun g => { g with time := { g.time with guarded := true } }) := by
  change execGroupGuarded gid s = _
  simp only [execGroupGuarded, hg, hr, hx, decide_true, Bool.not_false, Bool.and_self, if_true]

end

/-- Settles O31: each event by the team or the group that it finds. What counts as a stuck wait at a barrier is the model's reading (log 21). -/
theorem waitEvents : Obligations.WaitEvents := by
  unfold Obligations.WaitEvents
  refine ⟨fun s tid t ht hd => ?deadlock, fun s gid g hg => ⟨fun ho => ?expired, fun ho => ?early⟩, fun s gid g hg hr hx => ?guard⟩
  case deadlock => exact exec_registerWaitDeadlock ht hd
  case expired => rw [exec_watchdogExpiry hg, if_pos ho]
  case early => rw [exec_watchdogExpiry hg, if_neg (Bool.eq_false_iff.mp ho)]
  case guard => exact ⟨_, _, exec_groupGuarded hg hr hx, Apart.modGroup .., by simp [hg], rfl⟩

end Sys2Proof.Machine

/-! Branches, indirect jumps and calls (R70, R116 to R119): what moves the issuing slot, and how the lanes of RET and JMPR diverge. -/

namespace Sys2Proof.Machine

variable {s : State} {i : Instr} {x : Issue} {g : Group}

/-! ### BRA, BRU and CALL -/

/-- The registers of a group after CALL: v30 and v31 hold the return address in every lane of the slot mask (R118). -/
def callRegs (g : Group) (x : Issue) : Regs :=
  (g.regs.setVec x.mask x.ready 30 (lanesBy fun _ => (x.pc + 4).extractLsb' 0 32)).setVec x.mask x.ready 31
    (lanesBy fun _ => ((x.pc + 4).extractLsb' 32 24).zeroExtend 32)

section

variable {j : BitVec 22} (hd : Undisturbed s g) (hm : x.mask ≠ 0)
include hd hm

theorem bra_completes (h : Issues s (.bra j) x g) :
    CompletesAs s (.bra j) x g g.regs ((g.flow.setSlot x.slot (movedTo x 0 (branchTarget x.pc j) x.mask)).settle x.clk) :=
  moveSlot_completes h hd hm (rfl : exec _ s = execBra j s) rfl

theorem bru_completes {c : BruCond} (h : Issues s (.bru c j) x g) : CompletesAs s (.bru c j) x g g.regs
    ((g.flow.setSlot x.slot (movedTo x 0 (if bruHolds c g.regs.scc then branchTarget x.pc j else x.pc + 4) x.mask)).settle x.clk) :=
  moveSlot_completes h hd hm (rfl : exec _ s = execBru c j s) rfl

/-- CALL writes the registers of its group before it moves the slot whole (R118). -/
theorem call_completes (h : Issues s (.call j) x g) : CompletesAs s (.call j) x g (callRegs g x)
    ((g.flow.setSlot x.slot (movedTo x 0 (branchTarget x.pc j) x.mask)).settle x.clk) :=
  flowDone_completes (n := x.slot) (g1 := { g with regs := callRegs g x, ops := stepWindows g.ops }) h hd
    (rfl : exec _ s = execCall j s) rfl (Apart.modGroup _ _ _)
    (by rw [State.modRegs, State.modGroup_find_self, openIssue_find (issuing_group h.issuing).1]; rfl) rfl rfl rfl rfl
    (by rw [Flow.slot_setSlot_self]; exact movedTo_free x 0 _ hm)

end

/-- Settles O12: each of the three moves its slot whole, to the target or, for BRU, by its condition. -/
theorem branchResult : Obligations.BranchResult := by
  unfold Obligations.BranchResult
  intro s x g j hd hm target goes
  exact ⟨fun h => bra_completes hd hm h, fun c h => bru_completes hd hm h, fun h => call_completes hd hm h⟩

/-! ### RET and JMPR -/

/-- The target that a lane of RET or JMPR reads (R119). -/
def jumpTarget (g : Group) (a : BitVec 7) (l : Nat) : VA := BitVec.ofNat 56 (g.regs.vecAddr a.toNat l)

/-- What a jump to more than two targets pushes: the other slot when it is live, and above it the lanes of the targets past the second, the
highest lowest (R119). -/
def jumpPushes (g : Group) (x : Issue) (more : List (VA × Mask)) : List StackEntry :=
  pathOf (g.flow.slot (1 - x.slot)) ++ more.reverse.map fun u => .path u.1 u.2

theorem jumpPushes_length (g : Group) (x : Issue) (more : List (VA × Mask)) :
    (jumpPushes g x more).length = (pathOf (g.flow.slot (1 - x.slot))).length + more.length := by simp [jumpPushes]

theorem jumpPushes_reverse (g : Group) (x : Issue) (more : List (VA × Mask)) :
    (jumpPushes g x more).reverse = (more.map fun u => .path u.1 u.2) ++ pathOf (g.flow.slot (1 - x.slot)) := by
  simp [jumpPushes, pathOf_reverse]

/-- The slots and the stack that a jump to several targets makes: the lowest goes on in the issuing slot, and the next in the other one. -/
def jumpFlow (g : Group) (x : Issue) (u1 u2 : VA × Mask) (more : List (VA × Mask)) : Flow :=
  let c := spillClks g.flow.stack.length (jumpPushes g x more).length
  ({ g.flow with stack := (jumpPushes g x more).reverse ++ g.flow.stack }.setSlot x.slot (movedTo x c u1.1 u1.2)).setSlot (1 - x.slot)
    (movedTo x c u2.1 u2.2)

theorem jump_aligned {a : BitVec 7} (hl : ∀ l ∈ lanesIn x.mask, (jumpTarget g a l).toNat % 4 = 0) :
    ¬ ((lanesIn x.mask).any fun l => (jumpTarget g a l).toNat % 4 != 0) = true := by simpa using hl

section

variable {a : BitVec 7} (h : Issues s i x g) (he : exec i s = indirectJump s i a)
include h he

theorem jump_misaligned (hl : ∃ l ∈ lanesIn x.mask, (jumpTarget g a l).toNat % 4 ≠ 0) : Traps s i x g (x.trap .misaligned) := by
  have hany : ((lanesIn x.mask).any fun l => (jumpTarget g a l).toNat % 4 != 0) = true := by simpa using hl
  exact flow_traps h he (if_pos hany)

variable (hl : ∀ l ∈ lanesIn x.mask, (jumpTarget g a l).toNat % 4 = 0)
include hl

/-- With one target for all the slot moves whole. -/
theorem jump_whole (hd : Undisturbed s g) (hm : x.mask ≠ 0) {u : VA × Mask} (ht : byTarget x.mask (jumpTarget g a) = [u]) :
    CompletesAs s i x g g.regs ((g.flow.setSlot x.slot (movedTo x 0 u.1 x.mask)).settle x.clk) :=
  moveSlot_completes h hd hm he ((if_neg (jump_aligned hl)).trans (by unfold jumpTarget at ht; rw [ht]))

variable {u1 u2 : VA × Mask} {more : List (VA × Mask)} (ht : byTarget x.mask (jumpTarget g a) = u1 :: u2 :: more)
include ht

theorem jump_overflows (hfull : 32 < g.flow.stack.length + (jumpPushes g x more).length) : Traps s i x g (x.trap .joinStackOverflow) :=
  flow_traps h he ((if_neg (jump_aligned hl)).trans (by
    have hpush := pushAll_overflows hfull
    unfold jumpTarget at ht
    unfold jumpPushes at hpush
    simp only [ht, hpush]))

/-- With several targets the lanes diverge: both slots go on. -/
theorem jump_diverges (hd : Undisturbed s g) (hroom : g.flow.stack.length + (jumpPushes g x more).length ≤ 32) (h1 : u1.2 ≠ 0) (h2 : u2.2 ≠ 0) :
    CompletesAs s i x g g.regs (jumpFlow g x u1 u2 more) := by
  have hown : (jumpFlow g x u1 u2 more).slot x.slot = _ := (Flow.slot_setSlot_of_other _ _ _).trans (Flow.slot_setSlot_self _ _ _)
  have hother : (jumpFlow g x u1 u2 more).slot (1 - x.slot) = _ := Flow.slot_setSlot_self _ _ _
  have hcomplete := flow_completes (n := x.slot) (f := jumpFlow g x u1 u2 more) h hd he
    ((if_neg (jump_aligned hl)).trans (by
      have hpush := pushAll_fits hroom
      unfold jumpTarget at ht
      unfold jumpFlow jumpPushes at *
      simp only [ht, hpush]))
    (by rw [hown]; exact movedTo_free x _ _ h1)
  obtain ⟨hs0, hs1⟩ := Flow.forall_slot (p := fun o => o.live = true) (f := jumpFlow g x u1 u2 more) (n := x.slot)
    (by rw [hown]; exact live_of_mask h1) (by rw [hother]; exact live_of_mask h2)
  rwa [Flow.settle_of_live hs0 hs1] at hcomplete

end

/-- RET and JMPR have the same meaning (R119). -/
theorem exec_indirect {a : BitVec 7} (hi : i ∈ [Instr.ret a, Instr.jmpr a]) : exec i s = indirectJump s i a := by
  simp only [List.mem_cons, List.not_mem_nil, or_false] at hi
  obtain rfl | rfl := hi
  · rfl
  · rfl

/-- Settles O15: RET and JMPR misaligned, whole, overflowing and diverging. -/
theorem indirectJumpResult : Obligations.IndirectJumpResult := by
  unfold Obligations.IndirectJumpResult
  intro s x g a hd hm i hi h t o path slot
  have he : exec i s = indirectJump s i a := exec_indirect hi
  refine ⟨fun hl => jump_misaligned h he hl, fun hl => ⟨fun u ht => jump_whole (u := u) h he hl hd hm ht, fun u1 u2 more ht => ?_⟩⟩
  have hlength : g.flow.stack.length + path.length + more.length = g.flow.stack.length + (jumpPushes g x more).length := by
    rw [jumpPushes_length, ← Nat.add_assoc]
    rfl
  rw [hlength]
  refine ⟨fun hfull => jump_overflows h he hl ht hfull, fun hroom h1 h2 => ⟨spillClks g.flow.stack.length (jumpPushes g x more).length, ?_⟩⟩
  have hcomplete := jump_diverges h he hl ht hd hroom h1 h2
  rwa [jumpFlow, jumpPushes_reverse] at hcomplete

end Sys2Proof.Machine

/-! Traps, yields and flashback points (R126, R128 to R130, R323): an instruction that stops its group counts as one that issues, and one that
issues may change the slots and the stack without branching. -/

namespace Sys2Proof.Machine

variable {s s1 : State} {i : Instr} {x : Issue} {g : Group} {r : Regs} {f : Flow}

/-- An instruction of which the effect is on its group's registers, slots and stack completes with those that it makes. -/
theorem group_completes {body} (h : Issues s i x g) (hd : Undisturbed s g) (he : exec i s = issueFlow s i body)
    (hb : body (s.openIssue x) x g = .done s1) (ap : Apart (s.openIssue x) s1 x.gid)
    (hk : Store.find s1.groups x.gid = some { g with regs := r, flow := f, ops := stepWindows g.ops }) : CompletesAs s i x g r f :=
  have hgroup := issuing_group h.issuing
  ⟨_, he.trans (issueFlow_done h hb), commit_writes hgroup.1 hgroup.2.1 hd ((Apart.modGroup _ _ _).trans ap) hk rfl rfl rfl⟩

/-- An instruction that changes nothing but its group's slots and stack, and steps. -/
theorem stepped_completes {body} {c : Flow → Flow} (h : Issues s i x g) (hd : Undisturbed s g) (he : exec i s = issueFlow s i body)
    (hb : body (s.openIssue x) x g = .done (((s.openIssue x).modFlow x.gid c).advance x i)) :
    CompletesAs s i x g g.regs ((c g.flow).stepped x i) :=
  group_completes h hd he hb ((Apart.modGroup _ _ _).trans (Apart.modGroup _ _ _))
    (by simp [State.advance, State.modFlow, openIssue_find (issuing_group h.issuing).1, Flow.stepped])

/-- An instruction that stops its group counts as one that issues, and waits for the operations of the group's windows (R128, R129, R316). -/
theorem stop_traps {t : Trap} {body} (h : Issues s i x g) (he : exec i s = issueFlow s i body)
    (hb : body (s.openIssue x) x g = .stop (s.openIssue x) t) : IssuesAndTraps s i x g t := by
  rw [IssuesAndTraps, he, issueFlow_stop h hb, stopWhenDone_eq]

/-! ### TRAP, BKPT and YIELD -/

/-- The windows that an issue counts are the group's own: no debugger comes or goes. -/
theorem openIssue_debugged (s : State) (x : Issue) : (s.openIssue x).debugged = s.debugged := by
  funext tid
  simp only [State.debugged, State.openIssue, State.modOps, State.modGroup_teams, State.modGroup_vdevs]

theorem trap_stops {k : BitVec 11} (h : Issues s (.trap k) x g) :
    IssuesAndTraps s (.trap k) x g { x.trap .softwareTrap with aux2 := k.zeroExtend 32 } :=
  stop_traps h (rfl : exec _ s = execTrap k s) rfl

section

variable {k : BitVec 11} (h : Issues s (.bkpt k) x g)
include h

/-- BKPT is a NOP where no debugger is attached (R129). -/
theorem bkpt_completes (hd : Undisturbed s g) : Completes s (.bkpt k) x g g.regs :=
  issue_completes h hd (rfl : exec _ s = execBkpt k s) (by simp [openIssue_debugged, hd.none]) (Apart.refl _ _)
    (openIssue_find (issuing_group h.issuing).1)

theorem bkpt_stops (ha : s.debugged g.tid = true) :
    IssuesAndTraps s (.bkpt k) x g { x.trap .breakpoint with aux2 := k.zeroExtend 32, spread := true } :=
  stop_traps h (by change execBkpt k s = _; unfold execBkpt issue; rfl) (by simp [openIssue_debugged, ha])

end

theorem yield_completes {k : BitVec 11} (h : Issues s (.yield k) x g) (hd : Undisturbed s g) :
    CompletesAs s (.yield k) x g g.regs ({ g.flow with yieldEnd := x.clk + k.toNat }.stepped x (.yield k)) :=
  stepped_completes (c := fun f => { f with yieldEnd := x.clk + k.toNat }) h hd
    (by change execYield k s = _; unfold execYield issue; rfl) rfl

/-- The group after the end of its count: it has been ready since then. -/
def Group.afterYield (g : Group) : Group :=
  { g with flow := { g.flow with yieldEnd := 0 }, time := { g.time with readySince := max g.time.readySince g.flow.yieldEnd } }

theorem exec_yieldCountExpiry {gid : Nat} (hg : Store.find s.groups gid = some g) (h0 : g.flow.yieldEnd ≠ 0)
    (hend : g.flow.yieldEnd ≤ (s.core (coreOf gid)).clk) : exec (.yieldCountExpiry gid) s = .next (s.modGroup gid Group.afterYield) := by
  change execYieldCountExpiry gid s = _
  simp only [execYieldCountExpiry, hg]
  exact if_pos ⟨h0, hend⟩

/-- Settles O17: each instruction by its outcome, and the end of a count. That a stop waits for the open windows of its group, and that BKPT spreads
by the debugger's stop policy, is the model's reading (logs 25 and 34). -/
theorem trapAndYieldResult : Obligations.TrapAndYieldResult := by
  unfold Obligations.TrapAndYieldResult
  refine ⟨fun s x g k => ⟨fun h => trap_stops h, fun h hd => bkpt_completes h hd, fun h ha => bkpt_stops h ha⟩,
    fun s x g k hd h => yield_completes h hd, fun s gid g hg h0 hend => ?expiry⟩
  case expiry => exact ⟨_, g.afterYield, exec_yieldCountExpiry hg h0 hend, Apart.modGroup .., by simp [hg], rfl, rfl, rfl, rfl, rfl⟩

/-! ### FLASHPT -/

/-- The flashback point that FLASHPT makes of a group (R126). -/
def flashPointOf (g : Group) (x : Issue) (k : BitVec 11) : FlashPoint :=
  { pc := x.pc, recipe := k.toNat, s0 := g.flow.s0, s1 := g.flow.s1, stack := g.flow.stack, gmode := g.regs.gmode, scc := g.regs.scc,
    k0 := g.regs.k0, k1 := g.regs.k1, serial := g.issued }

section

variable {k : BitVec 11} (h : Issues s (.flashpt k) x g) (hd : Undisturbed s g)
include h hd

/-- Inside a regrouped region FLASHPT is a NOP (R126). -/
theorem flashpt_region (hn : g.flow.recipe = none) (hr : g.flow.region = true) : Completes s (.flashpt k) x g g.regs :=
  group_completes h hd (rfl : exec _ s = execFlashpt k s) (by simp only [hn, hr, if_true]; rfl) (Apart.modGroup _ _ _)
    (by simp [openIssue_find (issuing_group h.issuing).1, Flow.stepped])

theorem flashpt_keeps (hn : g.flow.recipe = none) (hr : g.flow.region = false) :
    CompletesAs s (.flashpt k) x g g.regs ({ g.flow with flash := some (flashPointOf g x k), unrew := false }.stepped x (.flashpt k)) :=
  stepped_completes (c := fun f => { f with flash := some (flashPointOf g x k), unrew := false }) h hd
    (rfl : exec _ s = execFlashpt k s) (by simp only [hn, hr, Bool.false_eq_true, if_false]; rfl)

/-- In recipe mode FLASHPT goes back to the point (R323). -/
theorem flashpt_ends_recipe {p : FlashPoint} (hp : g.flow.recipe = some ⟨p⟩) :
    CompletesAs s (.flashpt k) x g { g.regs.dropBrine with gmode := p.gmode, scc := p.scc }
      { g.flow with s0 := { p.s0 with readyAt := x.clk + 1 }, s1 := { p.s1 with readyAt := x.clk + 1 }, stack := p.stack, recipe := none } :=
  group_completes h hd (rfl : exec _ s = execFlashpt k s) (by simp only [hp]; rfl) (Apart.modGroup _ _ _)
    (by simp [openIssue_find (issuing_group h.issuing).1])

end

/-- Settles O18: FLASHPT inside a region, outside of one, and in recipe mode. -/
theorem flashbackPoint : Obligations.FlashbackPoint := by
  unfold Obligations.FlashbackPoint
  intro s x g k hd h
  exact ⟨fun hn hr => flashpt_region h hd hn hr, fun hn hr => flashpt_keeps h hd hn hr, fun p hp => flashpt_ends_recipe h hd hp⟩

end Sys2Proof.Machine

/-! The scalar ALU (R131 to R137): each result on machine words is the manual's on integers. -/

namespace Sys2Proof.Machine

/-! ### Results of the scalar ALU (R133) -/

theorem scalarAdd_eq : scalarAdd = fun x y => BitVec.ofInt 32 (x.toInt + y.toInt) := by
  funext x y; rw [scalarAdd, BitVec.ofInt_add, BitVec.ofInt_toInt, BitVec.ofInt_toInt]

theorem scalarSub_eq : scalarSub = fun x y => BitVec.ofInt 32 (x.toInt - y.toInt) := by
  funext x y; rw [scalarSub, Int.sub_eq_add_neg, BitVec.ofInt_add, BitVec.ofInt_neg, BitVec.ofInt_toInt, BitVec.ofInt_toInt, BitVec.sub_eq_add_neg]

theorem scalarMul_eq : scalarMul = fun x y => BitVec.ofNat 32 (x.toNat * y.toNat) := by
  funext x y; rw [scalarMul, BitVec.ofNat_mul, BitVec.ofNat_toNat, BitVec.ofNat_toNat, BitVec.setWidth_eq, BitVec.setWidth_eq]

theorem scalarShl_eq : scalarShl = fun x y => BitVec.ofNat 32 (x.toNat * 2 ^ y.toNat) := by
  funext x y; rw [scalarShl]; apply BitVec.eq_of_toNat_eq; rw [BitVec.toNat_shiftLeft, Nat.shiftLeft_eq, BitVec.toNat_ofNat]

theorem scalarShr_eq : scalarShr = fun x y => BitVec.ofNat 32 (x.toNat / 2 ^ y.toNat) := by
  funext x y; rw [scalarShr]; apply BitVec.eq_of_toNat_eq
  rw [BitVec.toNat_ushiftRight, Nat.shiftRight_eq_div_pow, BitVec.toNat_ofNat, Nat.mod_eq_of_lt (Nat.lt_of_le_of_lt (Nat.div_le_self ..) x.isLt)]

theorem scalarSra_eq : scalarSra = fun x y => BitVec.ofInt 32 (x.toInt / 2 ^ y.toNat) := by
  funext x y; rw [scalarSra, BitVec.sshiftRight, Int.shiftRight_eq_div_pow]; rfl

theorem scalarMin_eq : scalarMin = fun x y => BitVec.ofInt 32 (min x.toInt y.toInt) := by
  funext x y
  simp only [scalarMin, BitVec.slt_iff_toInt_lt]
  split
  next h => rw [min_eq_right h.le, BitVec.ofInt_toInt]
  next h => rw [min_eq_left (not_lt.mp h), BitVec.ofInt_toInt]

theorem scalarMax_eq : scalarMax = fun x y => BitVec.ofInt 32 (max x.toInt y.toInt) := by
  funext x y
  simp only [scalarMax, BitVec.slt_iff_toInt_lt]
  split
  next h => rw [max_eq_right h.le, BitVec.ofInt_toInt]
  next h => rw [max_eq_left (not_lt.mp h), BitVec.ofInt_toInt]

theorem scalarMinn_eq : scalarMinn = fun x y => BitVec.ofNat 32 (min x.toNat y.toNat) := by
  funext x y
  simp only [scalarMinn, BitVec.ult_iff_toNat_lt]
  split
  next h => rw [min_eq_right h.le, BitVec.ofNat_toNat, BitVec.setWidth_eq]
  next h => rw [min_eq_left (not_lt.mp h), BitVec.ofNat_toNat, BitVec.setWidth_eq]

theorem scalarMaxn_eq : scalarMaxn = fun x y => BitVec.ofNat 32 (max x.toNat y.toNat) := by
  funext x y
  simp only [scalarMaxn, BitVec.ult_iff_toNat_lt]
  split
  next h => rw [max_eq_right h.le, BitVec.ofNat_toNat, BitVec.setWidth_eq]
  next h => rw [max_eq_left (not_lt.mp h), BitVec.ofNat_toNat, BitVec.setWidth_eq]

/-- Each row of the scalar ALU is the meaning of its instruction (R133). -/
theorem exec_scalarAlu : ∀ op ∈ scalarAluTable, ∀ (s : State) (d a b : BitVec 7),
    exec (op.1 d a b) s = issueRegs s (op.1 d a b) fun _ r => .ok (r.scalarAlu op.2 d a b) := by
  rw [scalarAluTable, ← scalarAdd_eq, ← scalarSub_eq, ← scalarMul_eq, ← scalarShl_eq, ← scalarShr_eq, ← scalarSra_eq, ← scalarMin_eq,
    ← scalarMax_eq, ← scalarMinn_eq, ← scalarMaxn_eq]
  simp only [List.forall_mem_cons, List.not_mem_nil, IsEmpty.forall_iff, implies_true, and_true]
  and_intros
  all_goals exact fun _ _ _ _ => rfl

/-- Settles O1: each instruction by its row of the table. -/
theorem scalarAluResult : Obligations.ScalarAluResult := by
  unfold Obligations.ScalarAluResult
  intro op hop s x g d a b h hd
  exact issueRegs_completes h hd (exec_scalarAlu op hop s d a b) rfl

/-! ### SCMP (R136) -/

/-- SCMP's SEL is its condition on the values of the words, signed or unsigned. -/
theorem scmpHolds_eq (c : ScmpCond) (p q : Word) : scmpHolds c p q = match c with
    | .eq => decide (p = q)
    | .ne => decide (p ≠ q)
    | .lt => decide (p.toInt < q.toInt)
    | .ge => decide (q.toInt ≤ p.toInt)
    | .le => decide (p.toInt ≤ q.toInt)
    | .gt => decide (q.toInt < p.toInt)
    | .ltu => decide (p.toNat < q.toNat)
    | .geu => decide (q.toNat ≤ p.toNat)
    | .leu => decide (p.toNat ≤ q.toNat)
    | .gtu => decide (q.toNat < p.toNat) := by
  cases c
  case eq => exact beq_eq_decide p q
  case ne => rw [scmpHolds, bne, beq_eq_decide, decide_not]
  case lt | gt => exact BitVec.slt_eq_decide
  case ge | le => simp only [scmpHolds, BitVec.slt_eq_decide, ← decide_not, not_lt]
  case ltu | gtu => rfl
  case geu | leu => simp only [scmpHolds, BitVec.ult_eq_decide, ← decide_not, not_lt]

/-- The four bits that SCMP writes (R94, R136). -/
theorem getLsbD_sccOf (c : ScmpCond) (p q : Word) : (sccOf c p q).getLsbD 2 = (p == q) ∧ (sccOf c p q).getLsbD 1 = p.slt q ∧
    (sccOf c p q).getLsbD 0 = p.ult q ∧ (sccOf c p q).getLsbD 3 = scmpHolds c p q := by
  have hbits : ∀ sel eq lts ltu : Bool, let f := BitVec.ofBool sel ++ BitVec.ofBool eq ++ BitVec.ofBool lts ++ BitVec.ofBool ltu
      f.getLsbD 2 = eq ∧ f.getLsbD 1 = lts ∧ f.getLsbD 0 = ltu ∧ f.getLsbD 3 = sel := by decide
  exact hbits _ _ _ _

/-- Settles O2: the immediates, LIT and SSEL as functions of the group's registers, and SCMP bit by bit. -/
theorem scalarMoveResult : Obligations.ScalarMoveResult := by
  unfold Obligations.ScalarMoveResult
  refine ⟨fun s x g d a b i w hd => ⟨fun h => ?saddi, fun h => ?sandi, fun h => ?sori, fun h => ?lit, fun h => ?ssel⟩,
    fun s x g a b c h hd => ⟨sccOf c (g.regs.sc a.toNat) (g.regs.sc b.toNat), ?scmp, ?bits⟩⟩
  case saddi =>
    refine issueRegs_completes h hd (rfl : exec _ s = execSaddi d a i s) ?_
    rw [BitVec.ofInt_add, BitVec.ofInt_toInt]
    rfl
  case sandi => exact issueRegs_completes h hd (rfl : exec _ s = execSandi d a i s) rfl
  case sori => exact issueRegs_completes h hd (rfl : exec _ s = execSori d a i s) rfl
  case lit => exact issueRegs_completes h hd (rfl : exec _ s = execLit d w s) rfl
  case ssel => exact issueRegs_completes h hd (rfl : exec _ s = execSsel d a b s) rfl
  case scmp => exact issueRegs_completes h hd (rfl : exec _ s = execScmp a b c s) rfl
  case bits =>
    obtain ⟨heq, hlts, hltu, hsel⟩ := getLsbD_sccOf c (g.regs.sc a.toNat) (g.regs.sc b.toNat)
    exact ⟨heq.trans (beq_eq_decide ..), hlts.trans BitVec.slt_eq_decide, hltu, hsel.trans (scmpHolds_eq c _ _)⟩

end Sys2Proof.Machine

/-! The other vector integer instructions (R143, R145 to R151): one operand and immediates, comparison, bits, fields and moves. -/

namespace Sys2Proof.Machine

variable {s : State} {i : Instr} {x : Issue} {g : Group}

/-- Each one-operand operation of the vector ALU is vecAlu with its row's result (R143). -/
theorem exec_vectorAluOne : ∀ op ∈ vectorAluOneTable, ∀ (s : State) (d a : BitVec 7), exec (op.1 d a) s =
    issueRegs s (op.1 d a) fun x r => .ok (r.vecAlu x (fun h e _ => op.2 h e) d (r.vec a.toNat) zeroLanes) := by
  simp only [vectorAluOneTable, List.forall_mem_cons, List.not_mem_nil, IsEmpty.forall_iff, implies_true, and_true]
  and_intros
  all_goals exact fun _ _ _ => rfl

/-- Settles O5: the one-operand forms by their row, IMAD and the immediate forms as functions of the group's registers. -/
theorem vectorAluOtherResult : Obligations.VectorAluOtherResult := by
  unfold Obligations.VectorAluOtherResult
  refine ⟨fun op hop s x g d a h hd => issueRegs_completes h hd (exec_vectorAluOne op hop s d a) rfl,
    fun s x g d a b i hd => ⟨fun h => ?imad, fun h => ?iaddi, fun h => ?ishli, fun h => ?ishri⟩⟩
  case imad => exact issueRegs_completes h hd (rfl : exec _ s = execImad d a b s) rfl
  case iaddi => exact issueRegs_completes h hd (rfl : exec _ s = execIaddi d a i s) rfl
  case ishli => exact issueRegs_completes h hd (rfl : exec _ s = execIshli d a i s) rfl
  case ishri => exact issueRegs_completes h hd (rfl : exec _ s = execIshri d a i s) rfl

/-! ### Words as integers -/

/-- A word read as an element of 32 bits has its own signed or unsigned value (R44). -/
theorem readInt_word (sgn : Bool) (w : Word) : Num.readInt sgn 32 w.toNat = if sgn then w.toInt else w.toNat := by
  have hlt := w.isLt
  rw [Num.readInt, Nat.mod_eq_of_lt hlt, BitVec.toInt_eq_toNat_cond]
  cases sgn
  case false => rfl
  case true =>
    by_cases h : 2 ^ 31 ≤ w.toNat
    · rw [if_pos (by simpa using h), if_pos rfl, if_neg (by omega)]; rfl
    · rw [if_neg (by simpa using h), if_pos rfl, if_pos (by omega)]

/-- LEA's sum is that of the unsigned values (R151). -/
theorem add_shiftLeft_eq (a b : Word) (k : Nat) : a + b <<< k = BitVec.ofNat 32 (a.toNat + b.toNat * 2 ^ k) := by
  apply BitVec.eq_of_toNat_eq
  rw [BitVec.toNat_add, BitVec.toNat_shiftLeft, BitVec.toNat_ofNat, Nat.shiftLeft_eq, Nat.add_mod_mod]

/-! ### Bit counts (R149) -/

theorem leastOf_eq_min? (l : List Nat) : leastOf l = l.min? := by
  induction l with
  | nil => rfl
  | cons x rest ih =>
    rw [leastOf, ih, List.min?_cons]
    cases rest.min? <;> rfl

/-- The highest 1 bit stands below the 0 bits that CLZ counts. -/
theorem clzCount_spec {a : Word} (ha : a ≠ 0) :
    clzCount a < 32 ∧ a.getLsbD (31 - clzCount a) = true ∧ ∀ i, 31 - clzCount a < i → a.getLsbD i = false := by
  have hn : a.toNat ≠ 0 := fun h => ha (BitVec.eq_of_toNat_eq h)
  have hlog : Nat.log2 a.toNat < 32 := (Nat.log2_lt hn).mpr a.isLt
  have hpos : 31 - clzCount a = Nat.log2 a.toNat := by rw [clzCount, if_neg ha]; omega
  rw [hpos]
  refine ⟨by rw [clzCount, if_neg ha]; omega, Nat.testBit_log2 hn, fun i hi => Nat.testBit_lt_two_pow ?_⟩
  exact (Nat.log2_lt hn).mp hi

/-- The lowest 1 bit stands above the 0 bits that CTZ counts. -/
theorem ctzCount_spec {a : Word} (ha : a ≠ 0) :
    ctzCount a < 32 ∧ a.getLsbD (ctzCount a) = true ∧ ∀ i, i < ctzCount a → a.getLsbD i = false := by
  obtain ⟨-, hbit, -⟩ := clzCount_spec ha
  have hmem : ∀ {i}, i ∈ (upTo 32).filter (fun i => a.getLsbD i) ↔ i < 32 ∧ a.getLsbD i = true := by simp [upTo]
  obtain ⟨m, hm⟩ : ∃ m, leastOf ((upTo 32).filter fun i => a.getLsbD i) = some m := by
    rw [leastOf_eq_min?, ← Option.isSome_iff_exists, List.isSome_min?_iff]
    exact List.ne_nil_of_mem (hmem.mpr ⟨by omega, hbit⟩)
  have hcount : ctzCount a = m := by rw [ctzCount, hm, Option.getD_some]
  rw [leastOf_eq_min?, List.min?_eq_some_iff] at hm
  obtain ⟨hin, hleast⟩ := hm
  obtain ⟨hlt, hset⟩ := hmem.mp hin
  rw [hcount]
  refine ⟨hlt, hset, fun i hi => ?_⟩
  by_contra hne
  exact absurd (hleast i (hmem.mpr ⟨hi.trans hlt, by simpa using hne⟩)) (Nat.not_le.mpr hi)

/-! ### Bit fields (R150) -/

/-- The position and the length of a field are bytes 0 and 1 of its word, held inside the word. -/
theorem fieldOf_eq (b : Word) :
    fieldOf b = (min (b.toNat % 256) 32, min (b.toNat / 256 % 256) (32 - min (b.toNat % 256) 32)) := by
  simp only [fieldOf, BitVec.extractLsb'_toNat, Nat.shiftRight_eq_div_pow, Nat.reducePow, Nat.div_one]

theorem bitFieldExtract_eq (sg : Bool) (a b : Word) {pos len : Nat} (h : fieldOf b = (pos, len)) : bitFieldExtract sg a b =
    let f := a.toNat / 2 ^ pos % 2 ^ len
    if len = 0 then 0 else if sg ∧ 2 ^ (len - 1) ≤ f then BitVec.ofInt 32 ((f : Int) - 2 ^ len) else BitVec.ofNat 32 f := by
  simp only [bitFieldExtract, h, Num.readInt, Nat.mod_mod, Bool.and_eq_true, decide_eq_true_eq, apply_ite (BitVec.ofInt 32), BitVec.ofInt_natCast]

theorem bitFieldInsert_eq (d a b : Word) {pos len : Nat} (h : fieldOf b = (pos, len)) : bitFieldInsert d a b =
    (d &&& ~~~BitVec.ofNat 32 ((2 ^ len - 1) * 2 ^ pos)) ||| ((a <<< pos) &&& BitVec.ofNat 32 ((2 ^ len - 1) * 2 ^ pos)) := by
  simp only [bitFieldInsert, h]

/-! ### The instructions -/

/-- An instruction that writes d in the active lanes with a function of its group's registers completes with the lanes that it gives. -/
theorem putVec_completes {d : BitVec 7} {f : Regs → Nat → Word} {v : Nat → Word} (hd : Undisturbed s g)
    (he : exec i s = issueRegs s i fun x r => .ok (r.putVec x d (f r))) (hv : ∀ l, f g.regs l = v l) (h : Issues s i x g) :
    Completes s i x g (g.regs.putVec x d v) :=
  funext hv ▸ issueRegs_completes h hd he rfl

/-- Settles O6: each form lane by lane, and what CLZ and CTZ count. -/
theorem vectorBitResult : Obligations.VectorBitResult := by
  unfold Obligations.VectorBitResult
  refine ⟨fun s x g d a b hd => ?forms, rfl, rfl, fun a ha => ?counts⟩
  case counts =>
    obtain ⟨hclz, htop, habove⟩ := clzCount_spec ha
    exact ⟨hclz, htop, habove, ctzCount_spec ha⟩
  case forms =>
    refine ⟨fun c h => ?icmp, fun p => ?isel, ?popc, ?clz, ?ctz, ?brev, fun sg => ?bfe, ?bfi, fun k => ?lea, ?vmov, fun i => ?vli⟩
    case icmp =>
      refine issueRegs_completes h hd (rfl : exec _ s = execIcmp d a b c s) ?_
      simp only [readInt_word]
    case isel => exact putVec_completes hd (rfl : exec _ s = execIsel d a b p s) fun _ => rfl
    case popc => exact putVec_completes hd (rfl : exec _ s = execPopc d a s) fun _ => rfl
    case clz => exact putVec_completes hd (rfl : exec _ s = execClz d a s) fun _ => rfl
    case ctz => exact putVec_completes hd (rfl : exec _ s = execCtz d a s) fun _ => rfl
    case brev => exact putVec_completes hd (rfl : exec _ s = execBrev d a s) fun _ => rfl
    case bfe => exact putVec_completes hd (rfl : exec _ s = execBfe d a b sg s) fun _ => bitFieldExtract_eq sg _ _ (fieldOf_eq _)
    case bfi => exact putVec_completes hd (rfl : exec _ s = execBfi d a b s) fun _ => bitFieldInsert_eq _ _ _ (fieldOf_eq _)
    case lea => exact putVec_completes hd (rfl : exec _ s = execLea d a b k s) fun _ => add_shiftLeft_eq _ _ _
    case vmov => exact putVec_completes hd (rfl : exec _ s = execVmov d a s) fun _ => rfl
    case vli => exact putVec_completes hd (rfl : exec _ s = execVli d i s) fun _ => rfl

end Sys2Proof.Machine

/-! The special values that MFS reads (R142). -/

namespace Sys2Proof.Machine

variable {s : State} {x : Issue} {g : Group} {d : BitVec 7} {i : BitVec 11}

/-- The windows that an issue counts are the group's own: launch packets and special scalars are as before. -/
theorem openIssue_specialScalar (s : State) (x y : Issue) (g : Group) (t : TeamId) (sel : Nat) :
    (s.openIssue x).specialScalar y g t sel = s.specialScalar y g t sel := by
  have hpart : (s.openIssue x).part = s.part := State.part_congr (by simp [State.openIssue])
  simp only [State.specialScalar, State.packetOf, hpart]

theorem mfs_scalar {t : Team} (hd : Undisturbed s g) (ht : Store.find s.teams g.tid = some t) (h : Issues s (.mfs d i) x g)
    (hi : i.toNat < 0x100) : Completes s (.mfs d i) x g (g.regs.setSc d.toNat (s.specialScalar x g t.id i.toNat)) := by
  have hteam : Store.find (s.openIssue x).teams g.tid = some t := by simp [State.openIssue, ht]
  refine issue_completes (s1 := (s.openIssue x).modRegs x.gid fun r => r.setSc d.toNat (s.specialScalar x g t.id i.toNat)) h hd
    (rfl : exec _ s = execMfs d i s) ?_ (Apart.modGroup _ _ _) ?_
  · simp only [hi, if_true, hteam, openIssue_specialScalar]
  · simp [State.modRegs, openIssue_find (issuing_group h.issuing).1]

theorem mfs_vector (hd : Undisturbed s g) (h : Issues s (.mfs d i) x g) (hi : 0x100 ≤ i.toNat) :
    Completes s (.mfs d i) x g (g.regs.setVec x.act x.ready d.toNat (lanesBy (s.specialVector x.gid i.toNat))) := by
  have hg := (issuing_group h.issuing).1
  have hhome : (s.openIssue x).specialVector x.gid i.toNat = s.specialVector x.gid i.toNat := by
    funext l
    simp only [State.specialVector, State.homeGroup, openIssue_find hg, hg]
  refine issue_completes
    (s1 := (s.openIssue x).modRegs x.gid fun r => r.setVec x.act x.ready d.toNat (lanesBy (s.specialVector x.gid i.toNat))) h hd
    (rfl : exec _ s = execMfs d i s) ?_ (Apart.modGroup _ _ _) ?_
  · simp only [Nat.not_lt.mpr hi, if_false, hhome]
  · simp [State.modRegs, openIssue_find hg]

/-- Settles O38: each scalar selector by its row, and the two of lanes. -/
theorem specialValueResult : Obligations.SpecialValueResult := by
  unfold Obligations.SpecialValueResult
  intro s x g t d i hd ht h p gx gy is
  have row : ∀ n v, n < 0x100 → s.specialScalar x g t.id n = BitVec.ofNat 32 v → is n v := fun n v hn hv hi => by
    subst hi
    exact hv ▸ mfs_scalar hd ht h hn
  iterate 19 refine ⟨row _ _ (by decide) rfl, ?_⟩
  refine ⟨fun hi => ?homeLane, fun hi => ?teamLane⟩
  case homeLane =>
    have hlane : s.specialVector x.gid i.toNat = fun l => BitVec.ofNat 32 l := funext fun l => if_pos hi
    exact hlane ▸ mfs_vector hd h hi.ge
  case teamLane =>
    have hlane : s.specialVector x.gid i.toNat = fun l => BitVec.ofNat 32 (Store.get g.number g.flow.home l * 32 + l) := by
      funext l
      simp [State.specialVector, hi, State.homeGroup, (issuing_group h.issuing).1]
    exact hlane ▸ mfs_vector hd h (by omega)

end Sys2Proof.Machine

/-! What the registers, slots and engines of groups do not decide: where the bytes of an access lie (R221, R334 to R336), and which engine operations
hold it (R305). -/

namespace Sys2Proof.Machine

section

variable (s : State) (G : Store Group)

theorem stepWalk_groups : State.stepWalk { s with groups := G } = s.stepWalk := rfl
theorem ownerCheck_groups : State.ownerCheck { s with groups := G } = s.ownerCheck := rfl

theorem walkSecond_groups (part vdev : Nat) (need : Option Need) (addr : Nat) (levels : List Nat) (table : Nat) (reads : List (Nat × Nat)) :
    State.walkSecond { s with groups := G } part vdev need addr levels table reads = s.walkSecond part vdev need addr levels table reads := by
  induction levels generalizing table reads with
  | nil => rfl
  | cons level below ih =>
    simp only [State.walkSecond, stepWalk_groups, ih]
    rfl

theorem secondStage_groups : State.secondStage { s with groups := G } = s.secondStage := by
  funext part vdev v need gpa reads
  simp only [State.secondStage, walkSecond_groups]

theorem walkFirst_groups (part vdev : Nat) (v : Vdev) (need : Need) (va : Nat) (levels : List Nat) (table : Nat) (reads : List (Nat × Nat)) :
    State.walkFirst { s with groups := G } part vdev v need va levels table reads = s.walkFirst part vdev v need va levels table reads := by
  induction levels generalizing table reads with
  | nil => rfl
  | cons level below ih =>
    simp only [State.walkFirst, secondStage_groups, stepWalk_groups, ih]
    rfl

theorem walkBoth_groups : State.walkBoth { s with groups := G } = s.walkBoth := by
  funext part v vdev va need
  simp only [State.walkBoth, walkFirst_groups, secondStage_groups, ownerCheck_groups]

theorem placeVa_groups : State.placeVa { s with groups := G } = s.placeVa := by
  funext core vdev va
  simp only [State.placeVa, walkBoth_groups]
  rfl

theorem placeStash_groups : State.placeStash { s with groups := G } = s.placeStash := by
  funext tid off
  simp only [State.placeStash, placeVa_groups]
  rfl

theorem globalLines_groups : State.globalLines { s with groups := G } = s.globalLines := by
  funext core vdev va n
  simp only [State.globalLines, placeVa_groups]

theorem stashLines_groups : State.stashLines { s with groups := G } = s.stashLines := by
  funext tid off n
  simp only [State.stashLines, placeStash_groups]

theorem itemPlace_groups : State.itemPlace { s with groups := G } = s.itemPlace := rfl
theorem copyTile_groups : State.copyTile { s with groups := G } = s.copyTile := rfl
theorem copyDest_groups : State.copyDest { s with groups := G } = s.copyDest := rfl

theorem copyLines_groups : State.copyLines { s with groups := G } = s.copyLines := by
  funext c
  simp only [State.copyLines, placeVa_groups, placeStash_groups, stashLines_groups, itemPlace_groups, copyTile_groups, copyDest_groups]

theorem collLengths_groups : State.collLengths { s with groups := G } = s.collLengths := rfl

theorem rangeHas_groups : State.rangeHas { s with groups := G } = s.rangeHas := by
  funext core vdev va n line
  simp only [State.rangeHas, placeVa_groups]

/-- A change of one group changes the groups alone. -/
theorem modGroup_groups_alone (k : Nat) (f : Group → Group) : ∃ G, s.modGroup k f = { s with groups := G } := by
  unfold State.modGroup
  split
  · exact ⟨_, rfl⟩
  · exact ⟨s.groups, rfl⟩

end

/-! ### The operations that hold an access (R305) -/

/-- The operations for which the accesses of an operation wait at issue, by their issue numbers. -/
def State.accessHolders (s : State) (x : Issue) (o : LongOp) (n : Nat) (store : Bool) : List Nat :=
  s.engineHolders x.gid (o.accesses.flatMap fun b => s.globalLines x.core (s.party x.tid x.gid).vdev b.addr n) store

theorem openAccess_eq (s : State) (x : Issue) (o : LongOp) (n : Nat) (store : Bool) : openAccess s x o n store =
    if s.accessHolders x o n store ≠ [] then .wait (.order (s.accessHolders x o n store))
    else .done ((if store then s.setUnrew x.gid else s).openOp x (o.aligned n)) := by
  unfold openAccess
  split
  next h hs hw =>
    change s.accessHolders x o n store = h :: hs at hw
    rw [hw, if_pos (List.cons_ne_nil h hs)]
  next hw =>
    change s.accessHolders x o n store = [] at hw
    rw [hw, if_neg (not_not.mpr rfl)]

/-- The multicasts of a group are its operations: a change of its counters leaves them. -/
theorem mcstHolders_modEng (s : State) (gid : Nat) (f : EngineSide → EngineSide) (lines : List Nat) :
    (s.modEng gid f).mcstHolders gid lines = s.mcstHolders gid lines := by
  have hfind := State.modGroup_find_self s gid fun y => { y with eng := f y.eng }
  have hteams : (s.modEng gid f).teams = s.teams := State.modEng_teams s gid f
  have hlines : (s.modEng gid f).stashLines = s.stashLines := by
    obtain ⟨G, hG⟩ := modGroup_groups_alone s gid fun y => { y with eng := f y.eng }
    rw [State.modEng, hG, stashLines_groups]
  simp only [State.mcstHolders, State.modEng, hfind, State.peerTeam] at *
  cases Store.find s.groups gid with
  | none => rfl
  | some y => simp only [Option.map_some, hteams, hlines]

theorem accessHolders_modEng (s : State) (x : Issue) (f : EngineSide → EngineSide) (o : LongOp) (n : Nat) (store : Bool) :
    (s.modEng x.gid f).accessHolders x o n store = s.accessHolders x o n store := by
  obtain ⟨G, hG⟩ := modGroup_groups_alone s x.gid fun y => { y with eng := f y.eng }
  have hmcst := mcstHolders_modEng s x.gid f
  rw [State.modEng, hG] at hmcst ⊢
  simp only [State.accessHolders, State.engineHolders, hmcst, globalLines_groups, copyLines_groups, collLengths_groups, rangeHas_groups]
  rfl

/-! ### The operation that an access opens (R85 to R87) -/

section

variable {s s1 : State} {i : Instr} {x : Issue} {g k : Group} {e : EngineSide} {store : Bool} {o : LongOp}

/-- A group that has issued an access, before it has stepped past it: its operation stands last, due at some clk. -/
structure Opened (g : Group) (e : EngineSide) (store : Bool) (o : LongOp) (k : Group) : Prop where
  regs : k.regs = g.regs
  flow : k.flow = { g.flow with unrew := store || g.flow.unrew }
  ops : ∃ clk, k.ops = stepWindows g.ops ++ [{ o with dueClk := clk }]
  eng : k.eng = e
  stops : k.stops = g.stops

theorem Flow.stepped_unrew (f : Flow) (x : Issue) (i : Instr) (b : Bool) :
    ({ f with unrew := b } : Flow).stepped x i = { f.stepped x i with unrew := b } := by
  unfold Flow.stepped Flow.setSlot Flow.slot
  split <;> rfl

theorem openOp_eq (s : State) (x : Issue) (o : LongOp) :
    ∃ q clk, s.openOp x o = State.modOps { s with sched := q } x.gid fun l => l ++ [{ o with dueClk := clk }] := by
  unfold State.openOp
  split
  next ks1 k s1 hk =>
    split at hk
    · cases hk; exact ⟨_, _, rfl⟩
    · cases hk; exact ⟨_, _, rfl⟩

theorem openOp_apart (s : State) (x : Issue) (o : LongOp) : Apart s (s.openOp x o) x.gid := by
  obtain ⟨q, clk, h⟩ := openOp_eq s x o
  rw [h]
  exact (Apart.scheduled s x.gid q).trans (Apart.modGroup _ _ _)

theorem openOp_find (hk : Store.find s.groups x.gid = some k) :
    ∃ clk, Store.find (s.openOp x o).groups x.gid = some { k with ops := k.ops ++ [{ o with dueClk := clk }] } := by
  obtain ⟨q, clk, h⟩ := openOp_eq s x o
  exact ⟨clk, by simp [h, State.modOps, hk]⟩

/-- An instruction that issues an access and does not branch opens the operation. -/
theorem issue_opens {body} (h : Issues s i x g) (hd : Undisturbed s g) (he : exec i s = issue s i body)
    (hb : body (s.openIssue x) x g = .done s1) (ap : Apart (s.openIssue x) s1 x.gid) (hk : Store.find s1.groups x.gid = some k)
    (ho : Opened g e store o k) : ∃ t, exec i s = .next t ∧ Opens s t x g i e store o := by
  obtain ⟨hg, htid, -⟩ := issuing_group h.issuing
  obtain ⟨hregs, hflow, ⟨clk, hops⟩, heng, hstops⟩ := ho
  have ap' : Apart s (s1.advance x i) x.gid := ((Apart.modGroup _ _ _).trans ap).trans (Apart.modGroup _ _ _)
  have hk' : Store.find (s1.advance x i).groups x.gid = some { k with flow := k.flow.stepped x i } := by
    simp [State.advance, State.modFlow, hk, Flow.stepped]
  have hdeb : (s1.advance x i).debugged x.tid = false := by
    rw [State.debugged, ap'.teams, ap'.vdevs, htid]
    exact hd.none
  obtain ⟨k', hfind, h1, h2, h3, h4, h5, h6, h7, -⟩ := commit_group (i := i) hk' hdeb hd.step hd.soft
  refine ⟨_, he.trans (issue_done h hb), ?_⟩
  exact { toApart := ap'.trans (commit_apart _ x g i hdeb hd.step hd.soft)
          regs := by simp only [State.regsOf, hfind, Option.map_some, h1, hregs]
          flow := by simp only [State.flowOf, hfind, Option.map_some, h2, hflow, Flow.stepped_unrew]
          ops := ⟨clk, by simp only [State.opsOf, hfind, Option.map_some, h3, hops]⟩
          eng := by simp only [State.engOf, hfind, Option.map_some, h4, heng]
          stopped := by simp only [State.stoppedOf, hg, hfind, Option.map_some, h5, h6, h7, hstops] }

/-- An access waits at its issue for the operations that hold it, and else opens its own (R141, R251, R305). -/
theorem access_issues {body} {n : Nat} (h : Issues s i x g) (hd : Undisturbed s g) (he : exec i s = issue s i body)
    (hb : body (s.openIssue x) x g = openAccess s1 x o n store) (ap : Apart (s.openIssue x) s1 x.gid)
    (hk : Store.find s1.groups x.gid = some { g with ops := stepWindows g.ops, eng := e })
    (hh : s1.accessHolders x o n store = (s.openIssue x).accessHolders x o n store) :
    if (s.openIssue x).accessHolders x o n store ≠ [] then Waits s i x (.order ((s.openIssue x).accessHolders x o n store))
    else ∃ t, exec i s = .next t ∧ Opens s t x g i e store (o.aligned n) := by
  rw [openAccess_eq, hh] at hb
  split
  next hw => exact he.trans (issue_wait h (hb.trans (if_pos hw)))
  next hw =>
    rw [if_neg hw] at hb
    have hmark : Apart s1 (if store then s1.setUnrew x.gid else s1) x.gid := by
      cases store
      · exact Apart.refl _ _
      · exact Apart.modGroup _ _ _
    have hfind : Store.find (if store then s1.setUnrew x.gid else s1).groups x.gid =
        some { g with ops := stepWindows g.ops, eng := e, flow := { g.flow with unrew := store || g.flow.unrew } } := by
      cases store
      · exact hk
      · simp [State.setUnrew, State.modFlow, hk]
    obtain ⟨clk, hopen⟩ := openOp_find (o := o.aligned n) hfind
    exact issue_opens h hd he hb ((ap.trans hmark).trans (openOp_apart _ _ _)) hopen ⟨rfl, rfl, ⟨clk, rfl⟩, rfl, rfl⟩

/-- An access of which the issue changes nothing else. -/
theorem plainAccess_issues {body} {n : Nat} (hd : Undisturbed s g) (he : exec i s = issue s i body)
    (hb : body (s.openIssue x) x g = openAccess (s.openIssue x) x o n store) (h : Issues s i x g) :
    if (s.openIssue x).accessHolders x o n store ≠ [] then Waits s i x (.order ((s.openIssue x).accessHolders x o n store))
    else ∃ t, exec i s = .next t ∧ Opens s t x g i g.eng store (o.aligned n) :=
  access_issues h hd he hb (Apart.refl _ _) (openIssue_find (issuing_group h.issuing).1) rfl

end

/-- Settles O20: each access opens its operation or waits for those that hold it; a REDLD begins in c2 or waits for room there. When an operation is
performed, and what a misaligned PREF drops, follow the model's reading (logs 8 and 20). -/
theorem accessIssue : Obligations.AccessIssue := by
  unfold Obligations.AccessIssue
  intro s x g d a la f z hd n s0 off op lanes one result none'
  refine ⟨?ld, ?st, ?sld, ?sst, fun u => ?atom, ?acqrm, fun hc h => ?redld, fun hc h => ?full, fun h => ?pref⟩
  case ld => exact plainAccess_issues hd (rfl : exec _ s = execLd d a la z f s) rfl
  case st => exact plainAccess_issues hd (rfl : exec _ s = execSt d a la z f s) rfl
  case sld => exact plainAccess_issues hd (rfl : exec _ s = execSld d a la z f s) rfl
  case sst => exact plainAccess_issues hd (rfl : exec _ s = execSst d a la z f s) rfl
  case atom => exact plainAccess_issues hd (rfl : exec _ s = execAtom d a la z u s) rfl
  case acqrm => exact plainAccess_issues hd (rfl : exec _ s = execAcqrm d a la z f s) rfl
  case redld =>
    refine access_issues h hd (rfl : exec _ s = execRedld d a la z f s) (if_neg (Nat.not_le.mpr hc)) (Apart.modGroup _ _ _) ?_
      (accessHolders_modEng ..)
    simp [State.modEng, openIssue_find (issuing_group h.issuing).1]
  case full => exact (rfl : exec _ s = execRedld d a la z f s).trans (issue_wait h (if_pos hc))
  case pref =>
    obtain ⟨clk, hopen⟩ := openOp_find (openIssue_find (issuing_group h.issuing).1)
    exact issue_opens h hd (rfl : exec _ s = execPref d a la z f s) rfl (openOp_apart _ _ _) hopen ⟨rfl, rfl, ⟨clk, rfl⟩, rfl, rfl⟩

end Sys2Proof.Machine

/-! The vector float instructions (R152 to R157, R159 to R161): each form by its row of the tables. -/

namespace Sys2Proof.Machine

/-- Each operation of the floating ALU is floatBin with its row's result, on the elements of B or on those of the scalar B in every lane (R153,
R154). -/
theorem exec_floatAlu : ∀ op ∈ floatAluTable, ∀ (s : State) (d a b : BitVec 7),
    (exec (op.1 d a b) s = issueRegs s (op.1 d a b) fun x r => .ok (r.floatBin x op.2.2 d a (r.elemV b.toNat))) ∧
    (exec (op.2.1 d a b) s = issueRegs s (op.2.1 d a b) fun x r => .ok (r.floatBin x op.2.2 d a (r.elemS b.toNat))) := by
  simp only [floatAluTable, List.forall_mem_cons, List.not_mem_nil, IsEmpty.forall_iff, implies_true, and_true]
  and_intros
  all_goals exact fun _ _ _ _ => ⟨rfl, rfl⟩

/-- Each one-operand form is floatUn with its row's result (R153, R157, R160). -/
theorem exec_floatOne : ∀ op ∈ floatOneTable, ∀ (s : State) (d a : BitVec 7),
    exec (op.1 d a) s = issueRegs s (op.1 d a) fun x r => .ok (r.floatUn x op.2 d a) := by
  simp only [floatOneTable, List.forall_mem_cons, List.not_mem_nil, IsEmpty.forall_iff, implies_true, and_true]
  and_intros
  all_goals exact fun _ _ _ => rfl

/-- Each fused form is floatFma with its row's signs (R155). -/
theorem exec_fused : ∀ op ∈ fusedTable, ∀ (s : State) (d a b : BitVec 7),
    exec (op.1 d a b) s = issueRegs s (op.1 d a b) fun x r => .ok (r.floatFma x op.2.1 op.2.2 d a b) := by
  simp only [fusedTable, List.forall_mem_cons, List.not_mem_nil, IsEmpty.forall_iff, implies_true, and_true]
  and_intros
  all_goals exact fun _ _ _ _ => rfl

/-- Settles O7: the floating ALU, the one-operand and the fused forms by their rows; FDIV, FCMP, FCLASS and FCVT as functions of the group's
registers. What FRCP to FCOS give inside the bounds of R157 is the model's free value (log 10); the signs of the zeros that FCVT gives are the
model's reading (log 45). -/
theorem floatResult : Obligations.FloatResult := by
  unfold Obligations.FloatResult
  refine ⟨fun s x g d a b hd => ⟨fun op hop => ?alu, fun op hop h => ?one, fun op hop h => ?fused, fun h => ?fdiv⟩,
    fun s x g d a b hd => ⟨fun c h => ?fcmp, fun h => ?fclass, fun src h => ?fcvt⟩⟩
  case alu =>
    obtain ⟨hvector, hscalar⟩ := exec_floatAlu op hop s d a b
    exact ⟨fun h => issueRegs_completes h hd hvector rfl, fun h => issueRegs_completes h hd hscalar rfl⟩
  case one => exact issueRegs_completes h hd (exec_floatOne op hop s d a) rfl
  case fused => exact issueRegs_completes h hd (exec_fused op hop s d a b) rfl
  case fdiv => exact issueRegs_completes h hd (rfl : exec _ s = execFdiv d a b s) rfl
  case fcmp => exact issueRegs_completes h hd (rfl : exec _ s = execFcmp d a b c s) rfl
  case fclass => exact issueRegs_completes h hd (rfl : exec _ s = execFclass d a s) rfl
  case fcvt => exact issueRegs_completes h hd (rfl : exec _ s = execFcvt d a src s) rfl

end Sys2Proof.Machine

/-! Predicates and the exchange of values between lanes (R102, R162 to R168): SHFL and VTOS by the lanes that they read. -/

namespace Sys2Proof.Machine

/-- Each predicate operation of two sources writes its row's result in the active lanes (R162). -/
theorem exec_predicate : ∀ op ∈ predicateTable, ∀ (s : State) (d a b : BitVec 7), exec (op.1 d a b) s =
    issueRegs s (op.1 d a b) fun x r => .ok (r.setPred x.act d.toNat (op.2 (r.pred a.toNat) (r.pred b.toNat))) := by
  simp only [predicateTable, List.forall_mem_cons, List.not_mem_nil, IsEmpty.forall_iff, implies_true, and_true]
  and_intros
  all_goals exact fun _ _ _ _ => rfl

section

variable {s : State} {x : Issue} {g : Group} {d a b : BitVec 7}

/-- SHFL reads every source lane before it writes, and completes when the source lane of each active lane is valid (R164). -/
theorem shfl_completes {v : ShflMode} (hd : Undisturbed s g) (h : Issues s (.shfl d a b v) x g)
    (hv : ∀ l ∈ lanesIn x.act, g.regs.laneValid a.toNat (shflSource v l ((g.regs.vec b.toNat).at l) (g.regs.sc b.toNat)) = true) :
    Completes s (.shfl d a b v) x g
      (g.regs.putVec x d fun l => (g.regs.vec a.toNat).at (shflSource v l ((g.regs.vec b.toNat).at l) (g.regs.sc b.toNat))) :=
  issueRegs_completes h hd (rfl : exec _ s = execShfl d a b v s) (if_pos (List.all_eq_true.mpr hv))

/-- VTOS with no lane to read writes 0 (R165). -/
theorem vtos_completes_none {first : Bool} {n : BitVec 5} (hd : Undisturbed s g) (h : Issues s (.vtos d a first n) x g)
    (hn : (if first then (lanesIn x.act).head? else some n.toNat) = none) :
    Completes s (.vtos d a first n) x g (g.regs.setSc d.toNat 0) :=
  issueRegs_completes h hd (rfl : exec _ s = execVtos d a first n s) (by rw [hn])

/-- VTOS completes with the word of the lane that it reads when that lane is valid (R165). -/
theorem vtos_completes_some {first : Bool} {n : BitVec 5} {l : Nat} (hd : Undisturbed s g) (h : Issues s (.vtos d a first n) x g)
    (hl : (if first then (lanesIn x.act).head? else some n.toNat) = some l) (hv : g.regs.laneValid a.toNat l = true) :
    Completes s (.vtos d a first n) x g (g.regs.setSc d.toNat ((g.regs.vec a.toNat).at l)) :=
  issueRegs_completes h hd (rfl : exec _ s = execVtos d a first n s) (by rw [hl]; exact if_pos hv)

end

/-- Settles O8: the predicate operations by their row, SHFL and VTOS by the validity of the lanes that they read (log 15), and the others as
functions of the group's registers. The infinity that begins an exclusive scan is the model's choice (log 38). -/
theorem laneExchange : Obligations.LaneExchange := by
  unfold Obligations.LaneExchange
  refine ⟨fun s x g d a b hd => ⟨fun op hop h => ?predicate, fun h => ?pnot, fun h => ?pmov, fun h => ?ballot, fun h => ?pfroms, fun v h => ?vote,
      fun v h => ?shfl, fun n h => ?named, fun n h hnone => ?noLane, fun n l rest h hlanes => ?first, fun h => ?stov⟩,
    fun s x g d a o hd => ⟨fun h => ?gred, fun h => ?inclusive, fun h => ?exclusive⟩⟩
  case predicate => exact issueRegs_completes h hd (exec_predicate op hop s d a b) rfl
  case pnot => exact issueRegs_completes h hd (rfl : exec _ s = execPnot d a s) rfl
  case pmov => exact issueRegs_completes h hd (rfl : exec _ s = execPmov d a s) rfl
  case ballot => exact issueRegs_completes h hd (rfl : exec _ s = execBallot d a s) rfl
  case pfroms => exact issueRegs_completes h hd (rfl : exec _ s = execPfroms d a s) rfl
  case vote => exact issueRegs_completes h hd (rfl : exec _ s = execVote d a v s) rfl
  case shfl => exact shfl_completes hd h
  case named => exact vtos_completes_some hd h rfl
  case noLane => exact vtos_completes_none hd h (congrArg List.head? hnone)
  case first => exact vtos_completes_some hd h (congrArg List.head? hlanes)
  case stov => exact issueRegs_completes h hd (rfl : exec _ s = execStov d a s) rfl
  case gred => exact issueRegs_completes h hd (rfl : exec _ s = execGred d a o s) rfl
  case inclusive => exact issueRegs_completes h hd (rfl : exec _ s = execGscan d a false o s) rfl
  case exclusive => exact issueRegs_completes h hd (rfl : exec _ s = execGscan d a true o s) rfl

end Sys2Proof.Machine

/-! The accumulators and the algebra slots of the array (R179 to R181, R194 to R196, R217, R218): which accumulators ACCZ, ACCLD and ACCST name,
and what each of the four instructions answers. -/

namespace Sys2Proof.Store

/-- A fold of writes, of which no other has the key of j, has written j's value there if j is among them. -/
theorem get_foldl_set_key {α ι : Type} [DecidableEq α] [DecidableEq ι] (d : α) (key : ι → Nat) (f : ι → α) {j : ι} (js : List ι) (m : Store α)
    (hinj : ∀ i ∈ js, key i = key j → i = j) :
    get d (js.foldl (fun st i => set d st (key i) (f i)) m) (key j) = if j ∈ js then f j else get d m (key j) := by
  induction js generalizing m with
  | nil => rfl
  | cons i rest ih =>
    rw [List.foldl_cons, ih _ fun k hk => hinj k (List.mem_cons_of_mem _ hk), get_set]
    have hi : key j = key i ↔ j = i := ⟨fun he => (hinj i List.mem_cons_self he.symm).symm, congrArg key⟩
    simp only [hi, List.mem_cons]
    by_cases hj : j = i <;> simp [hj]

end Sys2Proof.Store

namespace Sys2Proof.Machine

/-! ### Instructions that wait at their issue -/

theorem issue_waits {s : State} {i : Instr} {x : Issue} {g : Group} {body} {w : Wait} (h : Issues s i x g) (he : exec i s = issue s i body)
    (hb : body (s.openIssue x) x g = .wait w) : Waits s i x w := he.trans (issue_wait h hb)

theorem holders_wait {l : List Nat} (h : l ≠ []) : (!l.isEmpty) = true := by simpa using h

theorem no_holder_waits {l : List Nat} (h : l = []) : ¬ (!l.isEmpty) = true := by simp [h]

/-! ### The accumulators that an instruction names -/

theorem mem_lanesIn {m : Mask} {l : Nat} : l ∈ lanesIn m ↔ l < 32 ∧ m.getLsbD l = true := by
  simp [lanesIn, upTo]

/-- Within a tile, an accumulator's row and column decide its key. -/
theorem accKey_inj {tile r r' n n' : Nat} (hn : n < 128) (hn' : n' < 128) : accKey tile r n = accKey tile r' n' ↔ r = r' ∧ n = n' := by
  unfold accKey
  omega

/-- ACCZ names the rows of which the lane is active (R194). -/
theorem mem_rowKeys {tile row n : Nat} {act : Mask} (hrow : row < 128) (hn : n < 128) :
    accKey tile row n ∈ rowKeys tile act ↔ act.getLsbD (row % 32) = true := by
  simp only [rowKeys, List.mem_flatMap, List.mem_map, mem_lanesIn, upTo, List.mem_range]
  constructor
  · rintro ⟨l, ⟨hl, hact⟩, q, -, k, hk, he⟩
    obtain ⟨rfl, -⟩ := (accKey_inj hk hn).mp he
    rwa [Nat.mul_add_mod, Nat.mod_eq_of_lt hl]
  · intro hact
    exact ⟨row % 32, ⟨Nat.mod_lt _ (by decide), hact⟩, row / 32, by omega, n, hn, by rw [Nat.div_add_mod]⟩

/-- The lanes and the columns that an ACCST writes in its quarter (R194). -/
def quarterCells (act : Mask) : List (Nat × Nat) := (lanesIn act).flatMap fun l => (upTo 4).map fun k => (l, k)

theorem mem_quarterCells {act : Mask} {l k : Nat} : (l, k) ∈ quarterCells act ↔ (l < 32 ∧ act.getLsbD l = true) ∧ k < 4 := by
  simp [quarterCells, mem_lanesIn, upTo]

/-! ### The writes of ACCZ and ACCST -/

/-- The accumulators after ACCZ: the rows of the active lanes are 0 (R194). -/
def clearRows (tile : Nat) (act : Mask) (acc : Store Word) : Store Word := (rowKeys tile act).foldl (fun st k => Store.set 0 st k 0) acc

theorem get_clearRows {tile row n : Nat} {act : Mask} {acc : Store Word} (hrow : row < 128) (hn : n < 128) :
    Store.get 0 (clearRows tile act acc) (accKey tile row n) = if act.getLsbD (row % 32) then 0 else Store.get 0 acc (accKey tile row n) := by
  simp only [clearRows, Store.get_foldl_set 0 fun _ => (0 : Word), mem_rowKeys hrow hn]

/-- The accumulators after ACCST: in four columns of a quarter the rows of the active lanes hold the words of four registers (R194). -/
def storeQuarter (tile q c : Nat) (act : Mask) (word : Nat → Nat → Word) (acc : Store Word) : Store Word :=
  (quarterCells act).foldl (fun st p => Store.set 0 st (accKey tile (32 * q + p.1) (4 * c + p.2)) (word p.1 p.2)) acc

theorem get_storeQuarter {tile q c l k : Nat} {act : Mask} {word : Nat → Nat → Word} {acc : Store Word} (hc : c < 32) (hl : l < 32) (hk : k < 4) :
    Store.get 0 (storeQuarter tile q c act word acc) (accKey tile (32 * q + l) (4 * c + k)) =
      if act.getLsbD l then word l k else Store.get 0 acc (accKey tile (32 * q + l) (4 * c + k)) := by
  have hinj : ∀ p ∈ quarterCells act, accKey tile (32 * q + p.1) (4 * c + p.2) = accKey tile (32 * q + l) (4 * c + k) → p = (l, k) := by
    rintro ⟨l', k'⟩ hp he
    obtain ⟨-, hk'⟩ := mem_quarterCells.mp hp
    obtain ⟨hrow, hcol⟩ := (accKey_inj (by omega) (by omega)).mp he
    exact Prod.ext (Nat.add_left_cancel hrow) (Nat.add_left_cancel hcol)
  have hget := Store.get_foldl_set_key 0 (fun p : Nat × Nat => accKey tile (32 * q + p.1) (4 * c + p.2)) (fun p => word p.1 p.2)
    (j := (l, k)) _ acc hinj
  simpa only [storeQuarter, mem_quarterCells, hl, hk, true_and, and_true] using hget

/-- Four registers after ACCLD: the words of four columns of a quarter (R194). -/
def readQuarter (x : Issue) (d a : BitVec 7) (q : BitVec 2) (c : BitVec 5) (acc : Store Word) (r : Regs) : Regs :=
  (upTo 4).foldl (fun r k => r.setVec x.act x.ready (d.toNat + k)
    (lanesBy fun l => Store.get 0 acc (accKey a.toNat (32 * q.toNat + l) (4 * c.toNat + k)))) r

/-! ### ACCZ, ACCLD and ACCST -/

section

variable {s : State} {x : Issue} {tile n : Nat} {reads writes : List Nat} {act : Store Word → Store Word} {regs : Store Word → Regs → Regs}

theorem issueAcc_unheld (ht : s.tilesOf x.tid = none ∨ ∃ n, s.tilesOf x.tid = some n ∧ n ≤ tile) :
    issueAcc s x tile reads writes act regs = .trap (x.trap .accumRange) := by
  rcases ht with ht | ⟨n, ht, hn⟩
  · simp only [issueAcc, ht]
  · simp only [issueAcc, ht, hn, if_true]

variable (ht : s.tilesOf x.tid = some n) (hn : tile < n)

include ht hn

theorem issueAcc_streamed (hp : Store.get 0 (s.core x.core).arr.pending tile ≠ 0) :
    issueAcc s x tile reads writes act regs = .wait (.full 1) := by
  simp only [issueAcc, ht, Nat.not_le.mpr hn, if_false, hp, ne_eq, not_false_eq_true, if_true]

variable (hp : Store.get 0 (s.core x.core).arr.pending tile = 0)

include hp

theorem issueAcc_settled : issueAcc s x tile reads writes act regs =
    if (s.core x.core).arr.accUpset.any reads.contains then .trap (x.trap .uncorrectable)
    else .done ((s.modArr x.core fun a => { a with acc := act (s.core x.core).arr.acc, accUpset := a.accUpset.filter (!writes.contains ·) }).modRegs
      x.gid (regs (s.core x.core).arr.acc)) := by
  simp only [issueAcc, ht, Nat.not_le.mpr hn, if_false, hp, ne_eq, not_true_eq_false]

/-- An instruction that reads no accumulator meets no error in one. -/
theorem issueAcc_writes : issueAcc s x tile [] writes act regs =
    .done ((s.modArr x.core fun a => { a with acc := act (s.core x.core).arr.acc, accUpset := a.accUpset.filter (!writes.contains ·) }).modRegs
      x.gid (regs (s.core x.core).arr.acc)) :=
  (issueAcc_settled ht hn hp).trans (if_neg (by simp))

end

section

variable {s : State} {x : Issue} {g : Group} {d a : BitVec 7} {q : BitVec 2} {c : BitVec 5}

/-- The three instructions on accumulators issue in one way. -/
theorem exec_acc (s : State) (d a : BitVec 7) (q : BitVec 2) (c : BitVec 5) : ∀ i ∈ [Instr.accz a, .accld d a q c, .accst d a q c],
    ∃ body, exec i s = issue s i body ∧ ∀ s x g, ∃ reads writes act regs, body s x g = issueAcc s x a.toNat reads writes act regs := by
  simp only [List.forall_mem_cons, List.not_mem_nil, IsEmpty.forall_iff, implies_true, and_true]
  exact ⟨⟨_, (rfl : _ = execAccz a s), fun _ _ _ => ⟨_, _, _, _, rfl⟩⟩, ⟨_, (rfl : _ = execAccld d a q c s), fun _ _ _ => ⟨_, _, _, _, rfl⟩⟩,
    ⟨_, (rfl : _ = execAccst d a q c s), fun _ _ _ => ⟨_, _, _, _, rfl⟩⟩⟩

theorem acc_unheld {i : Instr} (hi : i ∈ [Instr.accz a, .accld d a q c, .accst d a q c]) (h : Issues s i x g)
    (ht : (s.openIssue x).tilesOf x.tid = none ∨ ∃ n, (s.openIssue x).tilesOf x.tid = some n ∧ n ≤ a.toNat) :
    Traps s i x g (x.trap .accumRange) := by
  obtain ⟨body, he, hb⟩ := exec_acc s d a q c i hi
  obtain ⟨reads, writes, act, regs, hbody⟩ := hb (s.openIssue x) x g
  exact issue_traps h he (hbody.trans (issueAcc_unheld ht))

variable {n : Nat} (ht : (s.openIssue x).tilesOf x.tid = some n) (hn : a.toNat < n)

include ht hn

theorem acc_streamed {i : Instr} (hi : i ∈ [Instr.accz a, .accld d a q c, .accst d a q c]) (h : Issues s i x g)
    (hp : Store.get 0 ((s.openIssue x).core x.core).arr.pending a.toNat ≠ 0) : Waits s i x (.full 1) := by
  obtain ⟨body, he, hb⟩ := exec_acc s d a q c i hi
  obtain ⟨reads, writes, act, regs, hbody⟩ := hb (s.openIssue x) x g
  exact issue_waits h he (hbody.trans (issueAcc_streamed ht hn hp))

variable (hp : Store.get 0 ((s.openIssue x).core x.core).arr.pending a.toNat = 0)

include hp

theorem accz_steps (h : Issues s (.accz a) x g) : Steps s (.accz a) x g (((s.openIssue x).modArr x.core fun r =>
    { r with acc := clearRows a.toNat x.act ((s.openIssue x).core x.core).arr.acc
             accUpset := r.accUpset.filter fun k => !(rowKeys a.toNat x.act).contains k }).modRegs x.gid fun r => r) := by
  refine issue_steps h (rfl : _ = execAccz a s) ((issueAcc_writes ht hn hp).trans ?_)
  simp only [clearRows, rowKeys, List.foldl_flatMap, List.foldl_map]

theorem accst_steps (h : Issues s (.accst d a q c) x g) : Steps s (.accst d a q c) x g (((s.openIssue x).modArr x.core fun r =>
    { r with acc := storeQuarter a.toNat q.toNat c.toNat x.act (fun l k => (g.regs.vec (d.toNat + k)).at l) ((s.openIssue x).core x.core).arr.acc
             accUpset := r.accUpset.filter fun k => !(quarterKeys a.toNat q.toNat c.toNat x.act).contains k }).modRegs x.gid fun r => r) := by
  refine issue_steps h (rfl : _ = execAccst d a q c s) ((issueAcc_writes ht hn hp).trans ?_)
  simp only [storeQuarter, quarterCells, List.foldl_flatMap, List.foldl_map]

theorem accld_steps (h : Issues s (.accld d a q c) x g)
    (hlost : ((s.openIssue x).core x.core).arr.accUpset.any (quarterKeys a.toNat q.toNat c.toNat x.act).contains = false) :
    Steps s (.accld d a q c) x g (((s.openIssue x).modArr x.core fun r =>
      { r with acc := ((s.openIssue x).core x.core).arr.acc, accUpset := r.accUpset.filter fun _ => true }).modRegs x.gid
        (readQuarter x d a q c ((s.openIssue x).core x.core).arr.acc)) :=
  issue_steps h (rfl : _ = execAccld d a q c s) ((issueAcc_settled ht hn hp).trans (if_neg (Bool.eq_false_iff.mp hlost)))

theorem accld_lost (h : Issues s (.accld d a q c) x g)
    (hlost : ((s.openIssue x).core x.core).arr.accUpset.any (quarterKeys a.toNat q.toNat c.toNat x.act).contains = true) :
    Traps s (.accld d a q c) x g (x.trap .uncorrectable) :=
  issue_traps h (rfl : _ = execAccld d a q c s) ((issueAcc_settled ht hn hp).trans (if_pos hlost))

end

/-! ### What the counting of an issue leaves of memory -/

/-- Two states have the same memory and the same devices. -/
def SameMemory (s t : State) : Prop := t.mem = s.mem ∧ t.vdevs = s.vdevs

theorem SameMemory.trans {a b c : State} (h : SameMemory a b) (k : SameMemory b c) : SameMemory a c := ⟨k.1.trans h.1, k.2.trans h.2⟩

theorem SameMemory.countIf (s : State) (p : Prop) [Decidable p] (q vdev sel n : Nat) : SameMemory s (if p then s else s.count q vdev sel n) := by
  split <;> exact ⟨rfl, rfl⟩

theorem commitCounters_mem {s : State} {x : Issue} {g : Group} {i : Instr} (h : s.debugged x.tid = false) :
    (s.commitCounters x g i).mem = s.mem := by
  unfold State.commitCounters
  split
  · rfl
  next t ht =>
  have hd := undebugged_device h ht
  generalize s.costOf x.core g x.act i = cost
  obtain ⟨_, _, add⟩ := cost
  extract_lets q s1 s2 deg
  dsimp -zeta only
  extract_lets s3 s4 s5
  have hissued : SameMemory s s1 := ⟨rfl, rfl⟩
  have hcounted : SameMemory s s4 := ((hissued.trans (.countIf ..)).trans (.countIf ..)).trans (.countIf ..)
  have hsampled : SameMemory s4 s5 := by
    unfold s5
    split
    · exact ⟨rfl, rfl⟩
    · split
      · extract_lets due s6
        have hpart : SameMemory s4 s6 := ⟨State.modPart_mem .., State.modPart_vdevs ..⟩
        split
        · exact hpart.trans ⟨rfl, rfl⟩
        · exact hpart
      · exact ⟨rfl, rfl⟩
  obtain ⟨hmem, hvdevs⟩ := hcounted.trans hsampled
  rw [hitTrigger_none (by rw [hvdevs]; exact hd), hmem]

theorem commitTiming_mem (s : State) (x : Issue) (g : Group) (i : Instr) : (s.commitTiming x g i).mem = s.mem := by
  simp [State.commitTiming]

theorem commit_mem {s : State} {x : Issue} {g : Group} {i : Instr} (h : s.debugged x.tid = false) (hs : g.stops.stepOne = false)
    (hq : g.regs.soft = []) : (s.commit x g i).mem = s.mem := by
  rw [State.commit, endStep_none hs, State.commitIssue, correctReads_none hq, commitTiming_mem, commitCounters_mem h]

/-- An instruction that does not branch completes with its group's registers as its effect has them, and leaves memory and the teams as they are
in it. -/
theorem steps_leaves {s t : State} {i : Instr} {x : Issue} {g k : Group} (hs : Steps s i x g t) (h : Issues s i x g) (hd : Undisturbed s g)
    (hteams : t.teams = s.teams) (hvdevs : t.vdevs = s.vdevs) (hk : Store.find t.groups x.gid = some k) :
    ∃ u, exec i s = .next u ∧ u.regsOf x.gid = some k.regs ∧ u.mem = t.mem ∧ u.teams = t.teams := by
  obtain ⟨hg, htid, -⟩ := issuing_group h.issuing
  have hdeb : (t.advance x i).debugged x.tid = false := by
    rw [State.debugged, State.advance, State.modFlow_teams, State.modFlow_vdevs, hteams, hvdevs, htid]
    exact hd.none
  have hadv : Store.find (t.advance x i).groups x.gid = some { k with flow := k.flow.stepped x i } := by
    simp [State.advance, State.modFlow, hk, Flow.stepped]
  obtain ⟨k', hfind, hregs, -⟩ := commit_group (i := i) hadv hdeb hd.step hd.soft
  refine ⟨_, hs, by rw [State.regsOf, hfind, Option.map_some, hregs], ?_, ?_⟩
  · rw [commit_mem hdeb hd.step hd.soft, State.advance, State.modFlow_mem]
  · rw [(commit_apart _ x g i hdeb hd.step hd.soft).teams, State.advance, State.modFlow_teams]

theorem accld_reads {s : State} {x : Issue} {g : Group} {d a : BitVec 7} {q : BitVec 2} {c : BitVec 5} {n : Nat}
    (ht : (s.openIssue x).tilesOf x.tid = some n) (hn : a.toNat < n)
    (hp : Store.get 0 ((s.openIssue x).core x.core).arr.pending a.toNat = 0)
    (hlost : ((s.openIssue x).core x.core).arr.accUpset.any (quarterKeys a.toNat q.toNat c.toNat x.act).contains = false)
    (hd : Undisturbed s g) (h : Issues s (.accld d a q c) x g) : ∃ t, exec (.accld d a q c) s = .next t ∧
      t.regsOf x.gid = some (readQuarter x d a q c ((s.openIssue x).core x.core).arr.acc g.regs) ∧ t.mem = s.mem ∧ t.teams = s.teams := by
  have hteams : (s.openIssue x).teams = s.teams := State.modOps_teams ..
  have hvdevs : (s.openIssue x).vdevs = s.vdevs := State.modOps_vdevs ..
  obtain ⟨t, he, hregs, hmem, ht⟩ := steps_leaves (accld_steps ht hn hp h hlost) h hd ((State.modRegs_teams ..).trans hteams)
    ((State.modRegs_vdevs ..).trans hvdevs) (k := { g with
      ops := stepWindows g.ops, regs := readQuarter x d a q c ((s.openIssue x).core x.core).arr.acc g.regs })
    (by simp [State.modRegs, openIssue_find (issuing_group h.issuing).1])
  refine ⟨t, he, hregs, hmem.trans ?_, ht.trans ((State.modRegs_teams ..).trans hteams)⟩
  exact (State.modRegs_mem ..).trans (State.modOps_mem ..)

/-! ### ALGLD -/

/-- What an ALGLD waits for at its issue: the accesses and the engine operations of its group on the bytes of its image (R222, R305). -/
def State.imageHolders (s : State) (x : Issue) (g : Group) (va : Nat) : List Nat :=
  s.before x.gid g { serial := g.issued, reads := true, places := s.globalPlaces x.core (s.vdevOf g) va 80 } ++
    s.engineHolders x.gid (s.globalLines x.core (s.vdevOf g) va 80) false

section

variable {s s1 : State} {x : Issue} {g : Group} {d a : BitVec 7} {img : List Byte} (h : Issues s (.algld d a) x g)

include h

theorem algld_misaligned (hva : g.regs.scAddr a.toNat % 16 ≠ 0) : Traps s (.algld d a) x g (x.trap .misaligned) :=
  issue_traps h (rfl : _ = execAlgld d a s) (if_pos hva)

variable (hva : g.regs.scAddr a.toNat % 16 = 0)

include hva

theorem algld_held (ha : (s.openIssue x).imageHolders x g (g.regs.scAddr a.toNat) ≠ []) :
    Waits s (.algld d a) x (.order ((s.openIssue x).imageHolders x g (g.regs.scAddr a.toNat))) :=
  issue_waits h (rfl : _ = execAlgld d a s) ((if_neg (not_not.mpr hva)).trans (if_pos (holders_wait ha)))

variable (ha : (s.openIssue x).imageHolders x g (g.regs.scAddr a.toNat) = [])

include ha

theorem algld_delayed (hread : (s.openIssue x).preciseRead ((s.openIssue x).party x.tid x.gid) (g.regs.scAddr a.toNat) 5 = .error .wait) :
    ∃ w, Waits s (.algld d a) x w ∧ (w = .full 4 ∨ ∃ l, w = .lock l) := by
  refine ⟨_, issue_waits h (rfl : _ = execAlgld d a s) ((if_neg (not_not.mpr hva)).trans ((if_neg (no_holder_waits ha)).trans (by rw [hread]; rfl))), ?_⟩
  cases (List.findSome? _ _ : Option Nat) with
  | none => exact .inl rfl
  | some l => exact .inr ⟨l, rfl⟩

variable (hread : (s.openIssue x).preciseRead ((s.openIssue x).party x.tid x.gid) (g.regs.scAddr a.toNat) 5 = .ok (img, s1))

include hread

theorem algld_invalid (hi : validImage img = false) : Traps s (.algld d a) x g (x.trap .algebraTableInvalid) :=
  issue_traps h (rfl : _ = execAlgld d a s) ((if_neg (not_not.mpr hva)).trans ((if_neg (no_holder_waits ha)).trans
    (by rw [hread]; exact if_pos (by rw [hi]; rfl))))

theorem algld_steps (hi : validImage img = true) : Steps s (.algld d a) x g
      (s1.modArr x.core fun r => { r with algLoads := r.algLoads ++ [⟨x.gid, d.toNat, img, leftBit img, x.clk + 25⟩] }) :=
  issue_steps h (rfl : _ = execAlgld d a s) ((if_neg (not_not.mpr hva)).trans ((if_neg (no_holder_waits ha)).trans
    (by rw [hread]; exact if_neg (by simp [hi]))))

end

theorem exec_algldComplete {s : State} {gid : Nat} {l : AlgLoad}
    (hl : ((s.core (coreOf gid)).arr.algLoads.find? fun l => l.gid == gid && decide (l.dueClk ≤ (s.core (coreOf gid)).clk)) = some l) :
    exec (.algldComplete gid) s = .next (s.modArr (coreOf gid) fun a =>
      { a with alg := Store.put a.alg l.slot ⟨l.image, l.left⟩, algLoads := a.algLoads.erase l }) := by
  change execAlgldComplete gid s = _
  simp only [execAlgldComplete, hl]

/-- Settles O37: an accumulator instruction by its tile, ACCZ and ACCST by the accumulators that they write, ACCLD by the registers, and ALGLD by
its image. What an ALGLD waits for and what an error in an accumulator does follow the model's reading (logs 20 and 43). -/
theorem accumulatorResult : Obligations.AccumulatorResult := by
  unfold Obligations.AccumulatorResult
  refine ⟨fun s x g d a q c => ⟨fun i hi h => ⟨fun ht => ?unheld, fun n ht hn hp => ?streamed⟩, fun n ht hn hp => ⟨fun h => ?accz, fun hlost h => ?lost,
      fun hlost hd h => ?accld, fun h => ?accst⟩⟩,
    fun s s1 x g d a img h => ⟨fun hva => ?misaligned, fun hva ha => ?held, fun hva ha hread => ?delayed,
      fun hva ha hread => ⟨fun hi => ?invalid, fun hi => ?algld⟩⟩, fun s gid l hl => ?complete⟩
  case unheld => exact acc_unheld hi h ht
  case streamed => exact acc_streamed ht hn hi h hp
  case accz => exact ⟨_, fun row n hn hrow => get_clearRows hrow hn, accz_steps ht hn hp h⟩
  case lost => exact accld_lost ht hn hp h hlost
  case accld => exact accld_reads ht hn hp hlost hd h
  case accst => exact ⟨_, fun l k hl hk => get_storeQuarter c.isLt hl hk, accst_steps ht hn hp h⟩
  case misaligned => exact algld_misaligned h hva
  case held => exact algld_held h hva ha
  case delayed => exact algld_delayed h hva ha hread
  case invalid => exact algld_invalid h hva ha hread hi
  case algld => exact algld_steps h hva ha hread hi
  case complete => exact exec_algldComplete hl

end Sys2Proof.Machine

/-! The array at issue (R182 to R193): what CLAMPLD, MMA and MMAR enter in the queues of their core's array, and the jig that OMAP reads. -/

namespace Sys2Proof.Machine

/-! ### CLAMPLD (R186 to R189) -/

/-- The jig of a slot of a team at a clk. -/
def State.jigOf (s : State) (x : Issue) (slot : Nat) : Option Jig := (Store.find s.teams x.tid).bind fun t => t.mem.jigAt x.clk slot

/-- The algebra slot that a CLAMPLD expands its fill by, when it does (R186). -/
def State.fillAlgebra (s : State) (x : Issue) (g : Group) (e : Bool) : Option AlgebraSlot :=
  if e then (s.core x.core).algebra (algSlot g.regs.gmode) else none

section

variable {s s1 : State} {x : Issue} {g : Group} {d a : BitVec 7} {j : BitVec 4} {e c l : Bool} {jg : Jig}
  (h : Issues s (.clampld d a j e c l) x g)

include h

theorem clampld_faults {f : FaultCode} (hf : clampFault ((s.openIssue x).tilesOf x.tid) ((s.openIssue x).jigOf x j.toNat)
    ((s.openIssue x).fillAlgebra x g e) a.toNat e l = some f) : Traps s (.clampld d a j e c l) x g (x.trap f) :=
  issue_traps h (rfl : _ = execClampld d a j e c l s) (by
    unfold State.jigOf State.fillAlgebra at hf
    simp only [hf])

variable (hf : clampFault ((s.openIssue x).tilesOf x.tid) ((s.openIssue x).jigOf x j.toNat) ((s.openIssue x).fillAlgebra x g e) a.toNat e l = none)
  (hj : (s.openIssue x).jigOf x j.toNat = some jg)

include hf hj

theorem clampld_full (hc : 255 ≤ g.eng.count 1) : Waits s (.clampld d a j e c l) x (.full 1) :=
  issue_waits h (rfl : _ = execClampld d a j e c l s) (by
    unfold State.jigOf State.fillAlgebra at *
    simp only [hj] at hf ⊢
    simp only [hf, hc, if_true])

theorem clampld_steps (hc : g.eng.count 1 < 255) (ht : (s.openIssue x).arrayTouch x g (jg.pieces 0) = .ok s1) :
    Steps s (.clampld d a j e c l) x g ((s1.modArr x.core fun r => { r with
      fills := r.fills ++ [{ serial := ((s.openIssue x).core x.core).arr.serial, opSerial := g.issued, gid := x.gid, tid := x.tid, dest := d.toNat,
                             slotJig := jg, bank := a.toNat,
                             desc := clampDesc jg ((s.openIssue x).fillAlgebra x g e) (algSlot g.regs.gmode) a.toNat c l,
                             algebra := (s.openIssue x).fillAlgebra x g e, pc := x.pc, slot := x.slot, mask := x.mask, issueClk := x.clk }],
      serial := r.serial + 1 }).modEng x.gid fun y => y.begin 1 g.issued) :=
  issue_steps h (rfl : _ = execClampld d a j e c l s) (by
    unfold State.jigOf State.fillAlgebra at *
    simp only [hj] at hf ⊢
    simp only [hf, Nat.not_le.mpr hc, if_false, ht])

end

/-! ### MMA and MMAR (R190 to R193) -/

/-- What a stream of a jig and a psel into a tile meets at its issue (R193). -/
def State.streamCheck (s : State) (x : Issue) (left : Bool) (tile slot psel bank : Nat) : Option FaultCode :=
  streamFault (s.tilesOf x.tid) (s.jigOf x slot) (s.core x.core).arr.descOf tile psel bank left

/-- No room is left for a stream in the queue, the leases or the counter of its group (R182, R192). -/
def State.streamFull (s : State) (x : Issue) (g : Group) : Bool :=
  decide (16 ≤ ((s.core x.core).arr.queue.filter fun o => !o.readDone).length) || decide (16 ≤ (s.core x.core).arr.leases.length) ||
    decide (255 ≤ g.eng.count 1)

/-- The array when a stream has entered it: its lease, its entry, and its tile's count (R182, R192). -/
def streamEntered (x : Issue) (g : Group) (left : Bool) (tile psel bank serial : Nat) (jg : Jig) (q : CoreArray) : CoreArray :=
  { q with
    leases := q.leases ++ [⟨serial, x.gid, x.tid, jg.lines⟩]
    queue := q.queue ++ [{ serial := serial, opSerial := g.issued, gid := x.gid, tid := x.tid, left := left, tile := tile, jig := jg, bank := bank,
                           psel := psel, lanes := x.act, pc := x.pc, slot := x.slot, mask := x.mask, issueClk := x.clk }]
    pending := Store.modify 0 q.pending tile (· + 1)
    serial := q.serial + 1 }

section

variable {s s1 : State} {x : Issue} {g : Group} {left : Bool} {tile slot psel bank : Nat} {jg : Jig}

theorem issueStream_faults {f : FaultCode} (hf : s.streamCheck x left tile slot psel bank = some f) :
    issueStream s x g left tile slot psel bank = .trap (x.trap f) := by
  unfold State.streamCheck State.jigOf at hf
  simp only [issueStream, hf]

variable (hf : s.streamCheck x left tile slot psel bank = none) (hj : s.jigOf x slot = some jg)

include hf hj

theorem issueStream_full (hfull : s.streamFull x g = true) : issueStream s x g left tile slot psel bank = .wait (.full 1) := by
  unfold State.streamCheck State.jigOf State.streamFull at *
  simp only [hj] at hf
  simp only [issueStream, hj, hf, hfull, if_true]

variable (hroom : s.streamFull x g = false) (ht : s.arrayTouch x g (jg.pieces psel) = .ok s1)

include hroom ht

theorem issueStream_entering : issueStream s x g left tile slot psel bank =
    if (banksOf jg.fmt bank).any (s.core x.core).arr.latchUpset then .trap { x.trap .uncorrectable with sites := [.core x.core] }
    else .done ((s1.modArr x.core (streamEntered x g left tile psel bank (s.core x.core).arr.serial jg)).modEng x.gid
      fun y => y.begin 1 g.issued) := by
  unfold State.streamCheck State.jigOf State.streamFull at *
  simp only [hj] at hf
  simp only [issueStream, hj, hf, hroom, Bool.false_eq_true, if_false, ht]
  rfl

end

/-- MMA and MMAR issue a stream of the right and of the left side (R190). -/
theorem exec_stream (s : State) (d a : BitVec 7) (j : BitVec 4) (b : BitVec 2) : ∀ p ∈ [(Instr.mma d a j b, false), (.mmar d a j b, true)],
    exec p.1 s = issue s p.1 fun s x g => issueStream s x g p.2 d.toNat a.toNat j.toNat b.toNat := by
  simp only [List.forall_mem_cons, List.not_mem_nil, IsEmpty.forall_iff, implies_true, and_true]
  exact ⟨(rfl : _ = execMma d a j b s), (rfl : _ = execMmar d a j b s)⟩

/-! ### OMAP (R184, R185) -/

section

variable {s s1 : State} {x : Issue} {g : Group} {d a : BitVec 7} {j : BitVec 4} {t : Team} (h : Issues s (.omap d a j) x g)
  (hteam : Store.find (s.openIssue x).teams x.tid = some t)

include h hteam

theorem omap_unheld (hheld : ((s.openIssue x).tilesOf x.tid).isSome = false) : Traps s (.omap d a j) x g (x.trap .accumRange) :=
  issue_traps h (rfl : _ = execOmap d a j s) (by
    rw [Option.isSome_eq_false_iff] at hheld
    simp only [hteam, hheld, if_true])

variable (hheld : ((s.openIssue x).tilesOf x.tid).isSome = true)

include hheld

theorem omap_misaligned (hoff : (g.regs.sc a.toNat).toNat % 32 ≠ 0) : Traps s (.omap d a j) x g (x.trap .misaligned) :=
  issue_traps h (rfl : _ = execOmap d a j s) (by
    simp only [hteam, Option.isNone_eq_false_iff.mpr hheld, Bool.false_eq_true, if_false, hoff, ne_eq, not_false_eq_true, if_true])

variable (hoff : (g.regs.sc a.toNat).toNat % 32 = 0)

include hoff

theorem omap_beyond (hb : t.id.stashBytes < (g.regs.sc a.toNat).toNat + 32) : Traps s (.omap d a j) x g (x.trap .mapInvalid) :=
  issue_traps h (rfl : _ = execOmap d a j s) (by
    simp only [hteam, Option.isNone_eq_false_iff.mpr hheld, Bool.false_eq_true, if_false, hoff, ne_eq, not_true_eq_false, hb, if_true])

variable (hb : (g.regs.sc a.toNat).toNat + 32 ≤ t.id.stashBytes)
  (ht : (s.openIssue x).arrayTouch x g [((g.regs.sc a.toNat).toNat, 32)] = .ok s1)

include hb ht

theorem omap_invalid (hv : validJig (s1.stashBytes x.tid (g.regs.sc a.toNat).toNat 32) t.id.stashBytes = false) :
    Traps s (.omap d a j) x g (x.trap .mapInvalid) :=
  issue_traps h (rfl : _ = execOmap d a j s) (by
    simp only [hteam, Option.isNone_eq_false_iff.mpr hheld, Bool.false_eq_true, if_false, hoff, ne_eq, not_true_eq_false, Nat.not_lt.mpr hb, ht, hv,
      Bool.not_false, if_true])

theorem omap_steps (hv : validJig (s1.stashBytes x.tid (g.regs.sc a.toNat).toNat 32) t.id.stashBytes = true) : Steps s (.omap d a j) x g
    ((s1.modTeamMem x.tid fun m => m.putJig x.clk j.toNat (jigOf (s1.stashBytes x.tid (g.regs.sc a.toNat).toNat 32)) (x.clk + 12)).modRegs x.gid
      fun r => r.setSc d.toNat 0x00200000) :=
  issue_steps h (rfl : _ = execOmap d a j s) (by
    simp only [hteam, Option.isNone_eq_false_iff.mpr hheld, Bool.false_eq_true, if_false, hoff, ne_eq, not_true_eq_false, Nat.not_lt.mpr hb, ht, hv,
      Bool.not_true])

end

/-- Settles O35: CLAMPLD by its checks and its fill, MMA and MMAR as one stream of either side, and OMAP by the jig that it reads. What they wait for,
and what an error in the latches does, follow the model's reading (logs 20 and 43). -/
theorem arrayIssue : Obligations.ArrayIssue := by
  unfold Obligations.ArrayIssue
  refine ⟨fun s s1 x g d a j e c l b => ⟨fun h => ⟨fun f hf => ?clampFaults, fun jg hf hj => ⟨fun hc => ?clampFull, fun hc ht => ?clampSteps⟩⟩,
      fun i left hi h => ⟨fun f hf => ?streamFaults, fun jg hf hj => ⟨fun hfull => ?streamFull, fun hroom ht hlost => ?streamLost,
        fun hroom ht hlost => ?streamSteps⟩⟩⟩,
    fun s s1 x g d a j t h hteam => ⟨fun hh => ?unheld, fun hh ho => ?misaligned, fun hh ho hb => ?beyond,
      fun hh ho hb ht => ⟨fun hv => ?invalid, fun hv => ?mapped⟩⟩⟩
  case clampFaults => exact clampld_faults h hf
  case clampFull => exact clampld_full h hf hj hc
  case clampSteps => exact clampld_steps h hf hj hc ht
  case streamFaults => exact issue_traps h (exec_stream s d a j b _ hi) (issueStream_faults hf)
  case streamFull => exact issue_waits h (exec_stream s d a j b _ hi) (issueStream_full hf hj hfull)
  case streamLost => exact issue_traps h (exec_stream s d a j b _ hi) ((issueStream_entering hf hj hroom ht).trans (if_pos hlost))
  case streamSteps =>
    exact issue_steps h (exec_stream s d a j b _ hi) ((issueStream_entering hf hj hroom ht).trans (if_neg (Bool.eq_false_iff.mp hlost)))
  case unheld => exact omap_unheld h hteam hh
  case misaligned => exact omap_misaligned h hteam hh ho
  case beyond => exact omap_beyond h hteam hh ho hb
  case invalid => exact omap_invalid h hteam hh ho hb ht hv
  case mapped => exact omap_steps h hteam hh ho hb ht hv

end Sys2Proof.Machine

/-! Copies and RECLD at issue (R172, R297 to R300, R394, R395): the checks in the order of R300, the queue entry with its stamps, and the record that
RECLD reads. -/

namespace Sys2Proof.Machine

/-- No room is left for a copy in the queue of its core or in the counter of its group (R300). -/
def State.copyFull (s : State) (x : Issue) (g : Group) : Bool := decide (32 ≤ (s.core x.core).copies.length) || decide (255 ≤ g.eng.count 0)

/-! ### CPIN, CPOUT, CPST and CPGATH (R298 to R300) -/

/-- The four copies issue in one way. -/
theorem exec_copy (s : State) (d a : BitVec 7) (l sl : BitVec 4) (st sg : Bool) : ∀ p ∈ [(Instr.cpin d a l sl st sg, CopyKind.cpin),
    (.cpout d a l sl st sg, .cpout), (.cpst d a l sl st sg, .cpst), (.cpgath d a l sl st sg, .cpgath)],
    exec p.1 s = issue s p.1 fun s x g => issueCopy s x g p.2 d a l sl st sg := by
  simp only [List.forall_mem_cons, List.not_mem_nil, IsEmpty.forall_iff, implies_true, and_true]
  exact ⟨(rfl : _ = execCpin d a l sl st sg s), (rfl : _ = execCpout d a l sl st sg s), (rfl : _ = execCpst d a l sl st sg s),
    (rfl : _ = execCpgath d a l sl st sg s)⟩

/-- What row 4 of R300 finds of a copy, whose record is there. -/
def State.copyCheck (s : State) (x : Issue) (g : Group) (t : Team) (kind : CopyKind) (a : BitVec 7) (sl : BitVec 4) (sg : Bool) : Option FaultCode :=
  (t.mem.recordAt x.clk sl.toNat).bind fun r => s.copyFault x.tid (copyPlaces kind (g.regs.scWords a.toNat 8) r sg)

/-- The record of a copy does not serve: it is not there, or of rank 1 for CPGATH (R299). -/
def recordLost (kind : CopyKind) : Option TensorRecord → Bool
  | none => true
  | some r => kind == .cpgath && decide (r.rank < 2)

/-- A state when a copy has entered it: its queue entry, which has read the operand block and the record, its count in c0 and the operation of its
group (R300). -/
def State.enterCopy (s : State) (x : Issue) (g : Group) (t : Team) (kind : CopyKind) (d a : BitVec 7) (l sl : BitVec 4) (st sg : Bool) : State :=
  let record := t.mem.recordAt x.clk sl.toNat
  ((s.modCore x.core fun c =>
    { c with
      copies := c.copies ++ [{ kind := kind, serial := c.copySerial, gid := x.gid, tid := x.tid, opSerial := g.issued, dest := d.toNat, stream := st,
                               sig := sg, record := if recordLost kind record then none else record, block := g.regs.scWords a.toNat 8,
                               issueClk := x.clk }]
      copySerial := c.copySerial + 1 }).modEng x.gid fun e => e.begin 0 g.issued).modOps x.gid fun q =>
    q ++ [{ newOp x g .copy l [⟨.S, d.toNat, 1⟩] with dest := d.toNat }]

/-- What a copy marks at its issue: its group when it writes out of the stash, and the tile of the group's tag (R395). -/
def State.markCopy (s : State) (x : Issue) (g : Group) (kind : CopyKind) : State :=
  let s1 := if kind = .cpout ∨ kind = .cpst then s.setUnrew x.gid else s
  if g.eng.tag = none then s1 else s1.stampPoint x.core g.eng.tagSlot (if kind = .cpout ∨ kind = .cpst then 6 else 1)

section

variable {s : State} {x : Issue} {g : Group} {t : Team} {kind : CopyKind} {d a : BitVec 7} {l sl : BitVec 4} {st sg : Bool}
  (hteam : Store.find s.teams x.tid = some t)

include hteam

theorem issueCopy_rights (hp : t.sync.producer ≠ some x.gid) : issueCopy s x g kind d a l sl st sg = .trap (x.trap .streamerRights) := by
  simp only [issueCopy, hteam, ne_eq, hp, not_false_eq_true, if_true]

variable (hp : t.sync.producer = some x.gid)

include hp

theorem issueCopy_faults {c : FaultCode} (hc : s.copyCheck x g t kind a sl sg = some c) :
    issueCopy s x g kind d a l sl st sg = .trap (x.trap c) := by
  unfold State.copyCheck at hc
  simp only [issueCopy, hteam, ne_eq, hp, not_true_eq_false, if_false, hc]

variable (hc : s.copyCheck x g t kind a sl sg = none)

include hc

theorem issueCopy_full (hf : s.copyFull x g = true) : issueCopy s x g kind d a l sl st sg = .wait (.full 0) := by
  unfold State.copyCheck State.copyFull at *
  simp only [issueCopy, hteam, ne_eq, hp, not_true_eq_false, if_false, hc, hf, Bool.true_or, if_true, waitFor]

variable (hf : s.copyFull x g = false)

include hf

theorem issueCopy_waits (hw : g.mustWait false = true) : issueCopy s x g kind d a l sl st sg = .wait (.order (g.before false)) := by
  unfold State.copyCheck State.copyFull at *
  simp only [issueCopy, hteam, ne_eq, hp, not_true_eq_false, if_false, hc, hf, hw, Bool.or_true, if_true, waitFor, Bool.false_eq_true]

theorem issueCopy_enters (hw : g.mustWait false = false) :
    issueCopy s x g kind d a l sl st sg = .done ((s.enterCopy x g t kind d a l sl st sg).markCopy x g kind) := by
  unfold State.copyCheck State.copyFull at *
  simp only [issueCopy, hteam, ne_eq, hp, not_true_eq_false, if_false, hc, hf, hw, Bool.or_self, Bool.false_eq_true, State.markCopy]
  cases g.eng.tag <;> cases kind <;> rfl

end

/-! ### RECLD (R172, R297) -/

/-- What a RECLD waits for at its issue: the accesses and the engine operations of its group on the bytes of its record (R222, R305). -/
def State.recordHolders (s : State) (x : Issue) (g : Group) (off : Nat) : List Nat :=
  s.before x.gid g { serial := g.issued, reads := true, places := s.stashPlaces x.tid off 64 } ++
    s.engineHolders x.gid (s.stashLines x.tid off 64) false

section

variable {s s1 : State} {x : Issue} {g : Group} {d a : BitVec 7} {sl : BitVec 4} {t : Team} (h : Issues s (.recld d a sl) x g)
  (hteam : Store.find (s.openIssue x).teams x.tid = some t)

include h hteam

theorem recld_misaligned (ho : (g.regs.sc a.toNat).toNat % 64 ≠ 0) : Traps s (.recld d a sl) x g (x.trap .misaligned) :=
  issue_traps h (rfl : _ = execRecld d a sl s) (by simp only [hteam]; exact if_pos ho)

variable (ho : (g.regs.sc a.toNat).toNat % 64 = 0)

include ho

theorem recld_beyond (hb : t.id.stashBytes < (g.regs.sc a.toNat).toNat + 64) : Traps s (.recld d a sl) x g (x.trap .recordInvalid) :=
  issue_traps h (rfl : _ = execRecld d a sl s) (by simp only [hteam, ho]; exact if_pos hb)

variable (hb : (g.regs.sc a.toNat).toNat + 64 ≤ t.id.stashBytes)

include hb

theorem recld_full (hf : (s.openIssue x).copyFull x g = true) : Waits s (.recld d a sl) x (.full 0) :=
  issue_waits h (rfl : _ = execRecld d a sl s) (by
    unfold State.copyFull at hf
    simp only [hteam, ho, ne_eq, not_true_eq_false, if_false, Nat.not_lt.mpr hb, hf, Bool.true_or, if_true, waitFor])

variable (hf : (s.openIssue x).copyFull x g = false)

include hf

theorem recld_held (ha : (s.openIssue x).recordHolders x g (g.regs.sc a.toNat).toNat ≠ []) :
    Waits s (.recld d a sl) x (.order ((s.openIssue x).recordHolders x g (g.regs.sc a.toNat).toNat)) :=
  issue_waits h (rfl : _ = execRecld d a sl s) (by
    have hw := holders_wait ha
    unfold State.copyFull State.recordHolders at *
    simp only [hteam, ho, ne_eq, not_true_eq_false, if_false, Nat.not_lt.mpr hb, hf, hw, Bool.or_true, if_true, waitFor, Bool.false_eq_true])

variable (ha : (s.openIssue x).recordHolders x g (g.regs.sc a.toNat).toNat = [])
  (ht : ((s.openIssue x).settlePath x.core ((s.openIssue x).stashPlaces x.tid (g.regs.sc a.toNat).toNat 64)).touch x.tid
    (g.regs.sc a.toNat).toNat 64 false = (s1, none))

include ha ht

theorem recld_invalid (hv : validRecord (s1.stashBytes x.tid (g.regs.sc a.toNat).toNat 64) = false) :
    Traps s (.recld d a sl) x g (x.trap .recordInvalid) :=
  issue_traps h (rfl : _ = execRecld d a sl s) (by
    have hw := no_holder_waits ha
    unfold State.copyFull State.recordHolders at *
    simp only [hteam, ho, ne_eq, not_true_eq_false, if_false, Nat.not_lt.mpr hb, hf, hw, Bool.false_or, Bool.false_eq_true, ht, hv, Bool.not_false, if_true])

theorem recld_steps (hv : validRecord (s1.stashBytes x.tid (g.regs.sc a.toNat).toNat 64) = true) : Steps s (.recld d a sl) x g
    ((((s1.modTeamMem x.tid fun m =>
      m.putRecord x.clk sl.toNat (recordOf (s1.stashBytes x.tid (g.regs.sc a.toNat).toNat 64)) (x.clk + 12)).modRegs x.gid fun r =>
        r.setSc d.toNat (statusWord 64 false 0)).modEng x.gid fun e => e.begin 0 g.issued).modCore x.core fun c =>
          { c with
            copies := c.copies ++ [{ kind := .recld, serial := c.copySerial, gid := x.gid, tid := x.tid, opSerial := g.issued, dest := d.toNat,
                                     stream := false, sig := false, record := none, block := [], issueClk := x.clk }]
            copySerial := c.copySerial + 1 }) :=
  issue_steps h (rfl : _ = execRecld d a sl s) (by
    have hw := no_holder_waits ha
    unfold State.copyFull State.recordHolders at *
    simp only [hteam, ho, ne_eq, not_true_eq_false, if_false, Nat.not_lt.mpr hb, hf, hw, Bool.false_or, Bool.false_eq_true, ht, hv, Bool.not_true])

end

/-- Settles O32: the four copies by the one way in which they issue, and RECLD by the record that it reads. What an issue waits for follows the model's
reading (log 20). -/
theorem copyIssue : Obligations.CopyIssue := by
  unfold Obligations.CopyIssue
  refine ⟨fun s x g d a l sl st sg t hteam i kind hi h => ⟨fun hp => ?rights, fun c hp hc => ?faults, fun hp hc hf => ?full, fun hp hc hf hw => ?waits,
      fun hp hc hf hw => ?enters⟩,
    fun s x g d a sl t h hteam => ⟨fun ho => ?misaligned, fun ho hb => ?beyond, fun ho hb hf => ?noRoom, fun ho hb hf ha => ?held,
      fun s1 ho hb hf ha ht => ⟨fun hv => ?invalid, fun hv => ?reads⟩⟩⟩
  case rights => exact issue_traps h (exec_copy s d a l sl st sg _ hi) (issueCopy_rights hteam hp)
  case faults => exact issue_traps h (exec_copy s d a l sl st sg _ hi) (issueCopy_faults hteam hp hc)
  case full => exact issue_waits h (exec_copy s d a l sl st sg _ hi) (issueCopy_full hteam hp hc hf)
  case waits => exact issue_waits h (exec_copy s d a l sl st sg _ hi) (issueCopy_waits hteam hp hc hf hw)
  case enters => exact issue_steps h (exec_copy s d a l sl st sg _ hi) (issueCopy_enters hteam hp hc hf hw)
  case misaligned => exact recld_misaligned h hteam ho
  case beyond => exact recld_beyond h hteam ho hb
  case noRoom => exact recld_full h hteam ho hb hf
  case held => exact recld_held h hteam ho hb hf ha
  case invalid => exact recld_invalid h hteam ho hb hf ha ht hv
  case reads => exact recld_steps h hteam ho hb hf ha ht hv

end Sys2Proof.Machine

/-! The algebra and the plane instructions (R197 to R199): each as a function of the group's registers, the algebra ones of a valid slot too. -/

namespace Sys2Proof.Machine

section

variable {s : State} {i : Instr} {x : Issue} {g : Group}

/-- An instruction that uses the algebra slot of gmode.ALG completes with what its function makes of the slot's image and of the group's registers
(R197, R198): counting the issue changes no core, so the slot is the one that the core held before. -/
theorem issueAlgebra_completes {f : AlgebraSlot → Issue → Regs → Regs} {al : AlgebraSlot} (hd : Undisturbed s g)
    (ha : (s.core x.core).algebra (algSlot g.regs.gmode) = some al) (he : exec i s = issueAlgebra s i f) (h : Issues s i x g) :
    Completes s i x g (f al x g.regs) := by
  refine issue_completes (s1 := (s.openIssue x).modRegs x.gid (f al x)) h hd he ?_ (Apart.modGroup _ _ _) ?_
  · simp only [openIssue_core, ha]
  · simp [State.modRegs, openIssue_find (issuing_group h.issuing).1]

/-- The scale byte of PNEXP is the low byte of its scalar register (R59, R199). -/
theorem scaleByte_eq (w : Word) : (w.extractLsb' 0 8).toNat = w.toNat % 256 := by
  simp only [BitVec.extractLsb'_toNat, Nat.shiftRight_zero, Nat.reducePow]

/-- PNEXP writes lane l of register d + k with the scaled element 4l + k (R199). -/
theorem pnexp_completes {d a b : BitVec 7} {c : Bool} {p : BitVec 3} (hd : Undisturbed s g) (h : Issues s (.pnexp d a b c p) x g) :
    Completes s (.pnexp d a b c p) x g
      ((List.range 4).foldl (fun q k => q.setVec x.act x.ready (d.toNat + k) (lanesBy fun l => BitVec.ofNat 32
        (scaledElem (floatCtl g.regs.gmode) (plankElem (plankByte (g.regs.vec a.toNat)) (p.toNat + 1) c (4 * l + k))
          ((g.regs.sc b.toNat).toNat % 256)))) g.regs) :=
  scaleByte_eq (g.regs.sc b.toNat) ▸ issueRegs_completes h hd (rfl : exec _ s = execPnexp d a b c p s) rfl

end

/-- Settles O9: the algebra instructions by the slot that they use, the plane instructions as functions of the group's registers. An issue has checked the
operands with the footprint of the slot's dimension (DEDUCED, log 17); the sign of the zero that PNEXP makes of an element 0 is the model's (DESIGN CHOICE,
log 45). -/
theorem algebraResult : Obligations.AlgebraResult := by
  unfold Obligations.AlgebraResult
  refine ⟨fun s x g d a b al hd ha => ⟨?hmul, ?hfma, ?hconj, ?hnorm⟩, fun s x g d a b c p hd => ⟨fun h => ?pnpk, fun h => ?pnunpk, ?pnexp⟩⟩
  case hmul => exact issueAlgebra_completes hd ha (rfl : exec _ s = execHmul d a b s)
  case hfma => exact issueAlgebra_completes hd ha (rfl : exec _ s = execHfma d a b s)
  case hconj => exact issueAlgebra_completes hd ha (rfl : exec _ s = execHconj d a s)
  case hnorm => exact issueAlgebra_completes hd ha (rfl : exec _ s = execHnorm d a s)
  case pnpk => exact issueRegs_completes h hd (rfl : exec _ s = execPnpk d a s) rfl
  case pnunpk => exact issueRegs_completes h hd (rfl : exec _ s = execPnunpk d a c p s) rfl
  case pnexp => exact pnexp_completes hd

end Sys2Proof.Machine

/-! What the matrix array does by itself (R182, R188 to R193, R217, R218): one lemma for each event, by the fill or the stream that it is for. -/

namespace Sys2Proof.Machine

section

variable {s : State} {core : Nat}

/-- A fill that may start takes its banks, which an uncorrectable word of its rows leaves as they were (R188, R218). -/
theorem exec_clampFillStart {f : ClampFill} (hf : (s.core core).arr.fillReady = some f) :
    exec (.clampFillStart core) s = .next (s.modArr core fun a => { a with
      banks := if s.piecesUpset f.tid (f.slotJig.pieces 0) then a.banks
        else (s.fillBanks f ((s.core core).clk + 72)).foldl (fun st b => Store.put st b.1 b.2) a.banks,
      fills := a.fills.map fun g =>
        if g.serial = f.serial then { g with start := some (s.core core).clk, spoiled := s.piecesUpset f.tid (f.slotJig.pieces 0) } else g }) := by
  change execClampFillStart core s = _
  simp only [execClampFillStart, hf]

/-- A fill that is complete leaves the array, writes its status and ends, with the error that it has met (R188, R218). -/
theorem exec_clampFillComplete {f : ClampFill} (hf : (s.core core).arr.fillDone (s.core core).clk = some f) :
    exec (.clampFillComplete core) s =
      let s1 := (s.modArr core fun a => { a with fills := a.fills.filter fun g => g.serial != f.serial }).modRegs f.gid
        fun r => r.setSc f.dest f.status
      .next ((if f.spoiled then s1.arrayError f.gid f.opSerial f.pc f.slot f.mask f.status else s1).finishWork f.gid 1 f.opSerial) := by
  change execClampFillComplete core s = _
  simp only [execClampFillComplete, hf]

/-- The first stream that may start does so with the banks that it names as they are then (R192). -/
theorem exec_arrayStreamStart {o : ArrayOp} (ho : (s.core core).arr.streamReady (s.core core).clk = some o) :
    exec (.arrayStreamStart core) s = .next ((s.modArr core fun a => a.modOp o.serial fun q =>
      { q with start := some (s.core core).clk, banks := o.banksUsed.map fun b => Store.get {} a.banks b }).stampOp o.gid 1 o.opSerial 4) := by
  change execArrayStreamStart core s = _
  simp only [execArrayStreamStart, ho]

/-- A stream that has read its last row holds its rows as the stash had them, and gives its lease up (R182, R193). -/
theorem exec_arrayLastRowRead {o : ArrayOp} (ho : (s.core core).arr.rowsRead (s.core core).clk = some o) :
    exec (.arrayLastRowRead core) s = .next ((s.countTeam o.tid 0x005 (o.jig.rows + 1)).modArr core fun a =>
      { a.modOp o.serial (fun q => { q with
          readDone := true,
          spoiled := s.piecesUpset o.tid (o.jig.pieces o.psel),
          rowBytes := (List.range (o.jig.rows + 1)).map fun m => s.stashBytes o.tid (o.jig.base + m * o.jig.stride) o.jig.rowBytes,
          rowScales := if o.jig.scaled then (s.stashBytes o.tid o.jig.scaleBase ((o.jig.rows + 1) * o.jig.kpl)).map (·.toNat) else [] }) with
        leases := a.leases.filter fun l => l.serial != o.serial
        lastRow := (s.core core).clk }) := by
  change execArrayLastRowRead core s = _
  simp only [execArrayLastRowRead, ho, upTo]

/-- The array when a stream has written its last accumulator: its sums, which an error that it has met holds back, and no entry or pending
count of it (R191, R192, R218). -/
def CoreArray.streamWritten (o : ArrayOp) (lost : Bool) (a : CoreArray) : CoreArray :=
  { a with
    acc := if lost then a.acc else o.keys.foldl (fun (st : Store Word) k => Store.set 0 st (accKey o.tile k.1 k.2)
      (BitVec.ofNat 32 (o.accumulate k.1 k.2 (Store.get 0 st (accKey o.tile k.1 k.2)).toNat))) a.acc
    pending := Store.set 0 a.pending o.tile (Store.get 0 a.pending o.tile - 1)
    queue := a.queue.filter fun q => q.serial != o.serial }

/-- A stream ends with its last accumulator write; one that has met an uncorrectable error ends with the code 0x08 for its class (R192, R218). -/
theorem exec_arrayLastAccumulatorWrite {o : ArrayOp} (ho : (s.core core).arr.lastWrite (s.core core).clk = some o) :
    exec (.arrayLastAccumulatorWrite core) s =
      let s1 := (s.countTeam o.tid 0x006 1).modArr core (CoreArray.streamWritten o ((s.core core).arr.failed o))
      .next (((if (s.core core).arr.failed o then s1.arrayError o.gid o.opSerial o.pc o.slot o.mask 0x08 else s1).stampOp o.gid 1 o.opSerial 5).finishWork
        o.gid 1 o.opSerial) := by
  change execArrayLastAccumulatorWrite core s = _
  simp only [execArrayLastAccumulatorWrite, ho]
  rfl

end

/-- Settles O36: each event by its lemma. A fill reads every row of the stash at the clk at which it starts (R188; DESIGN CHOICE, log 45), and what an
error does to a fill or a stream follows the model's reading (logs 20 and 43). -/
theorem arrayEvents : Obligations.ArrayEvents := by
  unfold Obligations.ArrayEvents
  exact fun s core => ⟨fun f => exec_clampFillStart, fun f => exec_clampFillComplete, fun o => exec_arrayStreamStart, fun o => exec_arrayLastRowRead,
    fun o => exec_arrayLastAccumulatorWrite⟩

end Sys2Proof.Machine

/-! O60: memory keeps its canonical form (R201): addresses strictly rise, and no byte is listed that an unlisted one reads as. Only the
writes of physical bytes and the frames that are cleared touch memory; every other operation of the model hands memory on, or hands it to
one of these. So there is one lemma for each operation, which follows the shape of its definition: an operation that answers a state answers
one in canonical form. -/

namespace Sys2Proof.Machine

/-! ### Answers that hold a state -/

/-- Every answer of an operation that may have to wait satisfies a predicate. -/
def OnSome {α : Type} (p : α → Prop) (o : Option α) : Prop := ∀ a, o = some a → p a

/-- Every answer of an operation that may fail satisfies a predicate. -/
def OnOk {ε α : Type} (p : α → Prop) (r : Except ε α) : Prop := ∀ a, r = .ok a → p a

/-- The next state, where there is one, satisfies a predicate. -/
def OnNext (p : State → Prop) (o : Host.Outcome State Fault Refusal) : Prop := ∀ t, o = .next t → p t

/-- The state that the body of an instruction answers has its memory in canonical form; what a held instruction does keeps that form. -/
def Res.memOk : Res → Prop
  | .done s | .stop s _ => s.memOk
  | .hold f _ => ∀ s, s.memOk → (f s).memOk
  | .trap _ | .wait _ => True

/-- So does the state that the body of a command answers, -/
def Reply.memOk : Reply → Prop
  | .done s _ | .answered s _ _ _ | .going s => s.memOk
  | .refused _ _ => True

/-- the state behind the fetch of an instruction, -/
def Fetched.memOk : Fetched → Prop
  | .instr _ s => s.memOk
  | .reject _ | .fail _ _ => True

/-- and the state that a plan goes on with. -/
def Plan.memOk : Plan → Prop
  | .run _ s | .command _ s | .rest s => s.memOk

section

variable {α β ε : Type} {p : α → Prop} {q : β → Prop} {s t : State} {c : Prop} [Decidable c]

theorem onSome_none : OnSome p none := fun _ h => nomatch h

theorem onSome_some {a : α} (h : p a) : OnSome p (some a) := fun _ e => Option.some.inj e ▸ h

theorem onSome_ite {a b : Option α} (ha : OnSome p a) (hb : OnSome p b) : OnSome p (if c then a else b) := by
  split
  · exact ha
  · exact hb

theorem onSome_map {f : β → α} {o : Option β} (hf : ∀ b, q b → p (f b)) (h : OnSome q o) : OnSome p (o.map f) := by
  cases o with
  | none => exact onSome_none
  | some b => exact onSome_some (hf b (h b rfl))

theorem onSome_map_of {f : β → α} {o : Option β} (hf : ∀ b, p (f b)) : OnSome p (o.map f) :=
  onSome_map (q := fun _ => True) (fun b _ => hf b) fun _ _ => trivial

theorem onSome_bind {f : β → Option α} {o : Option β} (h : OnSome q o) (hf : ∀ b, q b → OnSome p (f b)) : OnSome p (o.bind f) := by
  cases o with
  | none => exact onSome_none
  | some b => exact hf b (h b rfl)

theorem onSome_bind_of {f : β → Option α} {o : Option β} (hf : ∀ b, OnSome p (f b)) : OnSome p (o.bind f) :=
  onSome_bind (q := fun _ => True) (fun _ _ => trivial) fun b _ => hf b

theorem onSome_orElse {a b : Option α} (ha : OnSome p a) (hb : OnSome p b) : OnSome p (a <|> b) := by
  cases a with
  | none => exact hb
  | some a => exact ha

theorem onSome_findSome {f : β → Option α} {l : List β} (hf : ∀ b, OnSome p (f b)) : OnSome p (l.findSome? f) := fun a h => by
  obtain ⟨b, -, hb⟩ := List.exists_of_findSome?_eq_some h
  exact hf b a hb

theorem onSome_foldl {f : Option α → β → Option α} (hf : ∀ o b, OnSome p o → OnSome p (f o b)) {l : List β} {o : Option α} (h : OnSome p o) :
    OnSome p (l.foldl f o) :=
  List.foldlRecOn l f h fun o ho b _ => hf o b ho

theorem onOk_ok {a : α} (h : p a) : OnOk p (Except.ok a : Except ε α) := fun _ e => Except.ok.inj e ▸ h

theorem onOk_error {e : ε} : OnOk p (Except.error e : Except ε α) := fun _ h => nomatch h

theorem onOk_ite {a b : Except ε α} (ha : OnOk p a) (hb : OnOk p b) : OnOk p (if c then a else b) := by
  split
  · exact ha
  · exact hb

theorem onOk_map {f : β → α} {r : Except ε β} (hf : ∀ b, q b → p (f b)) (h : OnOk q r) : OnOk p (r.map f) := by
  cases r with
  | error e => exact onOk_error
  | ok b => exact onOk_ok (hf b (h b rfl))

theorem onNext_next (h : s.memOk) : OnNext State.memOk (.next s) := fun _ e => Host.Outcome.next.inj e ▸ h

theorem onNext_fault {f : Fault} : OnNext State.memOk (.fault f) := fun _ h => nomatch h

theorem onNext_ite {a b : Host.Outcome State Fault Refusal} (ha : OnNext State.memOk a) (hb : OnNext State.memOk b) :
    OnNext State.memOk (if c then a else b) := by
  split
  · exact ha
  · exact hb

theorem Res.memOk_ite {a b : Res} (ha : a.memOk) (hb : b.memOk) : (if c then a else b).memOk := by
  split
  · exact ha
  · exact hb

theorem Reply.memOk_ite {a b : Reply} (ha : a.memOk) (hb : b.memOk) : (if c then a else b).memOk := by
  split
  · exact ha
  · exact hb

theorem Plan.memOk_ite {a b : Plan} (ha : a.memOk) (hb : b.memOk) : (if c then a else b).memOk := by
  split
  · exact ha
  · exact hb

theorem memOk_ite (hs : s.memOk) (ht : t.memOk) : (if c then s else t).memOk := by
  split
  · exact hs
  · exact ht

theorem fst_memOk_ite {a b : State × α} (ha : a.1.memOk) (hb : b.1.memOk) : (if c then a else b).1.memOk := by
  split
  · exact ha
  · exact hb

theorem snd_memOk_ite {a b : α × State} (ha : a.2.memOk) (hb : b.2.memOk) : (if c then a else b).2.memOk := by
  split
  · exact ha
  · exact hb

/-- The state of a pair that an operation answers. -/
theorem fst_memOk {a : State × α} {b : α} (h : a.1.memOk) (e : a = (s, b)) : s.memOk := by subst e; exact h

theorem snd_memOk {a : α × State} {b : α} (h : a.2.memOk) (e : a = (b, s)) : s.memOk := by subst e; exact h

theorem memOk_getD {o : Option State} (ho : OnSome State.memOk o) (h : s.memOk) : (o.getD s).memOk := by
  cases o with
  | none => exact h
  | some t => exact ho t rfl

theorem memOk_foldl {f : State → β → State} (hf : ∀ s b, s.memOk → (f s b).memOk) {l : List β} {s : State} (h : s.memOk) : (l.foldl f s).memOk :=
  List.foldlRecOn l f h fun s hs b _ => hf s b hs

theorem snd_memOk_foldl {f : α × State → β → α × State} (hf : ∀ r b, r.2.memOk → (f r b).2.memOk) {l : List β} {r : α × State} (h : r.2.memOk) :
    (l.foldl f r).2.memOk :=
  List.foldlRecOn (motive := fun r => r.2.memOk) l f h fun r hr b _ => hf r b hr

/-! ### What reaches memory -/

variable {b : Store Group} {d : Store Bench} {e : Store Team} {f : Store ClusterBarrier} {g : Store Core} {i : Store Quad} {j : Store Part} {k : Store Vdev}
  {l : Wear} {m : Module} {n : Sched}

/-- A change of any other field. -/
theorem memOk_with (h : s.memOk) : State.memOk ⟨s.mem, b, d, e, f, g, i, j, k, l, m, n⟩ := h

theorem memOk_write {a : Nat} {x : Byte} (h : s.memOk) : State.memOk ⟨memWrite s.mem a x, b, d, e, f, g, i, j, k, l, m, n⟩ := memWrite_wf a x h

theorem memOk_writes {a : Nat} {data : List Byte} (h : s.memOk) : State.memOk ⟨memWrites s.mem a data, b, d, e, f, g, i, j, k, l, m, n⟩ :=
  memWrites_wf a data h

theorem memOk_filter {p : Nat × Byte → Bool} (h : s.memOk) : State.memOk ⟨if c then s.mem.filter p else s.mem, b, d, e, f, g, i, j, k, l, m, n⟩ := by
  split
  · exact filter_wf p h
  · exact h

end

section

variable {s : State}

/-! ### The named operations of the state -/

theorem reset_memOk : State.reset.memOk := rfl

theorem setCore_memOk {c x} (h : s.memOk) : (s.setCore c x).memOk := memOk_with h

theorem modCore_memOk {c f} (h : s.memOk) : (s.modCore c f).memOk := setCore_memOk h

theorem modMem_memOk {c f} (h : s.memOk) : (s.modMem c f).memOk := modCore_memOk h

theorem modArr_memOk {c f} (h : s.memOk) : (s.modArr c f).memOk := modCore_memOk h

theorem setGroup_memOk {g x} (h : s.memOk) : (s.setGroup g x).memOk := memOk_with h

theorem modGroup_memOk {g f} (h : s.memOk) : (s.modGroup g f).memOk := by
  unfold State.modGroup
  split
  · exact setGroup_memOk h
  · exact h

theorem modRegs_memOk {g f} (h : s.memOk) : (s.modRegs g f).memOk := modGroup_memOk h

theorem modFlow_memOk {g f} (h : s.memOk) : (s.modFlow g f).memOk := modGroup_memOk h

theorem modStops_memOk {g f} (h : s.memOk) : (s.modStops g f).memOk := modGroup_memOk h

theorem modEng_memOk {g f} (h : s.memOk) : (s.modEng g f).memOk := modGroup_memOk h

theorem modOps_memOk {g f} (h : s.memOk) : (s.modOps g f).memOk := modGroup_memOk h

theorem modTeam_memOk {t f} (h : s.memOk) : (s.modTeam t f).memOk := by
  unfold State.modTeam
  split
  · exact memOk_with h
  · exact h

theorem modTeamMem_memOk {t f} (h : s.memOk) : (s.modTeamMem t f).memOk := modTeam_memOk h

theorem modSync_memOk {t f} (h : s.memOk) : (s.modSync t f).memOk := modTeam_memOk h

theorem modBench_memOk {b f} (h : s.memOk) : (s.modBench b f).memOk := memOk_with h

theorem modQuad_memOk {q f} (h : s.memOk) : (s.modQuad q f).memOk := memOk_with h

theorem modLlc_memOk {q f} (h : s.memOk) : (s.modLlc q f).memOk := modQuad_memOk h

theorem modPart_memOk {p f} (h : s.memOk) : (s.modPart p f).memOk := by
  unfold State.modPart
  split
  · exact memOk_with h
  · exact h

theorem modDisp_memOk {p f} (h : s.memOk) : (s.modDisp p f).memOk := modPart_memOk h

theorem modFab_memOk {p f} (h : s.memOk) : (s.modFab p f).memOk := modPart_memOk h

theorem modVdev_memOk {v f} (h : s.memOk) : (s.modVdev v f).memOk := by
  unfold State.modVdev
  split
  · exact memOk_with h
  · exact h

theorem modCtx_memOk {v f} (h : s.memOk) : (s.modCtx v f).memOk := modVdev_memOk h

theorem modWear_memOk {f} (h : s.memOk) : (s.modWear f).memOk := memOk_with h

theorem modMod_memOk {f} (h : s.memOk) : (s.modMod f).memOk := memOk_with h

theorem modIdent_memOk {f} (h : s.memOk) : (s.modIdent f).memOk := modMod_memOk h

theorem modDie_memOk {d f} (h : s.memOk) : (s.modDie d f).memOk := modMod_memOk h

theorem stampPoint_memOk {core slot point} (h : s.memOk) : (s.stampPoint core slot point).memOk := modCore_memOk h

theorem stampOp_memOk {gid cls serial point} (h : s.memOk) : (s.stampOp gid cls serial point).memOk := by
  unfold State.stampOp
  split
  · exact h
  · exact stampPoint_memOk h

theorem stampFault_memOk {gid cls serial} (h : s.memOk) : (s.stampFault gid cls serial).memOk := by
  unfold State.stampFault
  split
  · exact h
  · exact modCore_memOk h

theorem choose_memOk (h : s.memOk) : s.choose.2.memOk := memOk_with h

theorem anyByte_memOk (h : s.memOk) : s.anyByte.2.memOk := memOk_with h

theorem anyNat_memOk {bound} (h : s.memOk) : (s.anyNat bound).2.memOk := memOk_with h

theorem anyBytes_memOk {n} (h : s.memOk) : (s.anyBytes n).2.memOk := by
  induction n generalizing s with
  | zero => exact h
  | succ n ih => exact ih (s := s.anyByte.2) (anyByte_memOk h)

theorem count_memOk {q vdev sel n} (h : s.memOk) : (s.count q vdev sel n).memOk := modQuad_memOk h

theorem countTeam_memOk {tid sel n} (h : s.memOk) : (s.countTeam tid sel n).memOk := by
  unfold State.countTeam
  split
  · exact count_memOk h
  · exact h

/-! ### Home slices, the last-level cache and the ordered store path -/

theorem logEvent_memOk {part e} (h : s.memOk) : (s.logEvent part e).memOk :=
  memOk_ite (modPart_memOk h) (memOk_ite (modPart_memOk h) (memOk_ite (modMod_memOk (modPart_memOk h)) (modPart_memOk h)))

theorem corrected_memOk {quad vdev code unit paddr} (h : s.memOk) : (s.corrected quad vdev code unit paddr).memOk := logEvent_memOk (count_memOk h)

theorem detect_memOk {site} (h : s.memOk) : (s.detect site).memOk := logEvent_memOk (count_memOk h)

theorem evictSector_memOk {a bad} (h : s.memOk) : (s.evictSector a bad).memOk := by
  unfold State.evictSector
  refine memOk_ite (modMod_memOk h) ?_
  extract_lets +onlyGivenNames s1
  have hs1 : s1.memOk := memOk_ite (modMod_memOk h) h
  split
  next e => exact memOk_writes (snd_memOk (anyBytes_memOk hs1) e)

theorem dropLine_memOk {q line vdev} (h : s.memOk) : (s.dropLine q line vdev).memOk := by
  unfold State.dropLine
  split
  · exact h
  · extract_lets +onlyGivenNames wb s1 s2 s3
    have hs1 : s1.memOk := modLlc_memOk h
    have hs2 : s2.memOk := memOk_ite (evictSector_memOk hs1) hs1
    have hs3 : s3.memOk := memOk_ite (evictSector_memOk hs2) hs2
    exact memOk_ite hs3 (count_memOk hs3)

theorem llcPut_memOk {q a vdev write full} (h : s.memOk) : OnSome State.memOk (s.llcPut q a vdev write full) := by
  unfold State.llcPut
  extract_lets +onlyGivenNames line hi c
  split
  · exact onSome_some (memOk_ite (count_memOk (modLlc_memOk h)) (memOk_ite (modLlc_memOk h) (count_memOk (modLlc_memOk h))))
  · extract_lets +onlyGivenNames owner same room
    have hroom : OnSome State.memOk room := onSome_ite (onSome_some h) (onSome_map_of (fun _ => dropLine_memOk h))
    exact onSome_map (fun _ h1 => memOk_ite (modLlc_memOk h1) (count_memOk (modLlc_memOk h1))) hroom

theorem llcStore_memOk {members a vdev data} (h : s.memOk) : (s.llcStore members a vdev data).memOk := by
  unfold State.llcStore
  split
  · exact memOk_writes h
  · split
    · next e1 => exact memOk_writes (llcPut_memOk h _ e1)
    · exact modMod_memOk h

theorem markDirty_memOk {vdev gpa} (h : s.memOk) : (s.markDirty vdev gpa).memOk := by
  unfold State.markDirty
  split
  · exact h
  · exact memOk_write (memOk_getD (onSome_bind_of (fun _ => llcPut_memOk h)) h)

theorem clearDirty_memOk {vdev page} (h : s.memOk) : (s.clearDirty vdev page).memOk := by
  unfold State.clearDirty
  split
  · exact h
  · exact memOk_write (memOk_getD (onSome_bind_of (fun _ => llcPut_memOk h)) h)

theorem writeBackLine_memOk {tid lineNo} (h : s.memOk) : (s.writeBackLine tid lineNo).memOk := by
  unfold State.writeBackLine
  split
  · exact h
  · split
    · exact h
    · split
      · exact h
      · extract_lets +onlyGivenNames clean members
        have hclean : clean.memOk := modTeamMem_memOk h
        split
        · exact modSync_memOk hclean
        · extract_lets +onlyGivenNames lost frame condemned s1 put
          have hs1 : s1.memOk := memOk_ite (modMod_memOk hclean) hclean
          have hput : ∀ s on off, s.memOk → (put s on off).memOk := fun _ _ _ h2 => memOk_ite (memOk_foldl (fun _ _ h3 => llcStore_memOk h3) h2) h2
          exact markDirty_memOk (hput _ _ _ (hput _ _ _ hs1))

theorem recallLine_memOk {tid lineNo} (h : s.memOk) : (s.recallLine tid lineNo).memOk := modTeamMem_memOk (writeBackLine_memOk h)

theorem directory_memOk {line write} (h : s.memOk) : OnSome State.memOk (s.directory line write) :=
  onSome_ite onSome_none (onSome_some (memOk_foldl (fun _ _ h0 => memOk_ite (recallLine_memOk h0) (writeBackLine_memOk h0)) h))

theorem recallSet_memOk {q a} (h : s.memOk) : (s.recallSet q a).memOk := by
  unfold State.recallSet
  split
  · exact memOk_getD (directory_memOk h) h
  · exact h

theorem llcSector_memOk {q a vdev write full} (h : s.memOk) : OnSome State.memOk (s.llcSector q a vdev write full) := by
  unfold State.llcSector
  split
  · next e0 => exact onSome_some (llcPut_memOk h _ e0)
  · exact llcPut_memOk (recallSet_memOk h)

theorem llcAccess_memOk {members a n vdev write covers} (h : s.memOk) : OnSome State.memOk (s.llcAccess members a n vdev write covers) := by
  unfold State.llcAccess
  split
  · exact onSome_some h
  · extract_lets +onlyGivenNames s0
    have hs0 : s0.memOk := modWear_memOk h
    exact onSome_foldl (fun _ _ h1 => onSome_bind h1 (fun _ h2 => onSome_ite (onSome_some h2) (llcSector_memOk h2))) (onSome_some hs0)

theorem applyAt_memOk {members a data} (h : s.memOk) : OnSome State.memOk (s.applyAt members a data) := by
  unfold State.applyAt
  extract_lets +onlyGivenNames s1
  have hs1 : s1.memOk := memOk_getD (directory_memOk h) h
  exact onSome_map (fun _ h0 => memOk_writes (memOk_foldl (fun _ _ h1 => detect_memOk h1) h0)) (llcAccess_memOk hs1)

theorem applyWrite_memOk {members a data} (h : s.memOk) : OnSome State.memOk (s.applyWrite members a data) :=
  onSome_foldl (fun _ _ h0 => onSome_bind h0 (fun _ h1 => applyAt_memOk h1)) (onSome_some h)

theorem coherentWrite_memOk {members a data} (h : s.memOk) : (s.coherentWrite members a data).memOk := by
  unfold State.coherentWrite
  refine memOk_foldl (fun _ x h0 => ?_) h
  split
  · exact h0
  · split
    · next e1 => exact (onSome_ite onSome_none (applyWrite_memOk h0)) _ e1
    · exact modMod_memOk h0

theorem applyHeld_memOk {w} (h : s.memOk) : OnSome State.memOk (s.applyHeld w) := by
  unfold State.applyHeld
  extract_lets +onlyGivenNames first
  split
  · exact onSome_none
  · exact onSome_ite (onSome_map (fun _ h0 => memOk_writes h0) (llcAccess_memOk (modMod_memOk h))) (applyWrite_memOk (modMod_memOk h))

theorem heldApplies_memOk (h : s.memOk) : OnSome State.memOk s.heldApplies := onSome_findSome (fun _ => applyHeld_memOk h)

theorem coherentRead_memOk {members a n vdev} (h : s.memOk) : OnSome State.memOk (s.coherentRead members a n vdev) := by
  unfold State.coherentRead
  refine onSome_foldl (fun acc line h0 => ?_) (onSome_some h)
  exact onSome_bind h0 (fun _ h1 => onSome_bind (directory_memOk h1) (fun _ h2 => llcAccess_memOk h2))

theorem writeBackTeam_memOk {tid} (h : s.memOk) : (s.writeBackTeam tid).memOk := by
  unfold State.writeBackTeam
  split
  · exact h
  · exact memOk_foldl (fun _ _ h1 => writeBackLine_memOk h1) h

theorem l1Drop_memOk {core line} (h : s.memOk) : (s.l1Drop core line).memOk := modMem_memOk h

theorem l1Clear_memOk {core} (h : s.memOk) : (s.l1Clear core).memOk := modMem_memOk h

theorem performStore_memOk {core p} (h : s.memOk) : (s.performStore core p).memOk := by
  unfold State.performStore
  extract_lets +onlyGivenNames s0 s1
  have hs0 : s0.memOk := memOk_foldl (fun _ _ h0 => recallLine_memOk h0) h
  have hs1 : s1.memOk := memOk_ite hs0 (memOk_getD (llcAccess_memOk hs0) hs0)
  exact modMem_memOk (memOk_writes hs1)

theorem drainStores_memOk {core last l} (h : s.memOk) : (s.drainStores core last l).1.memOk := by
  induction l generalizing s with
  | nil => exact h
  | cons p rest ih => exact fst_memOk_ite h (ih (performStore_memOk h))

theorem drainPath_memOk {core last} (h : s.memOk) : (s.drainPath core last).memOk := modMem_memOk (drainStores_memOk h)

/-! ### Translation and ownership -/

theorem walkReads_memOk {part vdev reads} (h : s.memOk) : OnSome State.memOk (s.walkReads part vdev reads) :=
  onSome_foldl (fun _ _ h0 => onSome_bind h0 (fun _ h1 => coherentRead_memOk h1)) (onSome_some h)

theorem lookup_memOk {part vdev v tlb va need} (h : s.memOk) : OnOk (fun r => r.2.memOk) (s.lookup part vdev v tlb va need) := by
  unfold State.lookup
  split
  · split
    · exact onOk_error
    · split
      · exact onOk_error
      · exact onOk_ok h
  · split
    · split
      · exact onOk_error
      · next e2 e3 =>
        exact onOk_error
      · next e2 e3 =>
        exact onOk_ok (walkReads_memOk h _ e2)

theorem translate_memOk {core vdev va need walkAhead} (h : s.memOk) : OnOk (fun r => r.2.memOk) (s.translate core vdev va need walkAhead) := by
  unfold State.translate
  split
  · exact onOk_error
  · extract_lets +onlyGivenNames part
    split
    · exact onOk_error
    · next e1 =>
      split
      · exact onOk_error
      · exact onOk_ok (memOk_ite (markDirty_memOk (modMem_memOk (lookup_memOk h _ e1))) (modMem_memOk (lookup_memOk h _ e1)))

theorem walked_memOk {core vdev va need} (h : s.memOk) : (s.walked core vdev va need).memOk := by
  unfold State.walked
  split
  · exact h
  · exact memOk_ite h (memOk_getD (walkReads_memOk h) h)

theorem servedReads_memOk {part vdev reads} (h : s.memOk) : (s.servedReads part vdev reads).memOk :=
  memOk_foldl (fun _ _ h0 => memOk_getD (coherentRead_memOk h0) h0) h

theorem locate_memOk {part vdev va need} (h : s.memOk) : (s.locate part vdev va need).1.memOk := by
  unfold State.locate
  split
  · exact h
  · exact servedReads_memOk h

theorem guestPage_memOk {part vdev gpa} (h : s.memOk) : (s.guestPage part vdev gpa).1.memOk := by
  unfold State.guestPage
  split
  · exact h
  · exact servedReads_memOk h

theorem servedBytes_memOk {part vdev a n} (h : s.memOk) : (s.servedBytes part vdev a n).1.memOk := by
  unfold State.servedBytes
  split
  · exact detect_memOk h
  · exact servedReads_memOk h

theorem guestWriteAux_memOk {part vdev fuel va data done} (h : s.memOk) : (s.guestWriteAux part vdev fuel va data done).1.memOk := by
  induction fuel generalizing s va data done with
  | zero => exact h
  | succ fuel ih =>
    unfold State.guestWriteAux
    split
    · exact h
    · extract_lets +onlyGivenNames n
      split
      · next e => exact fst_memOk (locate_memOk h) e
      · next e => exact ih (coherentWrite_memOk (markDirty_memOk (fst_memOk (locate_memOk h) e)))

theorem guestWrite_memOk {part vdev va data} (h : s.memOk) : (s.guestWrite part vdev va data).1.memOk := guestWriteAux_memOk h

theorem guestReadAux_memOk {part vdev fuel va n} (h : s.memOk) : (s.guestReadAux part vdev fuel va n).1.memOk := by
  induction fuel generalizing s va n with
  | zero => exact h
  | succ fuel ih =>
    unfold State.guestReadAux
    split
    · exact h
    · extract_lets +onlyGivenNames k
      split
      · next e => exact fst_memOk (locate_memOk h) e
      · next e =>
        have h0 := fst_memOk (locate_memOk h) e
        split
        · next e1 => exact fst_memOk (servedBytes_memOk h0) e1
        · next e1 =>
          have h1 := fst_memOk (servedBytes_memOk h0) e1
          split
          · next e2 => exact fst_memOk (ih h1) e2
          · next e2 => exact fst_memOk (ih h1) e2

theorem guestRead_memOk {part vdev va n} (h : s.memOk) : (s.guestRead part vdev va n).1.memOk := guestReadAux_memOk h

theorem dropTranslations_memOk {p} (h : s.memOk) : (s.dropTranslations p).memOk := memOk_with h

/-! ### Faults, aborts and the issue of an instruction -/

theorem writeRecord_memOk {part vdev r} (h : s.memOk) : (s.writeRecord part vdev r).memOk := by
  unfold State.writeRecord
  split
  · exact h
  · exact modVdev_memOk (guestWrite_memOk h)

theorem enterPending_memOk {part vdev} (h : s.memOk) : OnSome State.memOk (s.enterPending part vdev) := by
  unfold State.enterPending
  split
  · split
    · exact onSome_none
    · extract_lets +onlyGivenNames fix s1
      have hs1 : s1.memOk := writeRecord_memOk h
      refine onSome_some ?_
      split
      · exact modStops_memOk hs1
      · exact modVdev_memOk hs1
  · exact onSome_none

theorem flushPending_memOk {part vdev n} (h : s.memOk) : (s.flushPending part vdev n).memOk := by
  induction n generalizing s with
  | zero => exact h
  | succ n ih =>
    unfold State.flushPending
    split
    · next e => exact ih (enterPending_memOk h _ e)
    · exact h

theorem enterRecord_memOk {part vdev gid r} (h : s.memOk) : (s.enterRecord part vdev gid r).1.memOk := by
  unfold State.enterRecord
  extract_lets +onlyGivenNames s0
  have hs0 : s0.memOk := flushPending_memOk h
  split
  · exact hs0
  · extract_lets +onlyGivenNames idx
    split
    · exact fst_memOk_ite (modVdev_memOk hs0) (fst_memOk_ite (modStops_memOk hs0) (modVdev_memOk hs0))
    · exact writeRecord_memOk hs0

theorem hitTrigger_memOk {vdev gid kind value} (h : s.memOk) : (s.hitTrigger vdev gid kind value).memOk := by
  unfold State.hitTrigger
  split
  · exact h
  · split
    · exact h
    · exact memOk_ite (memOk_with (modVdev_memOk h)) h

theorem engineReport_memOk {gid w} (h : s.memOk) : (s.engineReport gid w).memOk := by
  unfold State.engineReport
  split
  · split
    · exact h
    · exact modEng_memOk (memOk_ite h (hitTrigger_memOk (enterRecord_memOk h)))
  · exact h

theorem finishWork_memOk {gid k serial} (h : s.memOk) : (s.finishWork gid k serial).memOk := by
  unfold State.finishWork
  split
  · exact h
  · exact memOk_foldl (fun _ _ h1 => engineReport_memOk h1) (modEng_memOk h)

theorem writeCompletion_memOk {part vdev p status reason f} (h : s.memOk) : (s.writeCompletion part vdev p status reason f).memOk :=
  memOk_ite h (guestWrite_memOk h)

theorem cancelDependents_memOk {part vdev bmp} (h : s.memOk) : (s.cancelDependents part vdev bmp).memOk := by
  unfold State.cancelDependents
  split
  · exact h
  · extract_lets +onlyGivenNames depends cancel lost s1
    have hs1 : s1.memOk := modDisp_memOk h
    refine memOk_foldl (fun _ q h0 => ?_) hs1
    exact memOk_foldl (fun _ _ h1 => memOk_ite h1 (modQuad_memOk (memOk_foldl (fun _ _ h2 => writeCompletion_memOk h2) h1))) h0

theorem dropOp_memOk {gid o} (h : s.memOk) : (s.dropOp gid o).memOk := modQuad_memOk (modPart_memOk (modCore_memOk (modGroup_memOk h)))

theorem dropOps_memOk {gid} (h : s.memOk) : (s.dropOps gid).memOk := by
  unfold State.dropOps
  split
  · exact h
  · exact modEng_memOk (memOk_foldl (fun _ _ h1 => memOk_ite (dropOp_memOk (memOk_with h1)) (memOk_with h1)) h)

theorem abortTeam_memOk {tid} (h : s.memOk) : (s.abortTeam tid).memOk := by
  unfold State.abortTeam
  extract_lets +onlyGivenNames core gs s1 s2 holds s3 s4 s6 s7
  have hs1 : s1.memOk := memOk_foldl (fun _ _ h0 => modGroup_memOk h0) h
  have hs2 : s2.memOk := modSync_memOk hs1
  have hs3 : s3.memOk := memOk_ite (modArr_memOk hs2) hs2
  have hs4 : s4.memOk := modMem_memOk hs3
  have hs6 : s6.memOk := memOk_foldl (fun _ _ h0 => dropOps_memOk h0) hs4
  have hs7 : s7.memOk := memOk_foldl (fun _ _ h0 => modBench_memOk h0) hs6
  exact modCore_memOk hs7

theorem abortLaunch_memOk {part launch f} (h : s.memOk) : (s.abortLaunch part launch f).memOk := by
  unfold State.abortLaunch
  split
  · exact h
  · split
    · exact h
    · exact cancelDependents_memOk (modVdev_memOk (memOk_with (memOk_foldl (fun _ _ h1 => abortTeam_memOk h1) (modDisp_memOk h))))

theorem reportFatal_memOk {part launch f} (h : s.memOk) : (s.reportFatal part launch f).memOk := modDisp_memOk h

theorem withdrawXacq_memOk {gid} (h : s.memOk) : (s.withdrawXacq gid).memOk := modBench_memOk h

theorem stopGroup_memOk {gid t idx} (h : s.memOk) : (s.stopGroup gid t idx).memOk := modStops_memOk (modGroup_memOk h)

theorem leaveXacq_memOk {gid} (h : s.memOk) : (s.leaveXacq gid).memOk := by
  unfold State.leaveXacq
  split
  · exact h
  · exact memOk_ite (modStops_memOk (withdrawXacq_memOk h)) h

theorem debugStopAt_memOk {gid n} (h : s.memOk) : (s.debugStopAt gid n).memOk := by
  unfold State.debugStopAt
  split
  · exact h
  · split
    · exact h
    · exact hitTrigger_memOk (modStops_memOk (modGroup_memOk (leaveXacq_memOk (enterRecord_memOk h))))

theorem debugStop_memOk {gid} (h : s.memOk) : (s.debugStop gid).memOk := by
  unfold State.debugStop
  split
  · exact h
  · exact memOk_ite h (memOk_ite (modStops_memOk h) (debugStopAt_memOk h))

theorem stopUnder_memOk {policy vdev tid gid} (h : s.memOk) : (s.stopUnder policy vdev tid gid).memOk := by
  unfold State.stopUnder
  split
  · split
    · exact debugStop_memOk h
    · exact h
  · exact memOk_foldl (fun _ _ h1 => debugStop_memOk h1) h
  · exact modCtx_memOk h

theorem touchPull_memOk {part vdev va} (h : s.memOk) : (s.touchPull part vdev va).memOk := by
  unfold State.touchPull
  split
  · exact modVdev_memOk h
  · exact h

theorem takeFault_memOk {gid t} (h : s.memOk) : (s.takeFault gid t).memOk := by
  unfold State.takeFault
  split
  · exact h
  · split
    · exact h
    · extract_lets +onlyGivenNames vdev part ctx kind rec' s0
      have hs0 : s0.memOk := by
        simp only [s0]
        split
        · exact modEng_memOk h
        · exact h
      clear_value s0 kind
      split
      next e =>
      extract_lets +onlyGivenNames sites s1
      have hs1 : s1.memOk := hitTrigger_memOk (memOk_foldl (fun _ _ h3 => detect_memOk h3) (fst_memOk (fst_memOk_ite hs0 (enterRecord_memOk hs0)) e))
      clear_value s1
      cases kind with
      | replayable => exact modStops_memOk (memOk_ite (touchPull_memOk hs1) hs1)
      | serviced => exact stopGroup_memOk hs1
      | engine => exact stopGroup_memOk hs1
      | debugger =>
        dsimp only
        split
        · exact stopUnder_memOk (stopGroup_memOk hs1)
        · exact stopGroup_memOk hs1
      | fatal => exact reportFatal_memOk (withdrawXacq_memOk (stopGroup_memOk (memOk_ite (logEvent_memOk (logEvent_memOk hs1)) (logEvent_memOk hs1))))

theorem failed_memOk {x : Issue} {addr f locked w} : (x.failed addr f locked w).memOk := by
  unfold Issue.failed
  split
  · exact trivial
  · exact trivial

theorem openIssue_memOk {x} (h : s.memOk) : (s.openIssue x).memOk := modOps_memOk h

theorem commitTiming_memOk {x g i} (h : s.memOk) : (s.commitTiming x g i).memOk := modCore_memOk (modBench_memOk (modGroup_memOk h))

theorem commitCounters_memOk {x g i} (h : s.memOk) : (s.commitCounters x g i).memOk := by
  unfold State.commitCounters
  split
  · exact h
  · extract_lets +onlyGivenNames q
    split
    · extract_lets +onlyGivenNames s1 s2 s3 deg s4 r s5
      have hs1 : s1.memOk := count_memOk h
      have hs2 : s2.memOk := memOk_ite hs1 (count_memOk hs1)
      have hs3 : s3.memOk := memOk_ite hs2 (count_memOk hs2)
      have hs4 : s4.memOk := memOk_ite hs3 (count_memOk hs3)
      have hs5 : s5.memOk := by
        unfold s5
        split
        · exact hs4
        · exact memOk_ite (memOk_ite (memOk_with (modPart_memOk hs4)) (modPart_memOk hs4)) hs4
      exact hitTrigger_memOk hs5

theorem advance_memOk {x i} (h : s.memOk) : (s.advance x i).memOk := modFlow_memOk h

theorem endStep_memOk {x g} (h : s.memOk) : (s.endStep x g).memOk := by
  unfold State.endStep
  split
  · exact h
  · split
    · exact h
    · exact memOk_ite h (memOk_ite (modStops_memOk h) (debugStopAt_memOk h))

theorem correctReads_memOk {x g i} (h : s.memOk) : (s.correctReads x g i).memOk :=
  memOk_ite h (memOk_foldl (fun _ _ h0 => corrected_memOk h0) (modRegs_memOk h))

theorem commitIssue_memOk {x g i} (h : s.memOk) : (s.commitIssue x g i).memOk := commitTiming_memOk (commitCounters_memOk (correctReads_memOk h))

theorem commit_memOk {x g i} (h : s.memOk) : (s.commit x g i).memOk := endStep_memOk (commitIssue_memOk h)

theorem stall_memOk {x w} (h : s.memOk) : (s.stall x w).memOk := modGroup_memOk h

theorem stopWhenDone_memOk {x g stop} (h : s.memOk) (hstop : stop.memOk) : (s.stopWhenDone x g stop).memOk := by
  unfold State.stopWhenDone
  split
  · exact hstop
  · exact stall_memOk h

theorem issueFlow_memOk {i body} (h : s.memOk) (hbody : ∀ s x g, s.memOk → (body s x g).memOk) : OnNext State.memOk (issueFlow s i body) := by
  unfold issueFlow
  split
  · exact onNext_fault
  · split
    · exact onNext_next (stopWhenDone_memOk h (takeFault_memOk h))
    · next x g _ _ _ =>
      have hb := hbody _ x g (openIssue_memOk (x := x) h)
      split
      · exact onNext_next (stopWhenDone_memOk h (takeFault_memOk h))
      · next e =>
        rw [e] at hb
        exact onNext_next (stopWhenDone_memOk h (takeFault_memOk (commitIssue_memOk hb)))
      · exact onNext_next (stall_memOk h)
      · next e =>
        rw [e] at hb
        exact onNext_next (stall_memOk (hb _ h))
      · next e =>
        rw [e] at hb
        exact onNext_next (commit_memOk hb)

theorem issue_memOk {i body} (h : s.memOk) (hbody : ∀ s x g, s.memOk → (body s x g).memOk) : OnNext State.memOk (issue s i body) :=
  issueFlow_memOk h fun s x g hs => by
    have hb := hbody s x g hs
    split
    · next e => exact advance_memOk (e ▸ hb :)
    · exact hb

theorem issueRegs_memOk {i f} (h : s.memOk) : OnNext State.memOk (issueRegs s i f) := by
  unfold issueRegs
  refine issue_memOk h (fun s x g h0 => ?_)
  split
  · exact modRegs_memOk h0
  · exact trivial

/-! ### Lane instructions -/

theorem issueAlgebra_memOk {i f} (h : s.memOk) : OnNext State.memOk (issueAlgebra s i f) := by
  unfold issueAlgebra
  refine issue_memOk h (fun s x g h0 => ?_)
  split
  · exact trivial
  · exact modRegs_memOk h0

theorem execHmul_memOk {d a b} (h : s.memOk) : OnNext State.memOk (execHmul d a b s) := issueAlgebra_memOk h

theorem execHfma_memOk {d a b} (h : s.memOk) : OnNext State.memOk (execHfma d a b s) := issueAlgebra_memOk h

theorem execHconj_memOk {d a} (h : s.memOk) : OnNext State.memOk (execHconj d a s) := issueAlgebra_memOk h

theorem execHnorm_memOk {d a} (h : s.memOk) : OnNext State.memOk (execHnorm d a s) := issueAlgebra_memOk h

/-! ### What follows a move of a group's slots -/

theorem releaseAt_memOk {core tid scope} (h : s.memOk) : (s.releaseAt core tid scope).memOk :=
  memOk_ite (writeBackTeam_memOk (memOk_ite (drainPath_memOk h) h)) (memOk_ite (drainPath_memOk h) h)

theorem acquireAt_memOk {core scope} (h : s.memOk) : (s.acquireAt core scope).memOk := memOk_ite (l1Clear_memOk h) h

theorem writeSpill_memOk {g ks} (h : s.memOk) : (s.writeSpill g ks).memOk := by
  unfold State.writeSpill
  split
  · exact h
  · exact memOk_ite (modTeamMem_memOk h) h

theorem setFlow_memOk {gid f} (h : s.memOk) : (s.setFlow gid f).memOk := by
  unfold State.setFlow
  split
  · exact h
  · exact modFlow_memOk (writeSpill_memOk h)

theorem moveFlow_memOk {gid f} (h : s.memOk) : (s.moveFlow gid f).memOk := memOk_ite (takeFault_memOk (setFlow_memOk h)) (setFlow_memOk h)

theorem startWait_memOk {gid w} (h : s.memOk) : (s.startWait gid w).memOk := modStops_memOk h

theorem departTeam_memOk {tid p delay} (h : s.memOk) : (s.departTeam tid p delay).memOk := memOk_foldl (fun _ _ h0 => memOk_ite h0 (modGroup_memOk h0)) h

theorem tryBarrier_memOk {tid id} (h : s.memOk) : (s.tryBarrier tid id).memOk := memOk_ite (departTeam_memOk (modSync_memOk h)) h

theorem tryBarriers_memOk {tid} (h : s.memOk) : (s.tryBarriers tid).memOk := memOk_foldl (fun _ _ h0 => tryBarrier_memOk h0) h

theorem tryCluster_memOk {tid} (h : s.memOk) : (s.tryCluster tid).memOk := by
  unfold State.tryCluster
  split
  · exact h
  · extract_lets +onlyGivenNames key
    split
    · exact h
    · extract_lets +onlyGivenNames ts mask
      split
      · extract_lets +onlyGivenNames s1
        have hs1 : s1.memOk := memOk_foldl (fun _ _ h2 => memOk_ite (releaseAt_memOk h2) h2) (memOk_with h)
        exact memOk_foldl (fun _ _ h2 => departTeam_memOk (acquireAt_memOk h2)) hs1
      · exact memOk_with h

theorem arrive_memOk {gid} (h : s.memOk) : (s.arrive gid).memOk := by
  unfold State.arrive
  split
  · exact h
  · split
    · exact h
    · dsimp only
      split
      · exact memOk_ite h (startWait_memOk (modSync_memOk h))
      · exact memOk_ite h (tryBarrier_memOk (startWait_memOk (modSync_memOk h)))
      · exact memOk_ite h (tryCluster_memOk (memOk_with (startWait_memOk (releaseAt_memOk h))))
      · exact h

theorem closeTile_memOk {gid} (h : s.memOk) : (s.closeTile gid).memOk := by
  unfold State.closeTile
  split
  · exact h
  · split
    · exact h
    · exact modCore_memOk (modEng_memOk h)

theorem exitArrives_memOk {gid} (h : s.memOk) : (s.exitArrives gid).memOk := by
  unfold State.exitArrives
  split
  · exact h
  · exact tryCluster_memOk (tryBarriers_memOk (memOk_ite (releaseAt_memOk (modSync_memOk h)) (modSync_memOk h)))

theorem exitGroup_memOk {gid} (h : s.memOk) : (s.exitGroup gid).memOk := by
  unfold State.exitGroup
  split
  · exact h
  · exact exitArrives_memOk (memOk_ite (modGroup_memOk h) (closeTile_memOk (modGroup_memOk h)))

theorem afterFlow_memOk {gid} (h : s.memOk) : (s.afterFlow gid).memOk := by
  unfold State.afterFlow
  extract_lets +onlyGivenNames clk s1
  have hs1 : s1.memOk := by
    unfold s1
    split
    · exact h
    · exact moveFlow_memOk h
  split
  · exact hs1
  · exact memOk_ite (exitGroup_memOk hs1) (arrive_memOk hs1)

/-! ### The stash -/

theorem l1DropAll_memOk {line} (h : s.memOk) : (s.l1DropAll line).memOk := memOk_with h

theorem recallOthers_memOk {tid lineNo phys} (h : s.memOk) : OnSome State.memOk (s.recallOthers tid lineNo phys) :=
  onSome_ite onSome_none (onSome_some (memOk_foldl (fun _ _ h0 => recallLine_memOk h0) h))

theorem bindLine_memOk {tid vdev w lineNo} (h : s.memOk) : OnOk (fun r => r.2.2.memOk) (s.bindLine tid vdev w lineNo) := by
  unfold State.bindLine
  extract_lets +onlyGivenNames va
  split
  · exact onOk_error
  · next e0 =>
    split
    · exact onOk_error
    · exact onOk_ok (translate_memOk h _ e0)

theorem fillLine_memOk {tid vdev w lineNo} (h : s.memOk) : OnOk State.memOk (s.fillLine tid vdev w lineNo) := by
  unfold State.fillLine
  extract_lets +onlyGivenNames core
  split
  · exact onOk_error
  · split
    · exact onOk_error
    · next s0 e0 =>
      have hs0 : s0.memOk := bindLine_memOk h _ e0
      extract_lets +onlyGivenNames line part src
      refine onOk_ite onOk_error ?_
      split
      · exact onOk_error
      · next e1 =>
        split
        · exact onOk_error
        · next e2 =>
          have h2 := coherentRead_memOk (directory_memOk (drainPath_memOk hs0) _ e1) _ e2
          exact onOk_ok (modTeamMem_memOk (l1DropAll_memOk (memOk_foldl (fun _ _ h3 => detect_memOk h3) h2)))

theorem touchLine_memOk {tid lineNo write whole} (h : s.memOk) : OnOk State.memOk (s.touchLine tid lineNo write whole) := by
  unfold State.touchLine
  split
  · exact onOk_error
  · split
    · exact onOk_ok h
    · refine onOk_ite onOk_error ?_
      extract_lets +onlyGivenNames present
      have hpresent : OnOk State.memOk present := by
        unfold present
        refine onOk_ite (onOk_ok h) ?_
        split
        · refine onOk_ite onOk_error ?_
          split
          · exact onOk_error
          · next e2 => exact onOk_ite onOk_error (onOk_ok (modTeamMem_memOk (l1DropAll_memOk (drainPath_memOk (bindLine_memOk h _ e2)))))
        · exact fillLine_memOk h
      clear_value present
      cases present with
      | error f => exact onOk_error
      | ok s1 =>
        have hs1 : s1.memOk := hpresent _ rfl
        refine onOk_ite (onOk_ok hs1) ?_
        split
        · exact onOk_ok hs1
        · split
          · exact onOk_error
          · next e4 => exact onOk_ok (recallOthers_memOk hs1 _ e4)

theorem touchLines_memOk {tid write covers l} (h : s.memOk) : (s.touchLines tid write covers l).1.memOk := by
  induction l generalizing s with
  | nil => exact h
  | cons line rest ih =>
    unfold State.touchLines
    split
    · exact h
    · next e => exact ih (touchLine_memOk h _ e)

theorem touch_memOk {tid off n write covers} (h : s.memOk) : (s.touch tid off n write covers).1.memOk := by
  have hl := touchLines_memOk (tid := tid) (write := write)
    (covers := fun l => covers l || (decide (off ≤ l * 128) && decide (l * 128 + 128 ≤ off + n))) (l := linesOf off n) h
  unfold State.touch
  split
  · next e => exact fst_memOk hl e
  · exact hl

theorem touchPieces_memOk {tid l} (h : s.memOk) : (s.touchPieces tid l).1.memOk := by
  induction l generalizing s with
  | nil => exact h
  | cons p rest ih =>
    unfold State.touchPieces
    split
    · next e => exact fst_memOk (touch_memOk h) e
    · next e => exact ih (fst_memOk (touch_memOk h) e)

theorem stashPut_memOk {tid off data} (h : s.memOk) : (s.stashPut tid off data).memOk := modTeamMem_memOk h

theorem execStashLineFill_memOk {tid line} (h : s.memOk) : OnNext State.memOk (execStashLineFill tid line s) := by
  unfold execStashLineFill
  split
  · exact onNext_next h
  · next e0 => exact onNext_next (touchLine_memOk h _ e0)

theorem execDirectoryRecall_memOk {line} (h : s.memOk) : OnNext State.memOk (execDirectoryRecall line s) := onNext_next (memOk_getD (directory_memOk h) h)

/-! ### Single accesses to global memory -/

theorem exported_memOk {part frame vdev} (h : s.memOk) : (s.exported part frame vdev).2.memOk := by
  unfold State.exported
  split
  · exact h
  · exact modFab_memOk (memOk_with h)

theorem forwarded_memOk {q phys} (h : s.memOk) : (s.forwarded q phys).2.memOk := by
  unfold State.forwarded
  split
  · exact h
  · split
    · exact h
    · split
      · exact h
      · split
        · next e3 => exact fst_memOk (guestPage_memOk h) e3
        · next e3 => exact fst_memOk (guestPage_memOk h) e3
        · next e3 => exact fst_memOk (guestPage_memOk h) e3

theorem fabricServe_memOk {q phys} (h : s.memOk) : (s.fabricServe q phys).2.memOk := by
  unfold State.fabricServe
  split
  · exact h
  · split
    · exact snd_memOk_ite (forwarded_memOk h) h
    · split
      · split
        · exact h
        · exact h
        · exact h
      · exact snd_memOk_ite h (snd_memOk_ite h (forwarded_memOk h))

theorem fabricEntry_memOk {p e frame} (h : s.memOk) : (s.fabricEntry p e frame).2.memOk := by
  unfold State.fabricEntry
  split
  · exact h
  · split
    next r w s1 e1 =>
    have hs1 : s1.memOk := by
      split at e1
      · extract_lets +onlyGivenNames f at e1
        split at e1
        · cases e1; exact h
        · cases e1; exact exported_memOk h
      · cases e1; exact memOk_with h
    exact snd_memOk_ite hs1 (modFab_memOk hs1)

theorem fabricReach_memOk {p a write} (h : s.memOk) : OnOk (fun r => r.2.memOk) (s.fabricReach p a write) := by
  unfold State.fabricReach
  split
  extract_lets +onlyGivenNames fab e
  split
  · exact onOk_error
  · split
    · exact onOk_error
    · next e1 =>
      have h1 := snd_memOk (fabricEntry_memOk h) e1
      refine onOk_ite onOk_error ?_
      split
      · split
        · next e2 => exact onOk_ok (snd_memOk (fabricServe_memOk h1) e2)
        · exact onOk_error
      · exact onOk_ite onOk_error (onOk_ok (choose_memOk h1))

theorem countFlits_memOk {p} (h : s.memOk) : (s.countFlits p).memOk := count_memOk (count_memOk (memOk_with (memOk_with h)))

theorem fabricRead_memOk {p a n} (h : s.memOk) : OnOk (fun r => r.2.memOk) (s.fabricRead p a n) := by
  unfold State.fabricRead
  split
  · exact onOk_error
  · next e0 =>
    split
    · exact onOk_error
    · split
      · exact onOk_error
      · split
        · exact onOk_error
        · next e2 => exact onOk_ok (coherentRead_memOk (fabricReach_memOk (countFlits_memOk h) _ e0) _ e2)
  · next e0 => exact onOk_ok (anyBytes_memOk (fabricReach_memOk (countFlits_memOk h) _ e0))

theorem fabricWrite_memOk {p a data} (h : s.memOk) : OnOk State.memOk (s.fabricWrite p a data) := by
  unfold State.fabricWrite
  split
  · exact onOk_error
  · next e0 => exact onOk_ite onOk_error (onOk_ok (coherentWrite_memOk (fabricReach_memOk (countFlits_memOk h) _ e0)))
  · next e0 => exact onOk_ok (fabricReach_memOk (countFlits_memOk h) _ e0)

theorem loseOps_memOk {gid c addr which} (h : s.memOk) : (s.loseOps gid c addr which).memOk := modOps_memOk h

theorem lockUpdate_memOk {part l} (h : s.memOk) : OnSome State.memOk (s.lockUpdate part l) :=
  onSome_ite onSome_none (onSome_foldl (fun _ _ h0 => onSome_bind h0 (fun _ h1 => applyAt_memOk h1)) (onSome_some h))

theorem commitLock_memOk {part l} (h : s.memOk) : (s.commitLock part l).memOk :=
  memOk_ite (loseOps_memOk (modPart_memOk h)) (modPart_memOk (memOk_getD (lockUpdate_memOk h) h))

theorem commitLocks_memOk {p} (h : s.memOk) : (s.commitLocks p).memOk := memOk_foldl (fun _ _ h0 => memOk_ite h0 (commitLock_memOk h0)) h

theorem replicaRead_memOk {p e a n} (h : s.memOk) : OnOk (fun r => r.2.memOk) (s.replicaRead p e a n) := by
  unfold State.replicaRead
  extract_lets +onlyGivenNames home
  split
  · exact onOk_error
  · split
    · exact onOk_error
    · next e0 =>
      split
      · exact onOk_error
      · split
        · exact onOk_error
        · next e2 => exact onOk_ok (coherentRead_memOk (directory_memOk h _ e0) _ e2)

theorem replicaLock_memOk {p t idx a data} (h : s.memOk) : OnOk State.memOk (s.replicaLock p t idx a data) := by
  unfold State.replicaLock
  split
  · exact onOk_error
  · exact onOk_ok (modPart_memOk h)

theorem noteStall_memOk {p serial line} (h : s.memOk) : (s.noteStall p serial line).memOk := modPart_memOk h

theorem l1Replace_memOk {core line} (h : s.memOk) : (s.l1Replace core line).memOk := memOk_ite (memOk_ite (l1Drop_memOk (memOk_with h)) (memOk_with h)) h

theorem plainRead_memOk {p a n fresh} (h : s.memOk) : OnOk (fun r => r.2.memOk) (s.plainRead p a n fresh) := by
  unfold State.plainRead
  split
  · exact onOk_error
  · next e0 =>
    extract_lets +onlyGivenNames own
    split
    · exact onOk_ok (directory_memOk h _ e0)
    · split
      · exact onOk_error
      · split
        · exact onOk_error
        · next e3 =>
          extract_lets +onlyGivenNames line s3
          have hs3 : s3.memOk := memOk_ite (llcAccess_memOk (directory_memOk h _ e0) _ e3) (modMem_memOk (llcAccess_memOk (directory_memOk h _ e0) _ e3))
          exact onOk_ok hs3

theorem pathPut_memOk {p page a data homed} (h : s.memOk) : (s.pathPut p page a data homed).memOk :=
  memOk_ite (drainPath_memOk (memOk_with (modMem_memOk h))) (memOk_with (modMem_memOk h))

theorem promote_memOk {core e} (h : s.memOk) : (s.promote core e).memOk := writeBackTeam_memOk (drainPath_memOk h)

theorem probeCore_memOk {core line} (h : s.memOk) : (s.probeCore core line).memOk := modMem_memOk (memOk_foldl (fun _ _ h0 => promote_memOk h0) h)

theorem logRoom_memOk {core line} (h : s.memOk) : (s.logRoom core line).memOk := by
  unfold State.logRoom
  split
  · exact h
  · exact modMem_memOk (promote_memOk h)

theorem logRelease_memOk {p line} (h : s.memOk) : (s.logRelease p line).memOk := memOk_ite (writeBackTeam_memOk (drainPath_memOk h)) (modMem_memOk h)

theorem execReleaseLogProbe_memOk {core line} (h : s.memOk) : OnNext State.memOk (execReleaseLogProbe core line s) :=
  onNext_ite (onNext_next h) (onNext_next (probeCore_memOk h))

theorem breakLock_memOk {part l} (h : s.memOk) : (s.breakLock part l).memOk := by
  unfold State.breakLock
  extract_lets +onlyGivenNames s1
  have hs1 : s1.memOk := by
    unfold s1
    split
    · exact h
    · refine modPart_memOk (snd_memOk_foldl (fun _ _ h1 => ?_) h)
      exact choose_memOk h1
  exact memOk_ite hs1 (commitLock_memOk hs1)

theorem rmwAt_memOk {p t a n new} (h : s.memOk) : OnOk (fun r => r.2.memOk) (s.rmwAt p t a n new) := by
  unfold State.rmwAt
  split
  · split
    · exact onOk_error
    · next e1 =>
      split
      · exact onOk_error
      · exact onOk_ite onOk_error (onOk_ok (coherentWrite_memOk (fabricReach_memOk (countFlits_memOk h) _ e1)))
    · next e1 => exact onOk_ok (anyBytes_memOk (fabricReach_memOk (countFlits_memOk h) _ e1))
  · split
    · exact onOk_error
    · split
      · extract_lets +onlyGivenNames s0
        have hs0 : s0.memOk := commitLocks_memOk h
        split
        · exact onOk_error
        · split
          · exact onOk_error
          · next e3 =>
            extract_lets +onlyGivenNames old
            split
            · exact onOk_error
            · next e4 => exact onOk_ok (replicaLock_memOk (coherentRead_memOk hs0 _ e3) _ e4)
      · split
        · exact onOk_error
        · split
          · exact onOk_error
          · next e2 =>
            split
            · exact onOk_error
            · next e3 => exact onOk_ok (memOk_writes (l1Drop_memOk (drainPath_memOk (llcAccess_memOk (directory_memOk h _ e2) _ e3))))

theorem readAt_memOk {p t a n fresh} (h : s.memOk) : OnOk (fun r => r.2.memOk) (s.readAt p t a n fresh) := by
  unfold State.readAt
  split
  · exact fabricRead_memOk h
  · split
    · split
      · exact onOk_error
      · exact replicaRead_memOk (commitLocks_memOk h)
    · exact onOk_ite (plainRead_memOk h) (plainRead_memOk (count_memOk (l1Replace_memOk h)))

theorem writeAt_memOk {p t page covers first a data} (h : s.memOk) : OnOk State.memOk (s.writeAt p t page covers first a data) := by
  unfold State.writeAt
  split
  · exact fabricWrite_memOk h
  · split
    · extract_lets +onlyGivenNames s0
      have hs0 : s0.memOk := commitLocks_memOk h
      split
      · exact onOk_error
      · exact replicaLock_memOk hs0
    · split
      · exact onOk_ok (pathPut_memOk h)
      · split
        · exact onOk_error
        · next e1 =>
          split
          · exact onOk_error
          · next e2 => exact onOk_ok (pathPut_memOk (memOk_foldl (fun _ _ h3 => detect_memOk h3) (llcAccess_memOk (directory_memOk h _ e1) _ e2)))

/-! ### Accesses of a group -/

theorem openOp_memOk {x o} (h : s.memOk) : (s.openOp x o).memOk := modOps_memOk (snd_memOk_ite h (memOk_with h))

theorem setUnrew_memOk {gid} (h : s.memOk) : (s.setUnrew gid).memOk := modFlow_memOk h

theorem openAccess_memOk {x o n store} (h : s.memOk) : (openAccess s x o n store).memOk := by
  unfold openAccess
  split
  · exact trivial
  · exact openOp_memOk (memOk_ite (setUnrew_memOk h) h)

theorem execLd_memOk {d a l z f} (h : s.memOk) : OnNext State.memOk (execLd d a l z f s) := issue_memOk h (fun _ _ _ h0 => openAccess_memOk h0)

theorem execSt_memOk {d a l z f} (h : s.memOk) : OnNext State.memOk (execSt d a l z f s) := issue_memOk h (fun _ _ _ h0 => openAccess_memOk h0)

theorem execSld_memOk {d a l z f} (h : s.memOk) : OnNext State.memOk (execSld d a l z f s) := issue_memOk h (fun _ _ _ h0 => openAccess_memOk h0)

theorem execSst_memOk {d a l z f} (h : s.memOk) : OnNext State.memOk (execSst d a l z f s) := issue_memOk h (fun _ _ _ h0 => openAccess_memOk h0)

theorem execAtom_memOk {d a l z o} (h : s.memOk) : OnNext State.memOk (execAtom d a l z o s) := issue_memOk h (fun _ _ _ h0 => openAccess_memOk h0)

theorem execAcqrm_memOk {d a l z f} (h : s.memOk) : OnNext State.memOk (execAcqrm d a l z f s) := issue_memOk h (fun _ _ _ h0 => openAccess_memOk h0)

theorem execRedld_memOk {d a l z f} (h : s.memOk) : OnNext State.memOk (execRedld d a l z f s) :=
  issue_memOk h (fun _ _ _ h0 => Res.memOk_ite trivial (openAccess_memOk (modEng_memOk h0)))

theorem execPref_memOk {r a l z f} (h : s.memOk) : OnNext State.memOk (execPref r a l z f s) := issue_memOk h (fun _ _ _ h0 => openOp_memOk h0)

theorem settlePath_memOk {core places} (h : s.memOk) : (s.settlePath core places).memOk := memOk_ite (drainPath_memOk h) h

theorem stashAccess_memOk {kind g tid off n data covers} (h : s.memOk) : OnOk (fun r => r.2.memOk) (s.stashAccess kind g tid off n data covers) := by
  unfold State.stashAccess
  split
  · split
    · exact onOk_error
    · next e1 => exact onOk_ok (fst_memOk (touch_memOk h) e1)
  · split
    · exact onOk_error
    · split
      · exact onOk_error
      · next e1 =>
        split
        · exact onOk_error
        · next e2 => exact onOk_ok (stashPut_memOk (fst_memOk (touch_memOk (fst_memOk (touch_memOk h) e1)) e2))
  · split
    · exact onOk_error
    · split
      · exact onOk_error
      · next e1 => exact onOk_ok (stashPut_memOk (fst_memOk (touch_memOk h) e1))

theorem laneAccess_memOk {p o a} (h : s.memOk) : OnOk (fun r => r.2.memOk) (s.laneAccess p o a) := by
  unfold State.laneAccess
  extract_lets +onlyGivenNames n logged
  have hlog : ∀ {line} {s1 : State}, s1.memOk → (if logged then s1.logRoom p.core line else s1).memOk := fun h1 => memOk_ite (logRoom_memOk h1) h1
  have hend : ∀ {line} {s1 : State}, s1.memOk → (if logged then s1.logRelease p line else s1).memOk := fun h1 => memOk_ite (logRelease_memOk h1) h1
  split
  · exact onOk_map (fun _ h1 => h1) (stashAccess_memOk h)
  · exact stashAccess_memOk h
  · exact stashAccess_memOk h
  · split
    · exact onOk_error
    · next e1 =>
      extract_lets +onlyGivenNames at' first
      refine onOk_ite onOk_error ?_
      split
      · exact onOk_error
      · next e2 => exact onOk_ok (hend (writeAt_memOk (hlog (translate_memOk h _ e1)) _ e2))
  · split
    · exact onOk_error
    · next e1 =>
      extract_lets +onlyGivenNames at' first
      refine onOk_ite onOk_error ?_
      split
      · exact onOk_error
      · next e2 => exact onOk_ok (hend (writeAt_memOk (hlog (translate_memOk h _ e1)) _ e2))
  · split
    · exact onOk_error
    · next e1 =>
      extract_lets +onlyGivenNames at'
      split
      refine onOk_ite onOk_error ?_
      split
      · exact onOk_error
      · next e3 => exact onOk_ok (hend (rmwAt_memOk (hlog (translate_memOk h _ e1)) _ e3))
  · split
    · exact onOk_error
    · next e1 =>
      split
      · exact onOk_error
      · exact onOk_ite (onOk_ok (anyBytes_memOk (memOk_with (translate_memOk h _ e1)))) onOk_error
  · split
    · exact onOk_error
    · next e1 => exact readAt_memOk (translate_memOk h _ e1)

theorem prefLine_memOk {p hint va} (h : s.memOk) : (s.prefLine p hint va).memOk := by
  unfold State.prefLine
  split
  · exact detect_memOk h
  · exact h
  · next e0 =>
    extract_lets +onlyGivenNames a bound
    split
    · exact h
    · split
      · exact detect_memOk h
      · split
        · split
          · next e2 => exact plainRead_memOk (translate_memOk h _ e0) _ e2
          · exact h
        · exact memOk_getD (llcAccess_memOk (translate_memOk h _ e0)) h

theorem accessWalked_memOk {p o a} (h : s.memOk) : (s.accessWalked p o a).memOk := by
  unfold State.accessWalked
  split
  · exact h
  · exact h
  · exact h
  · exact h
  · exact walked_memOk h
  · exact walked_memOk h
  · exact walked_memOk h
  · exact walked_memOk h

theorem run_memOk {p o l r} (h : r.s.memOk) : (Pass.run p o l r).s.memOk := by
  induction l generalizing r with
  | nil => exact h
  | cons a rest ih =>
    unfold Pass.run
    extract_lets +onlyGivenNames r1
    refine ih ?_
    unfold r1
    split
    · next e => exact laneAccess_memOk h _ e
    · exact h
    · exact accessWalked_memOk h
    · exact h
    · exact accessWalked_memOk h
    · exact h

theorem modOp_memOk {gid serial f} (h : s.memOk) : (s.modOp gid serial f).memOk := modOps_memOk h

theorem stampBack_memOk {gid o} (h : s.memOk) : (s.stampBack gid o).memOk := by
  unfold State.stampBack
  extract_lets +onlyGivenNames clk
  split
  · exact memOk_ite h (modRegs_memOk h)
  · exact memOk_ite h (modRegs_memOk h)
  · exact memOk_ite h (modRegs_memOk h)
  · exact memOk_ite h (modRegs_memOk h)
  · exact memOk_ite h (modRegs_memOk h)
  · exact memOk_ite h (modRegs_memOk h)
  · exact h

theorem writeBack_memOk {gid o unfinished got} (h : s.memOk) : (s.writeBack gid o unfinished got).memOk := by
  unfold State.writeBack
  extract_lets +onlyGivenNames late clk res n
  split
  · exact modRegs_memOk h
  · exact memOk_ite h (memOk_ite (modRegs_memOk h) (modGroup_memOk (modRegs_memOk h)))
  · exact memOk_ite h (memOk_ite (modRegs_memOk h) (modGroup_memOk (modRegs_memOk h)))
  · exact memOk_ite h (memOk_ite (modRegs_memOk h) (modGroup_memOk (modRegs_memOk h)))
  · exact memOk_ite h (memOk_ite (modRegs_memOk h) (modGroup_memOk (modRegs_memOk h)))
  · exact memOk_ite h (memOk_ite (modRegs_memOk h) (modGroup_memOk (modRegs_memOk h)))
  · exact memOk_ite h (memOk_ite (modRegs_memOk h) (modGroup_memOk (modRegs_memOk h)))
  · exact h

theorem noteLane_memOk {p o a} (h : s.memOk) : (s.noteLane p o a).memOk := by
  unfold State.noteLane
  extract_lets +onlyGivenNames line
  cases line with
  | some l => exact noteStall_memOk h
  | none => exact h

theorem endPass_memOk {p o r later} (h : r.s.memOk) : (s.endPass p o r later).memOk := by
  unfold State.endPass
  extract_lets +onlyGivenNames clk s0 s1
  have hs0 : s0.memOk := memOk_foldl (fun _ _ h0 => detect_memOk h0) (writeBack_memOk h)
  have hs1 : s1.memOk := memOk_ite hs0 (memOk_foldl (fun _ _ h0 => noteLane_memOk h0) hs0)
  split
  · exact memOk_ite (modOp_memOk hs1) (modOp_memOk hs1)
  · split
    · exact modOp_memOk hs1
    · split
      · exact modOp_memOk (memOk_with hs1)
      · split
        · exact modOp_memOk hs1
        · extract_lets +onlyGivenNames s2 s3
          have hs2 : s2.memOk := memOk_ite (acquireAt_memOk hs1) hs1
          have hs3 : s3.memOk := modOp_memOk (stampBack_memOk hs2)
          split
          · exact finishWork_memOk hs3
          · exact hs3

theorem runOp_memOk {gid g o} (h : s.memOk) : (s.runOp gid g o).memOk := by
  unfold State.runOp
  extract_lets +onlyGivenNames src p clk later
  have hlater : ∀ s, s.memOk → (later s).memOk := fun _ h0 => modOp_memOk h0
  split
  · exact modOp_memOk (memOk_foldl (fun _ _ h1 => prefLine_memOk h1) h)
  · exact memOk_ite (modOp_memOk h) h
  · exact h
  · exact h
  · exact h
  · exact h
  · split
    · exact endPass_memOk (run_memOk h)
    · split
      · exact endPass_memOk (run_memOk h)
      · split
        · exact memOk_ite (hlater _ h) (endPass_memOk (modPart_memOk (run_memOk (memOk_foldl (fun _ _ h2 => probeCore_memOk h2) h))))
        · exact memOk_ite (hlater _ h) (modOp_memOk (modPart_memOk h))
  · split
    · exact hlater _ h
    · extract_lets +onlyGivenNames s1 s2
      have hs1 : s1.memOk := memOk_ite (releaseAt_memOk h) h
      have hs2 : s2.memOk := commitLocks_memOk hs1
      exact endPass_memOk (run_memOk hs2)

theorem reportOp_memOk {gid g o c addr} (h : s.memOk) : (s.reportOp gid g o c addr).memOk := by
  unfold State.reportOp
  extract_lets +onlyGivenNames other resume aborted ended s0 s1 trap
  have hs0 : s0.memOk := modOp_memOk h
  have hs1 : s1.memOk := memOk_ite (finishWork_memOk hs0) hs0
  exact memOk_ite hs1 (takeFault_memOk hs1)

theorem execLongLatencyComplete_memOk {gid op} (h : s.memOk) : OnNext State.memOk (execLongLatencyComplete gid op s) := by
  unfold execLongLatencyComplete
  split
  · exact onNext_next h
  · split
    · exact onNext_next h
    · split
      · exact onNext_next h
      · split
        · exact onNext_ite (onNext_next (reportOp_memOk h)) (onNext_next h)
        · exact onNext_next (runOp_memOk h)

theorem execRedldResponse_memOk {gid lane value reachable} (h : s.memOk) : OnNext State.memOk (execRedldResponse gid lane value reachable s) := by
  unfold execRedldResponse
  split
  · exact onNext_next h
  · split
    · exact onNext_next h
    · extract_lets +onlyGivenNames p
      split
      · exact onNext_next h
      · extract_lets +onlyGivenNames later
        split
        · exact onNext_next h
        · next e3 =>
          split
          · exact onNext_next (endPass_memOk (translate_memOk h _ e3))
          · split
            · exact onNext_next (endPass_memOk (translate_memOk h _ e3))
            · exact onNext_next (endPass_memOk (translate_memOk h _ e3))

theorem departLater_memOk {x} (h : s.memOk) : (s.departLater x).memOk := modGroup_memOk h

theorem execFence_memOk {f i} (h : s.memOk) : OnNext State.memOk (execFence f i s) := by
  unfold execFence
  refine issue_memOk h (fun s x g h0 => ?_)
  extract_lets +onlyGivenNames ord scope
  split
  · exact h0
  · split
    · exact trivial
    · exact departLater_memOk (memOk_ite (acquireAt_memOk (memOk_ite (releaseAt_memOk h0) h0)) (memOk_ite (releaseAt_memOk h0) h0))

/-! ### Stash and lane-store instructions -/

theorem stashIssue_memOk {x g kind d a z off regs} (h : s.memOk) : (stashIssue s x g kind d a z off regs).memOk := by
  unfold stashIssue
  extract_lets +onlyGivenNames n store
  split
  · exact trivial
  · split
    · exact trivial
    · extract_lets +onlyGivenNames data src o rel places s0 after
      have hs0 : s0.memOk := settlePath_memOk h
      split
      · exact trivial
      · split
        · exact trivial
        · extract_lets +onlyGivenNames s1 r
          have hs1 : s1.memOk := memOk_ite (releaseAt_memOk hs0) hs0
          have hr : r.s.memOk := run_memOk hs1
          split
          · exact trivial
          · split
            · exact trivial
            · extract_lets +onlyGivenNames s2 s3
              have hs2 : s2.memOk := by
                unfold s2
                split
                · exact setUnrew_memOk hr
                · exact hr
              have hs3 : s3.memOk := by
                unfold s3
                split
                · exact hs2
                · exact modRegs_memOk hs2
              split
              · exact memOk_ite (acquireAt_memOk hs3) hs3
              · exact modOps_memOk hs3

theorem execLds_memOk {d a z f} (h : s.memOk) : OnNext State.memOk (execLds d a z f s) := issue_memOk h (fun _ _ _ h0 => stashIssue_memOk h0)

theorem execSts_memOk {d a z f} (h : s.memOk) : OnNext State.memOk (execSts d a z f s) := issue_memOk h (fun _ _ _ h0 => stashIssue_memOk h0)

theorem execAtoms_memOk {d a z o} (h : s.memOk) : OnNext State.memOk (execAtoms d a z o s) := issue_memOk h (fun _ _ _ h0 => stashIssue_memOk h0)

theorem execLdl_memOk {d a z f} (h : s.memOk) : OnNext State.memOk (execLdl d a z f s) := by
  unfold execLdl
  refine issue_memOk h (fun s x g h0 => ?_)
  extract_lets +onlyGivenNames n off
  split
  · exact trivial
  · exact Res.memOk_ite trivial (modRegs_memOk h0)

theorem execStl_memOk {d a z f} (h : s.memOk) : OnNext State.memOk (execStl d a z f s) := by
  unfold execStl
  refine issue_memOk h (fun s x g h0 => ?_)
  extract_lets +onlyGivenNames n off
  split
  · exact trivial
  · exact modTeamMem_memOk h0

theorem engineFault_memOk {gid cls c status o addr} (h : s.memOk) : (s.engineFault gid cls c status o addr).memOk := by
  unfold State.engineFault
  split
  · exact h
  · split
    · exact h
    · exact modEng_memOk (stampFault_memOk h)

theorem execMcst_memOk {d a l z f} (h : s.memOk) : OnNext State.memOk (execMcst d a l z f s) := by
  unfold execMcst
  refine issue_memOk h (fun s x g h0 => ?_)
  split
  · exact h0
  · extract_lets +onlyGivenNames n w m m' off rel places bytes after
    split
    · exact trivial
    · extract_lets +onlyGivenNames src o s1
      have hs1 : s1.memOk := modEng_memOk (setUnrew_memOk h0)
      split
      · exact modOps_memOk hs1
      · exact Res.memOk_ite (finishWork_memOk (modOps_memOk hs1)) (modOps_memOk (memOk_ite (releaseAt_memOk hs1) hs1))

theorem mcstLanes_memOk {tid n covers l} (h : s.memOk) : OnSome (fun r => r.1.memOk) (s.mcstLanes tid n covers l) := by
  induction l generalizing s with
  | nil => exact onSome_some h
  | cons a rest ih =>
    unfold State.mcstLanes
    split
    · next e => exact ih (stashAccess_memOk h _ e)
    · exact onSome_none
    · exact onSome_none
    · exact onSome_some h
    · exact onSome_some h
    · exact onSome_some (detect_memOk h)

theorem mcstWrite_memOk {g o rank} (h : s.memOk) : OnSome (fun r => r.1.memOk) (s.mcstWrite g o rank) := by
  unfold State.mcstWrite
  split
  · exact onSome_some h
  · exact mcstLanes_memOk h

theorem execMcstDestinationWrite_memOk {gid rank} (h : s.memOk) : OnNext State.memOk (execMcstDestinationWrite gid rank s) := by
  unfold execMcstDestinationWrite
  split
  · exact onNext_next h
  · next g _ =>
    extract_lets +onlyGivenNames clk due
    have hdue : OnSome (fun r => r.2.1.memOk) (due.findSome? fun o => (s.mcstWrite g o rank).map fun r => (o, r)) :=
      onSome_findSome fun _ => onSome_map (fun _ h2 => h2) (mcstWrite_memOk h)
    split
    · exact onNext_next (memOk_foldl (fun _ _ h2 => modOp_memOk h2) h)
    · next s1 bad e1 =>
      have hs1 : s1.memOk := hdue _ e1
      extract_lets +onlyGivenNames left s2 s3
      have hs2 : s2.memOk := by
        unfold s2
        split
        · exact engineFault_memOk hs1
        · exact hs1
      have hs3 : s3.memOk := modOp_memOk hs2
      exact onNext_next (memOk_ite (finishWork_memOk hs3) hs3)

/-! ### The matrix array -/

theorem arrayTouch_memOk {x g pieces} (h : s.memOk) : OnOk State.memOk (s.arrayTouch x g pieces) := by
  unfold State.arrayTouch
  extract_lets +onlyGivenNames places
  split
  · exact onOk_error
  · split
    · next e1 => exact onOk_ok (fst_memOk (touchPieces_memOk (settlePath_memOk h)) e1)
    · exact onOk_error

/-- What the reads of the array's pieces answer when they fail holds no state. -/
theorem arrayTouch_error {x g l r} (e : s.arrayTouch x g l = .error r) : r.memOk := by
  unfold State.arrayTouch at e
  dsimp only at e
  split at e
  · cases e; exact trivial
  · split at e
    · cases e
    · cases e; exact failed_memOk

theorem execOmap_memOk {d a j} (h : s.memOk) : OnNext State.memOk (execOmap d a j s) := by
  unfold execOmap
  refine issue_memOk h (fun s x g h0 => ?_)
  split
  · exact h0
  · refine Res.memOk_ite trivial (Res.memOk_ite trivial (Res.memOk_ite trivial ?_))
    split
    · next e2 => exact arrayTouch_error e2
    · next e2 => exact Res.memOk_ite trivial (modRegs_memOk (modTeamMem_memOk (arrayTouch_memOk h0 _ e2)))

theorem execClampld_memOk {d a j e c l} (h : s.memOk) : OnNext State.memOk (execClampld d a j e c l s) := by
  unfold execClampld
  refine issue_memOk h (fun s x g h0 => ?_)
  extract_lets +onlyGivenNames core jig alg
  split
  · exact trivial
  · exact trivial
  · split
    · exact trivial
    · split
      · next e3 => exact arrayTouch_error e3
      · next e3 => exact modEng_memOk (modArr_memOk (arrayTouch_memOk h0 _ e3))

theorem execClampFillStart_memOk {core} (h : s.memOk) : OnNext State.memOk (execClampFillStart core s) := by
  unfold execClampFillStart
  split
  · exact onNext_next h
  · exact onNext_next (modArr_memOk h)

theorem arrayError_memOk {gid serial pc slot mask status} (h : s.memOk) : (s.arrayError gid serial pc slot mask status).memOk :=
  engineFault_memOk (detect_memOk h)

theorem execClampFillComplete_memOk {core} (h : s.memOk) : OnNext State.memOk (execClampFillComplete core s) := by
  unfold execClampFillComplete
  split
  · exact onNext_next h
  · exact onNext_next (finishWork_memOk (memOk_ite (arrayError_memOk (modRegs_memOk (modArr_memOk h))) (modRegs_memOk (modArr_memOk h))))

theorem issueStream_memOk {x g left tile slot psel bank} (h : s.memOk) : (issueStream s x g left tile slot psel bank).memOk := by
  unfold issueStream
  extract_lets +onlyGivenNames arr jig
  split
  · exact trivial
  · exact trivial
  · split
    · exact trivial
    · split
      · next e2 => exact arrayTouch_error e2
      · next e2 => exact Res.memOk_ite trivial (modEng_memOk (modArr_memOk (arrayTouch_memOk h _ e2)))

theorem execMma_memOk {d a p b} (h : s.memOk) : OnNext State.memOk (execMma d a p b s) := issue_memOk h (fun _ _ _ h0 => issueStream_memOk h0)

theorem execMmar_memOk {d a p b} (h : s.memOk) : OnNext State.memOk (execMmar d a p b s) := issue_memOk h (fun _ _ _ h0 => issueStream_memOk h0)

theorem execArrayStreamStart_memOk {core} (h : s.memOk) : OnNext State.memOk (execArrayStreamStart core s) := by
  unfold execArrayStreamStart
  extract_lets +onlyGivenNames clk
  split
  · exact onNext_next h
  · exact onNext_next (stampOp_memOk (modArr_memOk h))

theorem execArrayLastRowRead_memOk {core} (h : s.memOk) : OnNext State.memOk (execArrayLastRowRead core s) := by
  unfold execArrayLastRowRead
  extract_lets +onlyGivenNames clk
  split
  · exact onNext_next h
  · exact onNext_next (modArr_memOk (countTeam_memOk h))

theorem execArrayLastAccumulatorWrite_memOk {core} (h : s.memOk) : OnNext State.memOk (execArrayLastAccumulatorWrite core s) := by
  unfold execArrayLastAccumulatorWrite
  split
  · exact onNext_next h
  · extract_lets +onlyGivenNames failed s1 s2
    have hs1 : s1.memOk := modArr_memOk (countTeam_memOk h)
    have hs2 : s2.memOk := memOk_ite (arrayError_memOk hs1) hs1
    exact onNext_next (finishWork_memOk (stampOp_memOk hs2))

theorem issueAcc_memOk {x tile reads writes act regs} (h : s.memOk) : (issueAcc s x tile reads writes act regs).memOk := by
  unfold issueAcc
  split
  · exact trivial
  · exact Res.memOk_ite trivial (Res.memOk_ite trivial (Res.memOk_ite trivial (modRegs_memOk (modArr_memOk h))))

theorem execAccz_memOk {a} (h : s.memOk) : OnNext State.memOk (execAccz a s) := issue_memOk h (fun _ _ _ h0 => issueAcc_memOk h0)

theorem execAccld_memOk {d a q c} (h : s.memOk) : OnNext State.memOk (execAccld d a q c s) := issue_memOk h (fun _ _ _ h0 => issueAcc_memOk h0)

theorem execAccst_memOk {d a q c} (h : s.memOk) : OnNext State.memOk (execAccst d a q c s) := issue_memOk h (fun _ _ _ h0 => issueAcc_memOk h0)

theorem preciseRead_memOk {p va n} (h : s.memOk) : OnOk (fun r => r.2.memOk) (s.preciseRead p va n) := by
  induction n generalizing s va with
  | zero => exact onOk_ok h
  | succ n ih =>
    unfold State.preciseRead
    split
    · exact onOk_error
    · next s1 e =>
      have hs1 : s1.memOk := translate_memOk h _ e
      split
      · exact onOk_error
      · next s2 e2 =>
        have hs2 : s2.memOk := readAt_memOk hs1 _ e2
        split
        · exact onOk_error
        · next e3 => exact onOk_ok (ih hs2 _ e3 :)

theorem execAlgld_memOk {d a} (h : s.memOk) : OnNext State.memOk (execAlgld d a s) := by
  unfold execAlgld
  refine issue_memOk h (fun s x g h0 => ?_)
  extract_lets +onlyGivenNames va
  split
  · exact trivial
  · extract_lets +onlyGivenNames after
    split
    · exact trivial
    · split
      · exact failed_memOk
      · next e1 => exact Res.memOk_ite trivial (modArr_memOk (preciseRead_memOk h0 _ e1))

theorem execAlgldComplete_memOk {gid} (h : s.memOk) : OnNext State.memOk (execAlgldComplete gid s) := by
  unfold execAlgldComplete
  extract_lets +onlyGivenNames core
  split
  · exact onNext_next h
  · exact onNext_next (modArr_memOk h)

/-! ### Control instructions and regrouping -/

theorem execNop_memOk (h : s.memOk) : OnNext State.memOk (execNop s) := issue_memOk h (fun _ _ _ h0 => h0)

theorem flowDone_memOk {x f} (h : s.memOk) : (flowDone s x f).memOk := Res.memOk_ite trivial (afterFlow_memOk (setFlow_memOk h))

theorem moveSlot_memOk {x g pc} (h : s.memOk) : (moveSlot s x g pc).memOk := flowDone_memOk h

theorem execBra_memOk {j} (h : s.memOk) : OnNext State.memOk (execBra j s) := issueFlow_memOk h (fun _ _ _ h0 => moveSlot_memOk h0)

theorem execBru_memOk {c j} (h : s.memOk) : OnNext State.memOk (execBru c j s) := issueFlow_memOk h (fun _ _ _ h0 => moveSlot_memOk h0)

theorem execBrc_memOk {p j} (h : s.memOk) : OnNext State.memOk (execBrc p j s) := by
  unfold execBrc
  refine issueFlow_memOk h (fun s x g h0 => ?_)
  extract_lets +onlyGivenNames t n
  split
  · exact moveSlot_memOk h0
  · split
    · exact moveSlot_memOk h0
    · split
      · exact trivial
      · exact flowDone_memOk h0

theorem execMark_memOk {j} (h : s.memOk) : OnNext State.memOk (execMark j s) := by
  unfold execMark
  refine issueFlow_memOk h (fun s x g h0 => ?_)
  split
  · exact trivial
  · exact flowDone_memOk h0

theorem waitReturn_memOk {gid} (h : s.memOk) : (s.waitReturn gid).memOk := by
  unfold State.waitReturn
  split
  · exact memOk_ite (startWait_memOk h) h
  · exact h

theorem joinDone_memOk {x f} (h : s.memOk) : (joinDone s x f).memOk := Res.memOk_ite trivial (waitReturn_memOk (afterFlow_memOk (setFlow_memOk h)))

theorem execJoin_memOk (h : s.memOk) : OnNext State.memOk (execJoin s) := issueFlow_memOk h (fun _ _ _ h0 => joinDone_memOk h0)

theorem execExit_memOk (h : s.memOk) : OnNext State.memOk (execExit s) := issueFlow_memOk h (fun _ _ _ h0 => joinDone_memOk h0)

theorem execCall_memOk {j} (h : s.memOk) : OnNext State.memOk (execCall j s) := issueFlow_memOk h (fun _ _ _ h0 => moveSlot_memOk (modRegs_memOk h0))

theorem indirectJump_memOk {i a} (h : s.memOk) : OnNext State.memOk (indirectJump s i a) := by
  unfold indirectJump
  refine issueFlow_memOk h (fun s x g h0 => ?_)
  extract_lets +onlyGivenNames t
  split
  · exact trivial
  · split
    · exact h0
    · exact moveSlot_memOk h0
    · split
      · exact trivial
      · exact flowDone_memOk h0

theorem execRet_memOk {a} (h : s.memOk) : OnNext State.memOk (execRet a s) := indirectJump_memOk h

theorem execJmpr_memOk {a} (h : s.memOk) : OnNext State.memOk (execJmpr a s) := indirectJump_memOk h

theorem execBrp_memOk {a i} (h : s.memOk) : OnNext State.memOk (execBrp a i s) := by
  unfold execBrp
  refine issueFlow_memOk h (fun s x g h0 => ?_)
  extract_lets +onlyGivenNames rejoin o
  split
  · split
    · exact trivial
    · exact flowDone_memOk h0
  · exact Res.memOk_ite (flowDone_memOk h0) (flowDone_memOk h0)

theorem execFlashpt_memOk {i} (h : s.memOk) : OnNext State.memOk (execFlashpt i s) := by
  unfold execFlashpt
  refine issueFlow_memOk h (fun s x g h0 => ?_)
  split
  · exact modGroup_memOk h0
  · exact Res.memOk_ite (advance_memOk h0) (advance_memOk (modFlow_memOk h0))

theorem execTrap_memOk {i} (h : s.memOk) : OnNext State.memOk (execTrap i s) := issueFlow_memOk h (fun _ _ _ h0 => h0)

theorem execBkpt_memOk {i} (h : s.memOk) : OnNext State.memOk (execBkpt i s) := issue_memOk h (fun _ _ _ h0 => Res.memOk_ite h0 h0)

theorem execYield_memOk {i} (h : s.memOk) : OnNext State.memOk (execYield i s) := issue_memOk h (fun _ _ _ h0 => modFlow_memOk h0)

theorem execYieldCountExpiry_memOk {gid} (h : s.memOk) : OnNext State.memOk (execYieldCountExpiry gid s) := by
  unfold execYieldCountExpiry
  split
  · exact onNext_next h
  · exact onNext_ite (onNext_next (modGroup_memOk h)) (onNext_next h)

theorem regroupBench_memOk {r ready} (h : s.memOk) : (s.regroupBench r ready).memOk := by
  unfold State.regroupBench
  split
  · exact memOk_foldl (fun _ _ h0 => takeFault_memOk h0) h
  · extract_lets +onlyGivenNames js s2
    have hs2 : s2.memOk := by
      unfold s2
      refine memOk_foldl (fun _ x h0 => ?_) h
      split
      · exact h0
      · exact modGroup_memOk (moveFlow_memOk h0)
    refine memOk_foldl (fun _ x h0 => ?_) hs2
    split
    · exact takeFault_memOk h0
    · exact memOk_ite (exitGroup_memOk h0) h0

theorem execBrpSynchronise_memOk {tid} (h : s.memOk) : OnNext State.memOk (execBrpSynchronise tid s) :=
  onNext_ite (onNext_next (memOk_foldl (fun _ _ h0 => regroupBench_memOk h0) (modSync_memOk h))) (onNext_next h)

theorem returnBench_memOk {tid bench} (h : s.memOk) : (s.returnBench tid bench).memOk :=
  memOk_foldl (fun _ _ h0 => afterFlow_memOk h0) (memOk_foldl (fun _ _ h0 => modGroup_memOk (moveFlow_memOk h0)) (modSync_memOk h))

theorem execRegroupReturn_memOk {core bench} (h : s.memOk) : OnNext State.memOk (execRegroupReturn core bench s) :=
  onNext_next (memOk_foldl (fun _ _ h0 => returnBench_memOk h0) h)

theorem execGroupExitRelease_memOk {gid} (h : s.memOk) : OnNext State.memOk (execGroupExitRelease gid s) := by
  unfold execGroupExitRelease
  split
  · exact onNext_next h
  · split
    · extract_lets +onlyGivenNames s0 s1 s2
      have hs0 : s0.memOk := memOk_foldl (fun _ _ h1 => dropOp_memOk h1) h
      have hs1 : s1.memOk := modBench_memOk hs0
      have hs2 : s2.memOk := memOk_with hs1
      refine onNext_next ?_
      split
      · exact modDisp_memOk hs2
      · exact hs2
    · exact onNext_next h

theorem execGroupGuarded_memOk {gid} (h : s.memOk) : OnNext State.memOk (execGroupGuarded gid s) := by
  unfold execGroupGuarded
  split
  · exact onNext_next h
  · exact onNext_ite (onNext_next (modGroup_memOk h)) (onNext_next h)

/-! ### Barriers, signals, and what ends a wait -/

theorem holdAt_memOk {x g y} (h : s.memOk) : (holdAt s x g y).memOk := afterFlow_memOk (modFlow_memOk h)

theorem execBar_memOk {m a b} (h : s.memOk) : OnNext State.memOk (execBar m a b s) := by
  unfold execBar
  refine issueFlow_memOk h (fun s x g h0 => ?_)
  split
  · exact h0
  · exact Res.memOk_ite trivial (Res.memOk_ite trivial (holdAt_memOk h0))

theorem execBarc_memOk (h : s.memOk) : OnNext State.memOk (execBarc s) := issueFlow_memOk h (fun _ _ _ h0 => Res.memOk_ite trivial (holdAt_memOk h0))

theorem execSigwait_memOk {d a l f} (h : s.memOk) : OnNext State.memOk (execSigwait d a l f s) := by
  unfold execSigwait
  refine issue_memOk h (fun s x g h0 => ?_)
  extract_lets +onlyGivenNames w off src o o' s1
  have hs1 : s1.memOk := by
    unfold s1
    split
    · exact memOk_ite h0 (stampPoint_memOk h0)
    · exact h0
  split
  · exact trivial
  · exact modOps_memOk hs1

theorem execSigwaitSatisfied_memOk {gid} (h : s.memOk) : OnNext State.memOk (execSigwaitSatisfied gid s) := by
  unfold execSigwaitSatisfied
  split
  · exact onNext_next h
  · extract_lets +onlyGivenNames core clk
    split
    · exact onNext_next (acquireAt_memOk (modOp_memOk (modRegs_memOk h)))
    · split
      · exact onNext_next h
      · split
        · exact onNext_next h
        · split
          · exact onNext_next (modOp_memOk (memOk_foldl (fun _ _ h5 => noteLane_memOk h5) h))
          · exact onNext_next (modOp_memOk h)
          · exact onNext_next (modOp_memOk h)
          · exact onNext_next (modOp_memOk h)
          · exact onNext_next (modOp_memOk (detect_memOk h))
          · next e4 => exact onNext_ite (onNext_next (modOp_memOk (stashAccess_memOk h _ e4))) (onNext_next (modOp_memOk (stashAccess_memOk h _ e4)))

theorem execSigadd_memOk {a b} (h : s.memOk) : OnNext State.memOk (execSigadd a b s) := by
  unfold execSigadd
  refine issue_memOk h (fun s x g h0 => ?_)
  extract_lets +onlyGivenNames w
  split
  · exact trivial
  · split
    · exact trivial
    · extract_lets +onlyGivenNames ord scope peer src o full places s0 after
      have hs0 : s0.memOk := settlePath_memOk h0
      split
      · exact trivial
      · split
        · exact trivial
        · extract_lets +onlyGivenNames s1
          have hs1 : s1.memOk := memOk_ite (releaseAt_memOk hs0) hs0
          split
          · exact failed_memOk
          · next s2 e2 =>
            have hs2 : s2.memOk := stashAccess_memOk hs1 _ e2
            extract_lets +onlyGivenNames s3
            have hs3 : s3.memOk := memOk_ite (finishWork_memOk (modEng_memOk hs2)) hs2
            exact setUnrew_memOk (memOk_ite (acquireAt_memOk hs3) hs3)

theorem execWaitc_memOk {k sc n} (h : s.memOk) : OnNext State.memOk (execWaitc k sc n s) := by
  unfold execWaitc
  refine issue_memOk h (fun s x g h0 => ?_)
  split
  · exact trivial
  · split
    · exact trivial
    · exact departLater_memOk (acquireAt_memOk h0)

theorem execXacq_memOk {r a i} (h : s.memOk) : OnNext State.memOk (execXacq r a i s) := by
  unfold execXacq
  refine issueFlow_memOk h (fun s x g h0 => ?_)
  extract_lets +onlyGivenNames n ceil b
  split
  · exact trivial
  · split
    · exact trivial
    · exact Res.memOk_ite (departLater_memOk (advance_memOk (modRegs_memOk (modBench_memOk h0)))) (startWait_memOk (modBench_memOk h0))

theorem execXacqGrant_memOk {gid} (h : s.memOk) : OnNext State.memOk (execXacqGrant gid s) := by
  unfold execXacqGrant
  extract_lets +onlyGivenNames clk
  split
  · exact onNext_next h
  · exact onNext_ite (onNext_next h) (onNext_next (modGroup_memOk (modBench_memOk h)))

theorem execXrel_memOk (h : s.memOk) : OnNext State.memOk (execXrel s) :=
  issue_memOk h (fun _ _ _ h0 => Res.memOk_ite trivial (departLater_memOk (modRegs_memOk (modBench_memOk h0))))

theorem execRegisterWaitDeadlock_memOk {tid} (h : s.memOk) : OnNext State.memOk (execRegisterWaitDeadlock tid s) := by
  unfold execRegisterWaitDeadlock
  split
  · exact onNext_next h
  · exact onNext_ite (onNext_next h) (onNext_next (memOk_foldl (fun _ _ h1 => takeFault_memOk h1) (modSync_memOk h)))

theorem execWatchdogExpiry_memOk {gid} (h : s.memOk) : OnNext State.memOk (execWatchdogExpiry gid s) := by
  unfold execWatchdogExpiry
  split
  · exact onNext_next h
  · exact onNext_ite (onNext_next (takeFault_memOk h)) (onNext_next h)

/-! ### The copy streamer and the collectives -/

theorem execRecld_memOk {d a sl} (h : s.memOk) : OnNext State.memOk (execRecld d a sl s) := by
  unfold execRecld
  refine issue_memOk h (fun s x g h0 => ?_)
  split
  · exact h0
  · extract_lets +onlyGivenNames off
    split
    · exact trivial
    · split
      · exact trivial
      · extract_lets +onlyGivenNames full places after
        split
        · exact trivial
        · split
          · exact failed_memOk
          · next e2 =>
            extract_lets +onlyGivenNames b
            split
            · exact trivial
            · exact modCore_memOk (modEng_memOk (modRegs_memOk (modTeamMem_memOk (fst_memOk (touch_memOk (settlePath_memOk h0)) e2))))

theorem issueCopy_memOk {x g kind d a la sl stream sig} (h : s.memOk) : (issueCopy s x g kind d a la sl stream sig).memOk := by
  unfold issueCopy
  split
  · exact h
  · extract_lets +onlyGivenNames block rec'
    split
    · exact trivial
    · split
      · exact trivial
      · split
        · exact trivial
        · extract_lets +onlyGivenNames bad op s1 src s2 out s3
          have hs1 : s1.memOk := modCore_memOk h
          have hs2 : s2.memOk := modOps_memOk (modEng_memOk hs1)
          have hs3 : s3.memOk := memOk_ite (setUnrew_memOk hs2) hs2
          split
          · exact hs3
          · exact stampPoint_memOk hs3

theorem execCpin_memOk {d a l sl t sg} (h : s.memOk) : OnNext State.memOk (execCpin d a l sl t sg s) := issue_memOk h (fun _ _ _ h0 => issueCopy_memOk h0)

theorem execCpout_memOk {d a l sl t sg} (h : s.memOk) : OnNext State.memOk (execCpout d a l sl t sg s) := issue_memOk h (fun _ _ _ h0 => issueCopy_memOk h0)

theorem execCpst_memOk {d a l sl t sg} (h : s.memOk) : OnNext State.memOk (execCpst d a l sl t sg s) := issue_memOk h (fun _ _ _ h0 => issueCopy_memOk h0)

theorem execCpgath_memOk {d a l sl t sg} (h : s.memOk) : OnNext State.memOk (execCpgath d a l sl t sg s) := issue_memOk h (fun _ _ _ h0 => issueCopy_memOk h0)

theorem engineRead_memOk {p va n} (h : s.memOk) : OnOk (fun r => r.2.memOk) (s.engineRead p va n) := by
  unfold State.engineRead
  split
  · exact onOk_error
  · next e0 => exact readAt_memOk (translate_memOk h _ e0)

theorem engineWrite_memOk {p va data} (h : s.memOk) : OnOk State.memOk (s.engineWrite p va data) := by
  unfold State.engineWrite
  split
  · exact onOk_error
  · next e0 =>
    extract_lets +onlyGivenNames a
    split
    · exact onOk_error
    · split
      · exact onOk_error
      · next e1 => exact onOk_ok (l1Drop_memOk (drainPath_memOk (commitLocks_memOk (writeAt_memOk (translate_memOk h _ e0) _ e1))))

theorem walkAhead_memOk {p c} (h : s.memOk) : (s.walkAhead p c).memOk := by
  unfold State.walkAhead
  split
  · exact h
  · exact h
  · exact h
  · extract_lets +onlyGivenNames need
    refine memOk_foldl (fun _ page h2 => ?_) h
    split
    · split
      · next e5 => exact modMem_memOk (lookup_memOk h2 _ e5)
      · exact h2
    · exact h2

theorem indexTouch_memOk {c r i} (h : s.memOk) : (s.indexTouch c r i).1.memOk := by
  unfold State.indexTouch
  split
  · extract_lets +onlyGivenNames off
    split
    · next e0 => exact fst_memOk (touch_memOk h) e0
    · exact h
  · exact h

theorem gatherItems_memOk {p c r l} (h : s.memOk) : (s.gatherItems p c r l).1.memOk := by
  induction l generalizing s with
  | nil => exact h
  | cons i rest ih =>
    unfold State.gatherItems
    split
    · next e => exact fst_memOk (indexTouch_memOk h) e
    · next s0 e =>
      have hs0 : s0.memOk := fst_memOk (indexTouch_memOk h) e
      extract_lets +onlyGivenNames one
      have hone : OnOk (fun r => r.2.memOk) one := by
        unfold one
        split
        · exact onOk_ok hs0
        · split
          · exact onOk_error
          · next e => exact onOk_ok (engineRead_memOk hs0 _ e :)
      clear_value one
      cases one with
      | error f => exact hs0
      | ok r => exact ih (hone r rfl)

theorem scatterItems_memOk {p c r tid off l} (h : s.memOk) : (s.scatterItems p c r tid off l).1.memOk := by
  induction l generalizing s with
  | nil => exact h
  | cons i rest ih =>
    unfold State.scatterItems
    split
    next o n =>
    extract_lets +onlyGivenNames data
    split
    · exact ih h
    · split
      · exact h
      · next e => exact ih (engineWrite_memOk h _ e)

theorem land_memOk {tid off data} (h : s.memOk) : OnOk State.memOk (s.land tid off data) := by
  unfold State.land
  split
  · exact onOk_error
  · split
    · exact onOk_error
    · next e0 => exact onOk_ok (stashPut_memOk (fst_memOk (touch_memOk h) e0))

theorem moveLine_memOk {p c r} (h : s.memOk) : (s.moveLine p c r).1.memOk := by
  unfold State.moveLine
  extract_lets +onlyGivenNames items first len
  split
  · exact h
  · split
    · exact h
    · split
      · next e2 =>
        split
        · exact fst_memOk (gatherItems_memOk h) e2
        · split
          · exact h
          · next e3 => exact land_memOk (fst_memOk (gatherItems_memOk h) e2) _ e3
    · split
      · next e2 =>
        split
        · exact fst_memOk (gatherItems_memOk h) e2
        · split
          · exact h
          · next e3 => exact land_memOk (fst_memOk (gatherItems_memOk h) e2) _ e3
    · split
      · exact h
      · next e2 => exact fst_memOk_ite (scatterItems_memOk (fst_memOk (touch_memOk h) e2)) (scatterItems_memOk (fst_memOk (touch_memOk h) e2))
    · split
      · exact h
      · split
        · exact h
        · next e3 =>
          split
          · exact h
          · next e4 => exact land_memOk (fst_memOk (touch_memOk h) e3) _ e4

theorem modCopy_memOk {core serial f} (h : s.memOk) : (s.modCopy core serial f).memOk := modCore_memOk h

theorem suspendCopy_memOk {core c hyper addr} (h : s.memOk) : (s.suspendCopy core c hyper addr).memOk := by
  unfold State.suspendCopy
  extract_lets +onlyGivenNames s1
  have hs1 : s1.memOk := modCore_memOk (modCopy_memOk h)
  split
  · exact memOk_ite (touchPull_memOk hs1) (memOk_ite hs1 (hitTrigger_memOk (modCopy_memOk (enterRecord_memOk hs1))))
  · exact hs1

theorem endCopy_memOk {core c code addr} (h : s.memOk) : (s.endCopy core c code addr).memOk := modCore_memOk (modCopy_memOk h)

theorem moveLines_memOk {core serial n} (h : s.memOk) : (s.moveLines core serial n).memOk := by
  induction n generalizing s with
  | zero => exact h
  | succ n ih =>
    unfold State.moveLines
    split
    · exact h
    · split
      · exact endCopy_memOk h
      · refine memOk_ite h (memOk_ite (endCopy_memOk h) ?_)
        split
        next s1 k f e =>
        extract_lets +onlyGivenNames s2
        have hs2 : s2.memOk := modCopy_memOk (fst_memOk (moveLine_memOk h) e)
        split
        · exact memOk_foldl (fun _ _ h0 => noteStall_memOk h0) hs2
        · exact suspendCopy_memOk hs2
        · exact suspendCopy_memOk hs2
        · exact endCopy_memOk hs2
        · exact endCopy_memOk (detect_memOk hs2)
        · exact memOk_ite (endCopy_memOk hs2) (ih hs2)

theorem execCopyStart_memOk {core} (h : s.memOk) : OnNext State.memOk (execCopyStart core s) := by
  unfold execCopyStart
  split
  · exact onNext_next h
  · exact onNext_next (modCopy_memOk h)

theorem streamClk_memOk {core} (h : s.memOk) : (s.streamClk core).memOk := by
  unfold State.streamClk
  split
  · exact h
  · exact memOk_ite h (moveLines_memOk (memOk_with (walkAhead_memOk h)))

theorem signalAdd_memOk {c} (h : s.memOk) : OnOk State.memOk (s.signalAdd c) := by
  unfold State.signalAdd
  split
  · exact onOk_error
  · split
    · exact onOk_error
    · split
      · next e1 => exact onOk_ok (stashAccess_memOk (releaseAt_memOk h) _ e1)
      · exact onOk_error

theorem execCopyComplete_memOk {core} (h : s.memOk) : OnNext State.memOk (execCopyComplete core s) := by
  unfold execCopyComplete
  split
  · exact onNext_next h
  · extract_lets +onlyGivenNames leave finish
    have hleave : ∀ s, s.memOk → (leave s).memOk := fun _ h1 => finishWork_memOk (modCore_memOk h1)
    have hfinish : ∀ s sigd c, s.memOk → (finish s sigd c).memOk := by
      intro s sigd c h1
      unfold finish
      extract_lets +onlyGivenNames status s2 s3 s4
      have hs2 : s2.memOk := modRegs_memOk (countTeam_memOk h1)
      have hs3 : s3.memOk := by
        unfold s3
        split
        · exact engineFault_memOk hs2
        · exact hs2
      have hs4 : s4.memOk := stampOp_memOk hs3
      exact modOp_memOk (hleave _ hs4)
    split
    · exact onNext_next (hleave _ h)
    · split
      · exact onNext_next (hfinish _ _ _ h)
      · split
        · next e2 => exact onNext_next (hfinish _ _ _ (signalAdd_memOk h _ e2))
        · exact onNext_next (modCopy_memOk h)
        · exact onNext_next (suspendCopy_memOk h)
        · exact onNext_next (suspendCopy_memOk h)
        · exact onNext_next (hfinish _ _ _ h)
        · exact onNext_next (hfinish _ _ _ (detect_memOk h))

theorem execColl_memOk {d a l o} (h : s.memOk) : OnNext State.memOk (execColl d a l o s) := by
  unfold execColl
  refine issue_memOk h (fun s x g h0 => ?_)
  split
  · exact h0
  · extract_lets +onlyGivenNames off
    split
    · exact trivial
    · split
      · exact trivial
      · extract_lets +onlyGivenNames places after
        split
        · exact trivial
        · split
          · exact failed_memOk
          · next e2 =>
            extract_lets +onlyGivenNames b comm members q
            split
            · exact trivial
            · split
              · exact trivial
              · exact setUnrew_memOk (modOps_memOk (memOk_with (modEng_memOk (modQuad_memOk (fst_memOk (touch_memOk (settlePath_memOk h0)) e2)))))

theorem collRead_memOk {p fuel va n} (h : s.memOk) : OnOk (fun r => r.2.memOk) (s.collRead p fuel va n) := by
  induction fuel generalizing s va n with
  | zero => exact onOk_ok h
  | succ fuel ih =>
    unfold State.collRead
    refine onOk_ite (onOk_ok h) ?_
    extract_lets +onlyGivenNames k
    split
    · exact onOk_error
    · next s1 e =>
      have h1 : s1.memOk := engineRead_memOk h _ e
      split
      · exact onOk_error
      · next e1 => exact onOk_ok (ih h1 _ e1 :)

theorem collWrite_memOk {p fuel va data} (h : s.memOk) : (s.collWrite p fuel va data).1.memOk := by
  induction fuel generalizing s va data with
  | zero => exact h
  | succ fuel ih =>
    unfold State.collWrite
    split
    · exact h
    · extract_lets +onlyGivenNames k
      split
      · exact h
      · next e => exact ih (engineWrite_memOk h _ e)

theorem endColl_memOk {c code addr} (h : s.memOk) : (s.endColl c code addr).memOk := by
  unfold State.endColl
  extract_lets +onlyGivenNames status s1 s2 s3
  have hs1 : s1.memOk := modQuad_memOk h
  have hs2 : s2.memOk := modRegs_memOk (countTeam_memOk hs1)
  have hs3 : s3.memOk := by
    unfold s3
    split
    · exact engineFault_memOk hs2
    · exact hs2
  exact modOp_memOk (finishWork_memOk hs3)

theorem collOwn_memOk {c} (h : s.memOk) : OnOk (fun r => r.2.memOk) (s.collOwn c) := onOk_ite (onOk_ok h) (collRead_memOk h)

theorem collMove_memOk {c inputs} (h : s.memOk) : (s.collMove c inputs).1.memOk := by
  unfold State.collMove
  extract_lets +onlyGivenNames n rank own
  have hown : OnOk (fun r => r.2.memOk) own := onOk_ite (onOk_ok h) (collOwn_memOk h)
  clear_value own
  cases own with
  | error e => exact h
  | ok r => exact collWrite_memOk (hown r rfl)

theorem execCollComplete_memOk {gid outcome} (h : s.memOk) : OnNext State.memOk (execCollComplete gid outcome s) := by
  unfold execCollComplete
  split
  · exact onNext_next h
  · split
    · exact onNext_next (endColl_memOk h)
    · exact onNext_next (endColl_memOk h)
    · split
      · next e2 => exact onNext_next (endColl_memOk (fst_memOk (collMove_memOk h) e2))
      · next e2 => exact onNext_next (endColl_memOk (detect_memOk (fst_memOk (collMove_memOk h) e2)))
      · next e2 => exact onNext_ite (onNext_next (modOp_memOk h)) (onNext_next (endColl_memOk (fst_memOk (collMove_memOk h) e2)))

theorem collInputs_memOk {n l} (h : s.memOk) : OnSome (fun r => r.2.memOk) (s.collInputs n l) := by
  induction l generalizing s with
  | nil => exact onSome_some h
  | cons m rest ih =>
    unfold State.collInputs
    extract_lets +onlyGivenNames one
    have hone : OnSome (fun r => r.2.memOk) one := by
      cases m with
      | none => exact onSome_some (anyBytes_memOk h)
      | some k =>
        simp only [one]
        split
        · next e => exact onSome_some (collOwn_memOk h _ e)
        · exact onSome_ite onSome_none (onSome_some h)
    clear_value one
    cases one with
    | none => exact onSome_none
    | some r => exact onSome_map (fun _ h1 => h1) (ih (hone r rfl))

theorem collEnds_memOk {c peers} (h : s.memOk) : OnSome (fun r => r.2.memOk) (s.collEnds c peers) := by
  unfold State.collEnds
  extract_lets +onlyGivenNames here all
  split
  · next e0 =>
    split
    · exact onSome_some (snd_memOk (snd_memOk_ite h (memOk_with h)) e0)
    · split
      · exact onSome_some (snd_memOk (snd_memOk_ite h (memOk_with h)) e0)
      · split
        · exact onSome_none
        · next e1 =>
          extract_lets +onlyGivenNames ends
          split
          · exact onSome_none
          · split
            · exact onSome_some (collInputs_memOk (snd_memOk (snd_memOk_ite h (memOk_with h)) e0) _ e1)
            · exact onSome_some (collInputs_memOk (snd_memOk (snd_memOk_ite h (memOk_with h)) e0) _ e1)

theorem loseLoad_memOk {gid serial line} (h : s.memOk) : (s.loseLoad gid serial line).memOk := by
  unfold State.loseLoad
  split
  · exact h
  · extract_lets +onlyGivenNames p
    split
    · split
      · exact endCopy_memOk h
      · exact h
    · split
      · exact endColl_memOk h
      · exact h
    · exact loseOps_memOk h

theorem execReplicaLockTimeout_memOk {part entry} (h : s.memOk) : OnNext State.memOk (execReplicaLockTimeout part entry s) := by
  unfold execReplicaLockTimeout
  split
  · exact onNext_next h
  · extract_lets +onlyGivenNames line
    split
    · next e1 =>
      extract_lets +onlyGivenNames quad s2
      have hs2 : s2.memOk := logEvent_memOk (count_memOk (snd_memOk (choose_memOk h) e1))
      split
      · exact onNext_next (breakLock_memOk hs2)
      · extract_lets +onlyGivenNames s3 s4
        have hs3 : s3.memOk := loseOps_memOk (modPart_memOk hs2)
        have hs4 : s4.memOk := memOk_foldl (fun _ _ h2 => loseLoad_memOk h2) hs3
        exact onNext_next (memOk_foldl (fun _ _ h2 => takeFault_memOk h2) hs4)

/-! ### Launches, dispatch and retirement -/

theorem modQueue_memOk {q n f} (h : s.memOk) : (s.modQueue q n f).memOk := modQuad_memOk h

theorem execPacketAccept_memOk {q n} (h : s.memOk) : OnNext State.memOk (execPacketAccept q n s) := by
  unfold execPacketAccept
  extract_lets +onlyGivenNames part lq
  split
  · split
    · exact onNext_next (cancelDependents_memOk (writeCompletion_memOk (modQueue_memOk h)))
    · exact onNext_next (modQueue_memOk (modDisp_memOk h))
  · exact onNext_next h

theorem enqueue_memOk {q n data} (h : s.memOk) : (s.enqueue q n data).memOk := modQueue_memOk h

theorem portWrite_memOk {q n data} (h : s.memOk) : (s.portWrite q n data).memOk := memOk_ite (enqueue_memOk h) (modQueue_memOk h)

theorem execLaunch_memOk {d a l} (h : s.memOk) : OnNext State.memOk (execLaunch d a l s) := by
  unfold execLaunch
  refine issue_memOk h (fun s x g h0 => ?_)
  split
  · exact h0
  · extract_lets +onlyGivenNames off w q n
    split
    · exact trivial
    · extract_lets +onlyGivenNames src o begun
      have hbegun : ∀ s o, s.memOk → (begun s o).memOk := fun _ _ h2 => modOps_memOk (modEng_memOk (setUnrew_memOk (releaseAt_memOk h2)))
      split
      · exact hbegun _ _ h0
      · split
        · exact hbegun _ _ h0
        · split
          · exact trivial
          · split
            · exact trivial
            · exact hbegun _ _ h0
            · exact hbegun _ _ (detect_memOk h0)
            · exact failed_memOk
            · next e2 => exact hbegun _ _ (fst_memOk (touch_memOk h0) e2)

theorem reportLaunches_memOk {gid} (h : s.memOk) : (s.reportLaunches gid).memOk := by
  unfold State.reportLaunches
  split
  · exact h
  · exact memOk_foldl (fun _ _ h1 => modOp_memOk (modRegs_memOk h1)) h

theorem execLaunchPacketEntry_memOk {gid} (h : s.memOk) : OnNext State.memOk (execLaunchPacketEntry gid s) := by
  unfold execLaunchPacketEntry
  split
  · exact onNext_next h
  · split
    · exact onNext_next h
    · exact onNext_next (reportLaunches_memOk (finishWork_memOk (modOp_memOk (enqueue_memOk h))))

theorem addLbud_memOk {unit x} (h : s.memOk) : (s.addLbud unit x).memOk := modWear_memOk h

theorem endGrant_memOk {core} (h : s.memOk) : (s.endGrant core).memOk := by
  unfold State.endGrant
  split
  · exact addLbud_memOk (modCore_memOk h)
  · exact modCore_memOk h
  · exact h

theorem prepareCore_memOk {core vdev} (h : s.memOk) : (s.prepareCore core vdev).memOk := modCore_memOk h

theorem putGroups_memOk {core tid l} (h : s.memOk) : (s.putGroups core tid l).memOk := by
  induction l generalizing s with
  | nil => exact h
  | cons x rest ih =>
    unfold State.putGroups
    split
    · exact h
    · exact ih (modBench_memOk (setGroup_memOk h))

theorem placeTeam_memOk {core t gs} (h : s.memOk) : OnSome (fun r => r.1.memOk) (s.placeTeam core t gs) := by
  unfold State.placeTeam
  extract_lets +onlyGivenNames s0
  have hs0 : s0.memOk := prepareCore_memOk h
  split
  · exact onSome_some (acquireAt_memOk (memOk_ite (putGroups_memOk (memOk_with hs0)) (modArr_memOk (putGroups_memOk (memOk_with hs0)))))
  · exact onSome_none

theorem placeNew_memOk {part idx e core cluster rank start} (h : s.memOk) : (s.placeNew part idx e core cluster rank start).memOk := by
  unfold State.placeNew
  extract_lets +onlyGivenNames p entry hw t
  split
  · exact h
  · next e0 => exact memOk_ite (modSync_memOk (placeTeam_memOk h _ e0)) (placeTeam_memOk h _ e0)

theorem placeSaved_memOk {core t start} (h : s.memOk) : (s.placeSaved core t start).memOk := by
  unfold State.placeSaved
  split
  · exact h
  · next e0 =>
    extract_lets +onlyGivenNames s2 s3 s4
    have hs2 : s2.memOk := memOk_ite (placeTeam_memOk h _ e0) (modArr_memOk (placeTeam_memOk h _ e0))
    have hs3 : s3.memOk := by
      unfold s3
      split
      · exact modSync_memOk hs2
      · exact hs2
    have hs4 : s4.memOk := by
      unfold s4
      split
      · exact memOk_ite hs3 (memOk_with hs3)
      · exact hs3
    exact modVdev_memOk hs4

theorem renameTeams_memOk {t} (h : s.memOk) : (s.renameTeams t).memOk := memOk_with h

theorem depReads_memOk {part e} (h : s.memOk) : (s.depReads part e).memOk := memOk_ite h (guestRead_memOk h)

theorem dequeue_memOk {part idx} (h : s.memOk) : (s.dequeue part idx).memOk := by
  unfold State.dequeue
  split
  · exact h
  · exact memOk_ite h (modDisp_memOk (modQueue_memOk h))

theorem dispatched_memOk {part idx cluster} (h : s.memOk) : (s.dispatched part idx cluster).memOk := by
  unfold State.dispatched
  extract_lets +onlyGivenNames s1
  have hs1 : s1.memOk := modDisp_memOk h
  split
  · exact memOk_ite (dequeue_memOk hs1) hs1
  · exact hs1

theorem startTick_memOk {first} (h : s.memOk) : (s.startTick first).2.memOk := snd_memOk_ite h (memOk_with h)

theorem placeCluster_memOk {part c cores} (h : s.memOk) : (s.placeCluster part c cores).memOk := by
  unfold State.placeCluster
  split
  · split
    · exact h
    · exact dispatched_memOk (memOk_foldl (fun _ _ h2 => placeNew_memOk h2) (startTick_memOk h))
  · split
    · next e1 =>
      extract_lets +onlyGivenNames s2
      have hs2 : s2.memOk := memOk_foldl (fun _ _ h2 => placeSaved_memOk h2) (snd_memOk (startTick_memOk h) e1)
      split
      · exact renameTeams_memOk hs2
      · exact hs2

theorem serveSingle_memOk {part c} (h : s.memOk) : (s.serveSingle part c).1.memOk := by
  unfold State.serveSingle
  extract_lets +onlyGivenNames cores
  split
  · exact h
  · exact placeCluster_memOk h

theorem chooseGang_memOk {part c} (h : s.memOk) : (s.chooseGang part c).memOk := by
  unfold State.chooseGang
  extract_lets +onlyGivenNames d
  split
  · exact h
  · extract_lets +onlyGivenNames rects older key
    split
    · exact h
    · exact modDisp_memOk h

theorem serveGang_memOk {part c} (h : s.memOk) : (s.serveGang part c).memOk := by
  unfold State.serveGang
  extract_lets +onlyGivenNames s1
  have hs1 : s1.memOk := memOk_ite h (chooseGang_memOk h)
  split
  · exact hs1
  · exact memOk_ite (modDisp_memOk hs1) (placeCluster_memOk (modDisp_memOk (modDisp_memOk hs1)))

theorem serveClusters_memOk {part idx e l} (h : s.memOk) : (s.serveClusters part idx e l).memOk := by
  induction l generalizing s with
  | nil => exact h
  | cons k rest ih =>
    unfold State.serveClusters
    refine memOk_ite (ih h) ?_
    extract_lets +onlyGivenNames c
    split
    · split
      · next e => exact ih (fst_memOk (serveSingle_memOk h) e)
      · next e => exact fst_memOk (serveSingle_memOk h) e
    · exact ih (serveGang_memOk h)

theorem serveLaunch_memOk {part idx} (h : s.memOk) : (s.serveLaunch part idx).memOk := by
  unfold State.serveLaunch
  split
  · exact h
  · exact memOk_ite (serveClusters_memOk (depReads_memOk h)) h

theorem serveSaved_memOk {part} (h : s.memOk) : (s.serveSaved part).memOk := memOk_foldl (fun _ _ h0 => memOk_ite (serveSingle_memOk h0) (serveGang_memOk h0)) h

theorem settleLaunch_memOk {part idx} (h : s.memOk) : (s.settleLaunch part idx).memOk := by
  unfold State.settleLaunch
  split
  · exact h
  · extract_lets +onlyGivenNames remove
    have hremove : ∀ s, s.memOk → (remove s).memOk := fun _ h1 => modDisp_memOk h1
    split
    · exact h
    · exact memOk_ite (hremove _ (writeCompletion_memOk h)) h
    · exact memOk_ite (hremove _ (writeCompletion_memOk (dequeue_memOk h))) (dequeue_memOk h)
    · exact memOk_ite (hremove _ (writeCompletion_memOk (dequeue_memOk h))) (dequeue_memOk h)

theorem settleLaunches_memOk {part} (h : s.memOk) : (s.settleLaunches part).memOk := memOk_foldl (fun _ _ h0 => settleLaunch_memOk h0) h

theorem markOrphans_memOk {part} (h : s.memOk) : (s.markOrphans part).memOk := modDisp_memOk h

theorem execDispatchDecision_memOk {part} (h : s.memOk) : OnNext State.memOk (execDispatchDecision part s) := by
  unfold execDispatchDecision
  extract_lets +onlyGivenNames s0 s1 s2
  have hs0 : s0.memOk := modDisp_memOk (settleLaunches_memOk h)
  have hs1 : s1.memOk := serveSaved_memOk hs0
  have hs2 : s2.memOk := memOk_foldl (fun _ _ h0 => serveLaunch_memOk h0) hs1
  exact onNext_next (markOrphans_memOk hs2)

theorem execGangFence_memOk {part} (h : s.memOk) : OnNext State.memOk (execGangFence part s) := by
  unfold execGangFence
  split
  · exact onNext_next h
  · exact onNext_next (modDisp_memOk h)

theorem execDependencyTimeout_memOk {part launch} (h : s.memOk) : OnNext State.memOk (execDependencyTimeout part launch s) := by
  unfold execDependencyTimeout
  split
  · exact onNext_next h
  · exact onNext_ite (onNext_next (settleLaunch_memOk (modDisp_memOk h))) (onNext_next h)

theorem setDoneBit_memOk {part e n} (h : s.memOk) : (s.setDoneBit part e n).memOk := by
  unfold State.setDoneBit
  extract_lets +onlyGivenNames bmp
  split
  · exact h
  · split
    · next e0 => exact fst_memOk (guestRead_memOk h) e0
    · next e0 => exact guestWrite_memOk (fst_memOk (guestRead_memOk h) e0)

theorem lapseGrant_memOk {core} (h : s.memOk) : (s.lapseGrant core).memOk := by
  unfold State.lapseGrant
  split
  · exact memOk_ite h (endGrant_memOk h)
  · exact h

theorem freeTeamSlot_memOk {tid} (h : s.memOk) : (s.freeTeamSlot tid).memOk := by
  unfold State.freeTeamSlot
  extract_lets +onlyGivenNames core s1 s2
  have hs1 : s1.memOk := lapseGrant_memOk (memOk_with h)
  have hs2 : s2.memOk := by
    unfold s2
    split
    · exact memOk_ite (modArr_memOk hs1) hs1
    · exact hs1
  exact modMem_memOk hs2

theorem ownershipFault_memOk {tid} (h : s.memOk) : (s.ownershipFault tid).memOk := by
  unfold State.ownershipFault
  split
  · exact h
  · split
    · exact h
    · extract_lets +onlyGivenNames s1
      have hs1 : s1.memOk := logEvent_memOk (modSync_memOk h)
      split
      · exact takeFault_memOk hs1
      · exact reportFatal_memOk (logEvent_memOk (enterRecord_memOk hs1))

theorem execTeamRetire_memOk {tid} (h : s.memOk) : OnNext State.memOk (execTeamRetire tid s) := by
  unfold execTeamRetire
  split
  · exact onNext_next h
  · split
    · exact onNext_next h
    · extract_lets +onlyGivenNames s1 s2 s3 s4
      have hs1 : s1.memOk := ownershipFault_memOk (writeBackTeam_memOk (drainPath_memOk h))
      have hs2 : s2.memOk := freeTeamSlot_memOk hs1
      have hs3 : s3.memOk := by
        unfold s3
        split
        · exact hs2
        · exact modDisp_memOk (memOk_ite hs2 (setDoneBit_memOk hs2))
      have hs4 : s4.memOk := memOk_ite (memOk_with hs3) hs3
      exact onNext_next (settleLaunch_memOk hs4)

/-! ### Counters, stamps and system registers -/

theorem execRdcnt_memOk {d i} (h : s.memOk) : OnNext State.memOk (execRdcnt d i s) := issue_memOk h (fun _ _ _ h0 => modRegs_memOk h0)

theorem execRdtime_memOk {d} (h : s.memOk) : OnNext State.memOk (execRdtime d s) := issue_memOk h (fun _ _ _ h0 => modRegs_memOk h0)

theorem reply_memOk {w} (h : s.memOk) : (s.reply w).memOk := modMod_memOk h

theorem execCounterLowRead_memOk {off} (h : s.memOk) : OnNext State.memOk (execCounterLowRead off s) := by
  unfold execCounterLowRead
  split
  · exact onNext_next (reply_memOk (modQuad_memOk h))
  · exact onNext_next (reply_memOk h)

theorem execCounterHighRead_memOk {off} (h : s.memOk) : OnNext State.memOk (execCounterHighRead off s) := by
  unfold execCounterHighRead
  split
  · split
    · exact onNext_ite (onNext_next (reply_memOk (modQuad_memOk h))) (onNext_next (reply_memOk h))
    · exact onNext_next (reply_memOk h)
  · exact onNext_next (reply_memOk h)

theorem joinTile_memOk {x g tile slot} (h : s.memOk) : (s.joinTile x g tile slot).memOk := modEng_memOk (modCore_memOk h)

theorem execTileb_memOk {a} (h : s.memOk) : OnNext State.memOk (execTileb a s) := by
  unfold execTileb
  refine issue_memOk h (fun s x g h0 => ?_)
  extract_lets +onlyGivenNames s1 tile c
  have hs1 : s1.memOk := closeTile_memOk h0
  split
  · exact joinTile_memOk hs1
  · split
    · exact joinTile_memOk hs1
    · exact fun _ h3 => closeTile_memOk h3

theorem execTilee_memOk (h : s.memOk) : OnNext State.memOk (execTilee s) := issue_memOk h (fun _ _ _ h0 => closeTile_memOk h0)

theorem dropStamp_memOk {vdev} (h : s.memOk) : (s.dropStamp vdev).memOk := modVdev_memOk h

theorem closeStamp_memOk {core slot} (h : s.memOk) : (s.closeStamp core slot).memOk := by
  unfold State.closeStamp
  split
  · exact h
  · extract_lets +onlyGivenNames s1
    have hs1 : s1.memOk := modCore_memOk h
    split
    · exact hs1
    · split
      · exact hs1
      · extract_lets +onlyGivenNames r
        split
        · exact hs1
        · split
          · exact dropStamp_memOk hs1
          · extract_lets +onlyGivenNames addr
            split
            · next e3 => exact modVdev_memOk (fst_memOk (guestWrite_memOk hs1) e3)
            · next e3 =>
              extract_lets +onlyGivenNames code rec'
              refine dropStamp_memOk ?_
              split
              · exact enterRecord_memOk (fst_memOk (guestWrite_memOk hs1) e3)
              · exact enterRecord_memOk (fst_memOk (guestWrite_memOk hs1) e3)

theorem execStampRecordWrite_memOk {core slot} (h : s.memOk) : OnNext State.memOk (execStampRecordWrite core slot s) :=
  onNext_ite (onNext_next (closeStamp_memOk h)) (onNext_next h)

theorem closeTeamStamps_memOk {tid} (h : s.memOk) : (s.closeTeamStamps tid).memOk := memOk_foldl (fun _ _ h0 => closeStamp_memOk h0) (modCore_memOk h)

theorem execMfsr_memOk {d i} (h : s.memOk) : OnNext State.memOk (execMfsr d i s) :=
  issue_memOk h (fun _ _ _ h0 => Res.memOk_ite (modRegs_memOk h0) (modRegs_memOk h0))

theorem unbind_memOk {tid n} (h : s.memOk) : (s.unbind tid n).memOk := by
  unfold State.unbind
  split
  · exact h
  · exact modTeamMem_memOk (memOk_foldl (fun _ _ h1 => recallLine_memOk h1) h)

theorem bindWindow_memOk {x n v} (h : s.memOk) : (bindWindow s x n v).memOk := by
  unfold bindWindow
  split
  · exact h
  · split
    · exact unbind_memOk h
    · split
      · exact trivial
      · split
        · exact trivial
        · split
          · exact trivial
          · split
            · exact trivial
            · exact failed_memOk
            · next e1 => exact Res.memOk_ite trivial (modTeamMem_memOk (unbind_memOk (fst_memOk (touch_memOk h) e1)))

theorem execMtsr_memOk {a i} (h : s.memOk) : OnNext State.memOk (execMtsr a i s) := by
  unfold execMtsr
  exact issue_memOk h (fun _ _ _ h0 => Res.memOk_ite (bindWindow_memOk h0) (Res.memOk_ite (modMod_memOk h0) (Res.memOk_ite trivial (modVdev_memOk h0))))

/-! ### The mailboxes -/

theorem endCommand_memOk {src status detail result} (h : s.memOk) : (s.endCommand src status detail result).memOk := by
  unfold State.endCommand
  extract_lets +onlyGivenNames head
  split
  · exact modQuad_memOk h
  · split
    · exact h
    · exact modRegs_memOk (memOk_ite h (guestWrite_memOk (guestWrite_memOk h)))

theorem blockRead_memOk {x} (h : s.memOk) : (s.blockRead x).memOk := by
  unfold State.blockRead
  split
  · exact h
  · split
    · exact h
    · exact memOk_ite h (guestRead_memOk h)

theorem taken_memOk {x} (h : s.memOk) : (s.taken x).memOk := by
  unfold State.taken
  split
  · exact modQuad_memOk h
  · exact modFlow_memOk (blockRead_memOk h)

theorem noteService_memOk {c result} (h : s.memOk) : (s.noteService c result).memOk := by
  unfold State.noteService
  split
  · exact h
  · exact modFlow_memOk h

theorem runCommand_memOk {src op sub body} (h : s.memOk) (hbody : ∀ c s, s.memOk → (body c s).memOk) :
    OnNext State.memOk (s.runCommand src op sub body) := by
  unfold State.runCommand
  split
  · extract_lets +onlyGivenNames c
    refine onNext_ite (onNext_next h) ?_
    extract_lets +onlyGivenNames s0
    have hs0 : s0.memOk := taken_memOk h
    have hb := hbody c s0 hs0
    split
    · exact onNext_next (endCommand_memOk hs0)
    · split
      · next e =>
        rw [e] at hb
        exact onNext_next (endCommand_memOk hb)
      · exact onNext_next (endCommand_memOk hs0)
      · next e =>
        rw [e] at hb
        exact onNext_next (endCommand_memOk hb)
      · next e =>
        rw [e] at hb
        exact onNext_next hb
  · exact onNext_next h

theorem giveCommand_memOk {src} (h : s.memOk) : (s.giveCommand src).memOk := by
  unfold State.giveCommand
  split
  · exact endCommand_memOk h
  · extract_lets +onlyGivenNames op
    split
    · split
      · exact memOk_with (modQuad_memOk h)
      · exact modFlow_memOk h
    · exact memOk_ite (endCommand_memOk h) (memOk_ite (endCommand_memOk h) (endCommand_memOk h))

theorem push_memOk {i} (h : s.memOk) : (s.push i).memOk := memOk_with h

theorem wakeQuad_memOk {q} (h : s.memOk) : (s.wakeQuad q).memOk := modQuad_memOk h

theorem postPacket_memOk {q n data} (h : s.memOk) : (s.postPacket q n data).memOk := by
  unfold State.postPacket
  split
  · exact portWrite_memOk h
  · exact wakeQuad_memOk (modQuad_memOk h)

theorem execLaunchPortWrite_memOk {q n data} (h : s.memOk) : OnNext State.memOk (execLaunchPortWrite q n data s) :=
  onNext_ite (onNext_next h) (onNext_next (postPacket_memOk h))

theorem execHostRegisterWrite_memOk {offset data} (h : s.memOk) : OnNext State.memOk (execHostRegisterWrite offset data s) := by
  unfold execHostRegisterWrite
  extract_lets +onlyGivenNames q o
  split
  · exact onNext_next h
  · split
    · exact onNext_next (postPacket_memOk h)
    · exact onNext_ite (onNext_next (modQuad_memOk h)) (onNext_ite (onNext_next (giveCommand_memOk (modQuad_memOk h))) (onNext_next h))

theorem commandRead_memOk {src addr n} (h : s.memOk) : (s.commandRead src addr n).1.memOk := by
  unfold State.commandRead
  split
  · split
    · exact h
    · split
      · next e1 => exact fst_memOk (servedBytes_memOk h) e1
      · next e1 => exact fst_memOk (servedBytes_memOk h) e1
  · split
    · exact h
    · split
      · next e2 => exact fst_memOk (guestRead_memOk h) e2
      · next e2 => exact fst_memOk (guestRead_memOk h) e2

theorem commandWrite_memOk {src addr data} (h : s.memOk) : (s.commandWrite src addr data).1.memOk := by
  unfold State.commandWrite
  split
  · exact fst_memOk_ite (coherentWrite_memOk h) h
  · split
    · exact h
    · exact guestWrite_memOk h

/-! ### Pre-emption and images -/

theorem recipeReads_memOk {t} (h : s.memOk) : (s.recipeReads t).memOk := by
  unfold State.recipeReads
  split
  · next e0 => exact fst_memOk (guestRead_memOk h) e0
  · next e0 => exact memOk_ite (fst_memOk (guestRead_memOk h) e0) (guestRead_memOk (fst_memOk (guestRead_memOk h) e0))

theorem dropArrivals_memOk {gid} (h : s.memOk) : (s.dropArrivals gid).memOk := by
  unfold State.dropArrivals
  split
  · exact h
  · split
    · exact h
    · exact memOk_with (modSync_memOk h)

theorem stopForSave_memOk {gid how} (h : s.memOk) : (s.stopForSave gid how).memOk := modGroup_memOk (withdrawXacq_memOk (memOk_ite (dropArrivals_memOk h) h))

theorem stopAll_memOk {vdev} (h : s.memOk) : (s.stopAll vdev).memOk := by
  unfold State.stopAll
  refine memOk_foldl (fun _ kv h0 => ?_) h
  split
  · exact memOk_ite h0 (stopForSave_memOk h0)
  · exact h0

theorem startSave_memOk {vdev cause} (h : s.memOk) : (s.startSave vdev cause).memOk := by
  unfold State.startSave
  extract_lets +onlyGivenNames s0 s1
  have hs0 : s0.memOk := by
    unfold s0
    split
    · exact modDisp_memOk h
    · exact h
  have hs1 : s1.memOk := modVdev_memOk hs0
  exact stopAll_memOk (memOk_foldl (fun _ _ h0 => modSync_memOk (recipeReads_memOk h0)) hs1)

theorem execAdmission_memOk {vdev part} (h : s.memOk) : OnNext State.memOk (execAdmission vdev part s) := by
  unfold execAdmission
  split
  · split
    · exact onNext_next h
    · split
      · exact onNext_next h
      · exact onNext_next (modVdev_memOk (modPart_memOk h))
  · exact onNext_next h

theorem execCoreSetReplacement_memOk {vdev old new} (h : s.memOk) : OnNext State.memOk (execCoreSetReplacement vdev old new s) := by
  unfold execCoreSetReplacement
  split
  · exact onNext_next h
  · exact onNext_ite (onNext_next (modDisp_memOk h)) (onNext_next h)

theorem setShrinks_memOk (h : s.memOk) : OnSome State.memOk s.setShrinks := onSome_findSome (fun _ => onSome_map_of (fun _ => modDisp_memOk h))

theorem leave_memOk {part vdev} (h : s.memOk) : (s.leave part vdev).memOk := modDisp_memOk h

theorem execSliceEnd_memOk {vdev} (h : s.memOk) : OnNext State.memOk (execSliceEnd vdev s) := by
  unfold execSliceEnd
  split
  · exact onNext_next h
  · exact onNext_ite (onNext_next (startSave_memOk h)) (onNext_next h)

theorem execUnrwlimExpiry_memOk {tid} (h : s.memOk) : OnNext State.memOk (execUnrwlimExpiry tid s) := by
  unfold execUnrwlimExpiry
  split
  · exact onNext_next h
  · exact onNext_ite (onNext_next (memOk_foldl (fun _ _ h1 => memOk_ite h1 (stopForSave_memOk h1)) (modSync_memOk h))) (onNext_next h)

theorem unplace_memOk {tid} (h : s.memOk) : (s.unplace tid).memOk := freeTeamSlot_memOk (memOk_foldl (fun _ _ h0 => memOk_with (modBench_memOk h0)) h)

theorem packVdev_memOk {vdev} (h : s.memOk) : (s.packVdev vdev).memOk :=
  modVdev_memOk (memOk_foldl (fun _ _ h0 => memOk_with h0) (memOk_foldl (fun _ _ h0 => unplace_memOk h0) h))

theorem settleVdev_memOk {vdev} (h : s.memOk) : (s.settleVdev vdev).memOk := by
  unfold State.settleVdev
  extract_lets +onlyGivenNames s1
  have hs1 : s1.memOk := memOk_foldl (fun _ _ h0 => drainPath_memOk h0) h
  exact memOk_foldl (fun _ _ h0 => memOk_foldl (fun _ _ h1 => memOk_ite h1 (commitLock_memOk h1)) h0) hs1

theorem settleMemory_memOk {vdev} (h : s.memOk) : (s.settleMemory vdev).memOk :=
  memOk_foldl (fun _ _ h0 => modMem_memOk (writeBackTeam_memOk (drainPath_memOk h0))) (settleVdev_memOk h)

theorem imageLength_memOk (h : s.memOk) : s.imageLength.2.memOk := memOk_with h

theorem moveOut_memOk {part vdev} (h : s.memOk) : (s.moveOut part vdev).memOk := modDisp_memOk (memOk_foldl (fun _ _ h0 => modQuad_memOk h0) h)

theorem continueInPlace_memOk {vdev} (h : s.memOk) : (s.continueInPlace vdev).memOk := by
  unfold State.continueInPlace
  extract_lets +onlyGivenNames s1 s2
  have hs1 : s1.memOk := by
    unfold s1
    refine memOk_foldl (fun _ kv h0 => ?_) h
    extract_lets +onlyGivenNames clk
    split
    · exact h0
    · exact setGroup_memOk h0
    · exact modStops_memOk h0
  have hs2 : s2.memOk := memOk_foldl (fun _ _ h0 => modSync_memOk h0) hs1
  exact modVdev_memOk hs2

theorem takeImage_memOk {part vdev} (h : s.memOk) : (s.takeImage part vdev).memOk :=
  modCtx_memOk (leave_memOk (packVdev_memOk (memOk_foldl (fun _ _ h0 => closeTeamStamps_memOk h0) h)))

theorem execSaveImageTaken_memOk {vdev} (h : s.memOk) : OnNext State.memOk (execSaveImageTaken vdev s) := by
  unfold execSaveImageTaken
  split
  · exact onNext_next h
  · split
    · split
      · exact onNext_next h
      · extract_lets +onlyGivenNames part s0
        have hs0 : s0.memOk := settleMemory_memOk h
        split
        · exact onNext_next (ownershipFault_memOk hs0)
        · split
          · exact onNext_next (modVdev_memOk (takeImage_memOk hs0))
          · exact onNext_next (modVdev_memOk (takeImage_memOk (imageLength_memOk hs0)))
          · exact onNext_next (modVdev_memOk (dropTranslations_memOk (moveOut_memOk (takeImage_memOk (imageLength_memOk hs0)))))
          · split
            · next e4 =>
              split
              · exact onNext_next (endCommand_memOk (continueInPlace_memOk (snd_memOk (imageLength_memOk hs0) e4)))
              · extract_lets +onlyGivenNames s2
                have hs2 : s2.memOk := takeImage_memOk (snd_memOk (imageLength_memOk hs0) e4)
                split
                · exact onNext_next hs2
                · exact onNext_next (endCommand_memOk (modVdev_memOk (coherentWrite_memOk (moveOut_memOk hs2))))
    · exact onNext_next h

theorem execSave_memOk {src} (h : s.memOk) : OnNext State.memOk (execSave src s) := by
  unfold execSave
  refine runCommand_memOk h (fun c s h0 => ?_)
  extract_lets +onlyGivenNames vdev buf len
  split
  · split
    · exact trivial
    · split
      · exact trivial
      · exact startSave_memOk h0
  · exact trivial

theorem moveInLaunches_memOk {part vdev ls} (h : s.memOk) : (s.moveInLaunches part vdev ls).memOk :=
  modVdev_memOk (memOk_foldl (fun _ _ h0 => modQueue_memOk h0) (modDisp_memOk h))

theorem moveIn_memOk {part vdev i} (h : s.memOk) : (s.moveIn part vdev i).memOk :=
  modDisp_memOk (moveInLaunches_memOk (memOk_foldl (fun _ _ h0 => modQueue_memOk h0) (modVdev_memOk (modDisp_memOk h))))

theorem writePages_memOk {part vdev v epoch} (h : s.memOk) : (s.writePages part vdev v epoch).memOk := by
  unfold State.writePages
  refine memOk_foldl (fun _ r h0 => ?_) h
  split
  · next e1 =>
    split
    · next e2 =>
      split
      · exact coherentWrite_memOk (fst_memOk (guestPage_memOk (fst_memOk (guestRead_memOk h0) e1)) e2)
      · exact fst_memOk (guestPage_memOk (fst_memOk (guestRead_memOk h0) e1)) e2

theorem execRestore_memOk {src} (h : s.memOk) : OnNext State.memOk (execRestore src s) := by
  unfold execRestore
  refine runCommand_memOk h (fun c s h0 => ?_)
  extract_lets +onlyGivenNames vdev addr len
  split
  · exact trivial
  · extract_lets +onlyGivenNames part
    split
    · exact trivial
    · split
      · split
        · exact trivial
        · exact trivial
      · split
        · exact trivial
        · split
          · exact trivial
          · next e2 =>
            split
            · exact trivial
            · split
              · exact trivial
              · split
                · exact trivial
                · extract_lets +onlyGivenNames s1
                  have hs1 : s1.memOk := by
                    unfold s1
                    split
                    · exact writePages_memOk (fst_memOk (commandRead_memOk h0) e2)
                    · exact fst_memOk (commandRead_memOk h0) e2
                  exact moveIn_memOk hs1

theorem execHaltRelease_memOk {vdev} (h : s.memOk) : OnNext State.memOk (execHaltRelease vdev s) := by
  unfold execHaltRelease
  split
  · exact onNext_next h
  · exact onNext_ite (onNext_next h) (onNext_next (memOk_foldl (fun _ _ h1 => abortLaunch_memOk h1) (modCtx_memOk h)))

/-! ### Commands on virtual devices and partitions -/

theorem flushLines_memOk {p} (h : s.memOk) : (s.flushLines p).memOk := memOk_foldl (fun _ _ h0 => memOk_foldl (fun _ _ h1 => dropLine_memOk h1) h0) h

theorem applyInside_memOk {inside n} (h : s.memOk) : (s.applyInside inside n).memOk := by
  induction n generalizing s with
  | zero => exact h
  | succ n ih =>
    unfold State.applyInside
    split
    · next e => exact ih (onSome_findSome (fun _ => applyHeld_memOk h) _ e)
    · exact h

theorem clearFrames_memOk {sel zero} (h : s.memOk) : (s.clearFrames sel zero).memOk := by
  unfold State.clearFrames
  extract_lets +onlyGivenNames inside s1 s2 hold s3 backs s4 s5 left s6 clean stays
  have hs1 : s1.memOk := memOk_foldl (fun _ _ h0 => drainPath_memOk h0) h
  have hs2 : s2.memOk := applyInside_memOk hs1
  have hs3 : s3.memOk := memOk_foldl (fun _ _ h0 => recallLine_memOk h0) hs2
  have hs4 : s4.memOk := List.foldlRecOn (motive := fun m => Memory.wf m = true) backs _ hs3 fun _ hm w _ => memWrites_wf w.addr w.data hm
  have hs5 : s5.memOk := dropTranslations_memOk (flushLines_memOk hs4)
  have hs6 : s6.memOk := memOk_foldl (fun _ _ h0 => modSync_memOk h0) hs5
  clear_value s6
  exact memOk_filter hs6

theorem releaseFrames_memOk {sel zero} (h : s.memOk) : (s.releaseFrames sel zero).memOk := modMod_memOk (clearFrames_memOk h)

theorem freeFrames_memOk {vdev} (h : s.memOk) : (s.freeFrames vdev).memOk := releaseFrames_memOk h

theorem passFrame_memOk {frame owner} (h : s.memOk) : (s.passFrame frame owner).memOk := modMod_memOk (clearFrames_memOk (memOk_with h))

theorem assignFrames_memOk {part owner n} (h : s.memOk) : (s.assignFrames part owner n).memOk := by
  induction n generalizing s with
  | zero => exact h
  | succ n ih =>
    have h1 : (s.anyNat (2 ^ 26)).2.memOk := anyNat_memOk h
    exact ih (memOk_ite (passFrame_memOk h1) h1)

theorem firmwareStores_memOk {part n} (h : s.memOk) : (s.firmwareStores part n).memOk := by
  induction n generalizing s with
  | zero => exact h
  | succ n ih =>
    have h2 : ((s.anyNat (2 ^ 39)).2.anyNat (2 ^ 64)).2.memOk := anyNat_memOk (anyNat_memOk h)
    exact ih (memOk_ite (coherentWrite_memOk h2) h2)

theorem tableStores_memOk {part} (h : s.memOk) : (s.tableStores part).memOk := firmwareStores_memOk (memOk_with h)

theorem installTables_memOk {part vdev} (h : s.memOk) : (s.installTables part vdev).memOk := modVdev_memOk (tableStores_memOk (memOk_with h))

theorem remapFrame_memOk {frame} (h : s.memOk) : (s.remapFrame frame).memOk :=
  memOk_foldl (fun _ _ h0 => memOk_foldl (fun _ _ h1 => coherentWrite_memOk (memOk_with h1)) h0) h

theorem giveQueues_memOk {q vdev n} (h : s.memOk) : (s.giveQueues q vdev n).memOk := by
  induction n generalizing s with
  | zero => exact h
  | succ n ih => exact ih (modQueue_memOk (anyNat_memOk (bound := (s.freeQueues q).length) h))

theorem zeroBitmap_memOk {t} (h : s.memOk) : (s.zeroBitmap t).memOk := filter_wf _ h

theorem enterVdev_memOk {d v} (h : s.memOk) : (s.enterVdev d v).memOk := by
  unfold State.enterVdev
  extract_lets +onlyGivenNames vdev part s1 s2
  have hs1 : s1.memOk := memOk_foldl (fun _ _ h0 => giveQueues_memOk h0) h
  have hs2 : s2.memOk := memOk_foldl (fun _ _ h0 => modQuad_memOk h0) hs1
  exact memOk_with (zeroBitmap_memOk (assignFrames_memOk (assignFrames_memOk (memOk_with (memOk_with hs2)))))

theorem execCreateVdev_memOk {src} (h : s.memOk) : OnNext State.memOk (execCreateVdev src s) := by
  unfold execCreateVdev
  exact runCommand_memOk h (fun _ _ h0 => Reply.memOk_ite trivial (Reply.memOk_ite trivial (enterVdev_memOk (modIdent_memOk (memOk_with h0)))))

theorem endTeams_memOk {vdev} (h : s.memOk) : (s.endTeams vdev).memOk := by
  unfold State.endTeams
  refine memOk_foldl (fun _ t h0 => ?_) h
  exact memOk_with (unplace_memOk (modQuad_memOk (modCore_memOk (writeBackTeam_memOk (drainPath_memOk (abortTeam_memOk h0))))))

theorem removeVdev_memOk {vdev status} (h : s.memOk) : (s.removeVdev vdev status).memOk := by
  unfold State.removeVdev
  split
  · exact h
  · extract_lets +onlyGivenNames part s1 s2 s2' s2'' s3 s4 s5
    have hs1 : s1.memOk := endTeams_memOk h
    have hs2 : s2.memOk := by
      unfold s2
      split
      · exact memOk_foldl (fun _ _ h2 => writeCompletion_memOk h2) hs1
      · exact hs1
    have hs2' : s2'.memOk := modPart_memOk hs2
    have hs2'' : s2''.memOk := dropTranslations_memOk (flushLines_memOk hs2')
    have hs3 : s3.memOk := freeFrames_memOk (leave_memOk (moveOut_memOk hs2''))
    have hs4 : s4.memOk := memOk_foldl (fun _ _ h1 => modQuad_memOk h1) hs3
    have hs5 : s5.memOk := modPart_memOk hs4
    exact memOk_with hs5

theorem execDestroyVdev_memOk {src} (h : s.memOk) : OnNext State.memOk (execDestroyVdev src s) := runCommand_memOk h (fun _ _ h0 => removeVdev_memOk h0)

theorem execLaunchCommand_memOk {src} (h : s.memOk) : OnNext State.memOk (execLaunchCommand src s) := by
  unfold execLaunchCommand
  refine runCommand_memOk h (fun c s h0 => ?_)
  extract_lets +onlyGivenNames p n q owner foreign
  split
  · exact trivial
  · split
    · exact trivial
    · exact Reply.memOk_ite (noteService_memOk h0) (Reply.memOk_ite trivial (noteService_memOk (postPacket_memOk h0)))

theorem requota_memOk {part vdev} (h : s.memOk) : (s.requota part vdev).memOk := memOk_foldl (fun _ _ h0 => modLlc_memOk h0) (memOk_with h)

theorem execCarve_memOk {src} (h : s.memOk) : OnNext State.memOk (execCarve src s) := by
  unfold execCarve
  refine runCommand_memOk h (fun c s h0 => ?_)
  extract_lets +onlyGivenNames vdev
  split
  · exact trivial
  · extract_lets +onlyGivenNames part
    split
    · split
      · exact trivial
      · exact Reply.memOk_ite (modVdev_memOk h0) trivial
    · exact Reply.memOk_ite trivial (Reply.memOk_ite trivial (modPart_memOk (modVdev_memOk (requota_memOk h0))))

theorem execCarveApply_memOk {core} (h : s.memOk) : OnNext State.memOk (execCarveApply core s) :=
  onNext_ite (onNext_next h) (onNext_next (l1Clear_memOk (modCore_memOk h)))

theorem extendMr_memOk {n digest} (h : s.memOk) : (s.extendMr n digest).memOk := modIdent_memOk h

theorem measureSettings_memOk (h : s.memOk) : s.measureSettings.memOk := extendMr_memOk h

theorem repartition_memOk {code} (h : s.memOk) : (s.repartition code).memOk := by
  unfold State.repartition
  extract_lets +onlyGivenNames changed s1
  have hs1 : s1.memOk := flushLines_memOk h
  refine memOk_foldl (fun acc qs h0 => ?_) (memOk_with hs1)
  extract_lets +onlyGivenNames n
  split
  · exact memOk_ite (memOk_with h0) (memOk_with (memOk_with h0))
  · exact memOk_with (memOk_with h0)

theorem execPartition_memOk {src} (h : s.memOk) : OnNext State.memOk (execPartition src s) := by
  unfold execPartition
  refine runCommand_memOk h (fun c s h0 => ?_)
  extract_lets +onlyGivenNames code keep place p
  split
  · exact trivial
  · extract_lets +onlyGivenNames s1
    have hs1 : s1.memOk := memOk_ite h0 (modMod_memOk (repartition_memOk h0))
    split
    · exact trivial
    · extract_lets +onlyGivenNames s2 s3
      have hs2 : s2.memOk := memOk_ite (modPart_memOk hs1) hs1
      have hs3 : s3.memOk := extendMr_memOk hs2
      exact memOk_ite hs3 (measureSettings_memOk hs3)

theorem retireFrame_memOk {frame} (h : s.memOk) : (s.retireFrame frame).memOk := by
  unfold State.retireFrame
  extract_lets +onlyGivenNames a q owner s1 s2
  have hs2 : s2.memOk := modMod_memOk (releaseFrames_memOk (remapFrame_memOk h))
  exact logEvent_memOk hs2

theorem condemnedFrame_memOk (h : s.memOk) : OnSome State.memOk s.condemnedFrame := by
  unfold State.condemnedFrame
  refine onSome_map_of (fun _  => ?_)
  · exact memOk_ite (logEvent_memOk (count_memOk (modMod_memOk h))) (retireFrame_memOk (logEvent_memOk (count_memOk (modMod_memOk h))))

theorem execRetirePage_memOk {src} (h : s.memOk) : OnNext State.memOk (execRetirePage src s) := by
  unfold execRetirePage
  exact runCommand_memOk h (fun _ _ h0 => Reply.memOk_ite trivial (Reply.memOk_ite trivial (Reply.memOk_ite (modMod_memOk h0) (retireFrame_memOk h0))))

theorem retireNow_memOk (h : s.memOk) : OnSome State.memOk s.retireNow :=
  onSome_map_of (fun _ => endCommand_memOk (memOk_ite (modMod_memOk h) (retireFrame_memOk (modMod_memOk h))))

theorem modSaved_memOk {vdev team group f} (h : s.memOk) : (s.modSaved vdev team group f).memOk := modVdev_memOk h

theorem execAnswerResume_memOk {src} (h : s.memOk) : OnNext State.memOk (execAnswerResume src s) := by
  unfold execAnswerResume
  refine runCommand_memOk h (fun c s h0 => ?_)
  extract_lets +onlyGivenNames vdev team group
  split
  · exact trivial
  · split
    · exact modGroup_memOk h0
    · exact Reply.memOk_ite (modSaved_memOk h0) trivial

theorem abortOf_memOk {g f} (h : s.memOk) : (s.abortOf g f).memOk := by
  unfold State.abortOf
  split
  · exact h
  · exact abortLaunch_memOk h

theorem abortSaved_memOk {vdev t g code slot} (h : s.memOk) : (s.abortSaved vdev t g code slot).memOk := modDisp_memOk (abortLaunch_memOk (modVdev_memOk h))

theorem execAnswerAbort_memOk {src} (h : s.memOk) : OnNext State.memOk (execAnswerAbort src s) := by
  unfold execAnswerAbort
  refine runCommand_memOk h (fun c s h0 => ?_)
  extract_lets +onlyGivenNames vdev team group
  split
  · exact trivial
  · split
    · split
      · exact abortOf_memOk h0
      · exact trivial
    · split
      · split
        · exact abortSaved_memOk h0
        · exact trivial
      · exact trivial

theorem resumeCopies_memOk {gid} (h : s.memOk) : (s.resumeCopies gid).memOk := modCore_memOk h

theorem execAnswerReplay_memOk {src} (h : s.memOk) : OnNext State.memOk (execAnswerReplay src s) := by
  unfold execAnswerReplay
  refine runCommand_memOk h (fun c s h0 => ?_)
  extract_lets +onlyGivenNames vdev team group
  split
  · exact trivial
  · split
    · exact resumeCopies_memOk (modGroup_memOk h0)
    · exact Reply.memOk_ite (modSaved_memOk h0) trivial

theorem declineCopies_memOk {gid} (h : s.memOk) : (s.declineCopies gid).memOk := memOk_foldl (fun _ _ h0 => endCopy_memOk h0) h

theorem execAnswerDecline_memOk {src} (h : s.memOk) : OnNext State.memOk (execAnswerDecline src s) := by
  unfold execAnswerDecline
  refine runCommand_memOk h (fun c s h0 => ?_)
  extract_lets +onlyGivenNames vdev team group
  split
  · exact trivial
  · split
    · split
      · exact abortOf_memOk h0
      · exact declineCopies_memOk h0
    · split
      · exact abortSaved_memOk h0
      · exact trivial

theorem invalidate_memOk {part vdev kind addr} (h : s.memOk) : (s.invalidate part vdev kind addr).memOk := by
  unfold State.invalidate
  extract_lets +onlyGivenNames covers
  split
  · exact dropTranslations_memOk h
  · exact dropTranslations_memOk h
  · exact dropTranslations_memOk h
  · exact modFab_memOk h

theorem invalidated_memOk {part vdev kind addr} (h : s.memOk) : (s.invalidated part vdev kind addr).memOk :=
  memOk_ite (invalidate_memOk h) (settleVdev_memOk (invalidate_memOk h))

theorem drainEnds_memOk (h : s.memOk) : OnSome State.memOk s.drainEnds :=
  onSome_findSome (fun _ => onSome_ite onSome_none (onSome_some (endCommand_memOk (modMod_memOk (settleVdev_memOk h)))))

theorem execTablesSetS1root_memOk {src} (h : s.memOk) : OnNext State.memOk (execTablesSetS1root src s) :=
  runCommand_memOk h (fun _ _ h0 => Reply.memOk_ite trivial (modVdev_memOk h0))

theorem execTablesSetS2root_memOk {src} (h : s.memOk) : OnNext State.memOk (execTablesSetS2root src s) :=
  runCommand_memOk h (fun _ _ h0 => Reply.memOk_ite trivial (modVdev_memOk (tableStores_memOk h0)))

theorem execTablesInvalidate_memOk {src} (h : s.memOk) : OnNext State.memOk (execTablesInvalidate src s) := by
  unfold execTablesInvalidate
  refine runCommand_memOk h (fun c s h0 => ?_)
  split
  · exact trivial
  · extract_lets +onlyGivenNames kind a
    split
    · exact trivial
    · extract_lets +onlyGivenNames part s1
      have hs1 : s1.memOk := invalidated_memOk (memOk_ite (tableStores_memOk h0) h0)
      exact Reply.memOk_ite (modMod_memOk hs1) hs1

theorem execTablesSetWindowGrant_memOk {src} (h : s.memOk) : OnNext State.memOk (execTablesSetWindowGrant src s) :=
  runCommand_memOk h (fun _ _ h0 => Reply.memOk_ite trivial (modVdev_memOk h0))

theorem execTablesSetReplicaEntry_memOk {src} (h : s.memOk) : OnNext State.memOk (execTablesSetReplicaEntry src s) := by
  unfold execTablesSetReplicaEntry
  refine runCommand_memOk h (fun c s h0 => ?_)
  split
  · exact trivial
  · exact Reply.memOk_ite trivial (modPart_memOk h0)

theorem execTablesExtendMeasurement_memOk {src} (h : s.memOk) : OnNext State.memOk (execTablesExtendMeasurement src s) :=
  runCommand_memOk h (fun _ _ h0 => Reply.memOk_ite (extendMr_memOk h0) trivial)

theorem execCommsSetCommunicator_memOk {src} (h : s.memOk) : OnNext State.memOk (execCommsSetCommunicator src s) := by
  unfold execCommsSetCommunicator
  refine runCommand_memOk h (fun c s h0 => ?_)
  extract_lets +onlyGivenNames part comms entry
  split
  · exact trivial
  · split
    · exact trivial
    · exact modFab_memOk h0

theorem execCommsRemoveCommunicator_memOk {src} (h : s.memOk) : OnNext State.memOk (execCommsRemoveCommunicator src s) := by
  unfold execCommsRemoveCommunicator
  refine runCommand_memOk h (fun c s h0 => ?_)
  extract_lets +onlyGivenNames part
  split
  · exact trivial
  · exact modFab_memOk h0

theorem execCommsSetReductionGroup_memOk {src} (h : s.memOk) : OnNext State.memOk (execCommsSetReductionGroup src s) :=
  runCommand_memOk h (fun _ _ h0 => Reply.memOk_ite trivial (modFab_memOk h0))

theorem execCommsRemoveReductionGroup_memOk {src} (h : s.memOk) : OnNext State.memOk (execCommsRemoveReductionGroup src s) :=
  runCommand_memOk h (fun _ _ h0 => Reply.memOk_ite (modFab_memOk h0) trivial)

theorem execLogsFaultQueueState_memOk {src} (h : s.memOk) : OnNext State.memOk (execLogsFaultQueueState src s) := by
  unfold execLogsFaultQueueState
  refine runCommand_memOk h (fun c s h0 => ?_)
  split
  · exact trivial
  · split
    · exact noteService_memOk h0
    · exact noteService_memOk (modVdev_memOk h0)

theorem execLogsAdvanceTail_memOk {src} (h : s.memOk) : OnNext State.memOk (execLogsAdvanceTail src s) := by
  unfold execLogsAdvanceTail
  refine runCommand_memOk h (fun c s h0 => ?_)
  extract_lets +onlyGivenNames t
  split
  · exact trivial
  · exact Reply.memOk_ite (modVdev_memOk h0) trivial

theorem execLogsReadEventLog_memOk {src} (h : s.memOk) : OnNext State.memOk (execLogsReadEventLog src s) :=
  runCommand_memOk h (fun _ _ h0 => Reply.memOk_ite trivial (modPart_memOk h0))

theorem execLogsSetEventInterrupt_memOk {src} (h : s.memOk) : OnNext State.memOk (execLogsSetEventInterrupt src s) :=
  runCommand_memOk h (fun _ _ h0 => Reply.memOk_ite trivial (modQuad_memOk h0))

theorem execLogsClearCounters_memOk {src} (h : s.memOk) : OnNext State.memOk (execLogsClearCounters src s) :=
  runCommand_memOk h (fun _ _ h0 => Reply.memOk_ite trivial (modQuad_memOk h0))

/-! ### Checkpoints, migration and the fabric -/

theorem checkpointWith_memOk {src mode body} (h : s.memOk) (hbody : ∀ s a0 a1 a2 a3, s.memOk → (body s a0 a1 a2 a3).memOk) :
    OnNext State.memOk (checkpointWith s src mode body) := by
  unfold checkpointWith
  refine runCommand_memOk h (fun c s h0 => ?_)
  split
  · split
    · exact trivial
    · exact hbody _ _ _ _ _ h0
  · exact trivial

theorem execCheckpointDisable_memOk {src} (h : s.memOk) : OnNext State.memOk (execCheckpointDisable src s) :=
  checkpointWith_memOk h (fun _ _ _ _ _ h0 => modVdev_memOk h0)

theorem execCheckpointRun_memOk {src} (h : s.memOk) : OnNext State.memOk (execCheckpointRun src s) :=
  checkpointWith_memOk h (fun _ _ _ _ _ h0 => Reply.memOk_ite (modVdev_memOk h0) trivial)

theorem execCheckpointCloseNow_memOk {src} (h : s.memOk) : OnNext State.memOk (execCheckpointCloseNow src s) := by
  unfold execCheckpointCloseNow
  exact checkpointWith_memOk h (fun _ _ _ _ _ h0 => Reply.memOk_ite trivial (Reply.memOk_ite trivial (startSave_memOk (modVdev_memOk h0))))

theorem streamWrite_memOk {part vdev va data} (h : s.memOk) : OnSome State.memOk (s.streamWrite part vdev va data) := by
  unfold State.streamWrite
  split
  · next e0 => exact onSome_some (memOk_foldl (fun _ _ h1 => clearDirty_memOk h1) (fst_memOk (guestWrite_memOk h) e0))
  · exact onSome_none

theorem takePage_memOk {vdev page} (h : s.memOk) : (s.takePage vdev page).memOk := dropTranslations_memOk (clearDirty_memOk h)

theorem execCheckpointPageStream_memOk {vdev page} (h : s.memOk) : OnNext State.memOk (execCheckpointPageStream vdev page s) := by
  unfold execCheckpointPageStream
  split
  · exact onNext_next h
  · split
    · exact onNext_next h
    · extract_lets +onlyGivenNames part later later' s1
      have hlater' : ∀ s, s.memOk → (later' s).memOk := fun _ h1 => modVdev_memOk h1
      have hs1 : s1.memOk := settleVdev_memOk (takePage_memOk h)
      split
      · exact onNext_next (hlater' _ h)
      · split
        · exact onNext_next (hlater' _ h)
        · next s2 _ e1 =>
          have hs2 : s2.memOk := fst_memOk (guestPage_memOk hs1) e1
          split
          · refine onNext_next (hlater' _ ?_)
            split
            · exact detect_memOk h
            · exact h
          · next s3 _ e2 =>
            have hs3 : s3.memOk := fst_memOk (servedBytes_memOk hs2) e2
            extract_lets +onlyGivenNames data
            split
            · exact onNext_next (hlater' _ h)
            · next e3 => exact onNext_next (modVdev_memOk (streamWrite_memOk hs3 _ e3))

theorem closed_memOk {vdev v} (h : s.memOk) : OnSome State.memOk (s.closed vdev v) :=
  onSome_ite (onSome_bind_of (fun _ => onSome_ite (streamWrite_memOk h) onSome_none)) onSome_none

theorem execEpochClose_memOk {vdev} (h : s.memOk) : OnNext State.memOk (execEpochClose vdev s) := by
  unfold execEpochClose
  split
  · exact onNext_next h
  · split
    · next e1 e2 =>
      exact onNext_next (modVdev_memOk (closed_memOk h _ e1))
    · next e1 e2 =>
      exact onNext_next h

theorem savedTimeout_memOk {vdev t g} (h : s.memOk) : (s.savedTimeout vdev t g).memOk :=
  reportFatal_memOk (hitTrigger_memOk (modSaved_memOk (logEvent_memOk (logEvent_memOk (enterRecord_memOk h)))))

theorem checkpointStalls_memOk (h : s.memOk) : OnSome State.memOk s.checkpointStalls := by
  unfold State.checkpointStalls
  refine onSome_findSome (fun _ => ?_)
  exact onSome_ite onSome_none (onSome_ite (onSome_some (modVdev_memOk h)) (onSome_map_of (fun _ => savedTimeout_memOk h)))

theorem execMigrateIn_memOk {src} (h : s.memOk) : OnNext State.memOk (execMigrateIn src s) :=
  runCommand_memOk h (fun _ _ h0 => Reply.memOk_ite trivial (enterVdev_memOk h0))

theorem mayMigrate_memOk {v peer} (h : s.memOk) : (s.mayMigrate v peer).2.memOk := by
  unfold State.mayMigrate
  extract_lets +onlyGivenNames open'
  split
  · exact h
  · exact memOk_with h

theorem execMigrateOut_memOk {src} (h : s.memOk) : OnNext State.memOk (execMigrateOut src s) := by
  unfold execMigrateOut
  refine runCommand_memOk h (fun c s h0 => ?_)
  extract_lets +onlyGivenNames vdev peer rate
  split
  · split
    · exact trivial
    · split
      · exact trivial
      · split
        · exact h0
        · split
          · exact trivial
          · exact Reply.memOk_ite trivial (startSave_memOk (modVdev_memOk (mayMigrate_memOk h0)))
  · exact trivial

theorem arriveVdev_memOk {vdev ctx img} (h : s.memOk) : (s.arriveVdev vdev ctx img).memOk := by
  unfold State.arriveVdev
  split
  · exact h
  · extract_lets +onlyGivenNames part s1 s2
    have hs1 : s1.memOk := modVdev_memOk h
    have hs2 : s2.memOk := installTables_memOk hs1
    split
    · exact moveIn_memOk hs2
    · exact hs2

theorem foreignDumps_memOk {n} (h : s.memOk) : (foreignDumps n s).2.memOk := by
  induction n generalizing s with
  | zero => exact h
  | succ n ih => exact ih (s := (((s.anyNat (2 ^ 63)).2.anyNat (2 ^ 64)).2.anyNat (2 ^ 32)).2) (anyNat_memOk (anyNat_memOk (anyNat_memOk h)))

theorem foreignContext_memOk {v} (h : s.memOk) : (s.foreignContext v).2.memOk := foreignDumps_memOk (memOk_with (memOk_with (memOk_with (memOk_with h))))

theorem foreignImage_memOk {part vdev} (h : s.memOk) : (s.foreignImage part vdev).2.memOk := memOk_with h

theorem migrationRefused_memOk {part vdev reason m} (h : s.memOk) : (s.migrationRefused part vdev reason m).memOk := by
  unfold State.migrationRefused
  extract_lets +onlyGivenNames img s1 s2
  have hs1 : s1.memOk := by
    cases himg : img with
    | none => simpa only [s1, himg] using h
    | some i => simpa only [s1, himg] using moveIn_memOk h
  have hs2 : s2.memOk := modVdev_memOk hs1
  split
  · exact endCommand_memOk hs2
  · exact hs2

theorem switchSource_memOk {part vdev n peer m} (h : s.memOk) : (s.switchSource part vdev n peer m).memOk := by
  unfold State.switchSource
  split
  · exact h
  · extract_lets +onlyGivenNames old
    split
    · next e1 =>
      extract_lets +onlyGivenNames near held e s2 s3 s4
      have hs2 : s2.memOk := modFab_memOk (snd_memOk (anyNat_memOk h) e1)
      have hs3 : s3.memOk := memOk_foldl (fun _ _ h2 => push_memOk h2) hs2
      have hs4 : s4.memOk := modVdev_memOk hs3
      split
      · exact endCommand_memOk hs4
      · exact hs4

theorem execMigrationSwitch_memOk {vdev} (h : s.memOk) : OnNext State.memOk (execMigrationSwitch vdev s) := by
  unfold execMigrationSwitch
  split
  · exact onNext_next h
  · extract_lets +onlyGivenNames part
    refine onNext_ite (onNext_next h) ?_
    split
    · refine onNext_ite (onNext_next h) ?_
      split
      next e1 =>
      split
      next s2 e2 =>
      have hs2 : s2.memOk := snd_memOk (foreignImage_memOk (snd_memOk (foreignContext_memOk h) e1)) e2
      exact onNext_ite (onNext_next hs2) (onNext_next (arriveVdev_memOk hs2))
    · split
      · split
        · split
          next e4 =>
          split
          next s2 e5 =>
          have hs2 : s2.memOk := snd_memOk (anyNat_memOk (snd_memOk (choose_memOk h) e4)) e5
          exact onNext_next (memOk_ite (migrationRefused_memOk hs2) (memOk_ite (switchSource_memOk hs2) (migrationRefused_memOk hs2)))
        · split
          · exact onNext_next (migrationRefused_memOk h)
          · split
            · exact onNext_next (migrationRefused_memOk h)
            · exact onNext_ite (onNext_next h) (onNext_next (switchSource_memOk (arriveVdev_memOk h)))
      · exact onNext_next h

theorem execMigrationNotice_memOk {part old new handle} (h : s.memOk) : OnNext State.memOk (execMigrationNotice part old new handle s) := by
  unfold execMigrationNotice
  extract_lets +onlyGivenNames s1
  have hs1 : s1.memOk := modFab_memOk h
  refine onNext_next ?_
  split
  · exact push_memOk hs1
  · exact hs1

theorem execMigrationAcknowledgement_memOk {part handle peer} (h : s.memOk) : OnNext State.memOk (execMigrationAcknowledgement part handle peer s) := by
  unfold execMigrationAcknowledgement
  split
  · exact onNext_next h
  · exact onNext_next (modFab_memOk h)

theorem execForwardingExpiry_memOk {part handle} (h : s.memOk) : OnNext State.memOk (execForwardingExpiry part handle s) := by
  unfold execForwardingExpiry
  split
  · exact onNext_next h
  · exact onNext_ite (onNext_next (modFab_memOk h)) (onNext_next h)

theorem edgeFlits_memOk {part vdev} (h : s.memOk) : (s.edgeFlits part vdev).memOk := countFlits_memOk h

theorem execForwardedAccess_memOk {part handle frame} (h : s.memOk) : OnNext State.memOk (execForwardedAccess part handle frame s) := by
  unfold execForwardedAccess
  split
  · exact onNext_next (edgeFlits_memOk h)
  · exact onNext_ite (onNext_next (edgeFlits_memOk h)) (onNext_next (edgeFlits_memOk h))

theorem retryHidden_memOk {vdev} (h : s.memOk) : (s.retryHidden vdev).memOk := memOk_foldl (fun _ _ h0 => modCore_memOk (memOk_ite (modGroup_memOk h0) h0)) h

theorem pullPages_memOk {v src q frame l} (h : s.memOk) : (s.pullPages v src q frame l).1.memOk := by
  induction l generalizing s with
  | nil => exact h
  | cons i rest ih =>
    unfold State.pullPages
    extract_lets +onlyGivenNames page
    have hpage : page.1.memOk := by
      unfold page
      split
      · exact h
      · split
        · next e => exact fst_memOk (guestPage_memOk (takePage_memOk h)) e
        · next e =>
          have h1 := fst_memOk (guestPage_memOk (takePage_memOk h)) e
          split
          · next e1 => exact fst_memOk (servedBytes_memOk h1) e1
          · next e1 => exact fst_memOk (servedBytes_memOk h1) e1
    clear_value page
    obtain ⟨s1, b⟩ := page
    cases b with
    | none => exact hpage
    | some b =>
      dsimp only
      split
      · next e1 => exact fst_memOk (ih hpage) e1
      · next e1 => exact fst_memOk (ih hpage) e1

theorem landFrame_memOk {vdev frame v data} (h : s.memOk) : (s.landFrame vdev frame v data).memOk := retryHidden_memOk (modVdev_memOk (memOk_writes h))

theorem sourceSent_memOk {vdev src frame w} (h : s.memOk) : (s.sourceSent vdev src frame w).memOk :=
  memOk_ite (modVdev_memOk (modVdev_memOk h)) (removeVdev_memOk (modVdev_memOk (modVdev_memOk h)))

theorem execFramePullComplete_memOk {vdev frame data} (h : s.memOk) : OnNext State.memOk (execFramePullComplete vdev frame data s) := by
  unfold execFramePullComplete
  split
  · exact onNext_next h
  · split
    · exact onNext_next h
    · split
      · exact onNext_ite (onNext_next h) (onNext_next (landFrame_memOk h))
      · split
        · exact onNext_next h
        · split
          · next e3 => exact onNext_next (sourceSent_memOk (landFrame_memOk (fst_memOk (pullPages_memOk h) e3)))
          · next e3 => exact onNext_next (modVdev_memOk (fst_memOk (pullPages_memOk h) e3))

theorem execMigrationSourceLost_memOk {vdev} (h : s.memOk) : OnNext State.memOk (execMigrationSourceLost vdev s) := by
  unfold execMigrationSourceLost
  split
  · exact onNext_next h
  · exact onNext_ite (onNext_next (retryHidden_memOk (modVdev_memOk h))) (onNext_next h)

theorem takeFrame_memOk {vdev frame v} (h : s.memOk) : (s.takeFrame vdev frame v).memOk := by
  unfold State.takeFrame
  refine memOk_foldl (fun _ i h0 => ?_) h
  split
  · exact takePage_memOk h0
  · exact h0

theorem execPullRequest_memOk {part handle frame} (h : s.memOk) : OnNext State.memOk (execPullRequest part handle frame s) := by
  unfold execPullRequest
  split
  · exact onNext_next h
  · split
    · exact onNext_next (edgeFlits_memOk h)
    · extract_lets +onlyGivenNames sent s1
      have hs1 : s1.memOk := modVdev_memOk (edgeFlits_memOk (takeFrame_memOk h))
      exact onNext_next (memOk_ite (removeVdev_memOk hs1) hs1)

theorem outsideAccess_memOk {part x} (h : s.memOk) : (s.outsideAccess part x).memOk := by
  unfold State.outsideAccess
  extract_lets +onlyGivenNames serve
  have hserve : ∀ a n reads f, (∀ s q a, s.memOk → (f s q a).memOk) → (serve a n reads f).memOk := by
    intro a n reads f hf
    unfold serve
    refine memOk_ite h ?_
    split
    · next s1 e1 =>
      have hs1 : s1.memOk := snd_memOk (fabricServe_memOk h) e1
      split
      · exact hf _ _ _ hs1
      · split
        · exact detect_memOk hs1
        · exact hf _ _ _ (memOk_getD (coherentRead_memOk hs1) hs1)
    · next e1 => exact snd_memOk (fabricServe_memOk h) e1
  split
  · exact hserve _ _ _ _ (fun _ _ _ h1 => h1)
  · exact hserve _ _ _ _ (fun _ _ _ h1 => coherentWrite_memOk h1)
  · exact memOk_ite (hserve _ _ _ _ (fun _ _ _ h1 => coherentWrite_memOk h1)) h

theorem execFabricRequest_memOk {part access} (h : s.memOk) : OnNext State.memOk (execFabricRequest part access s) := by
  unfold execFabricRequest
  extract_lets +onlyGivenNames a s1
  have hs1 : s1.memOk := edgeFlits_memOk h
  exact onNext_ite (onNext_next (memOk_ite (outsideAccess_memOk (exported_memOk hs1)) (exported_memOk hs1))) (onNext_next hs1)

theorem execFabricLinkDown_memOk {part endpoints} (h : s.memOk) : OnNext State.memOk (execFabricLinkDown part endpoints s) := onNext_next (modFab_memOk h)

theorem execFabricRouteRestored_memOk {part endpoint} (h : s.memOk) : OnNext State.memOk (execFabricRouteRestored part endpoint s) :=
  onNext_next (modFab_memOk h)

theorem execCxlLinkDown_memOk {port} (h : s.memOk) : OnNext State.memOk (execCxlLinkDown port s) := onNext_next (modMod_memOk h)

/-! ### Wear, rests and the interval boundary -/

theorem activityOf_memOk {u} (h : s.memOk) : (s.activityOf u).2.2.memOk := by
  unfold State.activityOf
  extract_lets +onlyGivenNames q on pool
  split
  · exact h
  · exact anyNat_memOk h

theorem accrue_memOk {u} (h : s.memOk) : (s.accrue u).memOk := modWear_memOk (activityOf_memOk h)

theorem settleBudgets_memOk (h : s.memOk) : s.settleBudgets.memOk := memOk_foldl (fun _ _ h0 => modWear_memOk h0) h

theorem completeRest_memOk {u} (h : s.memOk) : (s.completeRest u).memOk := by
  unfold State.completeRest
  extract_lets +onlyGivenNames r
  split
  · exact h
  · exact memOk_ite (addLbud_memOk (modWear_memOk h)) (modWear_memOk h)

theorem restartClk_memOk {core} (h : s.memOk) : (s.restartClk core).memOk := memOk_ite h (modCore_memOk (memOk_with h))

theorem wakeCore_memOk {u} (h : s.memOk) : (s.wakeCore u).memOk := by
  unfold State.wakeCore
  split
  · exact h
  · extract_lets +onlyGivenNames s1
    have hs1 : s1.memOk := completeRest_memOk (completeRest_memOk h)
    split
    · exact restartClk_memOk hs1
    · exact hs1

theorem powerDown_memOk {u} (h : s.memOk) : (s.powerDown u).memOk := modWear_memOk h

theorem restInterval_memOk {start u} (h : s.memOk) : (s.restInterval start u).memOk := by
  unfold State.restInterval
  split
  · exact h
  · extract_lets +onlyGivenNames z resting
    split
    · exact memOk_ite (modWear_memOk h) h
    · extract_lets +onlyGivenNames s1
      have hs1 : s1.memOk := modWear_memOk h
      split
      · exact hs1
      · extract_lets +onlyGivenNames full s2
        have hs2 : s2.memOk := completeRest_memOk (modWear_memOk hs1)
        split
        · exact powerDown_memOk hs2
        · split
          · exact restartClk_memOk hs2
          · exact hs2

theorem startRests_memOk {q} (h : s.memOk) : (s.startRests q).memOk := by
  unfold State.startRests
  extract_lets +onlyGivenNames w mean ready order resting rest
  refine memOk_foldl (fun _ c h0 => ?_) h
  split
  · exact h0
  · exact modWear_memOk h0

theorem swapIn_memOk {die spare l} (h : s.memOk) : (s.swapIn die spare l).memOk := by
  unfold State.swapIn
  extract_lets +onlyGivenNames core d old s1 back s2 s3
  have hs1 : s1.memOk := by
    cases hold : old with
    | none => simpa only [s1, hold] using h
    | some p => simpa only [s1, hold] using modWear_memOk h
  have hs2 : s2.memOk := modDie_memOk hs1
  have hs3 : s3.memOk := modWear_memOk hs2
  exact modDisp_memOk (modCore_memOk hs3)

theorem callSpare_memOk {die l} (h : s.memOk) : (s.callSpare die l).memOk := by
  unfold State.callSpare
  extract_lets +onlyGivenNames core
  split
  · exact logEvent_memOk h
  · split
    · next e1 =>
      extract_lets +onlyGivenNames spare s2 s3
      have hs2 : s2.memOk := by
        unfold s2
        split
        · exact wakeCore_memOk (snd_memOk (anyNat_memOk h) e1)
        · exact snd_memOk (anyNat_memOk h) e1
      have hs3 : s3.memOk := modDie_memOk hs2
      exact memOk_ite (swapIn_memOk hs3) hs3

theorem callSpares_memOk (h : s.memOk) : s.callSpares.memOk := by
  unfold State.callSpares
  extract_lets +onlyGivenNames s1
  have hs1 : s1.memOk := memOk_foldl (fun _ _ h0 => modDie_memOk (memOk_foldl (fun _ _ h1 => memOk_ite h1 (callSpare_memOk h1)) h0)) h
  refine memOk_foldl (fun t q h0 => ?_) hs1
  split
  · exact h0
  · split
    · exact h0
    · exact memOk_ite h0 (callSpare_memOk h0)

theorem execSpareSwapOut_memOk {die} (h : s.memOk) : OnNext State.memOk (execSpareSwapOut die s) := by
  unfold execSpareSwapOut
  split
  · exact onNext_next h
  · exact onNext_next (swapIn_memOk h)

theorem retireCore_memOk {die pos} (h : s.memOk) : (s.retireCore die pos).memOk := by
  unfold State.retireCore
  extract_lets +onlyGivenNames d
  split
  · exact h
  · extract_lets +onlyGivenNames u called again s1 s2
    have hs1 : s1.memOk := modDie_memOk (wakeCore_memOk h)
    have hs2 : s2.memOk := by
      unfold s2
      split
      · exact modDisp_memOk (modDie_memOk hs1)
      · exact hs1
    exact logEvent_memOk hs2

theorem execCoreRetirement_memOk {die position} (h : s.memOk) : OnNext State.memOk (execCoreRetirement die position s) :=
  onNext_ite (onNext_next h) (onNext_next (retireCore_memOk h))

theorem boostSupply_memOk (h : s.memOk) : s.boostSupply.memOk := by
  unfold State.boostSupply
  refine memOk_foldl (fun _ c h0 => ?_) h
  split
  · exact modWear_memOk h0
  · exact h0

theorem readSensors_memOk (h : s.memOk) : s.readSensors.memOk := by
  unfold State.readSensors
  extract_lets +onlyGivenNames rails temps s1 s2
  have hs1 : s1.memOk := modWear_memOk h
  have hs2 : s2.memOk := memOk_foldl (fun _ _ h0 => modWear_memOk (memOk_with h0)) hs1
  exact boostSupply_memOk (memOk_foldl (fun _ _ h0 => modWear_memOk (memOk_with h0)) hs2)

theorem strikeLlc_memOk {q line how} (h : s.memOk) : (s.strikeLlc q line how).memOk := modLlc_memOk h

theorem l1Parity_memOk {core n} (h : s.memOk) : (s.l1Parity core n).memOk := modMem_memOk h

theorem strike_memOk (h : s.memOk) : s.strike.memOk := by
  unfold State.strike
  split
  next e0 =>
  split
  next e1 =>
  split
  next s3 e2 =>
  have hs3 : s3.memOk := snd_memOk (anyNat_memOk (snd_memOk (anyNat_memOk (snd_memOk (anyNat_memOk h) e0)) e1)) e2
  extract_lets +onlyGivenNames core a q
  split
  · exact memOk_ite (modMod_memOk hs3) hs3
  · exact modRegs_memOk hs3
  · exact modTeamMem_memOk hs3
  · exact modTeamMem_memOk hs3
  · exact modArr_memOk hs3
  · exact modArr_memOk hs3
  · exact memOk_ite (corrected_memOk hs3) hs3
  · exact corrected_memOk (memOk_ite (l1Parity_memOk hs3) hs3)
  · exact modRegs_memOk hs3
  · exact modTeamMem_memOk hs3
  · split
    · exact strikeLlc_memOk hs3
    · exact hs3
  · split
    · exact corrected_memOk hs3
    · exact hs3

theorem strikes_memOk (h : s.memOk) : s.strikes.memOk := memOk_foldl (fun _ _ h0 => strike_memOk h0) (memOk_with h)

theorem readDrops_memOk (h : s.memOk) : s.readDrops.memOk := memOk_foldl (fun _ _ h0 => memOk_ite (modQueue_memOk (memOk_with h0)) (memOk_with h0)) h

theorem measure_memOk {readings} (h : s.memOk) : (s.measure readings).memOk := by
  unfold State.measure
  refine memOk_foldl (fun _ x h0 => ?_) h
  extract_lets +onlyGivenNames u q s1
  have hs1 : s1.memOk := modWear_memOk h0
  exact memOk_ite hs1 (memOk_ite (retireCore_memOk hs1) (memOk_ite hs1 (logEvent_memOk hs1)))

theorem execMonitorMeasurement_memOk {readings} (h : s.memOk) : OnNext State.memOk (execMonitorMeasurement readings s) := onNext_next (measure_memOk h)

theorem drawReadings_memOk {n} (h : s.memOk) : (s.drawReadings n).2.memOk := by
  induction n generalizing s with
  | zero => exact h
  | succ n ih => exact ih (s := (s.anyNat (2 ^ 32)).2) (anyNat_memOk h)

theorem measureAll_memOk (h : s.memOk) : s.measureAll.memOk := by
  unfold State.measureAll
  split
  next e => exact measure_memOk (snd_memOk (drawReadings_memOk h) e)

theorem boundaryStress_memOk (h : s.memOk) : s.boundaryStress.memOk :=
  memOk_with (settleBudgets_memOk (memOk_foldl (fun _ _ h0 => accrue_memOk h0) (memOk_with h)))

theorem boundaryRests_memOk {start} (h : s.memOk) : (s.boundaryRests start).memOk := by
  unfold State.boundaryRests
  exact callSpares_memOk (memOk_foldl (fun _ _ h0 => startRests_memOk h0) (memOk_foldl (fun _ _ h0 => restInterval_memOk h0) h))

theorem adoptWearctl_memOk (h : s.memOk) : s.adoptWearctl.memOk := modWear_memOk (memOk_foldl (fun _ _ h0 => modQuad_memOk h0) h)

theorem recordBoundary_memOk (h : s.memOk) : s.recordBoundary.memOk := modWear_memOk h

theorem execIntervalBoundary_memOk (h : s.memOk) : OnNext State.memOk (execIntervalBoundary s) := by
  unfold execIntervalBoundary
  split
  · exact onNext_next h
  · extract_lets +onlyGivenNames start s1 s2 s23 due s3 s4
    have hs1 : s1.memOk := boundaryRests_memOk (boundaryStress_memOk (adoptWearctl_memOk h))
    have hs2 : s2.memOk := modWear_memOk hs1
    have hs23 : s23.memOk := recordBoundary_memOk hs2
    have hs3 : s3.memOk := memOk_with hs23
    have hs4 : s4.memOk := readDrops_memOk (strikes_memOk (readSensors_memOk (modMod_memOk hs3)))
    exact onNext_next (memOk_ite (measureAll_memOk hs4) hs4)

theorem boost_memOk {core vdev d} (h : s.memOk) : (s.boost core vdev d).2.2.memOk := by
  unfold State.boost
  extract_lets +onlyGivenNames u ctl refund holders enabled x k on s1
  have hs1 : s1.memOk := modCore_memOk (addLbud_memOk (endGrant_memOk h))
  split
  · exact endGrant_memOk h
  · split
    · exact h
    · split
      · exact h
      · split
        · exact h
        · split
          · exact h
          · exact hs1

theorem execBoost_memOk {d a} (h : s.memOk) : OnNext State.memOk (execBoost d a s) :=
  issue_memOk h (fun _ _ _ h0 => Res.memOk_ite trivial (modRegs_memOk (boost_memOk h0)))

theorem execBoostThermalDrop_memOk {core} (h : s.memOk) : OnNext State.memOk (execBoostThermalDrop core s) :=
  onNext_ite (onNext_next h) (onNext_next (modCore_memOk (endGrant_memOk h)))

theorem execRdwear_memOk {d a k f} (h : s.memOk) : OnNext State.memOk (execRdwear d a k f s) := by
  unfold execRdwear
  refine issue_memOk h (fun s x g h0 => ?_)
  split
  · exact trivial
  · exact modRegs_memOk h0

theorem execRdlife_memOk {d i} (h : s.memOk) : OnNext State.memOk (execRdlife d i s) := issue_memOk h (fun _ _ _ h0 => modRegs_memOk h0)

theorem execSetLife_memOk {src} (h : s.memOk) : OnNext State.memOk (execSetLife src s) := by
  unfold execSetLife
  refine runCommand_memOk h (fun c s h0 => ?_)
  extract_lets +onlyGivenNames target life
  have hlife : ∀ s, s.memOk → (life s).memOk := fun _ h1 => memOk_ite h1 (modWear_memOk h1)
  split
  · exact Reply.memOk_ite trivial (hlife _ h0)
  · extract_lets +onlyGivenNames cap mask ctl
    split
    · exact trivial
    · extract_lets +onlyGivenNames s1 s2
      have hs1 : s1.memOk := memOk_ite (hlife _ h0) (modWear_memOk (hlife _ h0))
      have hs2 : s2.memOk := memOk_foldl (fun _ _ h1 => memOk_ite (modWear_memOk h1) h1) hs1
      exact memOk_ite hs2 (measureSettings_memOk hs2)

theorem execBoostPolicy_memOk {src} (h : s.memOk) : OnNext State.memOk (execBoostPolicy src s) := by
  unfold execBoostPolicy
  refine runCommand_memOk h (fun c s h0 => ?_)
  split
  · exact Reply.memOk_ite trivial (modVdev_memOk h0)
  · exact Reply.memOk_ite trivial (Reply.memOk_ite h0 (measureSettings_memOk (modPart_memOk h0)))

theorem execFactorTables_memOk {src} (h : s.memOk) : OnNext State.memOk (execFactorTables src s) :=
  runCommand_memOk h (fun _ _ h0 => Reply.memOk_ite trivial (Reply.memOk_ite h0 (measureSettings_memOk (modWear_memOk h0))))

theorem refreshBank_memOk {core bench bank} (h : s.memOk) : (s.refreshBank core bench bank).memOk := modBench_memOk h

theorem execBankRefresh_memOk {core bench bank} (h : s.memOk) : OnNext State.memOk (execBankRefresh core bench bank s) :=
  onNext_ite (onNext_next h) (onNext_next (refreshBank_memOk h))

theorem foundInLlc_memOk {k} (h : s.memOk) : (s.foundInLlc k).memOk := modMod_memOk (detect_memOk h)

theorem foundInMemory_memOk {k} (h : s.memOk) : (s.foundInMemory k).memOk := modMod_memOk (detect_memOk h)

theorem spoilSector_memOk {k} (h : s.memOk) : (s.spoilSector k).memOk := by
  unfold State.spoilSector
  split
  · exact strikeLlc_memOk h
  · exact memOk_ite h (modMod_memOk h)

theorem execPatrolScrub_memOk {line finding} (h : s.memOk) : OnNext State.memOk (execPatrolScrub line finding s) := by
  unfold execPatrolScrub
  extract_lets +onlyGivenNames a k cached
  split
  · exact onNext_next h
  · extract_lets +onlyGivenNames q behind
    split
    · exact onNext_next (foundInLlc_memOk h)
    · split
      · exact onNext_next (foundInMemory_memOk h)
      · split
        · exact onNext_next h
        · exact onNext_next (count_memOk (corrected_memOk h))
        · exact onNext_next (memOk_ite (foundInLlc_memOk (spoilSector_memOk h)) (foundInMemory_memOk (spoilSector_memOk h)))

theorem scrubRenewed_memOk (h : s.memOk) : OnSome State.memOk s.scrubRenewed :=
  onSome_ite (onSome_some (modMod_memOk h)) (onSome_ite (onSome_some (modMod_memOk h)) onSome_none)

/-! ### The debugger, dumps and attestation -/

theorem debugWith_memOk {src op body} (h : s.memOk) (hbody : ∀ a0 a1 a2 s, s.memOk → (body a0 a1 a2 s).memOk) :
    OnNext State.memOk (debugWith s src op body) := by
  unfold debugWith
  refine runCommand_memOk h (fun c s h0 => ?_)
  extract_lets +onlyGivenNames vdev
  split
  · exact trivial
  · exact Reply.memOk_ite trivial (Reply.memOk_ite trivial (hbody _ _ _ _ h0))

theorem debugOn_memOk {src op body} (h : s.memOk) (hbody : ∀ a0 a1 a2 a3 s, s.memOk → (body a0 a1 a2 a3 s).memOk) :
    OnNext State.memOk (debugOn s src op body) := by
  unfold debugOn
  refine debugWith_memOk h (fun c vdev v s h0 => ?_)
  split
  · exact trivial
  · exact hbody _ _ _ _ _ h0

theorem eraseKeys_memOk (h : s.memOk) : s.eraseKeys.memOk := memOk_with h

theorem execDebugAttachAttach_memOk {src} (h : s.memOk) : OnNext State.memOk (execDebugAttachAttach src s) := by
  unfold execDebugAttachAttach
  refine debugWith_memOk h (fun c vdev v s h0 => ?_)
  exact Reply.memOk_ite trivial (Reply.memOk_ite trivial (extendMr_memOk (modVdev_memOk (memOk_ite (eraseKeys_memOk h0) h0))))

theorem execDebugAttachDetach_memOk {src} (h : s.memOk) : OnNext State.memOk (execDebugAttachDetach src s) := by
  unfold execDebugAttachDetach
  exact debugOn_memOk h (fun _ _ _ _ _ h0 => extendMr_memOk (memOk_with (modVdev_memOk (memOk_foldl (fun _ _ h1 => modGroup_memOk h1) h0))))

theorem execDebugAttachStop_memOk {src} (h : s.memOk) : OnNext State.memOk (execDebugAttachStop src s) :=
  debugOn_memOk h (fun _ _ _ _ _ h0 => Reply.memOk_ite trivial (stopUnder_memOk h0))

theorem execDebugAttachStep_memOk {src} (h : s.memOk) : OnNext State.memOk (execDebugAttachStep src s) := by
  unfold execDebugAttachStep
  refine debugOn_memOk h (fun c vdev v x s h0 => ?_)
  extract_lets +onlyGivenNames may
  split
  · exact trivial
  · exact modGroup_memOk h0

theorem execDebugAttachSetSampling_memOk {src} (h : s.memOk) : OnNext State.memOk (execDebugAttachSetSampling src s) :=
  debugOn_memOk h (fun _ _ _ _ _ h0 => Reply.memOk_ite trivial (modPart_memOk h0))

theorem execDebugAttachSetTriggers_memOk {src} (h : s.memOk) : OnNext State.memOk (execDebugAttachSetTriggers src s) :=
  debugOn_memOk h (fun _ _ _ _ _ h0 => Reply.memOk_ite trivial (modVdev_memOk h0))

theorem execTriggerStage_memOk {vdev} (h : s.memOk) : OnNext State.memOk (execTriggerStage vdev s) := by
  unfold execTriggerStage
  split
  · exact onNext_next h
  · split
    · exact onNext_next h
    · split
      · exact onNext_next h
      · extract_lets +onlyGivenNames s1
        have hs1 : s1.memOk := modVdev_memOk h
        split
        · exact onNext_next hs1
        · split
          · split
            · exact onNext_next (stopUnder_memOk hs1)
            · exact onNext_next (stopUnder_memOk hs1)
          · exact onNext_next (stopUnder_memOk hs1)

theorem execSample_memOk {gid} (h : s.memOk) : OnNext State.memOk (execSample gid s) := by
  unfold execSample
  split
  · split
    · exact onNext_next h
    · split
      · exact onNext_next h
      · exact onNext_ite (onNext_next h) (onNext_ite (onNext_next (modPart_memOk h)) (onNext_next (modPart_memOk (coherentWrite_memOk h))))
  · exact onNext_next h

theorem dumpTo_memOk {vdev buf len c0} (h : s.memOk) : (s.dumpTo vdev buf len c0).memOk := by
  unfold State.dumpTo
  extract_lets +onlyGivenNames c s1 flag index
  have hs1 : s1.memOk := modCtx_memOk h
  split
  next s2 e0 =>
  have hs2 : s2.memOk := snd_memOk (anyNat_memOk hs1) e0
  extract_lets +onlyGivenNames declen clear head
  split
  split
  next s3 e2 =>
  have hs3 : s3.memOk := snd_memOk (choose_memOk hs2) e2
  split
  · exact hs3
  · split
    next e3 =>
    split
    next e4 =>
    have hs5 := snd_memOk (anyNat_memOk (snd_memOk (choose_memOk hs3) e3)) e4
    exact memOk_ite (modCtx_memOk (coherentWrite_memOk hs5)) (coherentWrite_memOk hs5)

theorem hostDump_memOk {c} (h : s.memOk) : (s.hostDump c).memOk := by
  unfold State.hostDump
  extract_lets +onlyGivenNames vdev buf len
  split
  · exact trivial
  · exact Reply.memOk_ite trivial (Reply.memOk_ite trivial (dumpTo_memOk h))

theorem guestDump_memOk {c} (h : s.memOk) : (s.guestDump c).memOk := by
  unfold State.guestDump
  split
  · exact trivial
  · split
    · exact trivial
    · extract_lets +onlyGivenNames at' len dst room
      split
      · exact trivial
      · split
        · exact trivial
        · split
          · exact trivial
          · next e2 =>
            extract_lets +onlyGivenNames counter
            split
            · exact trivial
            · exact Reply.memOk_ite trivial (Reply.memOk_ite (commandWrite_memOk (fst_memOk (guestRead_memOk h) e2)) trivial)

theorem execDump_memOk {src} (h : s.memOk) : OnNext State.memOk (execDump src s) :=
  onNext_ite (onNext_next h) (runCommand_memOk h (fun _ _ h0 => hostDump_memOk h0))

theorem execDumpOpen_memOk {src} (h : s.memOk) : OnNext State.memOk (execDumpOpen src s) :=
  onNext_ite (runCommand_memOk h (fun _ _ h0 => guestDump_memOk h0)) (onNext_next h)

theorem execAttest_memOk {src} (h : s.memOk) : OnNext State.memOk (execAttest src s) :=
  runCommand_memOk h (fun _ _ h0 => Reply.memOk_ite h0 (Reply.memOk_ite trivial (Reply.memOk_ite (commandWrite_memOk h0) trivial)))

/-! ### Firmware entry -/

theorem execEcall_memOk {i} (h : s.memOk) : OnNext State.memOk (execEcall i s) := issueFlow_memOk h (fun _ _ _ h0 => Res.memOk_ite trivial (modFlow_memOk h0))

theorem execEret_memOk (h : s.memOk) : OnNext State.memOk (execEret s) := by
  unfold execEret
  refine issueFlow_memOk h (fun s x g h0 => ?_)
  split
  · exact trivial
  · exact modFlow_memOk h0

theorem execTlbi_memOk {a k} (h : s.memOk) : OnNext State.memOk (execTlbi a k s) := issue_memOk h (fun _ _ _ h0 => Res.memOk_ite trivial (invalidated_memOk h0))

theorem serviceEnds_memOk {gid w} (h : s.memOk) : OnSome State.memOk (s.serviceEnds gid w) := by
  unfold State.serviceEnds
  extract_lets +onlyGivenNames src s1
  have hs1 : s1.memOk := taken_memOk h
  split
  · exact onSome_some (modRegs_memOk hs1)
  · split
    · exact onSome_some (endCommand_memOk hs1)
    · split
      · exact onSome_some (endCommand_memOk hs1)
      · exact onSome_ite (onSome_some (endCommand_memOk hs1)) (onSome_ite onSome_none (onSome_some (giveCommand_memOk hs1)))

/-! ### The host and the module -/

theorem execHostMemoryAccess_memOk {access} (h : s.memOk) : OnNext State.memOk (execHostMemoryAccess access s) := by
  unfold execHostMemoryAccess
  extract_lets +onlyGivenNames a
  split
  · exact onNext_next h
  · exact onNext_ite (onNext_next h) (onNext_next (memOk_ite (outsideAccess_memOk (exported_memOk h)) (exported_memOk h)))

theorem restQuad_memOk {q deep} (h : s.memOk) : (s.restQuad q deep).memOk := by
  unfold State.restQuad
  extract_lets +onlyGivenNames z
  split
  · exact memOk_ite (modQuad_memOk h) h
  · exact memOk_foldl (fun _ _ h0 => powerDown_memOk h0) (modQuad_memOk (modWear_memOk (memOk_foldl (fun _ _ h0 => dropLine_memOk h0) h)))

theorem execPowerQuadrantRest_memOk {src} (h : s.memOk) : OnNext State.memOk (execPowerQuadrantRest src s) := by
  unfold execPowerQuadrantRest
  exact runCommand_memOk h (fun _ _ h0 => Reply.memOk_ite trivial (Reply.memOk_ite trivial (memOk_foldl (fun _ _ h1 => restQuad_memOk h1) h0)))

theorem execPowerDeepIdle_memOk {src} (h : s.memOk) : OnNext State.memOk (execPowerDeepIdle src s) :=
  runCommand_memOk h (fun _ _ h0 => Reply.memOk_ite trivial (memOk_foldl (fun _ _ h1 => restQuad_memOk h1) h0))

theorem execPowerExit_memOk {src} (h : s.memOk) : OnNext State.memOk (execPowerExit src s) :=
  runCommand_memOk h (fun _ _ h0 => Reply.memOk_ite trivial (memOk_foldl (fun _ _ h1 => wakeQuad_memOk h1) h0))

theorem endQuadRest_memOk {u} (h : s.memOk) : (s.endQuadRest u).memOk := by
  unfold State.endQuadRest
  split
  · split
    · exact h
    · extract_lets +onlyGivenNames s1
      have hs1 : s1.memOk := completeRest_memOk h
      split
      · exact restartClk_memOk hs1
      · exact hs1
  · exact h

theorem execPowerExitComplete_memOk {quad} (h : s.memOk) : OnNext State.memOk (execPowerExitComplete quad s) := by
  unfold execPowerExitComplete
  split
  · exact onNext_next h
  · extract_lets +onlyGivenNames z s1 s2 s3
    have hs1 : s1.memOk := memOk_foldl (fun _ _ h0 => endQuadRest_memOk h0) h
    have hs2 : s2.memOk := modQuad_memOk hs1
    have hs3 : s3.memOk := memOk_foldl (fun _ _ h0 => portWrite_memOk h0) hs2
    exact onNext_next (modDisp_memOk hs3)

theorem spdmAnswer_memOk {code allowed next request} (h : s.memOk) : (s.spdmAnswer code allowed next request).memOk := memOk_ite h (modIdent_memOk h)

theorem execGetVersion_memOk {request} (h : s.memOk) : OnNext State.memOk (execGetVersion request s) := onNext_next (spdmAnswer_memOk h)

theorem execGetCapabilities_memOk {request} (h : s.memOk) : OnNext State.memOk (execGetCapabilities request s) := onNext_next (spdmAnswer_memOk h)

theorem execNegotiateAlgorithms_memOk {request} (h : s.memOk) : OnNext State.memOk (execNegotiateAlgorithms request s) := onNext_next (spdmAnswer_memOk h)

theorem execGetDigests_memOk {request} (h : s.memOk) : OnNext State.memOk (execGetDigests request s) := onNext_next (spdmAnswer_memOk h)

theorem execGetCertificate_memOk {request} (h : s.memOk) : OnNext State.memOk (execGetCertificate request s) := onNext_next (spdmAnswer_memOk h)

theorem execChallenge_memOk {request} (h : s.memOk) : OnNext State.memOk (execChallenge request s) := onNext_next (spdmAnswer_memOk h)

theorem execGetMeasurements_memOk {request} (h : s.memOk) : OnNext State.memOk (execGetMeasurements request s) := onNext_next (spdmAnswer_memOk h)

theorem execKeyExchange_memOk {request} (h : s.memOk) : OnNext State.memOk (execKeyExchange request s) := onNext_next (spdmAnswer_memOk h)

theorem execFinish_memOk {request} (h : s.memOk) : OnNext State.memOk (execFinish request s) := onNext_next (spdmAnswer_memOk h)

theorem execEndSession_memOk {request} (h : s.memOk) : OnNext State.memOk (execEndSession request s) := onNext_next (spdmAnswer_memOk h)

theorem afterReset_memOk (h : s.memOk) : s.afterReset.memOk := filter_wf _ h

theorem execModuleReset_memOk (h : s.memOk) : OnNext State.memOk (execModuleReset s) := onNext_next (afterReset_memOk h)

theorem execPowerLoss_memOk (h : s.memOk) : OnNext State.memOk (execPowerLoss s) :=
  onNext_next (modMod_memOk (memOk_ite (modWear_memOk (afterReset_memOk (memOk_with h))) (afterReset_memOk (memOk_with h))))

theorem bootCharge_memOk {u} (h : s.memOk) : (s.bootCharge u).memOk := completeRest_memOk (memOk_ite (addLbud_memOk (modWear_memOk h)) (modWear_memOk h))

theorem setNominal_memOk (h : s.memOk) : s.setNominal.memOk := memOk_foldl (fun _ _ h0 => modWear_memOk (memOk_with h0)) h

theorem measureBoot_memOk (h : s.memOk) : s.measureBoot.memOk := by
  unfold State.measureBoot
  extract_lets +onlyGivenNames one
  have hone : ∀ s n more, s.memOk → (one s n more).memOk := fun _ _ _ h1 => extendMr_memOk (anyBytes_memOk (n := 32) h1)
  exact measureSettings_memOk (hone _ _ _ (hone _ _ _ (hone _ _ _ h)))

theorem bootIdentity_memOk (h : s.memOk) : s.bootIdentity.memOk := modIdent_memOk (memOk_with h)

theorem bootDecoders_memOk (h : s.memOk) : s.bootDecoders.memOk := memOk_foldl (fun _ _ h0 => modMod_memOk (memOk_with h0)) h

theorem bootMap_memOk (h : s.memOk) : s.bootMap.memOk := memOk_foldl (fun _ _ h0 => memOk_foldl (fun _ _ h1 => swapIn_memOk h1) h0) h

theorem execBoot_memOk (h : s.memOk) : OnNext State.memOk (execBoot s) := by
  unfold execBoot
  extract_lets +onlyGivenNames bank s1 s2 s3
  have hs1 : s1.memOk := modWear_memOk (bootMap_memOk h)
  have hs2 : s2.memOk := memOk_foldl (fun _ _ h0 => bootCharge_memOk h0) hs1
  have hs3 : s3.memOk := recordBoundary_memOk hs2
  exact onNext_next (modMod_memOk (readSensors_memOk (bootDecoders_memOk (measureBoot_memOk (bootIdentity_memOk (setNominal_memOk hs3))))))

/-! ### The command of a block -/

theorem commandOf_memOk {op sub src} (h : s.memOk) : OnNext State.memOk (commandOf op sub src s) := by
  unfold commandOf
  split
  · exact execCreateVdev_memOk h
  · exact execDestroyVdev_memOk h
  · exact execLaunchCommand_memOk h
  · exact execSave_memOk h
  · exact execRestore_memOk h
  · exact execMigrateOut_memOk h
  · exact execMigrateIn_memOk h
  · exact execCheckpointDisable_memOk h
  · exact execCheckpointRun_memOk h
  · exact execCheckpointCloseNow_memOk h
  · exact execSetLife_memOk h
  · exact execBoostPolicy_memOk h
  · exact execAttest_memOk h
  · exact execPartition_memOk h
  · exact execCarve_memOk h
  · exact execDebugAttachAttach_memOk h
  · exact execDebugAttachDetach_memOk h
  · exact execDebugAttachStop_memOk h
  · exact execDebugAttachStep_memOk h
  · exact execDebugAttachSetSampling_memOk h
  · exact execDebugAttachSetTriggers_memOk h
  · exact onNext_ite (execDumpOpen_memOk h) (execDump_memOk h)
  · exact execRetirePage_memOk h
  · exact execFactorTables_memOk h
  · exact execAnswerResume_memOk h
  · exact execAnswerAbort_memOk h
  · exact execAnswerReplay_memOk h
  · exact execAnswerDecline_memOk h
  · exact execTablesSetS1root_memOk h
  · exact execTablesSetS2root_memOk h
  · exact execTablesInvalidate_memOk h
  · exact execTablesSetWindowGrant_memOk h
  · exact execTablesSetReplicaEntry_memOk h
  · exact execTablesExtendMeasurement_memOk h
  · exact execCommsSetCommunicator_memOk h
  · exact execCommsRemoveCommunicator_memOk h
  · exact execCommsSetReductionGroup_memOk h
  · exact execCommsRemoveReductionGroup_memOk h
  · exact execPowerQuadrantRest_memOk h
  · exact execPowerDeepIdle_memOk h
  · exact execPowerExit_memOk h
  · exact execLogsFaultQueueState_memOk h
  · exact execLogsAdvanceTail_memOk h
  · exact execLogsReadEventLog_memOk h
  · exact execLogsSetEventInterrupt_memOk h
  · exact execLogsClearCounters_memOk h
  · exact onNext_next h

theorem commandStep_memOk {src} (h : s.memOk) : OnNext State.memOk (commandStep src s) := by
  unfold commandStep
  extract_lets +onlyGivenNames ended
  have hended : OnSome State.memOk ended := by
    unfold ended
    split
    · exact onSome_none
    · split
      · exact serviceEnds_memOk h
      · exact onSome_none
  clear_value ended
  cases ended with
  | some s1 => exact onNext_next (hended _ rfl)
  | none =>
    cases s.blockOf src with
    | some b => exact onNext_ite (commandOf_memOk h) (onNext_next (giveCommand_memOk (taken_memOk h)))
    | none => exact onNext_next (endCommand_memOk (taken_memOk h))

/-! ### Scalar instructions -/

theorem execMfs_memOk {d i} (h : s.memOk) : OnNext State.memOk (execMfs d i s) := by
  unfold execMfs
  refine issue_memOk h (fun s x g h0 => ?_)
  extract_lets +onlyGivenNames sel
  split
  · split
    · exact h0
    · exact modRegs_memOk h0
  · exact modRegs_memOk h0

/-! ### The instructions -/

theorem exec_memOk {i} (h : s.memOk) : OnNext State.memOk (exec i s) := by
  unfold exec
  cases i
  case setmode | setgrd | setmem | sadd | ssub | smul | smulh | sand | sor | sxor | sshl | sshr | ssra | smin | smax | sminn | smaxn | saddi | sandi
      | sori | lit | scmp | ssel | iadd | isub | imul | imulh | imin | imax | iabs | ineg | iand | ior | ixor | inot | ishl | ishr | iaddScalarB
      | isubScalarB | imulScalarB | imulhScalarB | iminScalarB | imaxScalarB | iandScalarB | iorScalarB | ixorScalarB | ishlScalarB | ishrScalarB
      | imad | icmp | isel | popc | clz | ctz | brev | bfe | bfi | lea | iaddi | ishli | ishri | vmov | vli | fadd | fsub | fmul | fmin | fmax | fabs
      | fneg | fcopysign | faddScalarB | fsubScalarB | fmulScalarB | fminScalarB | fmaxScalarB | fcopysignScalarB | ffma | ffms | fnfma | fcmp | frcp
      | frsq | fsqrt | fexp2 | flog2 | fsin | fcos | fdiv | fcvt | fround | fclass | pand | por | pxor | pnot | pmov | ballot | pfroms | vote | shfl
      | vtos | stov | gred | gscan | pnpk | pnunpk | pnexp | ckfold | cktest | ckclr =>
    exact issueRegs_memOk h
  case nop => exact execNop_memOk h
  case bra => exact execBra_memOk h
  case brc => exact execBrc_memOk h
  case bru => exact execBru_memOk h
  case mark => exact execMark_memOk h
  case join => exact execJoin_memOk h
  case brp => exact execBrp_memOk h
  case brpSynchronise => exact execBrpSynchronise_memOk h
  case regroupReturn => exact execRegroupReturn_memOk h
  case call => exact execCall_memOk h
  case ret => exact execRet_memOk h
  case jmpr => exact execJmpr_memOk h
  case exit => exact execExit_memOk h
  case groupExitRelease => exact execGroupExitRelease_memOk h
  case flashpt => exact execFlashpt_memOk h
  case trap => exact execTrap_memOk h
  case bkpt => exact execBkpt_memOk h
  case yield => exact execYield_memOk h
  case yieldCountExpiry => exact execYieldCountExpiry_memOk h
  case sld => exact execSld_memOk h
  case sst => exact execSst_memOk h
  case mfs => exact execMfs_memOk h
  case hmul => exact execHmul_memOk h
  case hconj => exact execHconj_memOk h
  case hnorm => exact execHnorm_memOk h
  case hfma => exact execHfma_memOk h
  case algld => exact execAlgld_memOk h
  case ld => exact execLd_memOk h
  case st => exact execSt_memOk h
  case lds => exact execLds_memOk h
  case sts => exact execSts_memOk h
  case ldl => exact execLdl_memOk h
  case stl => exact execStl_memOk h
  case pref => exact execPref_memOk h
  case atom => exact execAtom_memOk h
  case atoms => exact execAtoms_memOk h
  case fence => exact execFence_memOk h
  case acqrm => exact execAcqrm_memOk h
  case mcst => exact execMcst_memOk h
  case redld => exact execRedld_memOk h
  case bar => exact execBar_memOk h
  case barc => exact execBarc_memOk h
  case sigwait => exact execSigwait_memOk h
  case sigwaitSatisfied => exact execSigwaitSatisfied_memOk h
  case sigadd => exact execSigadd_memOk h
  case waitc => exact execWaitc_memOk h
  case xacq => exact execXacq_memOk h
  case xacqGrant => exact execXacqGrant_memOk h
  case xrel => exact execXrel_memOk h
  case recld => exact execRecld_memOk h
  case cpin => exact execCpin_memOk h
  case cpout => exact execCpout_memOk h
  case cpst => exact execCpst_memOk h
  case cpgath => exact execCpgath_memOk h
  case clampld => exact execClampld_memOk h
  case clampFillStart => exact execClampFillStart_memOk h
  case clampFillComplete => exact execClampFillComplete_memOk h
  case mma => exact execMma_memOk h
  case mmar => exact execMmar_memOk h
  case arrayStreamStart => exact execArrayStreamStart_memOk h
  case arrayLastRowRead => exact execArrayLastRowRead_memOk h
  case arrayLastAccumulatorWrite => exact execArrayLastAccumulatorWrite_memOk h
  case accz => exact execAccz_memOk h
  case accld => exact execAccld_memOk h
  case accst => exact execAccst_memOk h
  case omap => exact execOmap_memOk h
  case launch => exact execLaunch_memOk h
  case launchPacketEntry => exact execLaunchPacketEntry_memOk h
  case coll => exact execColl_memOk h
  case collComplete => exact execCollComplete_memOk h
  case boost => exact execBoost_memOk h
  case rdwear => exact execRdwear_memOk h
  case rdlife => exact execRdlife_memOk h
  case rdcnt => exact execRdcnt_memOk h
  case rdtime => exact execRdtime_memOk h
  case tileb => exact execTileb_memOk h
  case tilee => exact execTilee_memOk h
  case stampRecordWrite => exact execStampRecordWrite_memOk h
  case mfsr => exact execMfsr_memOk h
  case mtsr => exact execMtsr_memOk h
  case ecall => exact execEcall_memOk h
  case eret => exact execEret_memOk h
  case tlbi => exact execTlbi_memOk h
  case longLatencyComplete => exact execLongLatencyComplete_memOk h
  case releaseLogProbe => exact execReleaseLogProbe_memOk h
  case replicaLockTimeout => exact execReplicaLockTimeout_memOk h
  case stashLineFill => exact execStashLineFill_memOk h
  case directoryRecall => exact execDirectoryRecall_memOk h
  case patrolScrub => exact execPatrolScrub_memOk h
  case bankRefresh => exact execBankRefresh_memOk h
  case groupGuarded => exact execGroupGuarded_memOk h
  case watchdogExpiry => exact execWatchdogExpiry_memOk h
  case registerWaitDeadlock => exact execRegisterWaitDeadlock_memOk h
  case copyStart => exact execCopyStart_memOk h
  case copyComplete => exact execCopyComplete_memOk h
  case mcstDestinationWrite => exact execMcstDestinationWrite_memOk h
  case redldResponse => exact execRedldResponse_memOk h
  case algldComplete => exact execAlgldComplete_memOk h
  case launchPortWrite => exact execLaunchPortWrite_memOk h
  case packetAccept => exact execPacketAccept_memOk h
  case dispatchDecision => exact execDispatchDecision_memOk h
  case gangFence => exact execGangFence_memOk h
  case teamRetire => exact execTeamRetire_memOk h
  case dependencyTimeout => exact execDependencyTimeout_memOk h
  case intervalBoundary => exact execIntervalBoundary_memOk h
  case spareSwapOut => exact execSpareSwapOut_memOk h
  case monitorMeasurement => exact execMonitorMeasurement_memOk h
  case boostThermalDrop => exact execBoostThermalDrop_memOk h
  case sliceEnd => exact execSliceEnd_memOk h
  case unrwlimExpiry => exact execUnrwlimExpiry_memOk h
  case saveImageTaken => exact execSaveImageTaken_memOk h
  case admission => exact execAdmission_memOk h
  case coreSetReplacement => exact execCoreSetReplacement_memOk h
  case carveApply => exact execCarveApply_memOk h
  case epochClose => exact execEpochClose_memOk h
  case checkpointPageStream => exact execCheckpointPageStream_memOk h
  case framePullComplete => exact execFramePullComplete_memOk h
  case migrationSwitch => exact execMigrationSwitch_memOk h
  case migrationNotice => exact execMigrationNotice_memOk h
  case migrationAcknowledgement => exact execMigrationAcknowledgement_memOk h
  case forwardingExpiry => exact execForwardingExpiry_memOk h
  case forwardedAccess => exact execForwardedAccess_memOk h
  case migrationSourceLost => exact execMigrationSourceLost_memOk h
  case fabricRequest => exact execFabricRequest_memOk h
  case fabricLinkDown => exact execFabricLinkDown_memOk h
  case cxlLinkDown => exact execCxlLinkDown_memOk h
  case moduleReset => exact execModuleReset_memOk h
  case boot => exact execBoot_memOk h
  case powerExitComplete => exact execPowerExitComplete_memOk h
  case sample => exact execSample_memOk h
  case triggerStage => exact execTriggerStage_memOk h
  case counterLowRead => exact execCounterLowRead_memOk h
  case counterHighRead => exact execCounterHighRead_memOk h
  case hostRegisterWrite => exact execHostRegisterWrite_memOk h
  case createVdev => exact execCreateVdev_memOk h
  case destroyVdev => exact execDestroyVdev_memOk h
  case launchCommand => exact execLaunchCommand_memOk h
  case save => exact execSave_memOk h
  case restore => exact execRestore_memOk h
  case migrateOut => exact execMigrateOut_memOk h
  case migrateIn => exact execMigrateIn_memOk h
  case checkpointDisable => exact execCheckpointDisable_memOk h
  case checkpointRun => exact execCheckpointRun_memOk h
  case checkpointCloseNow => exact execCheckpointCloseNow_memOk h
  case setLife => exact execSetLife_memOk h
  case boostPolicy => exact execBoostPolicy_memOk h
  case attest => exact execAttest_memOk h
  case partition => exact execPartition_memOk h
  case carve => exact execCarve_memOk h
  case debugAttachAttach => exact execDebugAttachAttach_memOk h
  case debugAttachDetach => exact execDebugAttachDetach_memOk h
  case debugAttachStop => exact execDebugAttachStop_memOk h
  case debugAttachStep => exact execDebugAttachStep_memOk h
  case debugAttachSetSampling => exact execDebugAttachSetSampling_memOk h
  case debugAttachSetTriggers => exact execDebugAttachSetTriggers_memOk h
  case dump => exact execDump_memOk h
  case dumpOpen => exact execDumpOpen_memOk h
  case retirePage => exact execRetirePage_memOk h
  case factorTables => exact execFactorTables_memOk h
  case answerResume => exact execAnswerResume_memOk h
  case answerAbort => exact execAnswerAbort_memOk h
  case answerReplay => exact execAnswerReplay_memOk h
  case answerDecline => exact execAnswerDecline_memOk h
  case tablesSetS1root => exact execTablesSetS1root_memOk h
  case tablesSetS2root => exact execTablesSetS2root_memOk h
  case tablesInvalidate => exact execTablesInvalidate_memOk h
  case tablesSetWindowGrant => exact execTablesSetWindowGrant_memOk h
  case tablesSetReplicaEntry => exact execTablesSetReplicaEntry_memOk h
  case tablesExtendMeasurement => exact execTablesExtendMeasurement_memOk h
  case commsSetCommunicator => exact execCommsSetCommunicator_memOk h
  case commsRemoveCommunicator => exact execCommsRemoveCommunicator_memOk h
  case commsSetReductionGroup => exact execCommsSetReductionGroup_memOk h
  case commsRemoveReductionGroup => exact execCommsRemoveReductionGroup_memOk h
  case powerQuadrantRest => exact execPowerQuadrantRest_memOk h
  case powerDeepIdle => exact execPowerDeepIdle_memOk h
  case powerExit => exact execPowerExit_memOk h
  case logsFaultQueueState => exact execLogsFaultQueueState_memOk h
  case logsAdvanceTail => exact execLogsAdvanceTail_memOk h
  case logsReadEventLog => exact execLogsReadEventLog_memOk h
  case logsSetEventInterrupt => exact execLogsSetEventInterrupt_memOk h
  case logsClearCounters => exact execLogsClearCounters_memOk h
  case getVersion => exact execGetVersion_memOk h
  case getCapabilities => exact execGetCapabilities_memOk h
  case negotiateAlgorithms => exact execNegotiateAlgorithms_memOk h
  case getDigests => exact execGetDigests_memOk h
  case getCertificate => exact execGetCertificate_memOk h
  case challenge => exact execChallenge_memOk h
  case getMeasurements => exact execGetMeasurements_memOk h
  case keyExchange => exact execKeyExchange_memOk h
  case finish => exact execFinish_memOk h
  case endSession => exact execEndSession_memOk h
  case hostMemoryAccess => exact execHostMemoryAccess_memOk h
  case pullRequest => exact execPullRequest_memOk h
  case fabricRouteRestored => exact execFabricRouteRestored_memOk h
  case powerLoss => exact execPowerLoss_memOk h
  case haltRelease => exact execHaltRelease_memOk h
  case coreRetirement => exact execCoreRetirement_memOk h

/-! ### The choice of what happens next -/

theorem fetchWord_memOk {core vdev pc} (h : s.memOk) : OnOk (fun r => r.2.memOk) (s.fetchWord core vdev pc) := by
  unfold State.fetchWord
  split
  · exact onOk_error
  · next e0 =>
    split
    · exact onOk_error
    · exact onOk_ok (translate_memOk h _ e0)

theorem fetch_memOk {core vdev pc} (h : s.memOk) : (s.fetch core vdev pc).memOk := by
  unfold State.fetch
  split
  · exact trivial
  · next e0 =>
    split
    · split
      · exact trivial
      · next e1 =>
        split
        · exact fetchWord_memOk (fetchWord_memOk h _ e0) _ e1
        · exact trivial
    · split
      · exact fetchWord_memOk h _ e0
      · exact trivial

theorem slotOffer_memOk {gid g vdev slot} (h : s.memOk) : OnSome (fun o => o.what.memOk) (s.slotOffer gid g vdev slot) := by
  unfold State.slotOffer
  extract_lets +onlyGivenNames core
  split
  · next e0 => exact onSome_ite (onSome_some ((fetch_memOk h) |> fun h => e0 ▸ h)) onSome_none
  · exact onSome_some trivial
  · exact onSome_none
  · exact onSome_some trivial

theorem slotOffers_memOk {gid g} (h : s.memOk) : ∀ o ∈ s.slotOffers gid g, o.what.memOk := by
  unfold State.slotOffers
  extract_lets +onlyGivenNames clk
  split
  · exact List.forall_mem_nil _
  · intro o ho
    obtain ⟨n, -, hn⟩ := List.mem_filterMap.mp ho
    exact onSome_ite (slotOffer_memOk h) onSome_none o hn

theorem offer_memOk {gid g} (h : s.memOk) : OnSome (fun o => o.what.memOk) (s.offer gid g) := by
  unfold State.offer
  extract_lets +onlyGivenNames os
  have hos : ∀ o ∈ os, o.what.memOk := fun o ho => slotOffers_memOk h o (List.mem_filter.mp ho).1
  split
  · next e => exact onSome_some (hos _ (List.mem_of_find?_eq_some e))
  · exact fun o ho => hos o (List.mem_of_head? ho)

theorem oldest_memOk {l} (hl : ∀ o ∈ l, o.what.memOk) : OnSome (fun o => o.what.memOk) (s.oldest l) := by
  induction l with
  | nil => exact onSome_none
  | cons x rest ih =>
    have hx := hl x List.mem_cons_self
    unfold State.oldest
    split
    · exact onSome_some hx
    · next e => exact onSome_ite (onSome_some (ih (fun o ho => hl o (List.mem_cons_of_mem _ ho)) _ e)) (onSome_some hx)

theorem benchChoice_memOk {bench} (h : s.memOk) : OnSome (fun o => o.what.memOk) (s.benchChoice bench) := by
  unfold State.benchChoice
  refine onSome_ite onSome_none ?_
  extract_lets +onlyGivenNames gs offers guarded
  have hoffers : ∀ x ∈ offers, x.1.what.memOk := fun x hx => by
    obtain ⟨kv, -, hkv⟩ := List.mem_filterMap.mp hx
    obtain ⟨o, ho, rfl⟩ := Option.map_eq_some_iff.mp hkv
    exact offer_memOk h o ho
  have hpick : ∀ p, ∀ o ∈ (offers.filter p).map (·.1), o.what.memOk := fun p o ho => by
    obtain ⟨x, hx, rfl⟩ := List.mem_map.mp ho
    exact hoffers x (List.mem_filter.mp hx).1
  split
  · next e =>
    refine onSome_some (oldest_memOk (fun o ho => ?_) _ e)
    rw [List.filter_filter] at ho
    exact hpick _ o ho
  · exact oldest_memOk (hpick _)

theorem choice_memOk {l} (h : s.memOk) : OnSome (fun o => o.what.memOk) (s.choice l) := by
  induction l with
  | nil => exact onSome_none
  | cons b rest ih =>
    unfold State.choice
    split
    · next e => exact onSome_some (benchChoice_memOk h _ e)
    · exact ih

theorem refreshGuards_memOk {core} (h : s.memOk) : (s.refreshGuards core).memOk := memOk_with h

theorem tickGroups_memOk {core} (h : s.memOk) : (s.tickGroups core).memOk :=
  memOk_foldl (fun _ _ h0 => countTeam_memOk h0) (memOk_foldl (fun _ _ h0 => modGroup_memOk h0) h)

theorem tickTeams_memOk {core} (h : s.memOk) : (s.tickTeams core).memOk := memOk_foldl (fun _ _ h0 => memOk_ite h0 (modSync_memOk h0)) h

theorem tickArray_memOk {core} (h : s.memOk) : (s.tickArray core).memOk := by
  unfold State.tickArray
  extract_lets +onlyGivenNames c s1
  have hs1 : s1.memOk := memOk_ite (modCore_memOk h) h
  split
  · exact memOk_ite hs1 (modWear_memOk hs1)
  · exact hs1

theorem tickRefresh_memOk {core} (h : s.memOk) : (s.tickRefresh core).memOk := memOk_ite h (memOk_foldl (fun _ _ h0 => refreshBank_memOk h0) h)

theorem tickCore_memOk {core} (h : s.memOk) : (s.tickCore core).memOk := by
  unfold State.tickCore
  extract_lets +onlyGivenNames s1
  have hs1 : s1.memOk := tickRefresh_memOk (tickArray_memOk (tickTeams_memOk (tickGroups_memOk (refreshGuards_memOk h))))
  exact modCore_memOk (streamClk_memOk hs1)

theorem advanceTime_memOk (h : s.memOk) : s.advanceTime.memOk := by
  unfold State.advanceTime
  extract_lets +onlyGivenNames edges
  split
  · exact modMod_memOk h
  · exact memOk_foldl (fun _ _ h1 => tickCore_memOk h1) (modMod_memOk h)

/-! ### The plan and the step -/

theorem pendingEnters_memOk (h : s.memOk) : OnSome State.memOk s.pendingEnters := onSome_findSome (fun _ => enterPending_memOk h)

theorem commitNow_memOk (h : s.memOk) : OnSome State.memOk s.commitNow := onSome_findSome (fun _ => onSome_map_of (fun _ => commitLock_memOk h))

theorem replayEnds_memOk (h : s.memOk) : OnSome State.memOk s.replayEnds := onSome_map_of (fun _ => modStops_memOk h)

theorem debugStops_memOk (h : s.memOk) : OnSome State.memOk s.debugStops := by
  unfold State.debugStops
  refine onSome_findSome (fun _ => ?_)
  split
  · exact onSome_ite onSome_none (onSome_some (debugStopAt_memOk h))
  · exact onSome_none

theorem arrivalNow_memOk (h : s.memOk) : OnSome State.memOk s.arrivalNow := onSome_map_of (fun _ => arrive_memOk h)

theorem savesNow_memOk (h : s.memOk) : OnSome State.memOk s.savesNow := by
  unfold State.savesNow
  refine onSome_findSome (fun _ => ?_)
  split
  · exact onSome_map_of (fun _ => stopForSave_memOk h)
  · exact onSome_none

theorem sliceRenewed_memOk (h : s.memOk) : OnSome State.memOk s.sliceRenewed := onSome_map_of (fun _ => modCtx_memOk h)

theorem ownershipTaken_memOk (h : s.memOk) : OnSome State.memOk s.ownershipTaken := onSome_map_of (fun _ => ownershipFault_memOk h)

theorem exitsNow_memOk (h : s.memOk) : OnSome State.memOk s.exitsNow := onSome_map_of (fun _ => tryCluster_memOk (tryBarriers_memOk h))

theorem abortsNow_memOk (h : s.memOk) : OnSome State.memOk s.abortsNow := by
  unfold State.abortsNow
  refine onSome_findSome (fun _ => ?_)
  refine onSome_findSome (fun _ => ?_)
  split
  · exact onSome_ite onSome_none (onSome_ite (onSome_some (abortLaunch_memOk h)) (onSome_ite onSome_none (onSome_some (modCtx_memOk h))))
  · exact onSome_none

theorem quietChange_memOk (h : s.memOk) : OnSome State.memOk s.quietChange := by
  unfold State.quietChange
  split
  · next e =>
    exact onSome_some ((onSome_orElse (replayEnds_memOk h) <| onSome_orElse (debugStops_memOk h) <| onSome_orElse (exitsNow_memOk h) <|
      onSome_orElse (arrivalNow_memOk h) <| onSome_orElse (ownershipTaken_memOk h) <| onSome_orElse (heldApplies_memOk h) <|
      onSome_orElse (commitNow_memOk h) <| onSome_orElse (drainEnds_memOk h) <| onSome_orElse (retireNow_memOk h) <|
      onSome_orElse (checkpointStalls_memOk h) <| onSome_orElse (scrubRenewed_memOk h) (setShrinks_memOk h)) _ e)
  · split
    · next e => exact onSome_some (condemnedFrame_memOk h _ e)
    · split
      · next e => exact onSome_some (pendingEnters_memOk h _ e)
      · split
        · exact onSome_some (leave_memOk h)
        · exact sliceRenewed_memOk h

theorem take_memOk {o} (h : s.memOk) (ho : o.what.memOk) : (s.take o).memOk := by
  unfold State.take
  split
  · exact h
  · extract_lets +onlyGivenNames sl
    split
    · next e =>
      rw [e] at ho
      exact memOk_with ho
    · exact takeFault_memOk h
    · split
      · exact takeFault_memOk (walked_memOk h)
      · exact h

theorem collPlan_memOk (h : s.memOk) : OnSome (fun r => r.2.memOk) s.collPlan := by
  unfold State.collPlan
  refine onSome_findSome (fun _ => ?_)
  split
  · exact onSome_none
  · split
    · exact onSome_none
    · split
      · next e1 => exact onSome_some (memOk_with ((onSome_bind_of (fun _ => collEnds_memOk h)) _ e1))
      · exact onSome_none

theorem firmwareStep_memOk {gid w} (h : s.memOk) : (s.firmwareStep gid w).memOk := by
  unfold State.firmwareStep
  extract_lets +onlyGivenNames at' set
  have hat' : ∀ s, s.memOk → (at' s).memOk := fun _ h0 => memOk_with h0
  have hset : ∀ s t, s.memOk → (set s t).memOk := fun _ _ h0 => modFlow_memOk h0
  split
  · exact hat' _ (hset _ _ h)
  · exact Plan.memOk_ite (hat' _ (memOk_with h)) (hset _ _ (memOk_with (memOk_with (memOk_with h))))

theorem firmwareDue_memOk (h : s.memOk) : OnSome Plan.memOk s.firmwareDue := onSome_bind_of (fun _ => onSome_map_of (fun _ => firmwareStep_memOk h))

theorem plan_memOk (h : s.memOk) : s.plan.memOk := by
  unfold State.plan
  split
  · exact memOk_with h
  · split
    · next e1 => exact abortsNow_memOk h _ e1
    · split
      · exact h
      · split
        · next e3 => exact collPlan_memOk h _ e3
        · split
          · next e4 => exact quietChange_memOk h _ e4
          · split
            · exact h
            · split
              · next e6 => exact savesNow_memOk h _ e6
              · split
                · next e7 => exact firmwareDue_memOk h _ e7
                · split
                  · next e8 => exact take_memOk h (choice_memOk h _ e8)
                  · exact advanceTime_memOk h

theorem step_memOk (h : s.memOk) : OnNext State.memOk (step s) := by
  have hp := plan_memOk h
  unfold step
  split
  · next e =>
    rw [e] at hp
    exact exec_memOk hp
  · next e =>
    rw [e] at hp
    exact commandStep_memOk hp
  · next e =>
    rw [e] at hp
    exact onNext_next hp

end

/-- Settles O60: the invariant of one step; `step_memOk` follows the plan to the instruction, the command or the rest that it goes on with. -/
theorem memoryCanonicalInvariant : Obligations.MemoryCanonicalInvariant := by
  unfold Obligations.MemoryCanonicalInvariant
  exact fun _ t h e => step_memOk h t e

end Sys2Proof.Machine


/-! O41: MFSR and MTSR. MFSR writes one register of its group; MTSR writes a register of the module or of a device, or a window of its team's stash, which
it reads 16 bytes of. -/

namespace Sys2Proof.Machine

theorem openIssue_mod (s : State) (x : Issue) : (s.openIssue x).mod = s.mod := by simp [State.openIssue, State.modOps]

theorem openIssue_teams (s : State) (x : Issue) : (s.openIssue x).teams = s.teams := by simp [State.openIssue, State.modOps]

section

variable {s : State} {x : Issue} {g : Group} {d a : BitVec 7} {i : BitVec 11}

/-! ### MFSR -/

theorem mfsr_completes {w : Word} (h : Issues s (.mfsr d i) x g) (hd : Undisturbed s g)
    (hw : (if isFirmwareSel i.toNat then (s.openIssue x).firmwareReg i.toNat else (s.openIssue x).sysReg x.tid i.toNat) = w) :
    Completes s (.mfsr d i) x g (g.regs.setSc d.toNat w) := by
  subst hw
  refine issue_completes h hd (rfl : _ = execMfsr d i s) (apply_ite Res.done _ _ _).symm ?_ ?_
  · split
    · exact Apart.modGroup _ _ _
    · exact Apart.modGroup _ _ _
  · split <;> simp [State.modRegs, openIssue_find (issuing_group h.issuing).1]

theorem firmwareReg_of_written {sel : Nat} {w : Word} (h : Store.find s.mod.fwRegs sel = some w) : (s.openIssue x).firmwareReg sel = w := by
  simp [State.firmwareReg, openIssue_mod, h]

/-! ### MTSR to a register -/

/-- The values that a stamp register may not take (R399). -/
theorem badSysValue_iff {sel : Nat} {v : Word} :
    badSysValue sel v = true ↔ (sel = 0x10 ∧ v.toNat % 64 ≠ 0) ∨ (sel = 0x12 ∧ 2 ^ 24 < v.toNat) ∨ (sel = 0x14 ∧ v ≠ 0) := by
  simp [badSysValue, or_assoc]

theorem mtsr_firmware (h : Issues s (.mtsr a i) x g) (hw : isWindowSel i.toNat = false) (hf : isFirmwareSel i.toNat = true) :
    Steps s (.mtsr a i) x g ((s.openIssue x).modMod fun m => { m with fwRegs := Store.put m.fwRegs i.toNat (g.regs.sc a.toNat) }) :=
  issue_steps h (rfl : _ = execMtsr a i s) ((if_neg (by simp [hw])).trans (if_pos hf))

theorem mtsr_illegal (h : Issues s (.mtsr a i) x g) (hw : isWindowSel i.toNat = false) (hf : isFirmwareSel i.toNat = false)
    (hb : badSysValue i.toNat (g.regs.sc a.toNat) = true) : Traps s (.mtsr a i) x g (x.trap .illegalOperand) :=
  issue_traps h (rfl : _ = execMtsr a i s) ((if_neg (by simp [hw])).trans ((if_neg (by simp [hf])).trans (if_pos hb)))

theorem mtsr_stamp {t : Team} (h : Issues s (.mtsr a i) x g) (ht : Store.find s.teams x.tid = some t) (hw : isWindowSel i.toNat = false)
    (hf : isFirmwareSel i.toNat = false) (hb : badSysValue i.toNat (g.regs.sc a.toNat) = false) :
    Steps s (.mtsr a i) x g ((s.openIssue x).modVdev t.id.vdev fun z => { z with stamp := z.stamp.put i.toNat (g.regs.sc a.toNat) }) :=
  issue_steps h (rfl : _ = execMtsr a i s) ((if_neg (by simp [hw])).trans ((if_neg (by simp [hf])).trans ((if_neg (by simp [hb])).trans
    (by simp [openIssue_teams, ht]))))

end

/-! ### MTSR to a window -/

section

variable {s s1 : State} {x : Issue} {n : Nat} {v : Word} {t : Team} (ht : Store.find s.teams x.tid = some t)

include ht

theorem bindWindow_unbinds (hv : v = 0xFFFFFFFF) : bindWindow s x n v = .done (s.unbind x.tid n) := by
  simp [bindWindow, ht, hv]

variable (hv : v ≠ 0xFFFFFFFF)

include hv

theorem bindWindow_misaligned (ha : v.toNat % 16 ≠ 0) : bindWindow s x n v = .trap (x.trap .misaligned) := by
  simp only [bindWindow, ht, hv, ha, ne_eq, not_false_eq_true, if_false, if_true]

variable (ha : v.toNat % 16 = 0)

include ha

theorem bindWindow_beyond (hb : t.id.stashBytes < v.toNat + 16) : bindWindow s x n v = .trap (x.trap .permission) := by
  simp only [bindWindow, ht, hv, ha, hb, ne_eq, not_true_eq_false, if_false, if_true]

variable (hb : v.toNat + 16 ≤ t.id.stashBytes)

include hb

theorem bindWindow_held (hl : s.engineHolders x.gid (s.stashLines x.tid v.toNat 16) false ≠ []) :
    bindWindow s x n v = .wait (.order (s.engineHolders x.gid (s.stashLines x.tid v.toNat 16) false)) := by
  simp only [bindWindow, ht, hv, ha, Nat.not_lt.mpr hb, ne_eq, not_true_eq_false, if_false, State.engineHolds, holders_wait hl, if_true]

variable (hl : s.engineHolders x.gid (s.stashLines x.tid v.toNat 16) false = [])

include hl

theorem bindWindow_delayed (h : s.touch x.tid v.toNat 16 false = (s1, some .wait)) : bindWindow s x n v = .wait (.full 4) := by
  simp only [bindWindow, ht, hv, ha, Nat.not_lt.mpr hb, ne_eq, not_true_eq_false, if_false, State.engineHolds, no_holder_waits hl, h, Bool.false_eq_true]

variable (h : s.touch x.tid v.toNat 16 false = (s1, none))

include h

theorem bindWindow_invalid
    (hw : badWindow (s1.stashBytes x.tid v.toNat 16) t.id.stashBytes ((t.mem.windows.filter fun kv => kv.1 != n).map (·.2)) = true) :
    bindWindow s x n v = .trap (x.trap .recordInvalid) := by
  simp only [bindWindow, ht, hv, ha, Nat.not_lt.mpr hb, ne_eq, not_true_eq_false, if_false, State.engineHolds, no_holder_waits hl, h, hw, if_true,
    Bool.false_eq_true]

theorem bindWindow_binds
    (hw : badWindow (s1.stashBytes x.tid v.toNat 16) t.id.stashBytes ((t.mem.windows.filter fun kv => kv.1 != n).map (·.2)) = false) :
    bindWindow s x n v = .done ((s1.unbind x.tid n).modTeamMem x.tid fun m =>
      { m with windows := Store.put m.windows n (windowOf v (s1.stashBytes x.tid v.toNat 16)) }) := by
  simp only [bindWindow, ht, hv, ha, Nat.not_lt.mpr hb, ne_eq, not_true_eq_false, if_false, State.engineHolds, no_holder_waits hl, h, hw,
    Bool.false_eq_true]

end

/-- Settles O41: MFSR by what it reads, MTSR by the kind of its selector; a window by the answers of `bindWindow` in order. Points that the manual leaves
open follow the model's reading (logs 14 and 35). -/
theorem systemRegisterResult : Obligations.SystemRegisterResult := by
  unfold Obligations.SystemRegisterResult
  intro s x g t d a i hd ht s0 v vdev off
  have ht0 : Store.find s0.teams x.tid = some t := (congrArg (Store.find · x.tid) (openIssue_teams s x)).trans ht
  have he : exec (.mtsr a i) s = execMtsr a i s := rfl
  refine ⟨fun h hf => mfsr_completes h hd (by simp [hf, s0]), fun h hf => ⟨_, mfsr_completes h hd (if_pos hf)⟩,
    fun w h hf hw => mfsr_completes h hd ((if_pos hf).trans (firmwareReg_of_written hw)), fun h hw hf => mtsr_firmware h hw hf,
    fun h hw hf => ?stamp, fun h hw => ⟨fun hv => ?unbinds, fun hv ho => ?misaligned, fun hv ho hb => ?beyond, fun hv ho hb hl => ?held,
      fun s1 hv ho hb hl ht1 => ?delayed, fun s1 hv ho hb hl ht1 => ?binds⟩⟩
  case stamp =>
    split
    next hb => exact mtsr_illegal h hw hf (badSysValue_iff.mpr hb)
    next hb => exact mtsr_stamp h ht hw hf (by rwa [← Bool.not_eq_true, badSysValue_iff])
  case unbinds => exact issue_steps h he ((if_pos hw).trans (bindWindow_unbinds ht0 hv))
  case misaligned => exact issue_traps h he ((if_pos hw).trans (bindWindow_misaligned ht0 hv ho))
  case beyond => exact issue_traps h he ((if_pos hw).trans (bindWindow_beyond ht0 hv ho hb))
  case held => exact issue_waits h he ((if_pos hw).trans (bindWindow_held ht0 hv ho hb hl))
  case delayed => exact issue_waits h he ((if_pos hw).trans (bindWindow_delayed ht0 hv ho hb hl ht1))
  case binds =>
    dsimp only
    split
    next hbad => exact issue_traps h he ((if_pos hw).trans (bindWindow_invalid ht0 hv ho hb hl ht1 hbad))
    next hbad => exact issue_steps h he ((if_pos hw).trans (bindWindow_binds ht0 hv ho hb hl ht1 (by simpa using hbad)))

end Sys2Proof.Machine


/-! O22: the accesses to the stash and to the lane store. LDS, STS and ATOMS are one operation, `stashIssue`, of which the parts are named here: the operation,
what it waits for, its pass over the lanes, and what the pass leaves. -/

namespace Sys2Proof.Machine

/-! ### The parts of a stash access -/

/-- A kind of access that is performed in the stash. -/
def LongKind.isStash (kind : LongKind) : Prop := kind = .lds ∨ kind = .sts ∨ ∃ u, kind = .atoms u

/-- What a lane of a stash access brings along. -/
def stashData (g : Group) (kind : LongKind) (d : BitVec 7) (regs l : Nat) : List Byte :=
  if kind != .lds then storeBytes (4 * regs) (g.regs.laneWords d.toNat regs l) else []

/-- The operation of a stash access on the places of its lanes. -/
def stashOp (x : Issue) (g : Group) (kind : LongKind) (d : BitVec 7) (z : BitVec 3) (accs : List LaneAccess) : LongOp :=
  { kind := kind, serial := g.issued, pc := x.pc, slot := x.slot, mask := x.mask, issueClk := x.clk, window := 0, regs := [],
    gmode := g.regs.gmode, sz := z.toNat, dest := d.toNat, destMask := x.act, dueClk := x.clk + 1, tile := g.eng.tag.map fun _ => g.eng.tagSlot,
    accesses := accs.map fun b => if kind = .sts then { b with data := b.data.take (sizeBytes z) } else b }

/-- A stash access that releases something. -/
def LongOp.drains (o : LongOp) : Bool := o.releases && !o.idle

/-- The path of the core once it has let go what a stash access touches. -/
def State.stashSettled (s : State) (x : Issue) (g : Group) (o : LongOp) : State := s.settlePath x.core (s.opPlaces g x.gid o)

/-- The operations that a stash access follows (R222, R305). -/
def State.stashHolders (s : State) (x : Issue) (g : Group) (n : Nat) (o : LongOp) (accs : List LaneAccess) : List Nat :=
  (g.ops.filter (s.follows g x.gid o)).map (·.serial) ++ s.engineHolders x.gid (accs.flatMap (s.accessLines n)) (o.kind != .lds)

/-- Whether a stash access waits for other accesses. -/
def State.stashHeld (s : State) (x : Issue) (g : Group) (n : Nat) (o : LongOp) (accs : List LaneAccess) : Bool :=
  !(s.stashHolders x g n o accs).isEmpty || (o.drains && decide (2 ≤ s.stashScope o n) && s.pathWaits x.core) ||
    ((o.kind != .lds) && (s.stashSettled x g o).pathTouches x.core (s.opPlaces g x.gid o) && !accs.isEmpty)

/-- Whether a stash access stores under a lease (R214). -/
def State.stashLeased (s : State) (n : Nat) (o : LongOp) (accs : List LaneAccess) : Bool :=
  (o.kind != .lds) && accs.any fun b => s.leasedBytes (b.addr / 2 ^ 32) (b.addr % 2 ^ 32) n

/-- The pass of a stash access over its lanes. -/
def State.stashPass (s : State) (x : Issue) (g : Group) (n : Nat) (o : LongOp) : Pass :=
  Pass.run (s.party x.tid x.gid) o o.accesses
    { s := if o.drains then (s.stashSettled x g o).releaseAt x.core x.tid (s.stashScope o n) else s.stashSettled x g o }

/-- The state that a pass without a fault leaves, with the registers that it loads. -/
def Pass.loaded (r : Pass) (x : Issue) (o : LongOp) (z : BitVec 3) : State :=
  let s1 := if o.kind = .lds ∨ o.kind = .sts then r.s else r.s.setUnrew x.gid
  if o.kind = .sts then s1 else s1.modRegs x.gid fun q =>
    q.putLanes o.dest (sizeRegs z) (x.act &&& ~~~o.lanesOf r.pages) x.ready (r.got.map fun b => (b.1, loadWords z.toNat b.2))

/-- What the pass of a stash access answers. -/
def State.stashEnd (s : State) (x : Issue) (g : Group) (z : BitVec 3) (o : LongOp) : Res :=
  let r := s.stashPass x g (sizeBytes z) o
  let before := if o.drains then (s.stashSettled x g o).releaseAt x.core x.tid (s.stashScope o (sizeBytes z)) else s.stashSettled x g o
  match r.fault with
  | some (_, c, addr) => .trap { x.trap c with addr := addr, sites := r.sites }
  | none =>
    if !r.left.isEmpty then
      .wait (((r.left.findSome? fun b => before.lockedAt (b.addr / 2 ^ 32) (b.addr % 2 ^ 32) (sizeBytes z)).map Wait.lock).getD .stall)
    else match r.pages with
      | [] => .done (if o.acquires && !o.idle then (r.loaded x o z).acquireAt x.core (s.stashScope o (sizeBytes z)) else r.loaded x o z)
      | b :: _ => .done ((r.loaded x o z).modOps x.gid fun l => l ++
          [{ o with failure := some (.pageFault, (r.loaded x o z).accessVa o b), accesses := r.pages, unfinished := o.lanesOf r.pages, hyper := r.hyper }])

/-- What a stash access answers once its lanes have places. -/
def State.stashPerform (s : State) (x : Issue) (g : Group) (z : BitVec 3) (o : LongOp) (accs : List LaneAccess) : Res :=
  if s.stashHeld x g (sizeBytes z) o accs then
    .wait (if (s.stashHolders x g (sizeBytes z) o accs).isEmpty && (o.kind != .lds) &&
        accs.any fun b => s.leasedBytes (b.addr / 2 ^ 32) (b.addr % 2 ^ 32) (sizeBytes z) then .lease
      else .order (s.stashHolders x g (sizeBytes z) o accs))
  else if s.stashLeased (sizeBytes z) o accs then .wait .lease
  else s.stashEnd x g z o

/-- What a stash access of aligned lanes answers, by the places of its lanes. -/
def State.stashAnswer (s : State) (x : Issue) (g : Group) (kind : LongKind) (d : BitVec 7) (z : BitVec 3) : Except FaultCode (List LaneAccess) → Res
  | .error c => .trap (x.trap c)
  | .ok accs => s.stashPerform x g z (stashOp x g kind d z accs) accs

section

variable {s : State} {x : Issue} {g : Group} {kind : LongKind} {d a : BitVec 7} {z : BitVec 3} {off : Int} {regs : Nat}

theorem stashIssue_misaligned (h : ((lanesIn x.act).any fun l => !offsetAligned ((g.regs.vec a.toNat).at l) off (sizeBytes z)) = true) :
    stashIssue s x g kind d a z off regs = .trap (x.trap .misaligned) := if_pos h

theorem stashIssue_aligned (hk : kind.isStash)
    (h : ((lanesIn x.act).any fun l => !offsetAligned ((g.regs.vec a.toNat).at l) off (sizeBytes z)) = false) :
    stashIssue s x g kind d a z off regs =
      s.stashAnswer x g kind d z (s.stashTargets x.tid g.regs a off (sizeBytes z) (stashData g kind d regs) (lanesIn x.act)) := by
  obtain rfl | rfl | ⟨u, rfl⟩ := hk
  · exact (if_neg (Bool.eq_false_iff.mp h)).trans rfl
  · exact (if_neg (Bool.eq_false_iff.mp h)).trans rfl
  · exact (if_neg (Bool.eq_false_iff.mp h)).trans rfl

/-- An access of which every lane has a place does what `stashPerform` answers. -/
theorem stashIssue_performs (hk : kind.isStash) {accs : List LaneAccess}
    (h : ((lanesIn x.act).any fun l => !offsetAligned ((g.regs.vec a.toNat).at l) off (sizeBytes z)) = false)
    (ht : s.stashTargets x.tid g.regs a off (sizeBytes z) (stashData g kind d regs) (lanesIn x.act) = .ok accs) :
    stashIssue s x g kind d a z off regs = s.stashPerform x g z (stashOp x g kind d z accs) accs :=
  (stashIssue_aligned hk h).trans (congrArg _ ht)

end

section

variable {s : State} {x : Issue} {g : Group} {z : BitVec 3} {o : LongOp} {accs : List LaneAccess}

theorem stashPerform_held (h : s.stashHeld x g (sizeBytes z) o accs = true) : s.stashPerform x g z o accs =
    .wait (if s.stashHolders x g (sizeBytes z) o accs = [] ∧ s.stashLeased (sizeBytes z) o accs = true then .lease
      else .order (s.stashHolders x g (sizeBytes z) o accs)) := by
  refine (if_pos h).trans (congrArg Res.wait (if_congr ?_ rfl rfl))
  rw [Bool.and_assoc, Bool.and_eq_true, List.isEmpty_iff]
  rfl

theorem stashPerform_leased (h : s.stashHeld x g (sizeBytes z) o accs = false) (hl : s.stashLeased (sizeBytes z) o accs = true) :
    s.stashPerform x g z o accs = .wait .lease := (if_neg (Bool.eq_false_iff.mp h)).trans (if_pos hl)

theorem stashPerform_free (h : s.stashHeld x g (sizeBytes z) o accs = false) (hl : s.stashLeased (sizeBytes z) o accs = false) :
    s.stashPerform x g z o accs = s.stashEnd x g z o := (if_neg (Bool.eq_false_iff.mp h)).trans (if_neg (Bool.eq_false_iff.mp hl))

theorem stashEnd_faults {l addr : Nat} {c : FaultCode} (h : (s.stashPass x g (sizeBytes z) o).fault = some (l, c, addr)) :
    s.stashEnd x g z o = .trap { x.trap c with addr := addr, sites := (s.stashPass x g (sizeBytes z) o).sites } := by
  simp only [State.stashEnd, h]

variable (h : (s.stashPass x g (sizeBytes z) o).fault = none)

include h

theorem stashEnd_stalls (hl : (s.stashPass x g (sizeBytes z) o).left ≠ []) :
    ∃ w, s.stashEnd x g z o = .wait w ∧ (w = .stall ∨ ∃ l, w = .lock l) := by
  simp only [State.stashEnd, h]
  refine ⟨_, if_pos (by simpa using hl), ?_⟩
  cases (List.findSome? _ _ : Option Nat) with
  | none => exact .inl rfl
  | some l => exact .inr ⟨l, rfl⟩

variable (hl : (s.stashPass x g (sizeBytes z) o).left = [])

include hl

theorem stashEnd_loads (hp : (s.stashPass x g (sizeBytes z) o).pages = []) : s.stashEnd x g z o =
    .done (if o.acquires && !o.idle then ((s.stashPass x g (sizeBytes z) o).loaded x o z).acquireAt x.core (s.stashScope o (sizeBytes z))
      else (s.stashPass x g (sizeBytes z) o).loaded x o z) := by
  simp only [State.stashEnd, h, hl, hp, List.isEmpty_nil, Bool.not_true, Bool.false_eq_true, if_false]

theorem stashEnd_parks {b : LaneAccess} {rest : List LaneAccess} (hp : (s.stashPass x g (sizeBytes z) o).pages = b :: rest) :
    s.stashEnd x g z o = .done (((s.stashPass x g (sizeBytes z) o).loaded x o z).modOps x.gid fun l => l ++
      [{ o with failure := some (.pageFault, ((s.stashPass x g (sizeBytes z) o).loaded x o z).accessVa o b),
                accesses := (s.stashPass x g (sizeBytes z) o).pages, unfinished := o.lanesOf (s.stashPass x g (sizeBytes z) o).pages,
                hyper := (s.stashPass x g (sizeBytes z) o).hyper }]) := by
  simp only [State.stashEnd, h, hl, hp, List.isEmpty_nil, Bool.not_true, Bool.false_eq_true, if_false]

end

/-! ### The lane store -/

/-- The offset of a lane in its slice. -/
def Regs.sliceAt (r : Regs) (a : BitVec 7) (f : BitVec 4) (n l : Nat) : Int := sliceOffset ((r.vec a.toNat).at l) (offBytes f n)

/-- The place of a lane's offset in the lane store. -/
def Group.slicePlace (g : Group) (a : BitVec 7) (f : BitVec 4) (n l : Nat) : Nat :=
  (Store.get g.number g.flow.home l * 32 + l) * 512 + (g.regs.sliceAt a f n l).toNat

/-- The words that an LDL loads from a lane store. -/
def Group.sliceLoads (g : Group) (m : Store Byte) (act : Mask) (a : BitVec 7) (z : BitVec 3) (f : BitVec 4) : List (Nat × List Word) :=
  (lanesIn act).map fun l => (l, loadWords z.toNat (stashReads m (g.slicePlace a f (sizeBytes z) l) (sizeBytes z)))

/-- The fault of the active lanes of an LDL or STL. -/
def State.laneFault (s : State) (x : Issue) (g : Group) (a : BitVec 7) (z : BitVec 3) (f : BitVec 4) : Option FaultCode :=
  sliceFault (s.core x.core).sliceBytes (sizeBytes z) ((lanesIn x.act).map (g.regs.sliceAt a f (sizeBytes z)))

theorem laneFault_eq (s : State) (x : Issue) (g : Group) (a : BitVec 7) (z : BitVec 3) (f : BitVec 4) : s.laneFault x g a z f =
    sliceFault (s.core x.core).sliceBytes (sizeBytes z)
      ((lanesIn x.act).map fun l => sliceOffset ((g.regs.vec a.toNat).at l) (offBytes f (sizeBytes z))) := rfl

theorem sliceFault_eq {size n : Nat} {ls : List Nat} {off : Nat → Int} : sliceFault size n (ls.map off) =
    if ∃ l ∈ ls, off l % (n : Int) ≠ 0 then some .misaligned
    else if ∃ l ∈ ls, off l < 0 ∨ (size : Int) < off l + n then some .permission else none := by
  simp [sliceFault]

theorem sliceBase_openIssue {s : State} {x : Issue} {g : Group} (hg : Store.find s.groups x.gid = some g) (l : Nat) :
    (s.openIssue x).sliceBase x.gid l = (Store.get g.number g.flow.home l * 32 + l) * 512 := by
  simp only [State.sliceBase, State.homeGroup, openIssue_find hg]

section

variable {s : State} {x : Issue} {g : Group} {d a : BitVec 7} {z : BitVec 3} {f : BitVec 4} {t : Team}

theorem ldl_traps {c : FaultCode} (hi : Issues s (.ldl d a z f) x g) (h : s.laneFault x g a z f = some c) :
    Traps s (.ldl d a z f) x g (x.trap c) :=
  issue_traps hi (rfl : _ = execLdl d a z f s) (by
    rw [laneFault_eq] at h
    simp only [openIssue_core, h])

theorem stl_traps {c : FaultCode} (hi : Issues s (.stl d a z f) x g) (h : s.laneFault x g a z f = some c) :
    Traps s (.stl d a z f) x g (x.trap c) :=
  issue_traps hi (rfl : _ = execStl d a z f s) (by
    rw [laneFault_eq] at h
    simp only [openIssue_core, h])

variable (h : s.laneFault x g a z f = none)

include h

theorem stl_steps (hi : Issues s (.stl d a z f) x g) : Steps s (.stl d a z f) x g ((s.openIssue x).modTeamMem x.tid fun m => { m with
    lane := (lanesIn x.act).foldl (fun (st : Store Byte) l =>
      stashWrites st (g.slicePlace a f (sizeBytes z) l) (storeBytes (sizeBytes z) (g.regs.laneWords d.toNat (sizeRegs z) l))) m.lane
    laneUpset := (lanesIn x.act).foldl (fun (bad : List Nat) l => rewritten bad (g.slicePlace a f (sizeBytes z) l) (sizeBytes z)) m.laneUpset }) :=
  issue_steps hi (rfl : _ = execStl d a z f s) (by
    rw [laneFault_eq] at h
    simp only [openIssue_core, h, sliceBase_openIssue (issuing_group hi.issuing).1]
    rfl)

variable (ht : Store.find s.teams x.tid = some t)

include ht

theorem ldl_lost (hi : Issues s (.ldl d a z f) x g)
    (hl : ((lanesIn x.act).any fun l => upsetIn t.mem.laneUpset (g.slicePlace a f (sizeBytes z) l) (sizeBytes z)) = true) :
    Traps s (.ldl d a z f) x g (x.trap .uncorrectable) :=
  issue_traps hi (rfl : _ = execLdl d a z f s) (by
    rw [laneFault_eq] at h
    simp only [openIssue_core, h, openIssue_teams, ht, sliceBase_openIssue (issuing_group hi.issuing).1]
    exact if_pos hl)

theorem ldl_completes (hi : Issues s (.ldl d a z f) x g) (hd : Undisturbed s g)
    (hl : ((lanesIn x.act).any fun l => upsetIn t.mem.laneUpset (g.slicePlace a f (sizeBytes z) l) (sizeBytes z)) = false) :
    Completes s (.ldl d a z f) x g (g.regs.putLanes d.toNat (sizeRegs z) x.act x.ready (g.sliceLoads t.mem.lane x.act a z f)) := by
  refine issue_completes (s1 := (s.openIssue x).modRegs x.gid fun r =>
    r.putLanes d.toNat (sizeRegs z) x.act x.ready (g.sliceLoads t.mem.lane x.act a z f)) hi hd (rfl : _ = execLdl d a z f s) ?_ (Apart.modGroup _ _ _) ?_
  · rw [laneFault_eq] at h
    simp only [openIssue_core, h, openIssue_teams, ht, sliceBase_openIssue (issuing_group hi.issuing).1]
    exact if_neg (Bool.eq_false_iff.mp hl)
  · simp [State.modRegs, openIssue_find (issuing_group hi.issuing).1]

end

section

variable {s : State} {x : Issue} {g : Group} {d a : BitVec 7} {z : BitVec 3} {off : Int} {regs : Nat} {i : Instr} {kind : LongKind}
  (h : Issues s i x g) (he : exec i s = issue s i fun s x g => stashIssue s x g kind d a z off regs)

include h he

theorem stash_misaligned (hm : ((lanesIn x.act).any fun l => !offsetAligned ((g.regs.vec a.toNat).at l) off (sizeBytes z)) = true) :
    Traps s i x g (x.trap .misaligned) := issue_traps h he (stashIssue_misaligned hm)

variable (hk : kind.isStash) (hm : ((lanesIn x.act).any fun l => !offsetAligned ((g.regs.vec a.toNat).at l) off (sizeBytes z)) = false)

include hk hm

theorem stash_outside {c : FaultCode}
    (ht : (s.openIssue x).stashTargets x.tid g.regs a off (sizeBytes z) (stashData g kind d regs) (lanesIn x.act) = .error c) :
    Traps s i x g (x.trap c) := issue_traps h he ((stashIssue_aligned hk hm).trans (congrArg _ ht))

end

/-- LDS, STS and ATOMS are one operation. -/
theorem exec_stash {s : State} {d a : BitVec 7} {z : BitVec 3} {f : BitVec 4} {i : Instr} {kind : LongKind} {o : Int} {k : Nat}
    (hi : (i = .lds d a z f ∧ kind = .lds ∧ o = f.toInt * sizeBytes z ∧ k = sizeRegs z) ∨
      (i = .sts d a z f ∧ kind = .sts ∧ o = f.toInt * sizeBytes z ∧ k = sizeRegs z) ∨
        (∃ u, i = .atoms d a z u ∧ kind = .atoms u ∧ o = 0 ∧ k = atomRegs z u)) :
    kind.isStash ∧ exec i s = issue s i fun s x g => stashIssue s x g kind d a z o k := by
  rcases hi with ⟨rfl, rfl, rfl, rfl⟩ | ⟨rfl, rfl, rfl, rfl⟩ | ⟨u, rfl, rfl, rfl, rfl⟩
  · exact ⟨.inl rfl, rfl⟩
  · exact ⟨.inr (.inl rfl), rfl⟩
  · exact ⟨.inr (.inr ⟨u, rfl⟩), rfl⟩

/-- Settles O22: LDS, STS and ATOMS by the answers of `stashIssue` in their order, LDL and STL by the first fault of their lanes. Points that the manual leaves open
follow the model's reading (logs 20, 25 and 43). -/
theorem stashResult : Obligations.StashResult := by
  unfold Obligations.StashResult
  intro s x g d a z f n off s0
  refine ⟨fun i kind o k accs op r hi h => ?stash, ?slices⟩
  case stash =>
    obtain ⟨hk, he⟩ := exec_stash (s := s) hi
    refine ⟨stash_misaligned h he, fun c hm ht => stash_outside h he hk hm ht, fun hm ht hop => ?_⟩
    obtain rfl : op = stashOp x g kind d z accs := hop
    have hp := stashIssue_performs hk hm ht
    refine ⟨fun hh => issue_waits h he (hp.trans (stashPerform_held hh)), fun hh hl => issue_waits h he (hp.trans (stashPerform_leased hh hl)),
      fun hh hl hr => ?_⟩
    obtain rfl : r = s0.stashPass x g n (stashOp x g kind d z accs) := hr
    have hend := hp.trans (stashPerform_free hh hl)
    refine ⟨fun l c addr hf => issue_traps h he (hend.trans (stashEnd_faults hf)), fun hf hl => ?_,
      fun hf hl => ⟨fun hpg => issue_steps h he (hend.trans (stashEnd_loads hf hl hpg)),
        fun b rest hpg => issue_steps h he (hend.trans (stashEnd_parks hf hl hpg))⟩⟩
    obtain ⟨w, hw, hor⟩ := stashEnd_stalls hf hl
    exact ⟨w, issue_waits h he (hend.trans hw), hor⟩
  case slices =>
    have hfault : s.laneFault x g a z f = _ := sliceFault_eq
    exact ⟨fun c hc => ⟨fun hi => ldl_traps hi (hfault.trans hc), fun hi => stl_traps hi (hfault.trans hc)⟩, fun hn t ht =>
      ⟨fun hl hi => ldl_lost (hfault.trans hn) ht hi hl, fun hl hd hi => ldl_completes (hfault.trans hn) ht hi hd hl,
        fun hi => stl_steps (hfault.trans hn) hi⟩⟩

end Sys2Proof.Machine


/-! O46: what the memory system does by itself: probes, fills, recalls, refreshes, scrubs and broken locks. -/

namespace Sys2Proof.Machine

/-! ### Probes, fills, recalls and refreshes -/

section

variable {s s1 : State} {core tid line : Nat}

theorem exec_releaseLogProbe_free (h : s.probeWaits core (lineOf line) = false) :
    exec (.releaseLogProbe core line) s = .next (s.probeCore core (lineOf line)) := if_neg (by simp [h])

theorem exec_releaseLogProbe_leased (h : s.probeWaits core (lineOf line) = true) : exec (.releaseLogProbe core line) s = .next s := if_pos h

theorem exec_stashLineFill (h : s.touchLine tid line false false = .ok s1) : exec (.stashLineFill tid line) s = .next s1 := by
  change execStashLineFill tid line s = _
  simp only [execStashLineFill, h]

theorem directory_free (hl : s.lineLeased line = false) (hb : s.backHeld line = false) :
    s.directory line true = some ((s.holders line).foldl (fun s h => s.recallLine h.1 h.2) s) := by
  simp [State.directory, hl, hb]

theorem directory_held (h : s.lineLeased line = true ∨ s.backHeld line = true) : s.directory line true = none := by
  rcases h with h | h <;> simp [State.directory, h]

theorem exec_directoryRecall_free (hl : s.lineLeased (lineOf line) = false) (hb : s.backHeld (lineOf line) = false) :
    exec (.directoryRecall line) s = .next ((s.holders (lineOf line)).foldl (fun s h => s.recallLine h.1 h.2) s) :=
  congrArg (fun r => Host.Outcome.next (Option.getD r s)) (directory_free hl hb)

theorem exec_directoryRecall_held (h : s.lineLeased (lineOf line) = true ∨ s.backHeld (lineOf line) = true) :
    exec (.directoryRecall line) s = .next s :=
  congrArg (fun r => Host.Outcome.next (Option.getD r s)) (directory_held h)

theorem exec_bankRefresh {bench bank : Nat} (hc : core < 192) (hb : bench < 16) (hk : bank < 4) :
    exec (.bankRefresh core bench bank) s = .next (s.refreshBank core bench bank) := if_neg (by omega)

end

/-! ### The patrol scrub -/

/-- The quadrant where a scrub finds a sector: that of the LLC that holds a copy, else the home quadrant of its address. -/
def State.scrubQuad (s : State) (a : Nat) : Nat :=
  match s.cachedSector (a / 64) with
  | some (q, _) => q
  | none => (homeQuad [] a).getD 0

/-- Whether memory holds an uncorrectable error in a sector. -/
def State.badBehind (s : State) (a : Nat) : Bool := isDeviceMemory a && s.mod.frames.bad.contains (a / 64)

section

variable {s : State} {a : Nat} {f : ScrubFinding} (ha : a % 64 = 0)

include ha

theorem foundInLlc_eq : s.foundInLlc (a / 64) = (s.detect (.sector a)).modMod fun m => { m with llcScrub := m.llcScrub.mark (a / 64) } := by
  rw [State.foundInLlc, Nat.mul_div_cancel' (Nat.dvd_of_mod_eq_zero ha)]

theorem foundInMemory_eq : s.foundInMemory (a / 64) = (s.detect (.memory a)).modMod fun m => { m with dramScrub := m.dramScrub.mark (a / 64) } := by
  rw [State.foundInMemory, Nat.mul_div_cancel' (Nat.dvd_of_mod_eq_zero ha)]

theorem spoilSector_cached (hc : (s.cachedSector (a / 64)).isSome = true) :
    s.spoilSector (a / 64) = s.strikeLlc (s.scrubQuad a) (lineOf a) (a / 64 % 2) := by
  obtain ⟨⟨q, b⟩, hq⟩ := Option.isSome_iff_exists.mp hc
  have hline : a / 64 / 2 * 128 = lineOf a := by simp only [lineOf]; omega
  simp only [State.spoilSector, State.scrubQuad, hq, hline]

omit ha in
theorem spoilSector_memory (hc : s.cachedSector (a / 64) = none) (hd : isDeviceMemory a = true) (hb : s.badBehind a = false) :
    s.spoilSector (a / 64) = s.modMod fun m => { m with frames := { m.frames with bad := m.frames.bad ++ [a / 64] } } := by
  have hbad : s.mod.frames.bad.contains (a / 64) = false := by simpa [State.badBehind, hd] using hb
  simp only [State.spoilSector, hc, hbad, Bool.false_eq_true, if_false]

variable (hin : isDeviceMemory a = true ∨ (s.cachedSector (a / 64)).isSome = true)

include hin

/-- What a scrub finds, in the order in which it looks: the copy in an LLC, the memory behind it, and then what it may find besides. -/
theorem exec_patrolScrub : exec (.patrolScrub a f) s =
    if ((s.cachedSector (a / 64)).any (·.2) && !(s.badBehind a && s.mod.llcScrub.found.contains (a / 64))) = true then .next (s.foundInLlc (a / 64))
    else if s.badBehind a = true then .next (s.foundInMemory (a / 64))
    else match f with
      | .clean => .next s
      | .corrected => .next ((s.corrected (s.scrubQuad a) (s.frameVdev a) (if (s.cachedSector (a / 64)).isSome then 0x201 else 0x200)
          (if (s.cachedSector (a / 64)).isSome then 416 + 16 * s.scrubQuad a + llcSlice (s.scrubQuad a) a else 0xFFFFFFFF) a).count
            (s.scrubQuad a) (s.frameVdev a) 0x205 1)
      | .uncorrectable => .next (if (s.cachedSector (a / 64)).isSome then (s.spoilSector (a / 64)).foundInLlc (a / 64)
          else (s.spoilSector (a / 64)).foundInMemory (a / 64)) := by
  have hout : ¬ ((!isDeviceMemory a) = true ∧ (s.cachedSector (a / 64)).isNone = true) := by
    rintro ⟨hd, hc⟩
    rcases hin with h | h
    · simp [h] at hd
    · simp [Option.isNone_iff_eq_none.mp hc] at h
  change execPatrolScrub a f s = _
  unfold execPatrolScrub
  rw [Nat.div_mul_cancel (Nat.dvd_of_mod_eq_zero ha)]
  exact (if_neg hout).trans rfl

theorem exec_patrolScrub_inLlc (hc : (s.cachedSector (a / 64)).any (·.2) = true)
    (hb : s.badBehind a = false ∨ a / 64 ∉ s.mod.llcScrub.found) : exec (.patrolScrub a f) s = .next (s.foundInLlc (a / 64)) := by
  rw [exec_patrolScrub ha hin, if_pos]
  rcases hb with h | h <;> simp [hc, h]

theorem exec_patrolScrub_inMemory (hb : s.badBehind a = true)
    (hc : (s.cachedSector (a / 64)).any (·.2) = false ∨ a / 64 ∈ s.mod.llcScrub.found) :
    exec (.patrolScrub a f) s = .next (s.foundInMemory (a / 64)) := by
  rw [exec_patrolScrub ha hin, if_neg, if_pos hb]
  rcases hc with h | h <;> simp [hb, h]

variable (hc : (s.cachedSector (a / 64)).any (·.2) = false) (hb : s.badBehind a = false)

include hc hb

theorem exec_patrolScrub_clean : exec (.patrolScrub a .clean) s = .next s := by
  rw [exec_patrolScrub ha hin, if_neg (by simp [hc]), if_neg (by simp [hb])]

theorem exec_patrolScrub_corrected : exec (.patrolScrub a .corrected) s =
    .next ((s.corrected (s.scrubQuad a) (s.frameVdev a) (if (s.cachedSector (a / 64)).isSome then 0x201 else 0x200)
      (if (s.cachedSector (a / 64)).isSome then 416 + 16 * s.scrubQuad a + llcSlice (s.scrubQuad a) a else 0xFFFFFFFF) a).count
        (s.scrubQuad a) (s.frameVdev a) 0x205 1) := by
  rw [exec_patrolScrub ha hin, if_neg (by simp [hc]), if_neg (by simp [hb])]

theorem exec_patrolScrub_lostCopy (hk : (s.cachedSector (a / 64)).isSome = true) : exec (.patrolScrub a .uncorrectable) s =
    .next ((s.strikeLlc (s.scrubQuad a) (lineOf a) (a / 64 % 2)).foundInLlc (a / 64)) := by
  rw [exec_patrolScrub ha hin, if_neg (by simp [hc]), if_neg (by simp [hb]), ← spoilSector_cached ha hk]
  exact congrArg _ (if_pos hk)

theorem exec_patrolScrub_lostMemory (hk : s.cachedSector (a / 64) = none) : exec (.patrolScrub a .uncorrectable) s =
    .next ((s.modMod fun m => { m with frames := { m.frames with bad := m.frames.bad ++ [a / 64] } }).foundInMemory (a / 64)) := by
  have hd : isDeviceMemory a = true := hin.resolve_right (by simp [hk])
  rw [exec_patrolScrub ha hin, if_neg (by simp [hc]), if_neg (by simp [hb]), ← spoilSector_memory hk hd hb]
  exact congrArg _ (if_neg (by simp [hk]))

end

/-! ### The lock of a replicated line that is broken -/

/-- The module once a lock that is overdue is counted and logged (R237). -/
def State.lockBroken (s : State) (part : Nat) (l : ReplicaLock) : State :=
  ((s.choose.2.count ((homeQuad (s.choose.2.part part).regs.members l.addr).getD 0) 0 0x206 1)).logEvent part
    { type := 5, quad := (homeQuad (s.choose.2.part part).regs.members l.addr).getD 0, paddr := lineOf l.addr, time := s.choose.2.now }

section

variable {s : State} {part entry : Nat} {l : ReplicaLock}
  (hl : ((s.part part).locks.find? fun l => l.entry == entry && s.lockOverdue l) = some l)

include hl

theorem exec_replicaLockTimeout_lost (hc : s.choose.1 = true) :
    let lost := l.stalled.foldl (fun s x => s.loseLoad x.1 x.2.1 (lineOf l.addr))
      (((s.lockBroken part l).modPart part fun p => { p with locks := p.locks.filter (· != l) }).loseOps l.gid .uncorrectable l.va fun o => o.serial == l.serial)
    exec (.replicaLockTimeout part entry) s = .next
      ((lost.groups.filter fun kv => kv.2.stops.wait == .lock (lineOf l.addr)).foldl (fun s kv => s.takeFault kv.1 (kv.2.waitTrap .uncorrectable)) lost) := by
  change execReplicaLockTimeout part entry s = _
  simp only [execReplicaLockTimeout, hl]
  exact if_neg (by simp [hc])

theorem exec_replicaLockTimeout_kept (hc : s.choose.1 = false) :
    exec (.replicaLockTimeout part entry) s = .next ((s.lockBroken part l).breakLock part l) := by
  change execReplicaLockTimeout part entry s = _
  simp only [execReplicaLockTimeout, hl]
  exact if_pos (by simp [hc])

theorem entry_of_lock : l.entry = entry := by
  have h := List.find?_some hl
  simp only [Bool.and_eq_true, beq_iff_eq] at h
  exact h.1

end

/-- Settles O46: each event by what it finds. Points that the manual leaves open follow the model's reading (logs 11, 36, 37 and 43). -/
theorem memoryEvents : Obligations.MemoryEvents := by
  unfold Obligations.MemoryEvents
  intro s
  refine ⟨fun core line => ⟨exec_releaseLogProbe_free, exec_releaseLogProbe_leased⟩, fun tid line s1 => exec_stashLineFill,
    fun line => ⟨exec_directoryRecall_free, exec_directoryRecall_held⟩, fun core bench bank => exec_bankRefresh,
    fun a ha hin => ⟨fun f hc hb => ?inLlc, fun f hb hc => ?inMemory, fun hc hb =>
      ⟨exec_patrolScrub_clean ha hin hc hb, exec_patrolScrub_corrected ha hin hc hb, fun hk => ?lostCopy, fun hk => ?lostMemory⟩⟩,
    fun part entry l hl => ⟨exec_replicaLockTimeout_lost hl, fun hc => ?kept⟩⟩
  case inLlc => exact (exec_patrolScrub_inLlc ha hin hc hb).trans (congrArg _ (foundInLlc_eq ha))
  case inMemory => exact (exec_patrolScrub_inMemory ha hin hb hc).trans (congrArg _ (foundInMemory_eq ha))
  case lostCopy => exact (exec_patrolScrub_lostCopy ha hin hc hb hk).trans (congrArg _ (foundInLlc_eq ha))
  case lostMemory => exact (exec_patrolScrub_lostMemory ha hin hc hb hk).trans (congrArg _ (foundInMemory_eq ha))
  case kept =>
    obtain rfl := entry_of_lock hl
    exact exec_replicaLockTimeout_kept hl hc

end Sys2Proof.Machine


/-! O48: the commands. Every command of the table runs its body by `runCommand`, which makes the checks that all share; then the bodies of CREATE_VDEV,
DESTROY_VDEV, CARVE and PARTITION, each answer with what leads to it. -/

namespace Sys2Proof.Machine

theorem checkpointWith_command {src : CommandSource} {mode : Nat} {body} :
    ∃ b, ∀ s, checkpointWith s src mode body = s.runCommand src 0x08 mode b := ⟨_, fun _ => rfl⟩

theorem debugWith_command {src : CommandSource} {op : Nat} {body} : ∃ b, ∀ s, debugWith s src op body = s.runCommand src 0x0E op b := ⟨_, fun _ => rfl⟩

theorem debugOn_command {src : CommandSource} {op : Nat} {body} : ∃ b, ∀ s, debugOn s src op body = s.runCommand src 0x0E op b := debugWith_command

/-- The event of a named command runs a body behind the checks that commands share. -/
theorem exec_command {i : Instr} {src : CommandSource} {op sub : Nat} (h : commandNames i = some (src, op, sub)) :
    ∃ body, ∀ s, exec i s = s.runCommand src op sub body := by
  unfold commandNames at h
  split at h
  case h_46 =>
    split at h
    · cases h
    · next hg => cases h; exact ⟨_, fun s => if_neg hg⟩
  case h_47 =>
    split at h
    · next hg => cases h; exact ⟨_, fun s => if_pos hg⟩
    · cases h
  case h_48 => cases h
  all_goals
    cases h
    unfold exec
  case h_8 | h_9 | h_10 => exact checkpointWith_command
  case h_16 => exact debugWith_command
  case h_17 | h_18 | h_19 | h_20 | h_21 => exact debugOn_command
  all_goals exact ⟨_, fun s => rfl⟩

section

variable {s t : State} {src : CommandSource} {op sub st : Nat} {c : Command} {i : Instr} {body : Command → State → Reply} {result : List Byte}

theorem command_refuses (h : Runs s src op sub c) (he : exec i s = s.runCommand src op sub body) (hb : body c (s.taken src) = .refused st 0) :
    Refuses s i src st := by
  rw [Refuses, he, runCommand_runs h, hb]

theorem command_ends (h : Runs s src op sub c) (he : exec i s = s.runCommand src op sub body) (hb : body c (s.taken src) = .done t result) :
    Ends s i src t result := by
  rw [Ends, he, runCommand_runs h, hb]

end

/-! ### CREATE_VDEV and DESTROY_VDEV -/

/-- The descriptor that CREATE_VDEV uses: with the default CTXCTL outside expert mode (R312). -/
def Command.descriptor (c : Command) : List Byte :=
  if c.expert then c.bytes 0 64 else (c.bytes 0 64).take 4 ++ bytesOf 8 defaultCtl ++ (c.bytes 0 64).drop 12

/-- The CTXCTL of a descriptor. -/
def descriptorCtl (d : List Byte) : BitVec 64 := BitVec.ofNat 64 (field d 4 8)

/-- A descriptor that CREATE_VDEV does not take. -/
def State.refusesDescriptor (s : State) (d : List Byte) : Bool := Store.has s.vdevs (field d 0 1) || !s.descriptorOk d || !s.canHold d

/-- The device that CREATE_VDEV makes. -/
def State.createdVdev (s : State) (d : List Byte) : Vdev :=
  { desc := d
    ctx := { ctl := descriptorCtl d, ctxid := s.mod.ident.ctxNext,
             key := if (descriptorCtl d).getLsbD 2 then some (Config.freshKey (s.anyNat (2 ^ 256)).1) else none }
    faults := { base := field d 32 8 }
    tab := { dirtyBase := field d 40 8, dirtyLen := field d 48 4 }
    vcarve := BitVec.ofNat 32 (field d 16 4) }

theorem createdVdev_key (s : State) (d : List Byte) : (s.createdVdev d).ctx.key.isSome = (descriptorCtl d).getLsbD 2 := by
  unfold State.createdVdev
  cases (descriptorCtl d).getLsbD 2 <;> rfl

section

variable {s : State} {src : CommandSource} {c : Command} (h : Runs s src 0x01 0 c)

include h

theorem createVdev_refused (hb : (s.taken src).refusesDescriptor c.descriptor = true) : Refuses s (.createVdev src) src 1 :=
  command_refuses h (rfl : _ = execCreateVdev src s) (if_pos hb)

variable (hb : (s.taken src).refusesDescriptor c.descriptor = false)

include hb

theorem createVdev_unsafe (hu : ((descriptorCtl c.descriptor).getLsbD 2 && (s.taken src).mod.ident.security == .manufacturing) = true) :
    Refuses s (.createVdev src) src 3 :=
  command_refuses h (rfl : _ = execCreateVdev src s) ((if_neg (Bool.eq_false_iff.mp hb)).trans (if_pos hu))

theorem createVdev_ends (hu : ((descriptorCtl c.descriptor).getLsbD 2 && (s.taken src).mod.ident.security == .manufacturing) = false) :
    Ends s (.createVdev src) src ((((s.taken src).anyNat (2 ^ 256)).2.modIdent fun i => { i with ctxNext := (s.taken src).mod.ident.ctxNext + 1 }).enterVdev
      c.descriptor ((s.taken src).createdVdev c.descriptor)) (bytesOf 4 (s.taken src).mod.ident.ctxNext ++ bytesOf 4 0) :=
  command_ends h (rfl : _ = execCreateVdev src s) ((if_neg (Bool.eq_false_iff.mp hb)).trans (if_neg (Bool.eq_false_iff.mp hu)))

end

theorem destroyVdev_ends {s : State} {src : CommandSource} {c : Command} (h : Runs s src 0x02 0 c) :
    Ends s (.destroyVdev src) src ((s.taken src).removeVdev (c.get 0 1) (some 6)) [] := command_ends h (rfl : _ = execDestroyVdev src s) rfl

/-! ### CARVE -/

/-- The CARVELIM that an expert CARVE leaves in a partition: its own when the command gives none. -/
def State.carveLimit (s : State) (c : Command) : BitVec 32 :=
  if BitVec.ofNat 32 (c.get 12 4) = 0 then (s.part (c.get 8 1)).regs.carvelim else BitVec.ofNat 32 (c.get 12 4)

/-- Whether an expert CARVE of a device fits the limits that it leaves. -/
def State.carveFits (s : State) (c : Command) (v : Vdev) : Bool :=
  Store.has s.parts (c.get 8 1) && carvelimOk (s.carveLimit c) &&
    carveOk (BitVec.ofNat 32 (c.get 4 4)) (if c.get 8 1 = descPart v.desc then s.carveLimit c else (s.part (descPart v.desc)).regs.carvelim) &&
    (BitVec.ofNat 32 (c.get 12 4) == 0 || s.vdevs.all fun kv =>
      kv.1 == c.get 0 1 || !Store.has (s.part (c.get 8 1)).disp.resident kv.1 || carveOk kv.2.vcarve (s.carveLimit c))

section

variable {s : State} {src : CommandSource} {c : Command} {v : Vdev} (h : Runs s src 0x0D 0 c)
  (hv : Store.find (s.taken src).vdevs (c.get 0 1) = some v)

include h hv

theorem carve_preset {w : BitVec 32} (he : c.expert = false) (hw : carvePreset (c.get 1 1) = some w)
    (ho : carveOk w ((s.taken src).part (descPart v.desc)).regs.carvelim = true) :
    Ends s (.carve src) src ((s.taken src).modVdev (c.get 0 1) fun v => { v with vcarve := w }) (bytesOf 4 w.toNat) :=
  command_ends h (rfl : _ = execCarve src s) (by simp only [hv, he, hw, ho, Bool.not_false, if_true])

theorem carve_refusesPreset (he : c.expert = false)
    (hw : ∀ w, carvePreset (c.get 1 1) = some w → carveOk w ((s.taken src).part (descPart v.desc)).regs.carvelim = false) :
    Refuses s (.carve src) src 1 := by
  refine command_refuses h (rfl : _ = execCarve src s) ?_
  simp only [hv, he, Bool.not_false, if_true]
  cases hp : carvePreset (c.get 1 1) with
  | none => rfl
  | some w => exact if_neg (by simp [hw w hp])

variable (he : c.expert = true)

include he

theorem carve_refusesGuest (hg : isGuest src = true) (hl : BitVec.ofNat 32 (c.get 12 4) ≠ 0) : Refuses s (.carve src) src 3 :=
  command_refuses h (rfl : _ = execCarve src s) (by
    simp only [hv, he, Bool.not_true, Bool.false_eq_true, if_false]
    exact if_pos ⟨hg, hl⟩)

variable (hg : isGuest src = false ∨ BitVec.ofNat 32 (c.get 12 4) = 0)

include hg

theorem carve_refusesLimits (hf : (s.taken src).carveFits c v = false) : Refuses s (.carve src) src 1 :=
  command_refuses h (rfl : _ = execCarve src s) (by
    simp only [hv, he, Bool.not_true, Bool.false_eq_true, if_false]
    refine (if_neg (by rcases hg with hg | hg <;> simp [hg])).trans (if_pos ?_)
    simpa only [State.carveFits, State.carveLimit, Bool.and_eq_false_iff, Bool.or_eq_true, Bool.not_eq_true'] using hf)

theorem carve_ends (hf : (s.taken src).carveFits c v = true) : Ends s (.carve src) src
    ((((s.taken src).requota (descPart v.desc) (c.get 0 1)).modVdev (c.get 0 1) fun v => { v with vcarve := BitVec.ofNat 32 (c.get 4 4) }).modPart (c.get 8 1)
      fun x => { x with regs := { x.regs with carvelim := (s.taken src).carveLimit c } })
    (bytesOf 4 (BitVec.ofNat 32 (c.get 4 4)).toNat ++ bytesOf 4 ((s.taken src).carveLimit c).toNat) :=
  command_ends h (rfl : _ = execCarve src s) (by
    simp only [hv, he, Bool.not_true, Bool.false_eq_true, if_false]
    refine (if_neg (by rcases hg with hg | hg <;> simp [hg])).trans (if_neg ?_)
    simpa only [State.carveFits, State.carveLimit, Bool.and_eq_true, Bool.or_eq_true, Bool.not_eq_true', not_or, Bool.not_eq_false] using hf)

end

/-! ### PARTITION -/

/-- A PARTITION that leaves the quadrants as they are. -/
def Command.keepsCode (c : Command) : Bool := c.expert && c.get 0 1 == 0xFF

/-- The partitions that PARTITION forms. -/
def State.formedBy (s : State) (c : Command) : State :=
  if c.keepsCode then s else (s.repartition (c.get 0 1)).modMod fun m => { m with code := c.get 0 1 }

/-- Whether the PLACECTL of an expert PARTITION is one, for a partition that there is. -/
def State.placesIn (s : State) (c : Command) : Bool := placectlOk (BitVec.ofNat 32 (c.get 4 4)) && Store.has s.parts (c.get 1 1)

/-- What PARTITION measures once it has placed. -/
def State.partitioned (s : State) (c : Command) : State :=
  let placed := if c.expert then s.modPart (c.get 1 1) fun x => { x with regs := { x.regs with placectl := BitVec.ofNat 32 (c.get 4 4) } } else s
  placed.extendMr 4 (digestOf [BitVec.ofNat 8 placed.mod.code])

section

variable {s : State} {src : CommandSource} {c : Command}

theorem placesIn_eq_false : s.placesIn c = false ↔ (!placectlOk (BitVec.ofNat 32 (c.get 4 4))) = true ∨ (!Store.has s.parts (c.get 1 1)) = true := by
  simp only [State.placesIn, Bool.and_eq_false_iff, Bool.not_eq_true']

theorem partition_accepts (hc : c.keepsCode = true ∨ (c.get 0 1 ≤ 4 ∧ s.codeBlocked (c.get 0 1) = false)) :
    ¬ ((!c.keepsCode) = true ∧ (4 < c.get 0 1 ∨ s.codeBlocked (c.get 0 1) = true)) := by
  rintro ⟨hk, hn⟩
  obtain ⟨h4, hb⟩ := hc.resolve_left (by simpa using hk)
  exact hn.elim (Nat.not_lt.mpr h4) (by simp [hb])

variable (h : Runs s src 0x0C 0 c)

include h

theorem partition_refusesCode (hk : c.keepsCode = false) (hc : 4 < c.get 0 1 ∨ (s.taken src).codeBlocked (c.get 0 1) = true) :
    Refuses s (.partition src) src 1 :=
  command_refuses h (rfl : _ = execPartition src s) (if_pos ⟨(by rw [hk]; rfl : (!c.keepsCode) = true), hc⟩)

variable (hc : c.keepsCode = true ∨ (c.get 0 1 ≤ 4 ∧ (s.taken src).codeBlocked (c.get 0 1) = false))

include hc

theorem partition_refusesPlace (he : c.expert = true) (hp : ((s.taken src).formedBy c).placesIn c = false) : Refuses s (.partition src) src 1 :=
  command_refuses h (rfl : _ = execPartition src s) ((if_neg (partition_accepts hc)).trans (if_pos ⟨he, placesIn_eq_false.mp hp⟩))

theorem partition_ends (hp : c.expert = true → ((s.taken src).formedBy c).placesIn c = true) :
    Ends s (.partition src) src
      (if (((s.taken src).formedBy c).partitioned c).parts.map (fun q => q.2.regs.boostctl) = (s.taken src).parts.map (fun q => q.2.regs.boostctl) then
        ((s.taken src).formedBy c).partitioned c else (((s.taken src).formedBy c).partitioned c).measureSettings) [] :=
  command_ends h (rfl : _ = execPartition src s) ((if_neg (partition_accepts hc)).trans
    (if_neg fun ⟨he, hn⟩ => Bool.false_ne_true ((placesIn_eq_false.mpr hn).symm.trans (hp he))))

end

/-- Settles O48: the shared checks for every command by name, and the four commands by the answers of their bodies. Points that the manual leaves open
follow the model's reading (logs 13, 29 and 46). -/
theorem deviceCommands : Obligations.DeviceCommands := by
  unfold Obligations.DeviceCommands
  refine fun s src c => ⟨fun i op sub st hn hg hr => ?shared, fun i op sub hn hg => ?idle,
    fun h => ⟨createVdev_refused h, createVdev_unsafe h, fun hb hu => ?creates⟩,
    destroyVdev_ends, fun v h hv => ⟨fun w => carve_preset h hv, carve_refusesPreset h hv, carve_refusesGuest h hv, carve_refusesLimits h hv, carve_ends h hv⟩,
    fun h => ⟨partition_refusesCode h, fun hc => ⟨partition_refusesPlace h hc, partition_ends h hc⟩⟩⟩
  case shared =>
    obtain ⟨body, hbody⟩ := exec_command hn
    exact (hbody s).trans (runCommand_refused hg hr)
  case idle =>
    obtain ⟨body, hbody⟩ := exec_command hn
    exact (hbody s).trans (runCommand_idle hg)
  case creates =>
    exact ⟨_, (s.taken src).createdVdev c.descriptor, rfl, rfl, rfl, rfl, createdVdev_key _ _, rfl, rfl, rfl, rfl, rfl, createVdev_ends h hb hu⟩

end Sys2Proof.Machine


/-! O11: the check registers (R389). CKFOLD, CKCLR and CKTEST are functions of their group's registers. -/

namespace Sys2Proof.Machine

section

variable {s : State} {x : Issue} {g : Group} {a : BitVec 7}

/-- What CKTEST answers: the fault that it takes, when it takes one. -/
def cktestFault (r : Regs) (a : BitVec 7) (int : Bool) : Option FaultCode :=
  if int then (if r.k0 = r.k1 then none else some .checkFail)
  else if badTolerance (r.sc64 a.toNat) then some .illegalOperand
  else if pairClose r.k0 r.k1 (r.sc64 a.toNat) then none else some .checkFail

theorem cktestFault_exact {r : Regs} : cktestFault r a true = if r.k0 = r.k1 then none else some .checkFail := rfl

theorem cktestFault_close {r : Regs} : cktestFault r a false = if badTolerance (r.sc64 a.toNat) then some .illegalOperand
    else if pairClose r.k0 r.k1 (r.sc64 a.toNat) then none else some .checkFail := rfl

theorem exec_cktest {int : Bool} : exec (.cktest a int) s = issueRegs s (.cktest a int) fun _ r =>
    match cktestFault r a int with
    | none => .ok r
    | some c => .error c := by
  change execCktest a int s = _
  refine congrArg (issueRegs s _) (funext fun _ => funext fun r => ?_)
  unfold cktestFault
  dsimp only
  split_ifs <;> rfl

theorem cktest_completes {int : Bool} (h : Issues s (.cktest a int) x g) (hd : Undisturbed s g) (hf : cktestFault g.regs a int = none) :
    Completes s (.cktest a int) x g g.regs := issueRegs_completes h hd exec_cktest (by rw [hf])

theorem cktest_traps {int : Bool} {c : FaultCode} (h : Issues s (.cktest a int) x g) (hf : cktestFault g.regs a int = some c) :
    Traps s (.cktest a int) x g (x.trap c) := issueRegs_traps h exec_cktest (by rw [hf])

end

/-- Settles O11: each instruction as a function of its group's registers, CKTEST by the fault that it answers. -/
theorem checkRegisters : Obligations.CheckRegisters := by
  unfold Obligations.CheckRegisters
  intro s x g d a int hd
  refine ⟨fun h => ?fold, fun h => ?clear, fun h he => ?equal, fun h he => ?unequal, fun h hb => ?bad, fun h hb hc => ?close, fun h hb hc => ?far⟩
  case fold => exact issueRegs_completes h hd (rfl : _ = execCkfold d a int s) rfl
  case clear => exact issueRegs_completes h hd (rfl : _ = execCkclr s) rfl
  case equal => exact cktest_completes h hd (cktestFault_exact.trans (if_pos he))
  case unequal => exact cktest_traps h (cktestFault_exact.trans (if_neg he))
  case bad => exact cktest_traps h (cktestFault_close.trans (if_pos hb))
  case close => exact cktest_completes h hd (cktestFault_close.trans ((if_neg (Bool.eq_false_iff.mp hb)).trans (if_pos hc)))
  case far => exact cktest_traps h (cktestFault_close.trans ((if_neg (Bool.eq_false_iff.mp hb)).trans (if_neg (Bool.eq_false_iff.mp hc))))

end Sys2Proof.Machine


/-! O23: FENCE (R259, R260), by its order and by what it waits for. -/

namespace Sys2Proof.Machine

section

variable {s : State} {x : Issue} {g : Group} {own : Bool} {i : BitVec 5}

theorem fenceOrder_eq (gm : BitVec 32) : fenceOrder gm own i = if own then i.toNat / 8 else memOrder gm := by
  unfold fenceOrder
  congr 1
  simp only [BitVec.extractLsb'_toNat, Nat.shiftRight_eq_div_pow]
  omega

/-- The scope of a FENCE: that of its own field, or of gmode (R259). -/
def fenceScope (gm : BitVec 32) (own : Bool) (i : BitVec 5) : Nat := if own then (i.extractLsb' 0 3).toNat else memScope gm

theorem fenceScope_eq (gm : BitVec 32) : fenceScope gm own i = if own then i.toNat % 8 else memScope gm := by
  simp [fenceScope, BitVec.extractLsb'_toNat]

theorem releases_iff {ord : Nat} : releases ord = decide (ord = 2 ∨ ord = 3) := by
  simp [releases, Bool.decide_or, beq_eq_decide]

theorem acquires_iff {ord : Nat} : acquires ord = true ↔ ord = 1 ∨ ord = 3 := by simp [acquires]

/-- What a FENCE waits for: the accesses of its group, and the stores under a lease when it releases them. -/
def State.fenceWaits (s : State) (x : Issue) (g : Group) (ord scope : Nat) : Bool :=
  (g.ops.any fun e => !e.done && e.isAccess) || (releases ord && decide (2 ≤ scope) && s.pathWaits x.core)

/-- The release and the acquire of a FENCE, in this order. -/
def State.fenced (s : State) (x : Issue) (ord scope : Nat) : State :=
  let s1 := if releases ord then s.releaseAt x.core x.tid scope else s
  (if acquires ord then s1.acquireAt x.core scope else s1).departLater x

theorem exec_fence : exec (.fence own i) s = issue s (.fence own i) fun s x g =>
    if fenceOrder g.regs.gmode own i = 0 then .done s
    else if s.fenceWaits x g (fenceOrder g.regs.gmode own i) (fenceScope g.regs.gmode own i) then
      .wait (.order ((g.ops.filter fun e => !e.done && e.isAccess).map (·.serial)))
    else .done (s.fenced x (fenceOrder g.regs.gmode own i) (fenceScope g.regs.gmode own i)) := rfl

variable (h : Issues s (.fence own i) x g)

include h

theorem fence_relaxed (hd : Undisturbed s g) (ho : fenceOrder g.regs.gmode own i = 0) : Completes s (.fence own i) x g g.regs :=
  issue_completes h hd exec_fence (if_pos ho) (Apart.refl _ _) (openIssue_find (issuing_group h.issuing).1)

variable (ho : fenceOrder g.regs.gmode own i ≠ 0)

include ho

theorem fence_waits
    (hw : (s.openIssue x).fenceWaits x g (fenceOrder g.regs.gmode own i) (fenceScope g.regs.gmode own i) = true) :
    Waits s (.fence own i) x (.order ((g.ops.filter fun e => !e.done && e.isAccess).map (·.serial))) :=
  issue_waits h exec_fence ((if_neg ho).trans (if_pos hw))

theorem fence_steps
    (hw : (s.openIssue x).fenceWaits x g (fenceOrder g.regs.gmode own i) (fenceScope g.regs.gmode own i) = false) :
    Steps s (.fence own i) x g ((s.openIssue x).fenced x (fenceOrder g.regs.gmode own i) (fenceScope g.regs.gmode own i)) :=
  issue_steps h exec_fence ((if_neg ho).trans (if_neg (Bool.eq_false_iff.mp hw)))

end

/-- Settles O23: a FENCE by its order and by what it waits for. Points that the manual leaves open follow the model's reading (log 9). -/
theorem fenceResult : Obligations.FenceResult := by
  unfold Obligations.FenceResult
  intro s x g own i h
  simp only [← releases_iff, ← acquires_iff, ← fenceOrder_eq, ← fenceScope_eq]
  exact ⟨fun ho hd => fence_relaxed h hd ho, fence_waits h, fence_steps h⟩

end Sys2Proof.Machine


/-! O25: BAR and BARC (R290 to R292), by the participants of the barrier and by what the group waits for. -/

namespace Sys2Proof.Machine

section

variable {s : State} {x : Issue} {g : Group} {m : Bool} {a : BitVec 7} {b : BitVec 2} {t : Team}

/-- The groups that take part in the barrier of a BAR (R290). -/
def barShown (g : Group) (t : Team) (m : Bool) (a : BitVec 7) : BitVec 32 :=
  (if m then g.regs.sc a.toNat else BitVec.allOnes 32) &&& allGroups t.id.groups

theorem flow_waits {i : Instr} {body} {w : Wait} (h : Issues s i x g) (he : exec i s = issueFlow s i body)
    (hb : body (s.openIssue x) x g = .wait w) : Waits s i x w := he.trans (issueFlow_wait h hb)

section

variable (h : Issues s (.bar m a b) x g) (ht : Store.find (s.openIssue x).teams x.tid = some t)

include h ht

theorem bar_leftOut (hn : barShown g t m a &&& groupBit g.number = 0) : Traps s (.bar m a b) x g (x.trap .illegalOperand) :=
  flow_traps h (rfl : _ = execBar m a b s) (by simp only [ht]; exact if_pos hn)

variable (hn : barShown g t m a &&& groupBit g.number ≠ 0)

include hn

theorem bar_waits (hw : g.mustWait true = true) : Waits s (.bar m a b) x (.order (g.before true)) :=
  flow_waits h (rfl : _ = execBar m a b s) (by simp only [ht]; exact (if_neg hn).trans (if_pos hw))

theorem bar_holds (hw : g.mustWait true = false) : Moves s (.bar m a b) x g
    (((s.openIssue x).modFlow x.gid fun f => f.setSlot x.slot { (g.flow.slot x.slot) with hold := .bar b.toNat (barShown g t m a) }).afterFlow x.gid) :=
  flow_done h (rfl : _ = execBar m a b s) (by simp only [ht]; exact (if_neg hn).trans (if_neg (Bool.eq_false_iff.mp hw)))

end

theorem barc_waits (h : Issues s .barc x g) (hw : (g.mustWait true || (s.openIssue x).pathWaits x.core) = true) :
    Waits s .barc x (.order (g.before true)) := flow_waits h (rfl : _ = execBarc s) (if_pos hw)

theorem barc_holds (h : Issues s .barc x g) (hw : (g.mustWait true || (s.openIssue x).pathWaits x.core) = false) : Moves s .barc x g
    (((s.openIssue x).modFlow x.gid fun f => f.setSlot x.slot { (g.flow.slot x.slot) with hold := .barc }).afterFlow x.gid) :=
  flow_done h (rfl : _ = execBarc s) (if_neg (Bool.eq_false_iff.mp hw))

end

/-- Settles O25: BAR by its participants and then by what the group waits for, BARC by the latter. Points that the manual leaves open follow the model's
reading (log 21). -/
theorem barrierResult : Obligations.BarrierResult := by
  unfold Obligations.BarrierResult
  exact fun s x g m a b t ht => ⟨fun h => bar_leftOut h ht, fun h => bar_waits h ht, fun h => bar_holds h ht, barc_waits, barc_holds⟩

end Sys2Proof.Machine


/-! O29: WAITC (R295), by the operations of its class and by their status. -/

namespace Sys2Proof.Machine

section

variable {s : State} {x : Issue} {g : Group} {k : BitVec 2} {sc : BitVec 3} {n : BitVec 8} (h : Issues s (.waitc k sc n) x g)

include h

theorem waitc_waits (hc : n.toNat < g.eng.count k.toNat) : Waits s (.waitc k sc n) x (.waitc k.toNat n.toNat sc.toNat) :=
  issue_waits h (rfl : _ = execWaitc k sc n s) (if_pos hc)

variable (hc : g.eng.count k.toNat ≤ n.toNat)

include hc

theorem waitc_traps {status} (hs : Store.find g.eng.f k.toNat = some status) :
    Traps s (.waitc k sc n) x g { x.trap .engineFault with aux1 := status, clears := some k.toNat } :=
  issue_traps h (rfl : _ = execWaitc k sc n s) ((if_neg (Nat.not_lt.mpr hc)).trans (by simp only [hs]))

theorem waitc_acquires (hs : Store.find g.eng.f k.toNat = none) :
    Steps s (.waitc k sc n) x g (((s.openIssue x).acquireAt x.core sc.toNat).departLater x) :=
  issue_steps h (rfl : _ = execWaitc k sc n s) ((if_neg (Nat.not_lt.mpr hc)).trans (by simp only [hs]))

end

/-- Settles O29: WAITC by the count and then by the status of its class. -/
theorem waitCountResult : Obligations.WaitCountResult := by
  unfold Obligations.WaitCountResult
  exact fun s x g k sc n h => ⟨waitc_waits h, fun status hc => waitc_traps h hc, waitc_acquires h⟩

end Sys2Proof.Machine


/-! O42: ECALL, ERET and TLBI (R337, R400, R401). ECALL and ERET change their group's slots and its firmware frame alone. -/

namespace Sys2Proof.Machine

/-- The windows that an issue counts are the group's own: no quadrant changes its partition. -/
theorem openIssue_partOfCore (s : State) (x : Issue) : (s.openIssue x).partOfCore = s.partOfCore := by
  funext c
  simp [State.partOfCore, State.partOfQuad, State.openIssue, State.modOps]

section

variable {s : State} {x : Issue} {g : Group}

section

variable {i : BitVec 11} (h : Issues s (.ecall i) x g)

include h

theorem ecall_waits (ho : (g.ops.any fun o => !o.done) = true) :
    Waits s (.ecall i) x (.order ((g.ops.filter fun o => !o.done).map (·.serial))) :=
  flow_waits h (rfl : _ = execEcall i s) (if_pos ho)

theorem ecall_enters (hd : Undisturbed s g) (ho : (g.ops.any fun o => !o.done) = false) : CompletesAs s (.ecall i) x g g.regs
    { g.flow.setSlot x.slot { g.flow.slot x.slot with pc := Config.firmwareEntry i.toNat, readyAt := x.clk + 8 } with
      fw := some { service := i.toNat, resume := x.pc + 4, s0 := g.flow.s0, s1 := g.flow.s1, slot := x.slot, fresh := true } } :=
  group_completes h hd (rfl : _ = execEcall i s) (if_neg (Bool.eq_false_iff.mp ho)) (Apart.modGroup _ _ _)
    (by simp [State.modFlow, openIssue_find (issuing_group h.issuing).1])

end

/-- The slots to which ERET goes back. -/
def Flow.fwBack (f : Flow) (w : FwFrame) (clk : Nat) : Flow :=
  let back := { f with s0 := w.s0, s1 := w.s1, fw := none }
  back.setSlot w.slot { back.slot w.slot with pc := w.resume, readyAt := clk + 8 }

theorem eret_returns {w : FwFrame} (h : Issues s .eret x g) (hd : Undisturbed s g) (hw : g.flow.fw = some w) :
    CompletesAs s .eret x g g.regs (g.flow.fwBack w x.clk) :=
  group_completes (s1 := (s.openIssue x).modFlow x.gid fun f => f.fwBack w x.clk) h hd (rfl : _ = execEret s) (by simp only [hw]; rfl) (Apart.modGroup _ _ _)
    (by simp [State.modFlow, openIssue_find (issuing_group h.issuing).1])

theorem eret_privileged (h : s.issuing .eret = some (x, g)) (hw : g.flow.fw = none) (hr : g.flow.recipe = none) :
    Traps s .eret x g (x.trap .privileged) := refused_traps h (precheck_privileged hr rfl hw) rfl

variable {a : BitVec 7} {k : BitVec 3}

/-- The device of which a TLBI drops translations. -/
def tlbiDevice (g : Group) (a : BitVec 7) : Nat := (g.regs.sc (a.toNat + 1)).toNat / 2 ^ 24

/-- The state without the translations that a TLBI names. -/
def State.tlbiDrops (s : State) (x : Issue) (g : Group) (a : BitVec 7) (k : BitVec 3) : State :=
  s.invalidated (s.partOfCore x.core) (tlbiDevice g a) k.toNat (if k.toNat = 3 then (g.regs.sc a.toNat).toNat else g.regs.scAddr a.toNat)

section

variable (h : Issues s (.tlbi a k) x g)

include h

theorem tlbi_waits (hk : k.toNat ≠ 3) (hu : ((s.openIssue x).tlbiDrops x g a k).unsettled (tlbiDevice g a) = true) :
    Waits s (.tlbi a k) x .stall :=
  issue_waits h (rfl : _ = execTlbi a k s) (if_pos ⟨hk, hu⟩)

theorem tlbi_steps (hu : k.toNat = 3 ∨ ((s.openIssue x).tlbiDrops x g a k).unsettled (tlbiDevice g a) = false) :
    Steps s (.tlbi a k) x g ((s.openIssue x).tlbiDrops x g a k) :=
  issue_steps h (rfl : _ = execTlbi a k s) (if_neg fun ⟨hk, hn⟩ => hu.elim hk fun hf => Bool.false_ne_true (hf.symm.trans hn))

end

end

/-- Settles O42: ECALL by the operations of its group, ERET by the frame of its group, TLBI by what its device has in flight. Points that the manual leaves
open follow the model's reading (logs 14 and 23). -/
theorem firmwareCalls : Obligations.FirmwareCalls := by
  unfold Obligations.FirmwareCalls
  intro s x g i a k hd
  rw [← openIssue_partOfCore s x]
  exact ⟨ecall_waits, fun h => ecall_enters h hd, fun w h => eret_returns h hd, eret_privileged, fun h => ⟨tlbi_steps h, tlbi_waits h⟩⟩

end Sys2Proof.Machine


/-! O24: MCST (R262, R263, R289): what it waits for, how it ends at its issue, and the write at a destination. -/

namespace Sys2Proof.Machine

theorem waitFor_full {cls : Nat} {ops : List Nat} : waitFor true cls ops = .full cls := rfl
theorem waitFor_room {cls : Nat} {ops : List Nat} : waitFor false cls ops = .order ops := rfl

/-- The ranks that a MCST names. -/
def mcstRanks (g : Group) (a : BitVec 7) : Nat := (g.regs.sc (a.toNat + 1)).toNat % 4096

/-- The offset at which a MCST writes (R262). -/
def mcstOff (g : Group) (a : BitVec 7) (z : BitVec 3) (f : BitVec 4) : Int :=
  (((g.regs.sc a.toNat).extractLsb' 0 21).toNat : Int) + offBytes f (sizeBytes z)

theorem mcstOff_eq (g : Group) (a : BitVec 7) (z : BitVec 3) (f : BitVec 4) :
    mcstOff g a z f = ((g.regs.sc a.toNat).toNat % 2 ^ 21 : Nat) + f.toInt * sizeBytes z := by
  simp [mcstOff, offBytes, BitVec.extractLsb'_toNat]

/-- What the destinations of a MCST touch, lane by lane. -/
def State.mcstTouches {α : Type} (s : State) (x : Issue) (g : Group) (t : Team) (a : BitVec 7) (z : BitVec 3) (f : BitVec 4)
    (place : Nat → Nat → Nat → List α) : List α :=
  (lanesIn (BitVec.ofNat 32 (mcstRanks g a))).flatMap fun r => match s.peerTeam t.id r with
    | some u => (lanesIn x.act).flatMap fun k => place u.1 (mcstOff g a z f + k * sizeBytes z).toNat (sizeBytes z)
    | none => []

/-- The operations for which a MCST waits. -/
def State.mcstAfter (s : State) (x : Issue) (g : Group) (t : Team) (a : BitVec 7) (z : BitVec 3) (f : BitVec 4) : List Nat :=
  let places := s.mcstTouches x g t a z f s.stashPlaces
  (if x.act = 0 then [] else s.before x.gid g { serial := g.issued, writes := true, releases := releases (memOrder g.regs.gmode), places := places }) ++
    s.engineHolders x.gid (s.mcstTouches x g t a z f s.stashLines) true

/-- The operation of a MCST. -/
def mcstOp (x : Issue) (g : Group) (d : BitVec 7) (la : BitVec 4) (z : BitVec 3) : LongOp :=
  { newOp x g .mcst la [⟨.V, d.toNat, sizeRegs z⟩] with sz := z.toNat, dest := d.toNat, dueClk := x.clk + 4 }

/-- The stores that a MCST brings to each of its destinations. -/
def mcstStores (x : Issue) (g : Group) (d a : BitVec 7) (z : BitVec 3) (f : BitVec 4) : List LaneAccess :=
  (lanesIn x.act).map fun k =>
    { lane := k, addr := (mcstOff g a z f + k * sizeBytes z).toNat, data := storeBytes (sizeBytes z) (g.regs.laneWords d.toNat (sizeRegs z) k) }

/-- A group that has begun a MCST. -/
def State.mcstBegun (s : State) (x : Issue) (g : Group) : State := (s.setUnrew x.gid).modEng x.gid fun e => e.begin 2 g.issued

section

variable {s : State} {x : Issue} {g : Group} {d a : BitVec 7} {la f : BitVec 4} {z : BitVec 3} {t : Team}

theorem exec_mcst : exec (.mcst d a la z f) s = issue s (.mcst d a la z f) fun s x g => match Store.find s.teams x.tid with
    | none => .done s
    | some t =>
      if 255 ≤ g.eng.count 2 || !(s.mcstAfter x g t a z f).isEmpty ||
          (releases (memOrder g.regs.gmode) && x.act != 0 && s.pathWaits x.core) then
        .wait (waitFor (decide (255 ≤ g.eng.count 2)) 2 (s.mcstAfter x g t a z f))
      else match mcstFault t.id (sizeBytes z) (mcstOff g a z f) (g.regs.sc a.toNat) (mcstRanks g a) x.act with
        | some c => .done ((s.mcstBegun x g).modOps x.gid fun q => q ++ [{ mcstOp x g d la z with failure := some (c, 0) }])
        | none =>
          if mcstRanks g a = 0 ∨ x.act = 0 then
            .done (((s.mcstBegun x g).modOps x.gid fun q => q ++ [{ mcstOp x g d la z with done := true }]).finishWork x.gid 2 g.issued)
          else .done ((if releases (memOrder g.regs.gmode) then (s.mcstBegun x g).releaseAt x.core x.tid 2 else s.mcstBegun x g).modOps x.gid fun q =>
            q ++ [{ mcstOp x g d la z with destMask := BitVec.ofNat 32 (mcstRanks g a), accesses := mcstStores x g d a z f }]) := rfl

variable (h : Issues s (.mcst d a la z f) x g) (ht : Store.find (s.openIssue x).teams x.tid = some t)

include h ht

theorem mcst_full (hc : decide (255 ≤ g.eng.count 2) = true) : Waits s (.mcst d a la z f) x (.full 2) :=
  issue_waits h exec_mcst (by simp only [ht, hc, Bool.true_or, if_true, waitFor_full])

variable (hc : decide (255 ≤ g.eng.count 2) = false)

include hc

theorem mcst_waits (ha : (s.openIssue x).mcstAfter x g t a z f ≠ [] ∨
      (releases (memOrder g.regs.gmode) = true ∧ x.act ≠ 0 ∧ (s.openIssue x).pathWaits x.core = true)) :
    Waits s (.mcst d a la z f) x (.order ((s.openIssue x).mcstAfter x g t a z f)) :=
  issue_waits h exec_mcst (by
    simp only [ht, hc, Bool.false_or, waitFor_room]
    refine if_pos ?_
    rcases ha with ha | ⟨hr, hx, hp⟩
    · simp [ha]
    · simpa [hr, hp] using Or.inr hx)

variable (ha : ¬ ((s.openIssue x).mcstAfter x g t a z f ≠ [] ∨
  (releases (memOrder g.regs.gmode) = true ∧ x.act ≠ 0 ∧ (s.openIssue x).pathWaits x.core = true)))

include ha

omit h ht in
theorem mcst_goesOn : ¬ (decide (255 ≤ g.eng.count 2) || !((s.openIssue x).mcstAfter x g t a z f).isEmpty ||
    (releases (memOrder g.regs.gmode) && x.act != 0 && (s.openIssue x).pathWaits x.core)) = true := by
  simpa [hc, and_assoc] using ha

theorem mcst_fails {c : FaultCode}
    (hf : mcstFault t.id (sizeBytes z) (mcstOff g a z f) (g.regs.sc a.toNat) (mcstRanks g a) x.act = some c) :
    Steps s (.mcst d a la z f) x g
      (((s.openIssue x).mcstBegun x g).modOps x.gid fun q => q ++ [{ mcstOp x g d la z with failure := some (c, 0) }]) :=
  issue_steps h exec_mcst (by simp only [ht, if_neg (mcst_goesOn hc ha), hf])

variable (hf : mcstFault t.id (sizeBytes z) (mcstOff g a z f) (g.regs.sc a.toNat) (mcstRanks g a) x.act = none)

include hf

theorem mcst_ends (he : mcstRanks g a = 0 ∨ x.act = 0) : Steps s (.mcst d a la z f) x g
    ((((s.openIssue x).mcstBegun x g).modOps x.gid fun q => q ++ [{ mcstOp x g d la z with done := true }]).finishWork x.gid 2 g.issued) :=
  issue_steps h exec_mcst (by simp only [ht, if_neg (mcst_goesOn hc ha), hf, if_pos he])

theorem mcst_opens (hm : mcstRanks g a ≠ 0) (hx : x.act ≠ 0) : Steps s (.mcst d a la z f) x g
    ((if releases (memOrder g.regs.gmode) then ((s.openIssue x).mcstBegun x g).releaseAt x.core x.tid 2 else (s.openIssue x).mcstBegun x g).modOps
      x.gid fun q => q ++ [{ mcstOp x g d la z with destMask := BitVec.ofNat 32 (mcstRanks g a), accesses := mcstStores x g d a z f }]) :=
  issue_steps h exec_mcst (by simp only [ht, if_neg (mcst_goesOn hc ha), hf, if_neg (not_or.mpr ⟨hm, hx⟩)])

end

/-! ### The write at a destination -/

/-- What the write of a MCST at a destination leaves, with the fault that it met. -/
def State.mcstWritten (s : State) (gid rank : Nat) (o : LongOp) (bad : Option (FaultCode × Nat)) : State :=
  let left := o.destMask &&& ~~~BitVec.ofNat 32 (2 ^ rank)
  let s2 := match bad with
    | some (c, addr) => s.engineFault gid 2 c (BitVec.ofNat 32 c.code) o addr
    | none => s
  let s3 := s2.modOp gid o.serial fun o => { o with destMask := left }
  if left = 0 then s3.finishWork gid 2 o.serial else s3

section

variable {s s1 : State} {gid rank tid : Nat} {g : Group} {o : LongOp} {rest : List LongOp} {t u : Team} {bad : Option (FaultCode × Nat)}

theorem mcstWrite_at (ht : Store.find s.teams g.tid = some t) (hu : s.peerTeam t.id rank = some (tid, u)) :
    s.mcstWrite g o rank = s.mcstLanes tid o.bytes (fun l => o.covers (128 * l) 128) o.accesses := by
  simp only [State.mcstWrite, ht, Option.bind_some, hu, Option.map_some]

theorem exec_mcstDestinationWrite (hg : Store.find s.groups gid = some g)
    (ho : g.ops.filter (s.mcstOpen g (s.core (coreOf gid)).clk rank) = o :: rest) (hw : s.mcstWrite g o rank = some (s1, bad)) :
    exec (.mcstDestinationWrite gid rank) s = .next (s1.mcstWritten gid rank o bad) := by
  change execMcstDestinationWrite gid rank s = _
  simp only [execMcstDestinationWrite, hg, ho, List.findSome?_cons, hw, Option.map_some]
  rfl

end

/-- Settles O24: MCST by what it waits for, its fault and its destinations; the write at the first destination that is due. Points that the manual leaves
open follow the model's reading (logs 20 and 26). -/
theorem multicastResult : Obligations.MulticastResult := by
  unfold Obligations.MulticastResult
  refine ⟨fun s x g d a la f z t h ht => ?issue, fun s s1 gid rank tid g o rest t u bad hg ho ht hu hw => ?write⟩
  case issue =>
    simp only [← mcstOff_eq]
    exact ⟨mcst_full h ht, mcst_waits h ht, fun c hc ha => mcst_fails h ht hc ha, mcst_ends h ht, mcst_opens h ht⟩
  case write => exact exec_mcstDestinationWrite hg ho ((mcstWrite_at ht hu).trans hw)

end Sys2Proof.Machine


/-! O27: SIGWAIT (R293, R305, R395): the place of its word, what it waits for, and what its event does when the word is read. -/

namespace Sys2Proof.Machine

/-- The operation of a SIGWAIT. -/
def sigwaitOp (x : Issue) (g : Group) (d : BitVec 7) (l : BitVec 4) : LongOp :=
  { newOp x g .sigwait l [⟨.S, d.toNat, 1⟩] with dest := d.toNat, threshold := g.regs.sc d.toNat, dueClk := x.clk }

/-- The operation of a SIGWAIT by the place of its word: it has failed when there is none. -/
def LongOp.at (o : LongOp) : Except FaultCode (Nat × Nat) → LongOp
  | .error c => { o with failure := some (c, 0) }
  | .ok (t, k) => { o with accesses := [{ lane := 0, addr := stashAddr t k }] }

/-- The place of a SIGWAIT's word. -/
def State.sigwaitTarget (s : State) (x : Issue) (g : Group) (a : BitVec 7) (f : BitVec 4) : Except FaultCode (Nat × Nat) :=
  if !offsetAligned (g.regs.sc a.toNat) (offBytes f 4) 4 then .error .misaligned else s.stashTarget x.tid (g.regs.sc a.toNat) (offBytes f 4) 4

/-- The state that a SIGWAIT in a tile stamps when its word has not met its threshold (R395). -/
def State.sigwaitStamped (s : State) (x : Issue) (g : Group) (d : BitVec 7) (o : LongOp) : State :=
  match g.eng.tag, o.accesses with
  | some _, a :: _ =>
    if signalMet (BitVec.ofNat 32 (numOf (s.stashBytes (a.addr / 2 ^ 32) (a.addr % 2 ^ 32) 4))) (g.regs.sc d.toNat) then s
    else s.stampPoint x.core g.eng.tagSlot 3
  | _, _ => s

theorem engineHolders_nil {s : State} {gid : Nat} {store : Bool} : s.engineHolders gid [] store = [] := rfl

theorem stashAddr_div {t k : Nat} (hk : k < 2 ^ 32) : stashAddr t k / 2 ^ 32 = t := by simp only [stashAddr]; omega

theorem stashAddr_mod {t k : Nat} (hk : k < 2 ^ 32) : stashAddr t k % 2 ^ 32 = k := by simp only [stashAddr]; omega

section

variable {s : State} {x : Issue} {g : Group} {d a : BitVec 7} {l f : BitVec 4}

theorem sigwaitTarget_aligned (hm : offsetAligned (g.regs.sc a.toNat) (offBytes f 4) 4 = true) :
    s.sigwaitTarget x g a f = s.stashTarget x.tid (g.regs.sc a.toNat) (offBytes f 4) 4 := if_neg (by simp [hm])

theorem exec_sigwait : exec (.sigwait d a l f) s = issue s (.sigwait d a l f) fun s x g =>
    match s.engineHolders x.gid (((sigwaitOp x g d l).at (s.sigwaitTarget x g a f)).accesses.flatMap (s.accessLines 4)) false with
    | h :: hs => .wait (.order (h :: hs))
    | [] => .done ((s.sigwaitStamped x g d ((sigwaitOp x g d l).at (s.sigwaitTarget x g a f))).modOps x.gid fun q =>
        q ++ [(sigwaitOp x g d l).at (s.sigwaitTarget x g a f)]) := by
  change execSigwait d a l f s = _
  unfold execSigwait
  congr 1
  funext s x g
  have ho : (if !offsetAligned (g.regs.sc a.toNat) (offBytes f 4) 4 then { sigwaitOp x g d l with failure := some (.misaligned, 0) }
      else match s.stashTarget x.tid (g.regs.sc a.toNat) (offBytes f 4) 4 with
        | .error c => { sigwaitOp x g d l with failure := some (c, 0) }
        | .ok (t, k) => { sigwaitOp x g d l with accesses := [{ lane := 0, addr := stashAddr t k }] }) =
      (sigwaitOp x g d l).at (s.sigwaitTarget x g a f) := by
    unfold State.sigwaitTarget
    split
    · rfl
    · cases s.stashTarget x.tid (g.regs.sc a.toNat) (offBytes f 4) 4 <;> rfl
  rw [← ho]
  rfl

variable (h : Issues s (.sigwait d a l f) x g)

include h

theorem sigwait_fails {c : FaultCode} (ht : (s.openIssue x).sigwaitTarget x g a f = .error c) : Steps s (.sigwait d a l f) x g
    ((s.openIssue x).modOps x.gid fun q => q ++ [{ sigwaitOp x g d l with failure := some (c, 0) }]) :=
  issue_steps h exec_sigwait (by
    rw [ht]
    unfold State.sigwaitStamped
    cases g.eng.tag <;> rfl)

section

variable {t k : Nat} (ht : (s.openIssue x).sigwaitTarget x g a f = .ok (t, k)) (hk : k < 2 ^ 32)

include ht hk

theorem sigwait_waits (hh : (s.openIssue x).engineHolders x.gid ((s.openIssue x).stashLines t k 4) false ≠ []) :
    Waits s (.sigwait d a l f) x (.order ((s.openIssue x).engineHolders x.gid ((s.openIssue x).stashLines t k 4) false)) :=
  issue_waits h exec_sigwait (by
    obtain ⟨e, es, he⟩ := List.exists_cons_of_ne_nil hh
    simp only [ht, LongOp.at, List.flatMap_cons, List.flatMap_nil, List.append_nil, State.accessLines, stashAddr_div hk, stashAddr_mod hk, he])

theorem sigwait_opens (hh : (s.openIssue x).engineHolders x.gid ((s.openIssue x).stashLines t k 4) false = []) :
    Steps s (.sigwait d a l f) x g
      ((if g.eng.tag = none ∨ signalMet (BitVec.ofNat 32 (numOf ((s.openIssue x).stashBytes t k 4))) (g.regs.sc d.toNat) = true then s.openIssue x
        else (s.openIssue x).stampPoint x.core g.eng.tagSlot 3).modOps x.gid fun q =>
          q ++ [{ sigwaitOp x g d l with accesses := [{ lane := 0, addr := stashAddr t k }] }]) :=
  issue_steps h exec_sigwait (by
    simp only [ht, LongOp.at, List.flatMap_cons, List.flatMap_nil, List.append_nil, State.accessLines, stashAddr_div hk, stashAddr_mod hk, hh,
      State.sigwaitStamped]
    cases g.eng.tag with
    | none => simp only [true_or, if_true]
    | some b => simp only [reduceCtorEq, false_or, stashAddr_div hk, stashAddr_mod hk])

end

end

/-! ### The event of a SIGWAIT -/

section

variable {s s1 : State} {gid : Nat} {g : Group} {o : LongOp} (hg : Store.find s.groups gid = some g)

include hg

theorem exec_sigwaitSatisfied_done (ho : g.sigwaitDone (s.core (coreOf gid)).clk = some o) : exec (.sigwaitSatisfied gid) s = .next
    (((s.modRegs gid fun r => r.setSc o.dest (BitVec.ofNat 32 (o.probing.getD 0))).modOp gid o.serial fun o =>
      { o with done := true, accesses := [] }).acquireAt (coreOf gid) o.scope) := by
  change execSigwaitSatisfied gid s = _
  simp only [execSigwaitSatisfied, hg, ho]

theorem exec_sigwaitSatisfied_read {t k : Nat} {b : List Byte} (hn : g.sigwaitDone (s.core (coreOf gid)).clk = none)
    (ho : s.sigwaitReady gid g (s.core (coreOf gid)).clk = some o) (hw : o.signal = some (t, k)) (hb : s.stashAccess .lds o.gmode t k 4 [] = .ok (b, s1)) :
    exec (.sigwaitSatisfied gid) s = .next (s1.modOp gid o.serial fun p =>
      if signalMet (BitVec.ofNat 32 (numOf b)) o.threshold then
        { p with probing := some (numOf b), dueClk := (s.core (coreOf gid)).clk + 20 + s.farClks g.tid t }
      else { p with dueClk := (s.core (coreOf gid)).clk + 1 }) := by
  change execSigwaitSatisfied gid s = _
  simp only [execSigwaitSatisfied, hg, hn, ho, hw, hb]
  split <;> rfl

end

/-- A word meets a threshold when it is not behind it by the signed difference modulo 2^32. -/
theorem signalMet_eq (w t : Word) : signalMet w t = decide ((w.toNat + 2 ^ 32 - t.toNat) % 2 ^ 32 < 2 ^ 31) := by
  have hw := w.isLt
  have ht := t.isLt
  unfold signalMet
  refine decide_eq_decide.mpr ?_
  rw [BitVec.toInt_eq_toNat_cond, BitVec.toNat_sub]
  split <;> omega

/-- Settles O27: SIGWAIT by the place of its word and the operations that write it, and its event by what is due. Points that the manual leaves open follow
the model's reading (log 21). -/
theorem signalWaitResult : Obligations.SignalWaitResult := by
  unfold Obligations.SignalWaitResult
  refine ⟨⟨fun s x g d a l f h => ⟨fun hm => ?misaligned, fun c hm ht => ?outside, fun t k hm ht hk => ⟨?waits, ?opens⟩⟩,
    fun s gid g hg => ⟨fun o => exec_sigwaitSatisfied_done hg, fun o t k b s1 => exec_sigwaitSatisfied_read hg⟩⟩, signalMet_eq⟩
  case misaligned => exact sigwait_fails h (if_pos (congrArg (!·) hm))
  case outside => exact sigwait_fails h ((sigwaitTarget_aligned hm).trans ht)
  case waits => exact sigwait_waits h ((sigwaitTarget_aligned hm).trans ht) hk
  case opens => exact sigwait_opens h ((sigwaitTarget_aligned hm).trans ht) hk

end Sys2Proof.Machine


/-! O28: SIGADD (R294): its faults, what it waits for, and the addition. -/

namespace Sys2Proof.Machine

/-- The operation of a SIGADD at a place. -/
def sigaddOp (x : Issue) (g : Group) (t k : Nat) : LongOp :=
  { newOp x g (.atoms .add) 0 [] with sz := 4, destMask := 1, accesses := [{ lane := 0, addr := stashAddr t k }] }

/-- The scope of a SIGADD at a place: no wider than the cluster where no window is bound. -/
def State.sigaddScope (s : State) (g : Group) (t k : Nat) : Nat :=
  if s.unbound t k 4 then min 2 (memScope g.regs.gmode) else memScope g.regs.gmode

/-- The operations for which a SIGADD waits. -/
def State.sigaddEarlier (s : State) (x : Issue) (g : Group) (t k : Nat) : List Nat :=
  (g.ops.filter (s.follows g x.gid (sigaddOp x g t k))).map (·.serial) ++ s.engineHolders x.gid (s.stashLines t k 4) true

/-- The path of the core once it has let go what a SIGADD touches. -/
def State.sigaddSettled (s : State) (x : Issue) (g : Group) (t k : Nat) : State := s.settlePath x.core (s.opPlaces g x.gid (sigaddOp x g t k))

/-- Whether a SIGADD to another team finds no room in c3. -/
def sigaddFull (x : Issue) (g : Group) (t : Nat) : Bool := t != x.tid && decide (255 ≤ g.eng.count 3)

/-- Whether a SIGADD waits for other accesses. -/
def State.sigaddHeld (s : State) (x : Issue) (g : Group) (t k : Nat) : Bool :=
  !(s.sigaddEarlier x g t k).isEmpty || (releases (memOrder g.regs.gmode) && decide (2 ≤ s.sigaddScope g t k) && s.pathWaits x.core) ||
    ((s.sigaddSettled x g t k).pathTouches x.core (s.opPlaces g x.gid (sigaddOp x g t k)) && !s.leasedBytes t k 4)

/-- What a SIGADD leaves when it has added. -/
def State.sigaddDone (s : State) (x : Issue) (g : Group) (t scope : Nat) : State :=
  let s3 := if t != x.tid then (s.modEng x.gid fun e => e.begin 3 g.issued).finishWork x.gid 3 g.issued else s
  (if acquires (memOrder g.regs.gmode) then s3.acquireAt x.core scope else s3).setUnrew x.gid

/-- What a SIGADD at a place answers. -/
def State.sigaddAt (s : State) (x : Issue) (g : Group) (b : BitVec 7) (t k : Nat) : Res :=
  if sigaddFull x g t || s.sigaddHeld x g t k then .wait (waitFor (sigaddFull x g t) 3 (s.sigaddEarlier x g t k))
  else if s.leasedBytes t k 4 then .wait .lease
  else match (if releases (memOrder g.regs.gmode) then (s.sigaddSettled x g t k).releaseAt x.core x.tid (s.sigaddScope g t k)
      else s.sigaddSettled x g t k).stashAccess (.atoms .add) g.regs.gmode t k 4 (bytesOf 4 (g.regs.sc b.toNat).toNat) with
    | .error f => x.failed (s.stashVa t k) f (s.lockedAt t k 4)
    | .ok (_, s2) => .done (s2.sigaddDone x g t (s.sigaddScope g t k))

section

variable {s : State} {x : Issue} {g : Group} {a b : BitVec 7}

theorem exec_sigadd : exec (.sigadd a b) s = issue s (.sigadd a b) fun s x g =>
    if !offsetAligned (g.regs.sc a.toNat) 0 4 then .trap (x.trap .misaligned)
    else match s.stashTarget x.tid (g.regs.sc a.toNat) 0 4 with
      | .error c => .trap (x.trap c)
      | .ok (t, k) => s.sigaddAt x g b t k := by
  change execSigadd a b s = _
  simp only [execSigadd, State.sigaddAt, State.sigaddHeld, ← Bool.or_assoc]
  rfl

variable (h : Issues s (.sigadd a b) x g)

include h

theorem sigadd_misaligned (hm : offsetAligned (g.regs.sc a.toNat) 0 4 = false) : Traps s (.sigadd a b) x g (x.trap .misaligned) :=
  issue_traps h exec_sigadd (if_pos (congrArg (!·) hm))

variable (hm : offsetAligned (g.regs.sc a.toNat) 0 4 = true)

include hm

theorem sigadd_outside {c : FaultCode} (ht : (s.openIssue x).stashTarget x.tid (g.regs.sc a.toNat) 0 4 = .error c) :
    Traps s (.sigadd a b) x g (x.trap c) :=
  issue_traps h exec_sigadd (by simp only [hm, Bool.not_true, Bool.false_eq_true, if_false, ht])

variable {t k : Nat} (ht : (s.openIssue x).stashTarget x.tid (g.regs.sc a.toNat) 0 4 = .ok (t, k))

omit h in
include ht in
theorem sigadd_body : (if !offsetAligned (g.regs.sc a.toNat) 0 4 then Res.trap (x.trap .misaligned)
    else match (s.openIssue x).stashTarget x.tid (g.regs.sc a.toNat) 0 4 with
      | .error c => .trap (x.trap c)
      | .ok (t, k) => (s.openIssue x).sigaddAt x g b t k) = (s.openIssue x).sigaddAt x g b t k := by
  simp only [hm, Bool.not_true, Bool.false_eq_true, if_false, ht]

include ht

theorem sigadd_full (hf : sigaddFull x g t = true) : Waits s (.sigadd a b) x (.full 3) :=
  issue_waits h exec_sigadd ((sigadd_body hm ht).trans (by simp only [State.sigaddAt, hf, Bool.true_or, if_true, waitFor_full]))

variable (hf : sigaddFull x g t = false)

include hf

theorem sigadd_held (hh : (s.openIssue x).sigaddHeld x g t k = true) : Waits s (.sigadd a b) x (.order ((s.openIssue x).sigaddEarlier x g t k)) :=
  issue_waits h exec_sigadd ((sigadd_body hm ht).trans (by simp only [State.sigaddAt, hf, hh, Bool.or_true, if_true, waitFor_room]))

variable (hh : (s.openIssue x).sigaddHeld x g t k = false)

include hh

theorem sigadd_leased (hl : (s.openIssue x).leasedBytes t k 4 = true) : Waits s (.sigadd a b) x .lease :=
  issue_waits h exec_sigadd ((sigadd_body hm ht).trans (by simp only [State.sigaddAt, hf, hh, Bool.or_false, Bool.false_eq_true, if_false, hl, if_true]))

theorem sigadd_adds {old : List Byte} {s2 : State} (hl : (s.openIssue x).leasedBytes t k 4 = false)
    (ha : (if releases (memOrder g.regs.gmode) then ((s.openIssue x).sigaddSettled x g t k).releaseAt x.core x.tid ((s.openIssue x).sigaddScope g t k)
      else (s.openIssue x).sigaddSettled x g t k).stashAccess (.atoms .add) g.regs.gmode t k 4 (bytesOf 4 (g.regs.sc b.toNat).toNat) = .ok (old, s2)) :
    Steps s (.sigadd a b) x g (s2.sigaddDone x g t ((s.openIssue x).sigaddScope g t k)) :=
  issue_steps h exec_sigadd ((sigadd_body hm ht).trans (by simp only [State.sigaddAt, hf, hh, Bool.or_false, Bool.false_eq_true, if_false, hl, ha]))

end

/-- Settles O28: SIGADD by the place of its word, what it waits for, and what the addition answers. Points that the manual leaves open follow the model's
reading (logs 20 and 21). -/
theorem signalAddResult : Obligations.SignalAddResult := by
  unfold Obligations.SignalAddResult
  exact fun s x g a b h => ⟨sigadd_misaligned h, fun c hm => sigadd_outside h hm, fun t k hm ht => ⟨sigadd_full h hm ht, sigadd_held h hm ht,
    sigadd_leased h hm ht, fun old s2 hf hh => sigadd_adds h hm ht hf hh⟩⟩

end Sys2Proof.Machine


/-! O33: the start and the completion of a copy (R299, R301, R302, R305). A copy finishes in one of four ways, by its signal and by its fault. -/

namespace Sys2Proof.Machine

/-- A completed copy leaves the queue of its core and c0. -/
def State.copyLeaves (s : State) (core : Nat) (c : CopyOp) : State :=
  (s.modCore core fun k => { k with copies := k.copies.filter fun o => o.serial != c.serial }).finishWork c.gid 0 c.opSerial

/-- The stamp point of the end of a copy (R395). -/
def CopyOp.endPoint (c : CopyOp) : Nat := if c.kind = .cpout ∨ c.kind = .cpst then 7 else 2

/-- A copy that ends with its status, its fault and its signal. -/
def State.copyFinished (s : State) (core : Nat) (c : CopyOp) (sigd : Bool) (code : Option FaultCode) (addr : Nat) : State :=
  let status := statusWord c.bytes sigd ((code.map (·.code)).getD 0)
  let s2 := (s.countTeam c.tid 0x009 c.bytes).modRegs c.gid fun r => r.setSc c.dest status
  let s3 := match code, s.opOf c.gid c.opSerial with
    | some e, some o => s2.engineFault c.gid 0 e status o addr
    | _, _ => s2
  ((s3.stampOp c.gid 0 c.opSerial c.endPoint).copyLeaves core c).modOp c.gid c.opSerial fun o => { o with done := true }

section

variable {s s1 : State} {core : Nat} {c : CopyOp}

theorem exec_copyStart (h : s.copyStarts core = some c) :
    exec (.copyStart core) s = .next (s.modCopy core c.serial fun c => { c with start := some (s.core core).clk }) := by
  change execCopyStart core s = _
  simp only [execCopyStart, h]

variable (h : s.copyCompletes core = some c)

include h

theorem exec_copyComplete_record (hk : c.kind = .recld) : exec (.copyComplete core) s = .next (s.copyLeaves core c) := by
  change execCopyComplete core s = _
  simp only [execCopyComplete, h, hk]
  rfl

/-- What the completion of a copy does that is not a record: it finishes, or its signal is added first. -/
theorem exec_copyComplete (hk : c.kind ≠ .recld) : exec (.copyComplete core) s =
    if !c.sig || c.code.isSome then .next (s.copyFinished core c false c.code c.failAddr)
    else match s.signalAdd c with
      | .ok s1 => .next (s1.copyFinished core c true c.code c.failAddr)
      | .error (.wait, _) => .next (s.modCopy core c.serial fun c => { c with endClk := some ((s.core core).clk - 1) })
      | .error (.page h, a) => .next (s.suspendCopy core c h a)
      | .error (.unpulled _, a) => .next (s.suspendCopy core c true a)
      | .error (.fault e, a) => .next (s.copyFinished core c false (some e) a)
      | .error (.lost site, a) => .next ((s.detect site).copyFinished core c false (some .uncorrectable) a) := by
  change execCopyComplete core s = _
  simp only [execCopyComplete, h]
  obtain ⟨kind⟩ := c
  cases kind with
  | recld => exact absurd rfl hk
  | _ => rfl

variable (hk : c.kind ≠ .recld)

include hk

theorem exec_copyComplete_unsignalled (hs : c.sig = false ∨ c.code.isSome = true) :
    exec (.copyComplete core) s = .next (s.copyFinished core c false c.code c.failAddr) := by
  rw [exec_copyComplete h hk, if_pos]
  rcases hs with hs | hs
  · rw [hs]; rfl
  · rw [hs, Bool.or_true]

variable (hs : c.sig = true) (hc : c.code = none)

include hs hc

omit h hk in
theorem copy_signals : ¬ (!c.sig || c.code.isSome) = true := by simp [hs, hc]

theorem exec_copyComplete_signalled (ha : s.signalAdd c = .ok s1) :
    exec (.copyComplete core) s = .next (s1.copyFinished core c true none c.failAddr) := by
  rw [exec_copyComplete h hk, if_neg (copy_signals hs hc), ha, hc]

theorem exec_copyComplete_signalFault {e : FaultCode} {a : Nat} (ha : s.signalAdd c = .error (.fault e, a)) :
    exec (.copyComplete core) s = .next (s.copyFinished core c false (some e) a) := by
  rw [exec_copyComplete h hk, if_neg (copy_signals hs hc), ha]

theorem exec_copyComplete_signalWaits {a : Nat} (ha : s.signalAdd c = .error (.wait, a)) :
    exec (.copyComplete core) s = .next (s.modCopy core c.serial fun c => { c with endClk := some ((s.core core).clk - 1) }) := by
  rw [exec_copyComplete h hk, if_neg (copy_signals hs hc), ha]

end

/-- Settles O33: the start of a copy, and its completion by its signal and its fault. Points that the manual leaves open follow the model's reading
(log 26). -/
theorem copyEvents : Obligations.CopyEvents := by
  unfold Obligations.CopyEvents
  exact ⟨fun s core c => exec_copyStart, fun s core c h => ⟨exec_copyComplete_record h, exec_copyComplete_unsignalled h,
    fun s1 hk hs hc => exec_copyComplete_signalled h hk hs hc, fun e a hk hs hc => exec_copyComplete_signalFault h hk hs hc,
    fun a hk hs hc => exec_copyComplete_signalWaits h hk hs hc⟩⟩

end Sys2Proof.Machine


/-! O34: COLL (R307 to R309): its checks in their order and the entry in the collective queue, the ends of a collective, and the sum of two members. -/

namespace Sys2Proof.Machine

/-! ### COLL at issue -/

/-- The collective that a descriptor names. -/
def collEntry (x : Issue) (g : Group) (d : BitVec 7) (o : CollOp) (t : Team) (b : List Byte) : Collective :=
  { gid := x.gid, tid := x.tid, opSerial := g.issued, dest := d.toNat, op := o, src := bits (field b 0 8) 55 0, dst := bits (field b 8 8) 55 0,
    count := field b 16 4, comm := field b 20 2, root := field b 22 2, red := bits (field b 24 1) 7 4, etype := bits (field b 24 1) 3 0, core := x.core,
    vdev := t.id.vdev }

theorem collEntry_eq (x : Issue) (g : Group) (d : BitVec 7) (o : CollOp) (t : Team) (b : List Byte) : collEntry x g d o t b =
    { gid := x.gid, tid := x.tid, opSerial := g.issued, dest := d.toNat, op := o, src := field b 0 8 % 2 ^ 56, dst := field b 8 8 % 2 ^ 56,
      count := field b 16 4, comm := field b 20 2, root := field b 22 2, red := field b 24 1 / 16 % 16, etype := field b 24 1 % 16, core := x.core,
      vdev := t.id.vdev } := by
  simp [collEntry, bits]

/-- The number of members of the communicator that a descriptor names. -/
def State.collSize (s : State) (t : Team) (b : List Byte) : Option Nat :=
  ((s.part t.id.part).fab.comms.find? fun kv => kv.2.id == field b 20 2 && kv.2.vdev == t.id.vdev).map (·.2.members.length)

/-- Whether a COLL finds no room in the collective queue of its quadrant or in c2. -/
def State.collFull (s : State) (x : Issue) (g : Group) : Bool :=
  decide (16 ≤ (s.quad (quadOfCore x.core)).colls.length) || decide (255 ≤ g.eng.count 2)

/-- What a COLL leaves that enters the queue: it completes after a free time. -/
def State.collEnters (s : State) (x : Issue) (g : Group) (d : BitVec 7) (l : BitVec 4) (c : Collective) : State :=
  let r := ((s.modQuad (quadOfCore x.core) fun z => { z with colls := z.colls ++ [c] }).modEng x.gid fun e => e.begin 2 g.issued).anyNat (2 ^ 32)
  (r.2.modOps x.gid fun q => q ++ [{ newOp x g .coll l [⟨.S, d.toNat, 1⟩] with dest := d.toNat, dueClk := x.clk + 1 + r.1 }]).setUnrew x.gid

/-- What a COLL answers that has read its descriptor. -/
def State.collRuns (s : State) (x : Issue) (g : Group) (d : BitVec 7) (l : BitVec 4) (o : CollOp) (t : Team) (b : List Byte) : Res :=
  match collFault b o (s.collSize t b) with
  | some c => .trap (x.trap c)
  | none => if s.collFull x g then .wait (.full 2) else .done (s.collEnters x g d l (collEntry x g d o t b))

/-- The operations for which a COLL waits. -/
def State.collAfter (s : State) (x : Issue) (g : Group) (off : Nat) : List Nat :=
  s.before x.gid g { serial := g.issued, reads := true, places := s.stashPlaces x.tid off 64 } ++ s.engineHolders x.gid (s.stashLines x.tid off 64) false

section

variable {s s1 : State} {x : Issue} {g : Group} {d a : BitVec 7} {l : BitVec 4} {o : CollOp} {t : Team}

theorem exec_coll : exec (.coll d a l o) s = issue s (.coll d a l o) fun s x g => match Store.find s.teams x.tid with
    | none => .done s
    | some t =>
      let off := (g.regs.sc a.toNat).toNat
      if off % 64 ≠ 0 then .trap (x.trap .misaligned)
      else if t.id.stashBytes < off + 64 then .trap (x.trap .permission)
      else if !(s.collAfter x g off).isEmpty then .wait (.order (s.collAfter x g off))
      else match (s.settlePath x.core (s.stashPlaces x.tid off 64)).touch x.tid off 64 false with
        | (_, some f) => x.failed (s.stashVa x.tid off) f (s.lockedAt x.tid off 64)
        | (s1, none) => s1.collRuns x g d l o t (s1.stashBytes x.tid off 64) := rfl

variable (h : Issues s (.coll d a l o) x g) (ht : Store.find (s.openIssue x).teams x.tid = some t)

include h ht

theorem coll_misaligned (hm : (g.regs.sc a.toNat).toNat % 64 ≠ 0) : Traps s (.coll d a l o) x g (x.trap .misaligned) :=
  issue_traps h exec_coll (by simp only [ht]; exact if_pos hm)

variable (hm : (g.regs.sc a.toNat).toNat % 64 = 0)

include hm

theorem coll_outside (hb : t.id.stashBytes < (g.regs.sc a.toNat).toNat + 64) : Traps s (.coll d a l o) x g (x.trap .permission) :=
  issue_traps h exec_coll (by simp only [ht]; exact (if_neg (not_not.mpr hm)).trans (if_pos hb))

variable (hb : (g.regs.sc a.toNat).toNat + 64 ≤ t.id.stashBytes)

include hb

theorem coll_waits (ha : (s.openIssue x).collAfter x g (g.regs.sc a.toNat).toNat ≠ []) :
    Waits s (.coll d a l o) x (.order ((s.openIssue x).collAfter x g (g.regs.sc a.toNat).toNat)) :=
  issue_waits h exec_coll (by
    simp only [ht]
    exact (if_neg (not_not.mpr hm)).trans ((if_neg (Nat.not_lt.mpr hb)).trans (if_pos (holders_wait ha))))

variable (ha : (s.openIssue x).collAfter x g (g.regs.sc a.toNat).toNat = [])
  (hr : ((s.openIssue x).settlePath x.core ((s.openIssue x).stashPlaces x.tid (g.regs.sc a.toNat).toNat 64)).touch x.tid (g.regs.sc a.toNat).toNat 64 false =
    (s1, none))

include ha hr

omit h in
theorem coll_body : (match Store.find (s.openIssue x).teams x.tid with
    | none => Res.done (s.openIssue x)
    | some t =>
      let off := (g.regs.sc a.toNat).toNat
      if off % 64 ≠ 0 then .trap (x.trap .misaligned)
      else if t.id.stashBytes < off + 64 then .trap (x.trap .permission)
      else if !((s.openIssue x).collAfter x g off).isEmpty then .wait (.order ((s.openIssue x).collAfter x g off))
      else match ((s.openIssue x).settlePath x.core ((s.openIssue x).stashPlaces x.tid off 64)).touch x.tid off 64 false with
        | (_, some f) => x.failed ((s.openIssue x).stashVa x.tid off) f ((s.openIssue x).lockedAt x.tid off 64)
        | (s1, none) => s1.collRuns x g d l o t (s1.stashBytes x.tid off 64)) =
    s1.collRuns x g d l o t (s1.stashBytes x.tid (g.regs.sc a.toNat).toNat 64) := by
  simp only [ht, hr]
  exact (if_neg (not_not.mpr hm)).trans ((if_neg (Nat.not_lt.mpr hb)).trans (if_neg (no_holder_waits ha)))

theorem coll_faults {c : FaultCode} (hf : collFault (s1.stashBytes x.tid (g.regs.sc a.toNat).toNat 64) o
      (s1.collSize t (s1.stashBytes x.tid (g.regs.sc a.toNat).toNat 64)) = some c) : Traps s (.coll d a l o) x g (x.trap c) :=
  issue_traps h exec_coll ((coll_body ht hm hb ha hr).trans (by simp only [State.collRuns, hf]))

variable (hf : collFault (s1.stashBytes x.tid (g.regs.sc a.toNat).toNat 64) o
  (s1.collSize t (s1.stashBytes x.tid (g.regs.sc a.toNat).toNat 64)) = none)

include hf

theorem coll_full (hq : s1.collFull x g = true) : Waits s (.coll d a l o) x (.full 2) :=
  issue_waits h exec_coll ((coll_body ht hm hb ha hr).trans (by simp only [State.collRuns, hf, hq, if_true]))

theorem coll_enters (hq : s1.collFull x g = false) : Steps s (.coll d a l o) x g
    (s1.collEnters x g d l (collEntry x g d o t (s1.stashBytes x.tid (g.regs.sc a.toNat).toNat 64))) :=
  issue_steps h exec_coll ((coll_body ht hm hb ha hr).trans (by simp only [State.collRuns, hf, hq, Bool.false_eq_true, if_false]))

end

/-! ### The end of a collective -/

section

variable {s s1 : State} {gid : Nat} {c : Collective} (h : s.collOf gid = some c)

include h

theorem exec_collComplete_mismatch : exec (.collComplete gid .mismatch) s = .next (s.endColl c (some .recordInvalid) 0) := by
  change execCollComplete gid .mismatch s = _
  simp only [execCollComplete, h]

theorem exec_collComplete_remoteError : exec (.collComplete gid .remoteError) s = .next (s.endColl c (some .remoteUnreachable) 0) := by
  change execCollComplete gid .remoteError s = _
  simp only [execCollComplete, h]

variable {inputs : List (List Byte)}

theorem exec_collComplete_done (hm : s.collMove c inputs = (s1, none)) : exec (.collComplete gid (.done inputs)) s = .next (s1.endColl c none 0) := by
  change execCollComplete gid (.done inputs) s = _
  simp only [execCollComplete, h, hm]

theorem exec_collComplete_fault {e : FaultCode} {a : Nat} (hm : s.collMove c inputs = (s1, some (.fault e, a))) :
    exec (.collComplete gid (.done inputs)) s = .next (s1.endColl c (some e) a) := by
  change execCollComplete gid (.done inputs) s = _
  simp only [execCollComplete, h, hm]
  rfl

end

/-- The inputs of the members, in ascending rank. -/
def State.memberInputs (s : State) (c : Collective) (inputs : List (List Byte)) (mine : List Byte) : List (List Byte) :=
  (List.range (max 1 (s.collMembers c))).map fun r => if r = s.collRank c then mine else sized (s.collLengths c).1 (inputs.getD r [])

/-- The input of this member of a collective: what it is given, or what it reads. -/
def State.collMine (s : State) (c : Collective) (inputs : List (List Byte)) : Except (AccessFail × Nat) (List Byte × State) :=
  if (inputs.getD (s.collRank c) []).length = (s.collLengths c).1 then .ok (inputs.getD (s.collRank c) [], s)
  else if c.op = .broadcast ∧ c.root ≠ s.collRank c then .ok (sized (s.collLengths c).1 [], s)
  else s.collRead (s.party c.tid c.gid) ((s.collLengths c).1 / 128 + 2) c.src (s.collLengths c).1

/-- A collective writes the result of every member's input to its destination. -/
theorem collMove_writes {s s1 : State} {c : Collective} {inputs : List (List Byte)} {mine : List Byte} (h : s.collMine c inputs = .ok (mine, s1)) :
    s.collMove c inputs = s1.collWrite (s.party c.tid c.gid) ((collResult c (s.collRank c) (s.memberInputs c inputs mine)).length / 128 + 2) c.dst
      (collResult c (s.collRank c) (s.memberInputs c inputs mine)) := by
  have hown : (if (inputs.getD (s.collRank c) []).length = (s.collLengths c).1 then .ok (inputs.getD (s.collRank c) [], s) else s.collOwn c) =
      s.collMine c inputs := rfl
  simp only [State.collMove, hown, h]
  rfl

/-! ### The reduction of two members (R308) -/

theorem length_bytesOf (n x : Nat) : (bytesOf n x).length = n := by
  induction n generalizing x with
  | zero => rfl
  | succ n ih => simp [bytesOf, ih]

theorem numOf_bytesOf (n x : Nat) : numOf (bytesOf n x) = x % 256 ^ n := by
  induction n generalizing x with
  | zero => simp [bytesOf, numOf, Nat.mod_one]
  | succ n ih => simp only [bytesOf, numOf, ih, BitVec.toNat_ofNat, Nat.pow_succ' (m := 256), Nat.mod_mul (a := 256), Nat.reducePow]

/-- The elements of a list of numbers, laid out one after the other. -/
theorem field_flatMap_bytesOf {n k : Nat} {l : List Nat} (hk : k < l.length) : field (l.flatMap (bytesOf n)) (n * k) n = l[k] % 256 ^ n := by
  induction l generalizing k with
  | nil => simp at hk
  | cons v vs ih =>
    have hlen := length_bytesOf n v
    cases k with
    | zero =>
      rw [List.flatMap_cons, field, Nat.mul_zero, List.drop_zero, List.take_left' hlen]
      exact numOf_bytesOf n v
    | succ k =>
      have hdrop : n * (k + 1) = (bytesOf n v).length + n * k := by rw [hlen]; ring
      have := ih (k := k) (by simpa using hk)
      rw [List.flatMap_cons, field, hdrop, List.drop_length_add_append]
      exact this

theorem getElem_elemsOf {sz k : Nat} {b : List Byte} (hk : k < (elemsOf sz b).length) : (elemsOf sz b)[k] = field b (sz * k) sz := by
  simp [elemsOf, upTo]

theorem length_elemsOf (sz : Nat) (b : List Byte) : (elemsOf sz b).length = b.length / sz := by simp [elemsOf, upTo]

/-- The sum of two members of n32 elements, element by element. -/
theorem collResult_sum {c : Collective} {rank k : Nat} {x y : List Byte} (ho : c.op = .allReduce) (he : c.etype = 1) (hr : c.red = 0)
    (hl : x.length = y.length) (hk : k < x.length / 4) :
    field (collResult c rank [x, y]) (4 * k) 4 = (field x (4 * k) 4 + field y (4 * k) 4) % 2 ^ 32 := by
  have hres : collResult c rank [x, y] = (((elemsOf 4 x).zip (elemsOf 4 y)).map fun ab => collStep 1 0 ab.1 ab.2).flatMap (bytesOf 4) := by
    simp [collResult, ho, he, hr, collReduce, collElemSize]
  have hx : k < (elemsOf 4 x).length := by rwa [length_elemsOf]
  have hy : k < (elemsOf 4 y).length := by rwa [length_elemsOf, ← hl]
  rw [hres, field_flatMap_bytesOf (by simp [hx, hy])]
  simp [getElem_elemsOf, collStep]

/-- Settles O34: COLL by its checks in their order, its end by its outcome, and the sum of two members element by element. Points that the manual leaves open
follow the model's reading (logs 8, 19, 20 and 26). -/
theorem collectiveResult : Obligations.CollectiveResult := by
  unfold Obligations.CollectiveResult
  refine ⟨fun s s1 x g d a l o t h ht => ?issue, fun s gid c h => ⟨exec_collComplete_mismatch h, exec_collComplete_remoteError h,
    fun inputs s1 => exec_collComplete_done h, fun inputs s1 e a => exec_collComplete_fault h, fun inputs mine s1 => collMove_writes⟩,
    fun c rank x y ho he hr hl _ k => collResult_sum ho he hr hl⟩
  simp only [← collEntry_eq]
  exact ⟨coll_misaligned h ht, coll_outside h ht, coll_waits h ht, fun hm hb ha hr => ⟨fun c => coll_faults h ht hm hb ha hr, fun hf =>
    ⟨coll_full h ht hm hb ha hr hf, fun hq => ⟨_, coll_enters h ht hm hb ha hr hf hq⟩⟩⟩⟩

end Sys2Proof.Machine


/-! O39: reads of counters, time, wear, life and boost (R382, R383, R385, R391, R392), and the counter reads of the host (R393, R402). -/

namespace Sys2Proof.Machine

theorem openIssue_quad (s : State) (x : Issue) : (s.openIssue x).quad = s.quad := State.quad_congr (by simp [State.openIssue, State.modOps])

section

variable {s : State} {x : Issue} {g : Group} {d a : BitVec 7} {i : BitVec 11} {k : BitVec 3} {f : BitVec 4}

/-- An instruction that reads a value into a pair of scalar registers. -/
theorem pair_completes {i : Instr} {body} {v : BitVec 64} (h : Issues s i x g) (hd : Undisturbed s g) (he : exec i s = issue s i body)
    (hb : body (s.openIssue x) x g = .done ((s.openIssue x).modRegs x.gid fun r => r.setSc64 d.toNat v)) : Completes s i x g (g.regs.setSc64 d.toNat v) :=
  issue_completes h hd he hb (Apart.modGroup _ _ _) (by simp [State.modRegs, openIssue_find (issuing_group h.issuing).1])

/-- The device of a team. -/
def State.deviceOf (s : State) (tid : Nat) : Nat := ((Store.find s.teams tid).map (·.id.vdev)).getD 0

theorem openIssue_deviceOf (s : State) (x : Issue) : (s.openIssue x).deviceOf = s.deviceOf := by
  funext tid
  rw [State.deviceOf, openIssue_teams, State.deviceOf]

theorem openIssue_counter (s : State) (x : Issue) : (s.openIssue x).counter = s.counter := by
  funext q vdev sel
  rw [State.counter, openIssue_quad, State.counter]

theorem rdcnt_completes (h : Issues s (.rdcnt d i) x g) (hd : Undisturbed s g) :
    Completes s (.rdcnt d i) x g (g.regs.setSc64 d.toNat (BitVec.ofNat 64 (s.counter (quadOfCore x.core) (s.deviceOf x.tid) i.toNat))) := by
  rw [← openIssue_counter s x, ← openIssue_deviceOf s x]
  exact pair_completes h hd (rfl : _ = execRdcnt d i s) rfl

theorem rdtime_completes (h : Issues s (.rdtime d) x g) (hd : Undisturbed s g) :
    Completes s (.rdtime d) x g (g.regs.setSc64 d.toNat (BitVec.ofNat 64 s.now)) :=
  pair_completes h hd (rfl : _ = execRdtime d s) (by simp only [State.now, openIssue_mod])

theorem rdlife_completes (h : Issues s (.rdlife d i) x g) (hd : Undisturbed s g) :
    Completes s (.rdlife d i) x g (g.regs.setSc64 d.toNat ((s.openIssue x).lifeValue x.core i.toNat)) :=
  pair_completes h hd (rfl : _ = execRdlife d i s) rfl

theorem rdwear_absent (h : Issues s (.rdwear d a k f) x g) (hu : (s.openIssue x).wearUnit x.core k.toNat (g.regs.sc a.toNat).toNat = none) :
    Traps s (.rdwear d a k f) x g (x.trap .illegalOperand) :=
  issue_traps h (rfl : _ = execRdwear d a k f s) (by simp only [hu])

theorem rdwear_completes {u : Nat} (h : Issues s (.rdwear d a k f) x g) (hd : Undisturbed s g)
    (hu : (s.openIssue x).wearUnit x.core k.toNat (g.regs.sc a.toNat).toNat = some u) : Completes s (.rdwear d a k f) x g
      (g.regs.setSc64 d.toNat (BitVec.ofNat 64 ((Store.get {} (s.openIssue x).wear.boundary u).read f.toNat))) :=
  pair_completes h hd (rfl : _ = execRdwear d a k f s) (by simp only [hu])

theorem boost_illegal (h : Issues s (.boost d a) x g) (hn : 65535 < (g.regs.sc a.toNat).toNat) :
    Traps s (.boost d a) x g (x.trap .illegalOperand) :=
  issue_traps h (rfl : _ = execBoost d a s) (if_pos hn)

theorem boost_steps {code grant : Nat} {s1 : State} (h : Issues s (.boost d a) x g) (hn : (g.regs.sc a.toNat).toNat ≤ 65535)
    (hb : (s.openIssue x).boost x.core ((s.openIssue x).deviceOf x.tid) (g.regs.sc a.toNat).toNat = (code, grant, s1)) :
    Steps s (.boost d a) x g (s1.modRegs x.gid fun r => (r.setSc d.toNat (BitVec.ofNat 32 code)).setSc (d.toNat + 1) (BitVec.ofNat 32 grant)) :=
  issue_steps h (rfl : _ = execBoost d a s) ((if_neg (Nat.not_lt.mpr hn)).trans (by
    rw [State.deviceOf] at hb
    simp only [hb]))

end

/-! ### The counter reads of the host -/

section

variable {s : State} {off q v sel : Nat}

@[simp] theorem State.reply_hostReply (s : State) (w : Word) : (s.reply w).mod.hostReply = some w := rfl
@[simp] theorem State.reply_mem (s : State) (w : Word) : (s.reply w).mem = s.mem := rfl
@[simp] theorem State.reply_groups (s : State) (w : Word) : (s.reply w).groups = s.groups := rfl
@[simp] theorem State.reply_quad (s : State) (w : Word) : (s.reply w).quad = s.quad := rfl

/-- The high half of a counter. -/
def State.counterHigh (s : State) (q v sel : Nat) : Word := BitVec.ofNat 32 (s.counter q v sel / 2 ^ 32)

theorem exec_counterLowRead (h : counterOffset off = some (q, v, sel, 0)) : exec (.counterLowRead off) s = .next
    ((s.modQuad q fun z => { z with latch := some (counterKey v sel, s.counterHigh q v sel) }).reply (BitVec.ofNat 32 (s.counter q v sel))) := by
  change execCounterLowRead off s = _
  simp only [execCounterLowRead, h]
  rfl

theorem exec_counterHighRead_latched {w : Word} (h : counterOffset off = some (q, v, sel, 1)) (hl : (s.quad q).latch = some (counterKey v sel, w)) :
    exec (.counterHighRead off) s = .next ((s.modQuad q fun z => { z with latch := none }).reply w) := by
  change execCounterHighRead off s = _
  simp only [execCounterHighRead, h, hl, if_true]

theorem exec_counterHighRead_unlatched (h : counterOffset off = some (q, v, sel, 1)) (hl : ∀ w, (s.quad q).latch ≠ some (counterKey v sel, w)) :
    exec (.counterHighRead off) s = .next (s.reply (s.counterHigh q v sel)) := by
  change execCounterHighRead off s = _
  simp only [execCounterHighRead, h]
  cases hq : (s.quad q).latch with
  | none => rfl
  | some kw =>
    obtain ⟨k, w⟩ := kw
    exact if_neg fun hk => hl w (by rw [hq, hk])

theorem exec_counterRead_window (h : counterOffset off = none) : exec (.counterLowRead off) s = .next (s.reply (s.windowWord off)) ∧
    exec (.counterHighRead off) s = .next (s.reply (s.windowWord off)) := by
  constructor
  · change execCounterLowRead off s = _
    simp only [execCounterLowRead, h]
  · change execCounterHighRead off s = _
    simp only [execCounterHighRead, h]

theorem windowWord_block {o : Nat} (hq : q < 4) (ho : o ≤ 0xFFC) : s.windowWord (q * 0x1000000 + 0x4000 + o) =
    BitVec.ofNat 32 (numOf ((List.range 4).map fun i => Store.get 0 (s.quad q).mailbox.block (o + i))) := by
  have hdiv : (q * 0x1000000 + 0x4000 + o) / 0x1000000 = q := by omega
  have hmod : (q * 0x1000000 + 0x4000 + o) % 0x1000000 = 0x4000 + o := by omega
  simp only [State.windowWord, hdiv, hmod]
  rw [if_pos (by omega), Nat.add_sub_cancel_left]
  rfl

theorem windowWord_go (hq : q < 4) : s.windowWord (q * 0x1000000 + 0x5000) = if (s.quad q).mailbox.go then 1 else 0 := by
  have hdiv : (q * 0x1000000 + 0x5000) / 0x1000000 = q := by omega
  have hmod : (q * 0x1000000 + 0x5000) % 0x1000000 = 0x5000 := by omega
  rw [State.windowWord, hdiv, hmod]
  simp [hq]

end

/-- Settles O39: each read as what it puts into its pair of registers, and the reads of the host by what their offset names. Points that the manual leaves open
follow the model's reading (log 32). -/
theorem observationReads : Obligations.ObservationReads := by
  unfold Obligations.ObservationReads
  refine ⟨fun s x g d a i k f hd => ⟨fun h => rdcnt_completes h hd, fun h => rdtime_completes h hd, fun h => rdlife_completes h hd,
      fun h => ⟨rdwear_absent h, fun u => rdwear_completes h hd⟩, fun h => ⟨boost_illegal h, fun code grant s1 hn hb => ?boost⟩⟩,
    fun s off q v sel => ⟨fun h => ⟨_, exec_counterLowRead h, ?low⟩, fun w h hl => ⟨_, exec_counterHighRead_latched h hl, ?latched⟩,
      fun h hl => ⟨_, exec_counterHighRead_unlatched h hl, ?unlatched⟩, exec_counterRead_window⟩,
    fun s q o hq => ⟨windowWord_block hq, windowWord_go hq⟩⟩
  case boost => exact boost_steps h hn (by rw [openIssue_deviceOf]; exact hb)
  case low => simp [State.modQuad_quad, State.counterHigh]
  case latched => simp [State.modQuad_quad]
  case unlatched => simp [State.counterHigh]

end Sys2Proof.Machine


/-! O51: the commands TABLES, COMMS and LOGS (R264, R288, R311, R315, R333, R337, R341, R344, R388, R408, R411, R431). Each operation has one lemma for each of
its answers. -/

namespace Sys2Proof.Machine

section

variable {s : State} {src : CommandSource} {c : Command}

theorem command_goesOn {t : State} {op sub : Nat} {i : Instr} {body : Command → State → Reply} (h : Runs s src op sub c)
    (he : exec i s = s.runCommand src op sub body) (hb : body c (s.taken src) = .going t) : exec i s = .next t := by
  rw [he, runCommand_runs h, hb]

/-- The root that a TABLES command sets: none when it clears the bit. -/
def Command.root (c : Command) : Option Nat := if c.get 16 1 = 1 then some (c.get 8 8) else none

/-! ### TABLES -/

section

variable (h : Runs s src 0x13 0 c)

include h

theorem setS1root_refused (hn : ¬ (c.get 8 8 < 2 ^ 56 ∧ c.get 8 8 % 4096 = 0 ∧ c.get 16 1 ≤ 1)) : Refuses s (.tablesSetS1root src) src 1 :=
  command_refuses h (rfl : _ = execTablesSetS1root src s) (if_pos (by omega))

theorem setS1root_ends (hk : c.get 8 8 < 2 ^ 56 ∧ c.get 8 8 % 4096 = 0 ∧ c.get 16 1 ≤ 1) : Ends s (.tablesSetS1root src) src
    ((s.taken src).modVdev (c.get 0 1) fun v => { v with tab := { v.tab with s1root := c.root } }) [] :=
  command_ends h (rfl : _ = execTablesSetS1root src s) (if_neg (by omega))

end

section

variable (h : Runs s src 0x13 1 c)

include h

theorem setS2root_refused (hn : ¬ (c.get 8 8 < 2 ^ 52 ∧ c.get 8 8 % 4096 = 0 ∧ c.get 16 1 ≤ 1)) : Refuses s (.tablesSetS2root src) src 1 :=
  command_refuses h (rfl : _ = execTablesSetS2root src s) (if_pos (by omega))

theorem setS2root_ends (hk : c.get 8 8 < 2 ^ 52 ∧ c.get 8 8 % 4096 = 0 ∧ c.get 16 1 ≤ 1) : Ends s (.tablesSetS2root src) src
    (((s.taken src).tableStores (((Store.find (s.taken src).vdevs (c.get 0 1)).map fun v => descPart v.desc).getD 0)).modVdev (c.get 0 1) fun v =>
      { v with tab := { v.tab with s2root := c.root } }) [] :=
  command_ends h (rfl : _ = execTablesSetS2root src s) (if_neg (by omega))

end

/-- A kind of invalidation with an operand that it takes. -/
def Command.invalidates (c : Command) : Prop :=
  c.get 2 1 ≤ 3 ∧ (c.get 2 1 = 3 → c.get 8 8 < 2048) ∧ (c.get 2 1 = 1 → c.get 8 8 < 2 ^ 56) ∧ (c.get 2 1 = 2 → c.get 8 8 < 2 ^ 52)

/-- The state without the translations that an invalidation names, after the stores to the tables of a second stage. -/
def State.tablesDropped (s : State) (src : CommandSource) (c : Command) (v : Vdev) : State :=
  (if c.get 2 1 = 2 ∧ isGuest src = false then s.tableStores (descPart v.desc) else s).invalidated (descPart v.desc) (c.get 0 1) (c.get 2 1) (c.get 8 8)

section

variable {v : Vdev} (h : Runs s src 0x13 2 c) (hv : Store.find (s.taken src).vdevs (c.get 0 1) = some v)

include hv

/-- What an invalidation answers. -/
theorem exec_tablesInvalidate : ∃ body, exec (.tablesInvalidate src) s = s.runCommand src 0x13 2 body ∧ body c (s.taken src) =
    if 3 < c.get 2 1 ∨ (c.get 2 1 = 3 ∧ 2048 ≤ c.get 8 8) ∨ (c.get 2 1 = 1 ∧ 2 ^ 56 ≤ c.get 8 8) ∨ (c.get 2 1 = 2 ∧ 2 ^ 52 ≤ c.get 8 8) then
      .refused 1 0
    else if c.get 2 1 ≠ 3 ∧ ((s.taken src).tablesDropped src c v).unsettled (c.get 0 1) = true then
      .going (((s.taken src).tablesDropped src c v).modMod fun m => { m with drains := m.drains ++ [(src, c.get 0 1)] })
    else .done ((s.taken src).tablesDropped src c v) [] := by
  have hd : (if c.get 2 1 = 2 ∧ (!isGuest src) = true then (s.taken src).tableStores (descPart v.desc) else s.taken src).invalidated (descPart v.desc)
      (c.get 0 1) (c.get 2 1) (c.get 8 8) = (s.taken src).tablesDropped src c v :=
    congrArg (State.invalidated · _ _ _ _) (if_congr (by rw [Bool.not_eq_true']) rfl rfl)
  exact ⟨_, (rfl : _ = execTablesInvalidate src s), by simp only [hv, hd]⟩

include h

theorem invalidate_refused (hn : ¬ c.invalidates) : Refuses s (.tablesInvalidate src) src 1 := by
  obtain ⟨body, he, hb⟩ := exec_tablesInvalidate hv
  refine command_refuses h he (hb.trans (if_pos ?_))
  simp only [Command.invalidates] at hn
  omega

variable (hk : c.invalidates)

include hk

omit h hv in
theorem invalidates_accepted : ¬ (3 < c.get 2 1 ∨ (c.get 2 1 = 3 ∧ 2048 ≤ c.get 8 8) ∨ (c.get 2 1 = 1 ∧ 2 ^ 56 ≤ c.get 8 8) ∨
    (c.get 2 1 = 2 ∧ 2 ^ 52 ≤ c.get 8 8)) := by
  simp only [Command.invalidates] at hk
  omega

theorem invalidate_ends (hu : c.get 2 1 = 3 ∨ ((s.taken src).tablesDropped src c v).unsettled (c.get 0 1) = false) :
    Ends s (.tablesInvalidate src) src ((s.taken src).tablesDropped src c v) [] := by
  obtain ⟨body, he, hb⟩ := exec_tablesInvalidate hv
  refine command_ends h he (hb.trans ((if_neg (invalidates_accepted hk)).trans (if_neg ?_)))
  rintro ⟨h3, hu'⟩
  exact hu.elim h3 fun hf => Bool.false_ne_true (hf.symm.trans hu')

theorem invalidate_goesOn (h3 : c.get 2 1 ≠ 3) (hu : ((s.taken src).tablesDropped src c v).unsettled (c.get 0 1) = true) :
    exec (.tablesInvalidate src) s =
      .next (((s.taken src).tablesDropped src c v).modMod fun m => { m with drains := m.drains ++ [(src, c.get 0 1)] }) := by
  obtain ⟨body, he, hb⟩ := exec_tablesInvalidate hv
  exact command_goesOn h he (hb.trans ((if_neg (invalidates_accepted hk)).trans (if_pos ⟨h3, hu⟩)))

end

/-- A window grant that a command may set (R344). -/
def Command.grants (c : Command) : Prop :=
  c.get 2 1 < 16 ∧ 1 ≤ c.get 24 1 ∧ c.get 24 1 ≤ 3 ∧ c.get 8 8 % 65536 = 0 ∧ c.get 16 8 % 65536 = 0 ∧ c.get 8 8 + c.get 16 8 ≤ windowSize (c.get 24 1)

section

variable (h : Runs s src 0x13 3 c)

include h

theorem setWindowGrant_refused (hn : ¬ c.grants) : Refuses s (.tablesSetWindowGrant src) src 1 :=
  command_refuses h (rfl : _ = execTablesSetWindowGrant src s) (if_pos (by simp only [Command.grants] at hn; omega))

variable (hk : c.grants)

include hk

theorem setWindowGrant_sets (hl : c.get 16 8 ≠ 0) : Ends s (.tablesSetWindowGrant src) src ((s.taken src).modVdev (c.get 0 1) fun v =>
    { v with tab := { v.tab with grants := Store.put v.tab.grants (c.get 2 1) ⟨c.get 24 1, c.get 8 8, c.get 16 8⟩ } }) [] :=
  command_ends h (rfl : _ = execTablesSetWindowGrant src s)
    ((if_neg (by simp only [Command.grants] at hk; omega)).trans (by simp only [if_neg hl]))

theorem setWindowGrant_erases (hl : c.get 16 8 = 0) : Ends s (.tablesSetWindowGrant src) src ((s.taken src).modVdev (c.get 0 1) fun v =>
    { v with tab := { v.tab with grants := Store.erase v.tab.grants (c.get 2 1) } }) [] :=
  command_ends h (rfl : _ = execTablesSetWindowGrant src s)
    ((if_neg (by simp only [Command.grants] at hk; omega)).trans (by simp only [if_pos hl]))

end

/-- The frames of the replicas that a command names. -/
def Command.replicas (c : Command) : List Nat := [c.get 16 8, c.get 24 8, c.get 32 8].filter (· != 0)

/-- The quadrants of the frames that a command names for replication. -/
def Command.replicaQuads (c : Command) (qs : List Nat) : List Nat := (c.get 8 8 :: c.replicas).map fun f => (homeQuad qs f).getD 4

/-- The replica entry that a command sets. -/
def Command.replicaEntry (c : Command) (qs : List Nat) : ReplicaEntry :=
  { primary := c.get 8 8 / 65536, vdev := c.get 0 1, replicas := c.replicas.map fun f => ⟨f / 65536, (homeQuad qs f).getD 0, true⟩ }

/-- A replica entry that a command may set in a partition of these quadrants (R341). -/
def Command.replicates (c : Command) (qs : List Nat) : Prop :=
  c.get 2 1 < 256 ∧ (∀ f ∈ c.get 8 8 :: c.replicas, f % 65536 = 0 ∧ isDeviceMemory f = true) ∧ (∀ q ∈ c.replicaQuads qs, q ∈ qs) ∧
    (distinct (c.replicaQuads qs)).length = (c.replicaQuads qs).length

theorem not_replicates_iff (qs : List Nat) : ¬ c.replicates qs ↔ 256 ≤ c.get 2 1 ∨
    ((c.get 8 8 :: c.replicas).any fun a => a % 65536 != 0 || !isDeviceMemory a) = true ∨ (!(c.replicaQuads qs).all qs.contains) = true ∨
      (distinct (c.replicaQuads qs)).length ≠ (c.replicaQuads qs).length := by
  simp only [Command.replicates, not_and_or, not_lt, not_forall, List.any_eq_true, Bool.or_eq_true, bne_iff_ne, Bool.not_eq_true', exists_prop,
    Bool.not_eq_true, List.all_eq_false, List.contains_iff_mem, ne_eq]

section

variable {v : Vdev} (h : Runs s src 0x13 4 c) (hv : Store.find (s.taken src).vdevs (c.get 0 1) = some v)

include h hv

theorem setReplicaEntry_refused (hn : ¬ c.replicates ((s.taken src).quadsOf (descPart v.desc))) : Refuses s (.tablesSetReplicaEntry src) src 1 :=
  command_refuses h (rfl : _ = execTablesSetReplicaEntry src s) (by
    simp only [hv]
    exact if_pos ((not_replicates_iff _).mp hn))

theorem setReplicaEntry_ends (hk : c.replicates ((s.taken src).quadsOf (descPart v.desc))) : Ends s (.tablesSetReplicaEntry src) src
    ((s.taken src).modPart (descPart v.desc) fun p =>
      { p with replicas := Store.put p.replicas (c.get 2 1) (c.replicaEntry ((s.taken src).quadsOf (descPart v.desc))) }) [] :=
  command_ends h (rfl : _ = execTablesSetReplicaEntry src s) (by
    simp only [hv]
    exact if_neg fun hb => (not_replicates_iff _).mpr hb hk)

end

section

variable (h : Runs s src 0x13 5 c)

include h

theorem extendMeasurement_refused (h5 : c.get 2 1 ≠ 5) (h6 : c.get 2 1 ≠ 6) : Refuses s (.tablesExtendMeasurement src) src 1 :=
  command_refuses h (rfl : _ = execTablesExtendMeasurement src s) (if_neg (not_or.mpr ⟨h5, h6⟩))

theorem extendMeasurement_ends (hn : c.get 2 1 = 5 ∨ c.get 2 1 = 6) : Ends s (.tablesExtendMeasurement src) src
    ((s.taken src).extendMr (c.get 2 1) (c.bytes 32 32)) [] :=
  command_ends h (rfl : _ = execTablesExtendMeasurement src s) (if_pos hn)

end

/-! ### COMMS -/

/-- Whether an entry of the communicator table is the one that a command names. -/
def Command.namesComm (c : Command) (e : Nat × Communicator) : Bool := e.2.id == c.get 2 2 && e.2.vdev == c.get 1 1

/-- The communicator that a command sets. -/
def Command.communicator (c : Command) : Communicator := { id := c.get 2 2, members := c.members, rank := c.get 4 2, vdev := c.get 1 1 }

/-- Where a communicator goes in its table: over the one with its name, or to a free place. -/
def Command.commPlace (c : Command) (f : Fabric) : Option Nat := (f.comms.find? c.namesComm).map (·.1) <|> freeIndex f.comms 64

/-- The reduction group that a command sets. -/
def Command.reductionGroup (c : Command) : ReductionGroup :=
  { endpoint := c.get 2 2, vdev := c.get 1 1, elem := c.get 8 1, red := c.get 9 1, rank := c.get 4 2, members := c.members }

/-- A reduction group that a command may set (R264). -/
def Command.groupOk (c : Command) : Prop := c.commsBad = false ∧ 0x780 ≤ c.get 2 2 ∧ c.get 2 2 ≤ 0x7FF ∧ c.get 8 1 ≤ 5 ∧ c.get 9 1 ≤ 2

theorem not_groupOk_iff : ¬ c.groupOk ↔
    (c.commsBad || !(decide (0x780 ≤ c.get 2 2) && decide (c.get 2 2 ≤ 0x7FF)) || decide (5 < c.get 8 1) || decide (2 < c.get 9 1)) = true := by
  simp only [Command.groupOk, Bool.or_eq_true, Bool.not_eq_true', Bool.and_eq_false_iff, decide_eq_false_iff_not, decide_eq_true_eq]
  cases c.commsBad with
  | true => simp
  | false =>
    simp only [true_and, Bool.false_eq_true, false_or]
    omega

section

variable {v : Vdev} (hv : Store.find (s.taken src).vdevs (c.get 1 1) = some v)

include hv in
theorem commsPart_eq : c.commsPart (s.taken src) = descPart v.desc := by rw [Command.commsPart, hv]; rfl

theorem setCommunicator_refused (h : Runs s src 0x14 0 c) (hb : c.commsBad = true) : Refuses s (.commsSetCommunicator src) src 1 :=
  command_refuses h (rfl : _ = execCommsSetCommunicator src s) (if_pos hb)

theorem setReductionGroup_refused (h : Runs s src 0x14 2 c) (hn : ¬ c.groupOk) : Refuses s (.commsSetReductionGroup src) src 1 :=
  command_refuses h (rfl : _ = execCommsSetReductionGroup src s) (if_pos (not_groupOk_iff.mp hn))

include hv

theorem setCommunicator_full (h : Runs s src 0x14 0 c) (hb : c.commsBad = false) (hp : c.commPlace ((s.taken src).part (descPart v.desc)).fab = none) :
    Refuses s (.commsSetCommunicator src) src 2 :=
  command_refuses h (rfl : _ = execCommsSetCommunicator src s) ((if_neg (Bool.eq_false_iff.mp hb)).trans (by
    rw [Command.commPlace] at hp
    simp only [commsPart_eq hv]
    exact hp ▸ rfl))

theorem setCommunicator_ends {n : Nat} (h : Runs s src 0x14 0 c) (hb : c.commsBad = false)
    (hp : c.commPlace ((s.taken src).part (descPart v.desc)).fab = some n) : Ends s (.commsSetCommunicator src) src
      ((s.taken src).modFab (descPart v.desc) fun f => { f with comms := Store.put f.comms n c.communicator }) [] :=
  command_ends h (rfl : _ = execCommsSetCommunicator src s) ((if_neg (Bool.eq_false_iff.mp hb)).trans (by
    rw [Command.commPlace] at hp
    simp only [commsPart_eq hv]
    exact hp ▸ rfl))

theorem removeCommunicator_refused (h : Runs s src 0x14 1 c) (hf : ((s.taken src).part (descPart v.desc)).fab.comms.find? c.namesComm = none) :
    Refuses s (.commsRemoveCommunicator src) src 1 :=
  command_refuses h (rfl : _ = execCommsRemoveCommunicator src s) (by
    simp only [commsPart_eq hv]
    exact hf ▸ rfl)

theorem removeCommunicator_ends {k : Nat × Communicator} (h : Runs s src 0x14 1 c)
    (hf : ((s.taken src).part (descPart v.desc)).fab.comms.find? c.namesComm = some k) : Ends s (.commsRemoveCommunicator src) src
      ((s.taken src).modFab (descPart v.desc) fun f => { f with comms := Store.erase f.comms k.1 }) [] :=
  command_ends h (rfl : _ = execCommsRemoveCommunicator src s) (by
    simp only [commsPart_eq hv]
    exact hf ▸ rfl)

theorem setReductionGroup_ends (h : Runs s src 0x14 2 c) (hk : c.groupOk) : Ends s (.commsSetReductionGroup src) src
    ((s.taken src).modFab (descPart v.desc) fun f =>
      { f with groups := Store.put f.groups (c.get 2 2 * 256 + c.get 1 1) c.reductionGroup }) [] :=
  command_ends h (rfl : _ = execCommsSetReductionGroup src s) (by
    simp only [commsPart_eq hv]
    exact if_neg fun hb => not_groupOk_iff.mpr hb hk)

theorem removeReductionGroup_refused (h : Runs s src 0x14 3 c)
    (hg : Store.has ((s.taken src).part (descPart v.desc)).fab.groups (c.get 2 2 * 256 + c.get 1 1) = false) :
    Refuses s (.commsRemoveReductionGroup src) src 1 :=
  command_refuses h (rfl : _ = execCommsRemoveReductionGroup src s) (by
    simp only [commsPart_eq hv]
    exact if_neg (Bool.eq_false_iff.mp hg))

theorem removeReductionGroup_ends (h : Runs s src 0x14 3 c)
    (hg : Store.has ((s.taken src).part (descPart v.desc)).fab.groups (c.get 2 2 * 256 + c.get 1 1) = true) :
    Ends s (.commsRemoveReductionGroup src) src ((s.taken src).modFab (descPart v.desc) fun f =>
      { f with groups := Store.erase f.groups (c.get 2 2 * 256 + c.get 1 1) }) [] :=
  command_ends h (rfl : _ = execCommsRemoveReductionGroup src s) (by
    simp only [commsPart_eq hv]
    exact if_pos hg)

end

/-! ### LOGS -/

/-- The state of a fault queue that LOGS answers (R431). -/
def FaultQueue.answer (q : FaultQueue) : List Byte := bytesOf 4 q.head.toNat ++ bytesOf 4 q.tail.toNat ++ bytesOf 2 q.overflow ++ bytesOf 6 0

section

variable {v : Vdev} (hv : Store.find (s.taken src).vdevs (c.get 1 1) = some v)

include hv

theorem faultQueueState_repeats {r : List Byte} (h : Runs s src 0x16 0 c) (hr : (s.taken src).repeated c = some r) :
    Ends s (.logsFaultQueueState src) src ((s.taken src).noteService c r) r :=
  command_ends h (rfl : _ = execLogsFaultQueueState src s) (by simp only [hv, hr])

theorem faultQueueState_ends (h : Runs s src 0x16 0 c) (hr : (s.taken src).repeated c = none) : Ends s (.logsFaultQueueState src) src
    (((s.taken src).modVdev (c.get 1 1) fun v => { v with faults := { v.faults with overflow := 0 } }).noteService c v.faults.answer) v.faults.answer :=
  command_ends h (rfl : _ = execLogsFaultQueueState src s) (by
    simp only [hv, hr]
    rfl)

theorem advanceTail_ends (h : Runs s src 0x16 1 c)
    (ht : (BitVec.ofNat 32 (c.get 8 4) - v.faults.tail).toNat ≤ (v.faults.head - v.faults.tail).toNat) : Ends s (.logsAdvanceTail src) src
      ((s.taken src).modVdev (c.get 1 1) fun v => { v with faults := { v.faults with tail := BitVec.ofNat 32 (c.get 8 4) } }) [] :=
  command_ends h (rfl : _ = execLogsAdvanceTail src s) (by
    simp only [hv]
    exact if_pos ht)

theorem advanceTail_refused (h : Runs s src 0x16 1 c)
    (ht : (v.faults.head - v.faults.tail).toNat < (BitVec.ofNat 32 (c.get 8 4) - v.faults.tail).toNat) : Refuses s (.logsAdvanceTail src) src 1 :=
  command_refuses h (rfl : _ = execLogsAdvanceTail src s) (by
    simp only [hv]
    exact if_neg (Nat.not_le.mpr ht))

end

section

variable (h : Runs s src 0x16 2 c)

include h

theorem readEventLog_refused (hq : 4 ≤ c.get 2 1) : Refuses s (.logsReadEventLog src) src 1 :=
  command_refuses h (rfl : _ = execLogsReadEventLog src s) (if_pos hq)

theorem readEventLog_ends (hq : c.get 2 1 < 4) : Ends s (.logsReadEventLog src) src
    ((s.taken src).modPart ((s.taken src).partOfQuad (c.get 2 1)) fun p =>
      { p with log := { records := p.log.records.drop 62, dropped := 0, fresh := false } })
    (bytesOf 4 (min 62 ((s.taken src).part ((s.taken src).partOfQuad (c.get 2 1))).log.records.length) ++
      bytesOf 4 ((s.taken src).part ((s.taken src).partOfQuad (c.get 2 1))).log.dropped ++
        (((s.taken src).part ((s.taken src).partOfQuad (c.get 2 1))).log.records.take 62).flatMap (·.bytes)) := by
  rw [← List.length_take]
  exact command_ends h (rfl : _ = execLogsReadEventLog src s) (if_neg (Nat.not_le.mpr hq))

end

section

variable (h : Runs s src 0x16 3 c)

include h

theorem setEventInterrupt_refused (hn : ¬ (c.get 2 1 < 4 ∧ (c.get 8 8 = 0 ∨ (s.taken src).hostRange (c.get 8 8) 4 = true))) :
    Refuses s (.logsSetEventInterrupt src) src 1 :=
  command_refuses h (rfl : _ = execLogsSetEventInterrupt src s) (if_pos (by
    rwa [not_and_or, not_lt, not_or, Bool.not_eq_true, ← Bool.not_eq_true'] at hn))

theorem setEventInterrupt_ends (hk : c.get 2 1 < 4 ∧ (c.get 8 8 = 0 ∨ (s.taken src).hostRange (c.get 8 8) 4 = true)) :
    Ends s (.logsSetEventInterrupt src) src
      ((s.taken src).modQuad (c.get 2 1) fun z => { z with irq := { addr := c.get 8 8, data := BitVec.ofNat 32 (c.get 16 4) } }) [] :=
  command_ends h (rfl : _ = execLogsSetEventInterrupt src s) (if_neg (by
    rw [not_or, not_le, not_and_or, not_not, Bool.not_eq_true', Bool.not_eq_false]
    exact hk))

end

section

variable (h : Runs s src 0x16 4 c)

include h

theorem clearCounters_refused (hn : ¬ (c.get 2 1 < 4 ∧ (c.get 8 2 = 0xFFFF ∨ counterAssigned (c.get 8 2) = true))) :
    Refuses s (.logsClearCounters src) src 1 :=
  command_refuses h (rfl : _ = execLogsClearCounters src s) (if_pos (by
    rwa [not_and_or, not_lt, not_or, Bool.not_eq_true, ← Bool.not_eq_true'] at hn))

theorem clearCounters_ends (hk : c.get 2 1 < 4 ∧ (c.get 8 2 = 0xFFFF ∨ counterAssigned (c.get 8 2) = true)) : Ends s (.logsClearCounters src) src
    ((s.taken src).modQuad (c.get 2 1) fun z =>
      { z with counters := z.counters.filter fun k => !(decide (k.1 < 2048) && (c.get 8 2 == 0xFFFF || k.1 == c.get 8 2)) }) [] :=
  command_ends h (rfl : _ = execLogsClearCounters src s) (if_neg (by
    rw [not_or, not_le, not_and_or, not_not, Bool.not_eq_true', Bool.not_eq_false]
    exact hk))

end

end

/-- Settles O51: each operation by its answers. Points that the manual leaves open follow the model's reading (logs 23 and 29). -/
theorem tableCommands : Obligations.TableCommands := by
  unfold Obligations.TableCommands
  exact fun s src c => ⟨fun h => ⟨setS1root_refused h, setS1root_ends h⟩, fun h => ⟨setS2root_refused h, setS2root_ends h⟩,
    fun v h hv => ⟨invalidate_refused h hv, invalidate_ends h hv, invalidate_goesOn h hv⟩,
    fun h => ⟨setWindowGrant_refused h, setWindowGrant_sets h, setWindowGrant_erases h⟩,
    fun v h hv => ⟨setReplicaEntry_refused h hv, setReplicaEntry_ends h hv⟩,
    fun h => ⟨extendMeasurement_refused h, extendMeasurement_ends h⟩,
    fun v hv => ⟨setCommunicator_refused, setCommunicator_full hv, fun n => setCommunicator_ends hv, removeCommunicator_refused hv,
      fun k => removeCommunicator_ends hv, setReductionGroup_refused, setReductionGroup_ends hv, removeReductionGroup_refused hv,
      removeReductionGroup_ends hv, fun r => faultQueueState_repeats hv, faultQueueState_ends hv,
      fun h => ⟨advanceTail_ends hv h, advanceTail_refused hv h⟩⟩,
    fun h => ⟨readEventLog_refused h, readEventLog_ends h⟩, fun h => ⟨setEventInterrupt_refused h, setEventInterrupt_ends h⟩,
    fun h => ⟨clearCounters_refused h, clearCounters_ends h⟩⟩

end Sys2Proof.Machine


/-! O50: the service commands (R269, R271, R286, R303, R317, R318, R343, R366, R374 to R377, R400, R403, R414, R415): SET_LIFE, BOOST_POLICY, FACTOR_TABLES, POWER,
ANSWER, LAUNCH and RETIRE_PAGE, each answer with what leads to it. -/

namespace Sys2Proof.Machine

section

variable {s : State} {src : CommandSource} {c : Command}

/-! ### SET_LIFE -/

/-- The state once SET_LIFE has set a target, when it gives one. -/
def State.lifeSet (s : State) (c : Command) : State := if c.get 0 4 = 0 then s else s.modWear fun w => { w with nextLifectl := c.get 0 4 }

/-- The WEARCTL that an expert SET_LIFE gives its quadrants. -/
def Command.wearctl (c : Command) : BitVec 64 := BitVec.ofNat 64 (c.get 24 8)

/-- The state once an expert SET_LIFE has set the cap and the WEARCTL of its quadrants. -/
def State.wearSet (s : State) (c : Command) : State := s.modWear fun w => { w with
  lbudcap := if c.get 8 8 = 0 then w.lbudcap else c.get 8 8
  nextWearctl := (quadsIn (c.get 16 1)).foldl (fun m q => Store.put m q c.wearctl) w.nextWearctl }

theorem foldl_wearctl (s : State) (ctl : BitVec 64) (p : Nat → Bool) (qs : List Nat) :
    qs.foldl (fun (s : State) q => if p q then s.modWear fun w => { w with nextWearctl := Store.put w.nextWearctl q ctl } else s) s =
      s.modWear fun w => { w with nextWearctl := (qs.filter p).foldl (fun m q => Store.put m q ctl) w.nextWearctl } := by
  induction qs generalizing s with
  | nil => rfl
  | cons q qs ih =>
    rw [List.foldl_cons, ih]
    cases hq : p q
    · simp [hq]
    · simp [hq, State.modWear]

theorem wearSet_eq (s : State) (c : Command) : (upTo 4).foldl (fun (s : State) (q : Nat) =>
      if bit (c.get 16 1) q then s.modWear fun w => { w with nextWearctl := Store.put w.nextWearctl q c.wearctl } else s)
    (if c.get 8 8 = 0 then s else s.modWear fun w => { w with lbudcap := c.get 8 8 }) = s.wearSet c := by
  rw [foldl_wearctl, State.wearSet]
  split
  · rfl
  · rfl

section

variable (h : Runs s src 0x09 0 c)

section

variable (he : c.expert = false)

include h he

theorem setLife_refusesNone (ht : c.get 0 4 = 0) : Refuses s (.setLife src) src 1 :=
  command_refuses h (rfl : _ = execSetLife src s) ((if_pos (congrArg (!·) he)).trans (if_pos ht))

theorem setLife_ends (ht : c.get 0 4 ≠ 0) :
    Ends s (.setLife src) src ((s.taken src).modWear fun w => { w with nextLifectl := c.get 0 4 }) [] :=
  command_ends h (rfl : _ = execSetLife src s) ((if_pos (congrArg (!·) he)).trans ((if_neg ht).trans (by simp only [if_neg ht])))

end

variable (he : c.expert = true)

include h he

theorem setLife_refusesMask (hm : 16 ≤ c.get 16 1 ∨ (c.get 16 1 ≠ 0 ∧ wearctlOk (BitVec.ofNat 64 (c.get 24 8)) = false)) :
    Refuses s (.setLife src) src 1 :=
  command_refuses h (rfl : _ = execSetLife src s) ((if_neg (by simp [he])).trans (if_pos (by rwa [Bool.not_eq_true'])))

theorem setLife_endsExpert (hq : c.get 16 1 < 16) (hw : c.get 16 1 = 0 ∨ wearctlOk (BitVec.ofNat 64 (c.get 24 8)) = true) :
    Ends s (.setLife src) src (if (((s.taken src).lifeSet c).wearSet c).wear = ((s.taken src).lifeSet c).wear then ((s.taken src).lifeSet c).wearSet c
      else (((s.taken src).lifeSet c).wearSet c).measureSettings) [] := by
  refine command_ends h (rfl : _ = execSetLife src s) ((if_neg (by simp [he])).trans ((if_neg ?_).trans ?_))
  · rintro (h16 | ⟨h0, hn⟩)
    · omega
    · exact hw.elim h0 fun hk => by simp [hk] at hn
  · rw [← wearSet_eq]
    rfl

end

/-! ### BOOST_POLICY and FACTOR_TABLES -/

/-- The BOOSTCTL that an expert BOOST_POLICY gives. -/
def Command.boostctl (c : Command) : BitVec 32 := BitVec.ofNat 32 (c.get 4 4)

/-- A BOOSTCTL that a partition does not take, or no partition (R376). -/
def State.badBoostctl (s : State) (c : Command) : Prop :=
  Store.has s.parts (c.get 0 1) = false ∨ bcMaxDur c.boostctl = 0 ∨ bcTmax c.boostctl < 55 ∨ 95 < bcTmax c.boostctl ∨
    c.boostctl.extractLsb' 6 2 ≠ 0 ∨ 48 < bcCores c.boostctl

section

variable (h : Runs s src 0x0A 0 c)

section

variable (he : c.expert = false)

include h he

theorem boostPolicy_refusesMode (hm : 2 ≤ c.get 1 1) : Refuses s (.boostPolicy src) src 1 :=
  command_refuses h (rfl : _ = execBoostPolicy src s) ((if_pos (congrArg (!·) he)).trans (if_pos hm))

theorem boostPolicy_endsMode (hm : c.get 1 1 < 2) :
    Ends s (.boostPolicy src) src ((s.taken src).modVdev (c.get 0 1) fun v => { v with boosten := c.get 1 1 == 1 }) [] :=
  command_ends h (rfl : _ = execBoostPolicy src s) ((if_pos (congrArg (!·) he)).trans (if_neg (Nat.not_le.mpr hm)))

end

variable (he : c.expert = true)

include h he

theorem boostPolicy_refusesControl (hb : (s.taken src).badBoostctl c) : Refuses s (.boostPolicy src) src 1 :=
  command_refuses h (rfl : _ = execBoostPolicy src s) ((if_neg (by simp [he])).trans (if_pos (by rw [Bool.not_eq_true']; exact hb)))

variable (hb : ¬ (s.taken src).badBoostctl c)

include hb

theorem boostPolicy_endsSame (hw : ((s.taken src).part (c.get 0 1)).regs.boostctl = c.boostctl) : Ends s (.boostPolicy src) src (s.taken src) [] :=
  command_ends h (rfl : _ = execBoostPolicy src s)
    ((if_neg (by simp [he])).trans ((if_neg (by rw [Bool.not_eq_true']; exact hb)).trans (if_pos hw)))

theorem boostPolicy_endsNew (hw : ((s.taken src).part (c.get 0 1)).regs.boostctl ≠ c.boostctl) : Ends s (.boostPolicy src) src
    ((s.taken src).modPart (c.get 0 1) fun p => { p with regs := { p.regs with boostctl := c.boostctl } }).measureSettings [] :=
  command_ends h (rfl : _ = execBoostPolicy src s)
    ((if_neg (by simp [he])).trans ((if_neg (by rw [Bool.not_eq_true']; exact hb)).trans (if_neg hw)))

end

/-- The factors for voltage and for temperature that FACTOR_TABLES gives. -/
def Command.factors (c : Command) (off : Nat) : List Nat := (List.range 5).map fun i => c.get (off + i) 1

theorem factors_zero (c : Command) : c.factors 0 = (List.range 5).map fun i => c.get i 1 := by simp [Command.factors]

section

variable (h : Runs s src 0x11 0 c)

include h

omit h in
theorem exec_factorTables : ∃ body, exec (.factorTables src) s = s.runCommand src 0x11 0 body ∧ body c (s.taken src) =
    if (!factorsOk (c.factors 0)) = true ∨ (!factorsOk (c.factors 5)) = true then .refused 1 0
    else if (s.taken src).wear.nextFv = c.factors 0 ∧ (s.taken src).wear.nextFt = c.factors 5 then .done (s.taken src) []
    else .done ((s.taken src).modWear fun w => { w with nextFv := c.factors 0, nextFt := c.factors 5 }).measureSettings [] :=
  ⟨_, (rfl : _ = execFactorTables src s), by rw [factors_zero]; rfl⟩

theorem factorTables_refused (hb : factorsOk (c.factors 0) = false ∨ factorsOk (c.factors 5) = false) : Refuses s (.factorTables src) src 1 := by
  obtain ⟨body, he, hbody⟩ := exec_factorTables
  exact command_refuses h he (hbody.trans (if_pos (by rwa [Bool.not_eq_true', Bool.not_eq_true'])))

variable (hv : factorsOk (c.factors 0) = true) (ht : factorsOk (c.factors 5) = true)

include hv ht

theorem factorTables_same (hfv : (s.taken src).wear.nextFv = c.factors 0) (hft : (s.taken src).wear.nextFt = c.factors 5) :
    Ends s (.factorTables src) src (s.taken src) [] := by
  obtain ⟨body, he, hbody⟩ := exec_factorTables
  exact command_ends h he (hbody.trans ((if_neg (by simp [hv, ht])).trans (if_pos ⟨hfv, hft⟩)))

theorem factorTables_new (hn : ¬ ((s.taken src).wear.nextFv = c.factors 0 ∧ (s.taken src).wear.nextFt = c.factors 5)) :
    Ends s (.factorTables src) src ((s.taken src).modWear fun w => { w with nextFv := c.factors 0, nextFt := c.factors 5 }).measureSettings [] := by
  obtain ⟨body, he, hbody⟩ := exec_factorTables
  exact command_ends h he (hbody.trans ((if_neg (by simp [hv, ht])).trans (if_neg hn)))

end

/-! ### POWER -/

/-- A quadrant that may not rest: it is held, or leaving a rest. -/
def State.noRest (s : State) (q : Nat) : Bool := s.quadHeld q || (s.quad q).power == .exiting

section

variable (h : Runs s src 0x15 0 c)

include h

theorem quadrantRest_refusesMask (hm : 16 ≤ c.get 1 1) : Refuses s (.powerQuadrantRest src) src 1 :=
  command_refuses h (rfl : _ = execPowerQuadrantRest src s) (if_pos hm)

variable (hm : c.get 1 1 < 16)

include hm

theorem quadrantRest_held (hq : ((quadsIn (c.get 1 1)).any (s.taken src).noRest) = true) : Refuses s (.powerQuadrantRest src) src 3 :=
  command_refuses h (rfl : _ = execPowerQuadrantRest src s) ((if_neg (Nat.not_le.mpr hm)).trans (if_pos hq))

theorem quadrantRest_ends (hq : ((quadsIn (c.get 1 1)).any (s.taken src).noRest) = false) :
    Ends s (.powerQuadrantRest src) src ((quadsIn (c.get 1 1)).foldl (fun s q => s.restQuad q false) (s.taken src)) [] :=
  command_ends h (rfl : _ = execPowerQuadrantRest src s) ((if_neg (Nat.not_le.mpr hm)).trans (if_neg (Bool.eq_false_iff.mp hq)))

end

section

variable (h : Runs s src 0x15 1 c)

include h

theorem deepIdle_held (hq : ((s.taken src).protectedResident || (List.range 4).any (s.taken src).noRest) = true) :
    Refuses s (.powerDeepIdle src) src 3 := command_refuses h (rfl : _ = execPowerDeepIdle src s) (if_pos hq)

theorem deepIdle_ends (hq : ((s.taken src).protectedResident || (List.range 4).any (s.taken src).noRest) = false) :
    Ends s (.powerDeepIdle src) src ((List.range 4).foldl (fun s q => s.restQuad q true) (s.taken src)) [] :=
  command_ends h (rfl : _ = execPowerDeepIdle src s) (if_neg (Bool.eq_false_iff.mp hq))

end

section

variable (h : Runs s src 0x15 2 c)

include h

theorem powerExit_refused (hm : 16 ≤ c.get 1 1) : Refuses s (.powerExit src) src 1 :=
  command_refuses h (rfl : _ = execPowerExit src s) (if_pos hm)

theorem powerExit_ends (hm : c.get 1 1 < 16) :
    Ends s (.powerExit src) src ((quadsIn (c.get 1 1)).foldl (fun s q => s.wakeQuad q) (s.taken src)) [] :=
  command_ends h (rfl : _ = execPowerExit src s) (if_neg (Nat.not_le.mpr hm))

end

/-! ### ANSWER -/

/-- The first resident group that an answer names and that has a property. -/
abbrev State.answered (s : State) (c : Command) (p : Nat × Group → Bool) : Option (Nat × Group) := (s.named (c.get 0 1) (c.get 4 4) (c.get 8 1)).find? p

/-- A group that waits for the answer to a stop (R317). -/
abbrev answersStop (v : Vdev) (kv : Nat × Group) : Bool := kv.2.answerable v.ctx.trapsvc

/-- A group that waits for the answer to a park, or of which a copy does (R303, R318). -/
abbrev State.answersPark (s : State) (kv : Nat × Group) : Bool := kv.2.isParked || s.hasSuspended kv.1

section

variable {v : Vdev} (hv : Store.find (s.taken src).vdevs (c.get 0 1) = some v)

include hv

theorem answerResume_resident {kv : Nat × Group} (h : Runs s src 0x12 0 c) (hk : (s.taken src).answered c (answersStop v) = some kv) :
    Ends s (.answerResume src) src ((s.taken src).modGroup kv.1 fun g => g.resumed ((s.taken src).core (coreOf kv.1)).clk) [] :=
  command_ends h (rfl : _ = execAnswerResume src s) (by simp only [hv, hk])

theorem answerResume_saved (h : Runs s src 0x12 0 c) (hk : (s.taken src).answered c (answersStop v) = none)
    (hs : v.savedNamed (c.get 4 4) (c.get 8 1) (·.answerable v.ctx.trapsvc) = true) : Ends s (.answerResume src) src
      ((s.taken src).modSaved (c.get 0 1) (c.get 4 4) (c.get 8 1) fun g => if g.answerable v.ctx.trapsvc then g.resumed 0 else g) [] :=
  command_ends h (rfl : _ = execAnswerResume src s) (by simp only [hv, hk, hs, if_true])

theorem answerResume_refused (h : Runs s src 0x12 0 c) (hk : (s.taken src).answered c (answersStop v) = none)
    (hs : v.savedNamed (c.get 4 4) (c.get 8 1) (·.answerable v.ctx.trapsvc) = false) : Refuses s (.answerResume src) src 3 :=
  command_refuses h (rfl : _ = execAnswerResume src s) (by simp only [hv, hk, hs, Bool.false_eq_true, if_false])

theorem answerAbort_resident {kv : Nat × Group} {t : StopState} (h : Runs s src 0x12 1 c) (hk : (s.taken src).answered c (answersStop v) = some kv)
    (ht : kv.2.stops.stop = some t) : Ends s (.answerAbort src) src ((s.taken src).abortOf kv.2 ((s.taken src).summary kv.2 t.code t.slot)) [] :=
  command_ends h (rfl : _ = execAnswerAbort src s) (by simp only [hv, hk, ht])

theorem answerAbort_saved {u : SavedTeam} {g : Group} {t : StopState} (h : Runs s src 0x12 1 c) (hk : (s.taken src).answered c (answersStop v) = none)
    (hs : v.findSaved (c.get 4 4) (c.get 8 1) (·.answerable v.ctx.trapsvc) = some (u, g)) (ht : g.stops.stop = some t) :
    Ends s (.answerAbort src) src ((s.taken src).abortSaved (c.get 0 1) u g t.code t.slot) [] :=
  command_ends h (rfl : _ = execAnswerAbort src s) (by simp only [hv, hk, hs, ht])

theorem answerAbort_refused (h : Runs s src 0x12 1 c) (hk : (s.taken src).answered c (answersStop v) = none)
    (hs : v.findSaved (c.get 4 4) (c.get 8 1) (·.answerable v.ctx.trapsvc) = none) : Refuses s (.answerAbort src) src 3 :=
  command_refuses h (rfl : _ = execAnswerAbort src s) (by simp only [hv, hk, hs])

theorem answerReplay_resident {kv : Nat × Group} (h : Runs s src 0x12 2 c) (hk : (s.taken src).answered c (s.taken src).answersPark = some kv) :
    Ends s (.answerReplay src) src
      (((s.taken src).modGroup kv.1 fun g => if g.isParked then g.replayed ((s.taken src).core (coreOf kv.1)).clk else g).resumeCopies kv.1) [] :=
  command_ends h (rfl : _ = execAnswerReplay src s) (by simp only [hv, hk])

theorem answerReplay_saved (h : Runs s src 0x12 2 c) (hk : (s.taken src).answered c (s.taken src).answersPark = none)
    (hs : v.savedNamed (c.get 4 4) (c.get 8 1) (·.isParked) = true) : Ends s (.answerReplay src) src
      ((s.taken src).modSaved (c.get 0 1) (c.get 4 4) (c.get 8 1) fun g => if g.isParked then g.replayed 0 else g) [] :=
  command_ends h (rfl : _ = execAnswerReplay src s) (by simp only [hv, hk, hs, if_true])

theorem answerReplay_refused (h : Runs s src 0x12 2 c) (hk : (s.taken src).answered c (s.taken src).answersPark = none)
    (hs : v.savedNamed (c.get 4 4) (c.get 8 1) (·.isParked) = false) : Refuses s (.answerReplay src) src 3 :=
  command_refuses h (rfl : _ = execAnswerReplay src s) (by simp only [hv, hk, hs, Bool.false_eq_true, if_false])

theorem answerDecline_parked {kv : Nat × Group} {p : Parked} (h : Runs s src 0x12 3 c) (hk : (s.taken src).answered c (s.taken src).answersPark = some kv)
    (hp : kv.2.isParked = true) (ht : kv.2.stops.parked = some p) :
    Ends s (.answerDecline src) src ((s.taken src).abortOf kv.2 ((s.taken src).summary kv.2 .pageFault p.slot)) [] :=
  command_ends h (rfl : _ = execAnswerDecline src s) (by simp only [hv, hk, hp, ht])

theorem answerDecline_copies {kv : Nat × Group} (h : Runs s src 0x12 3 c) (hk : (s.taken src).answered c (s.taken src).answersPark = some kv)
    (hp : kv.2.isParked = false) : Ends s (.answerDecline src) src ((s.taken src).declineCopies kv.1) [] :=
  command_ends h (rfl : _ = execAnswerDecline src s) (by simp only [hv, hk, hp])

theorem answerDecline_saved {u : SavedTeam} {g : Group} (h : Runs s src 0x12 3 c) (hk : (s.taken src).answered c (s.taken src).answersPark = none)
    (hs : v.findSaved (c.get 4 4) (c.get 8 1) (·.isParked) = some (u, g)) : Ends s (.answerDecline src) src
      ((s.taken src).abortSaved (c.get 0 1) u g .pageFault ((g.stops.parked.map (·.slot)).getD 0)) [] :=
  command_ends h (rfl : _ = execAnswerDecline src s) (by simp only [hv, hk, hs])

theorem answerDecline_refused (h : Runs s src 0x12 3 c) (hk : (s.taken src).answered c (s.taken src).answersPark = none)
    (hs : v.findSaved (c.get 4 4) (c.get 8 1) (·.isParked) = none) : Refuses s (.answerDecline src) src 3 :=
  command_refuses h (rfl : _ = execAnswerDecline src s) (by simp only [hv, hk, hs])

end

/-! ### LAUNCH -/

/-- The queue that a LAUNCH command names. -/
def State.launchQueue (s : State) (c : Command) : LaunchQueue := s.queue (c.get 129 1) (c.get 128 1)

/-- A LAUNCH command of a form that is refused: no queue, or a host mode outside expert mode. -/
def Command.badLaunch (c : Command) : Prop := 64 ≤ c.get 128 1 ∨ 4 ≤ c.get 129 1 ∨ (c.expert = false ∧ pkHmode (c.bytes 0 128) ≠ 0)

/-- Whether the source of a LAUNCH command may use a queue of this owner: a guest only its own (R271). -/
def State.mayLaunch (s : State) (src : CommandSource) (owner : Nat) : Prop := ∀ gid, src = .guest gid → (s.callerOf gid).map (·.vdev) = some owner

/-- The packets that a queue holds, with those that wait to enter it. -/
def State.launchesHeld (s : State) (c : Command) : Nat :=
  (s.launchQueue c).packets.length + ((s.quad (c.get 129 1)).waiting.filter fun w => w.1 == c.get 128 1).length

/-- Whether the source of a LAUNCH command may not use the queue, as the command computes it. -/
def State.foreignLaunch (s : State) (src : CommandSource) (owner : Nat) : Bool := match src with
  | .guest gid => (s.callerOf gid).map (·.vdev) != some owner
  | .mailbox _ => false

theorem foreignLaunch_iff {s : State} {owner : Nat} : s.foreignLaunch src owner = true ↔ ¬ s.mayLaunch src owner := by
  cases src with
  | mailbox q => simp [State.foreignLaunch, State.mayLaunch]
  | guest gid => simp [State.foreignLaunch, State.mayLaunch]

section

variable (h : Runs s src 0x03 0 c)

include h

omit h in
theorem exec_launchCommand : ∃ body, exec (.launchCommand src) s = s.runCommand src 0x03 0 body ∧ body c (s.taken src) =
    if 64 ≤ c.get 128 1 ∨ 4 ≤ c.get 129 1 ∨ ((!c.expert) = true ∧ pkHmode (c.bytes 0 128) ≠ 0) then .refused 1 0
    else if (s.taken src).foreignLaunch src ((s.taken src).launchQueue c).owner = true ∨ ((s.taken src).launchQueue c).owner = 255 then .refused 1 0
    else if ((s.taken src).repeated c).isSome then .done ((s.taken src).noteService c []) []
    else if 32 ≤ (s.taken src).launchesHeld c then .refused 2 0
    else .done (((s.taken src).postPacket (c.get 129 1) (c.get 128 1) (c.bytes 0 128)).noteService c []) [] :=
  ⟨_, (rfl : _ = execLaunchCommand src s), rfl⟩

theorem launchCommand_refusesForm (hb : c.badLaunch) : Refuses s (.launchCommand src) src 1 := by
  obtain ⟨body, he, hbody⟩ := exec_launchCommand
  exact command_refuses h he (hbody.trans (if_pos (by rw [Bool.not_eq_true']; exact hb)))

variable (hb : ¬ c.badLaunch)

include hb

omit h in
theorem goodLaunch : ¬ (64 ≤ c.get 128 1 ∨ 4 ≤ c.get 129 1 ∨ ((!c.expert) = true ∧ pkHmode (c.bytes 0 128) ≠ 0)) := by
  rw [Bool.not_eq_true']
  exact hb

theorem launchCommand_refusesQueue (hq : ¬ (s.taken src).mayLaunch src ((s.taken src).launchQueue c).owner ∨ ((s.taken src).launchQueue c).owner = 255) :
    Refuses s (.launchCommand src) src 1 := by
  obtain ⟨body, he, hbody⟩ := exec_launchCommand
  exact command_refuses h he (hbody.trans ((if_neg (goodLaunch hb)).trans (if_pos (hq.imp_left foreignLaunch_iff.mpr))))

variable (hm : (s.taken src).mayLaunch src ((s.taken src).launchQueue c).owner) (ho : ((s.taken src).launchQueue c).owner ≠ 255)

include hm ho

omit h hb in
theorem ownLaunch : ¬ ((s.taken src).foreignLaunch src ((s.taken src).launchQueue c).owner = true ∨ ((s.taken src).launchQueue c).owner = 255) :=
  not_or.mpr ⟨fun hf => foreignLaunch_iff.mp hf hm, ho⟩

theorem launchCommand_repeats (hr : ((s.taken src).repeated c).isSome = true) :
    Ends s (.launchCommand src) src ((s.taken src).noteService c []) [] := by
  obtain ⟨body, he, hbody⟩ := exec_launchCommand
  exact command_ends h he (hbody.trans ((if_neg (goodLaunch hb)).trans ((if_neg (ownLaunch hm ho)).trans (if_pos hr))))

variable (hr : (s.taken src).repeated c = none)

include hr

theorem launchCommand_full (hl : 32 ≤ (s.taken src).launchesHeld c) : Refuses s (.launchCommand src) src 2 := by
  obtain ⟨body, he, hbody⟩ := exec_launchCommand
  exact command_refuses h he (hbody.trans ((if_neg (goodLaunch hb)).trans ((if_neg (ownLaunch hm ho)).trans
    ((if_neg (by simp [hr])).trans (if_pos hl)))))

theorem launchCommand_posts (hl : (s.taken src).launchesHeld c < 32) : Ends s (.launchCommand src) src
    (((s.taken src).postPacket (c.get 129 1) (c.get 128 1) (c.bytes 0 128)).noteService c []) [] := by
  obtain ⟨body, he, hbody⟩ := exec_launchCommand
  exact command_ends h he (hbody.trans ((if_neg (goodLaunch hb)).trans ((if_neg (ownLaunch hm ho)).trans
    ((if_neg (by simp [hr])).trans (if_neg (Nat.not_le.mpr hl))))))

end

/-! ### RETIRE_PAGE -/

/-- A frame that RETIRE_PAGE may retire: one of device memory that is not retired. -/
def State.retirable (s : State) (a : Nat) : Prop := a % 65536 = 0 ∧ isDeviceMemory a = true ∧ a / 65536 ∉ s.mod.frames.retired

theorem not_retirable_iff {a : Nat} : ¬ s.retirable a ↔
    a % 65536 ≠ 0 ∨ (!isDeviceMemory a) = true ∨ s.mod.frames.retired.contains (a / 65536) = true := by
  simp only [State.retirable, not_and_or, not_not, Bool.not_eq_true', Bool.not_eq_true, List.contains_iff_mem]

section

variable (h : Runs s src 0x10 0 c)

include h

theorem retirePage_refused (hn : ¬ (s.taken src).retirable (c.get 0 8)) : Refuses s (.retirePage src) src 1 :=
  command_refuses h (rfl : _ = execRetirePage src s) (if_pos (not_retirable_iff.mp hn))

variable (hk : (s.taken src).retirable (c.get 0 8))

include hk

theorem retirePage_full (hf : 65536 ≤ (s.taken src).mod.frames.retired.length) : Refuses s (.retirePage src) src 2 :=
  command_refuses h (rfl : _ = execRetirePage src s) ((if_neg fun hb => not_retirable_iff.mpr hb hk).trans (if_pos hf))

variable (hf : ¬ 65536 ≤ (s.taken src).mod.frames.retired.length)

include hf

theorem retirePage_goesOn (hl : (s.taken src).frameLeased (c.get 0 8 / 65536) = true) : exec (.retirePage src) s =
    .next ((s.taken src).modMod fun m => { m with retiring := m.retiring ++ [(src, c.get 0 8 / 65536)] }) :=
  command_goesOn h (rfl : _ = execRetirePage src s)
    ((if_neg fun hb => not_retirable_iff.mpr hb hk).trans ((if_neg hf).trans (if_pos hl)))

theorem retirePage_ends (hl : (s.taken src).frameLeased (c.get 0 8 / 65536) = false) :
    Ends s (.retirePage src) src ((s.taken src).retireFrame (c.get 0 8 / 65536)) [] :=
  command_ends h (rfl : _ = execRetirePage src s)
    ((if_neg fun hb => not_retirable_iff.mpr hb hk).trans ((if_neg hf).trans (if_neg (Bool.eq_false_iff.mp hl))))

end

end

/-- Settles O50: each command by its answers. POWER on a quadrant that is exiting and a host's LAUNCH to a queue without owner follow logs 33 and 47 (DEDUCED);
points that the manual leaves open follow the model's reading (logs 23 and 29). -/
theorem serviceCommands : Obligations.ServiceCommands := by
  unfold Obligations.ServiceCommands
  intro s src c s0 vdev
  refine ⟨fun h => ⟨setLife_refusesNone h, setLife_ends h, setLife_refusesMask h, setLife_endsExpert h⟩,
    fun h => ⟨boostPolicy_refusesMode h, boostPolicy_endsMode h, boostPolicy_refusesControl h, boostPolicy_endsSame h, boostPolicy_endsNew h⟩,
    fun h => ?factors, fun h => ⟨quadrantRest_refusesMask h, quadrantRest_held h, quadrantRest_ends h⟩, fun h => ⟨deepIdle_held h, deepIdle_ends h⟩,
    fun h => ⟨powerExit_refused h, powerExit_ends h⟩,
    fun v hv => ⟨fun kv => answerResume_resident hv, answerResume_saved hv, answerResume_refused hv, fun kv t => answerAbort_resident hv,
      fun u g t => answerAbort_saved hv, answerAbort_refused hv, fun kv => answerReplay_resident hv, answerReplay_saved hv, answerReplay_refused hv,
      fun kv p => answerDecline_parked hv, fun kv => answerDecline_copies hv, fun u g => answerDecline_saved hv, answerDecline_refused hv⟩,
    fun h => ⟨launchCommand_refusesForm h, launchCommand_refusesQueue h, launchCommand_repeats h, launchCommand_full h, launchCommand_posts h⟩,
    fun h => ⟨retirePage_refused h, retirePage_full h, retirePage_goesOn h, retirePage_ends h⟩⟩
  case factors =>
    rw [← factors_zero]
    exact ⟨factorTables_refused h, factorTables_same h, factorTables_new h⟩

end Sys2Proof.Machine


/-! O43: LAUNCH, its packet's entry in a queue, the launch ports and the acceptance of packets (R266 to R276, R306). -/

namespace Sys2Proof.Machine

/-! ### LAUNCH at issue -/

/-- The quadrant and the queue that a LAUNCH names. -/
def launchQuad (g : Group) (a : BitVec 7) : Nat := ((g.regs.sc (a.toNat + 1)).extractLsb' 6 2).toNat
def launchIndex (g : Group) (a : BitVec 7) : Nat := ((g.regs.sc (a.toNat + 1)).extractLsb' 0 6).toNat

theorem launchQuad_eq (g : Group) (a : BitVec 7) : launchQuad g a = (g.regs.sc (a.toNat + 1)).toNat / 64 % 4 := by
  simp [launchQuad, BitVec.extractLsb'_toNat, Nat.shiftRight_eq_div_pow]

theorem launchIndex_eq (g : Group) (a : BitVec 7) : launchIndex g a = (g.regs.sc (a.toNat + 1)).toNat % 64 := by
  simp [launchIndex, BitVec.extractLsb'_toNat]

/-- The operation of a LAUNCH. -/
def launchOp (x : Issue) (g : Group) (d : BitVec 7) (l : BitVec 4) (tick : Nat) : LongOp :=
  { newOp x g .launch l [⟨.S, d.toNat, 1⟩] with dest := d.toNat, dueClk := tick }

/-- A LAUNCH that is under way: it has released at device scope and counts in c3. -/
def State.launchBegun (s : State) (x : Issue) (g : Group) (o : LongOp) : State :=
  (((s.releaseAt x.core x.tid 3).setUnrew x.gid).modEng x.gid fun e => e.begin 3 g.issued).modOps x.gid fun q => q ++ [o]

/-- Whether a LAUNCH waits: for room in c3, for its group's accesses, and for the stores that it releases. -/
def State.launchHeld (s : State) (x : Issue) (g : Group) : Bool := decide (255 ≤ g.eng.count 3) || g.mustWait true || s.pathWaits x.core

/-- A LAUNCH that its team may not make: its packet lies outside the stash, or the queue is not its device's (R306). -/
def State.launchDenied (s : State) (g : Group) (a : BitVec 7) (t : Team) : Prop :=
  t.id.stashBytes < (g.regs.sc a.toNat).toNat + 128 ∨ (s.part t.id.part).regs.members.contains (launchQuad g a) = false ∨
    (s.queue (launchQuad g a) (launchIndex g a)).owner ≠ t.id.vdev

/-- What a LAUNCH answers once it may read its packet, by what the read answers. -/
def State.launchReads (s : State) (x : Issue) (g : Group) (d a : BitVec 7) (l : BitVec 4) (tick : Nat) : State × Option AccessFail → Res
  | (_, some .wait) => .wait (.full 4)
  | (_, some (.fault c)) => .done (s.launchBegun x g { launchOp x g d l tick with failure := some (c, s.stashVa x.tid (g.regs.sc a.toNat).toNat) })
  | (_, some (.lost site)) => .done ((s.detect site).launchBegun x g
      { launchOp x g d l tick with failure := some (.uncorrectable, s.stashVa x.tid (g.regs.sc a.toNat).toNat) })
  | (_, some f) => x.failed (s.stashVa x.tid (g.regs.sc a.toNat).toNat) f
  | (s1, none) => .done (s1.launchBegun x g { launchOp x g d l tick with accesses :=
      [{ lane := 0, addr := launchQuad g a * 64 + launchIndex g a, data := s1.stashBytes x.tid (g.regs.sc a.toNat).toNat 128 }] })

section

variable {s s1 : State} {x : Issue} {g : Group} {d a : BitVec 7} {l : BitVec 4} {t : Team}

theorem exec_launch : exec (.launch d a l) s = issue s (.launch d a l) fun s x g => match Store.find s.teams x.tid with
    | none => .done s
    | some t =>
      let off := (g.regs.sc a.toNat).toNat
      let o := launchOp x g d l s.mod.tick
      if s.launchHeld x g then .wait (waitFor (decide (255 ≤ g.eng.count 3)) 3 (g.before true))
      else if off % 128 ≠ 0 then .done (s.launchBegun x g { o with failure := some (.misaligned, 0) })
      else if t.id.stashBytes < off + 128 ∨ (!(s.part t.id.part).regs.members.contains (launchQuad g a)) = true ∨
          (s.queue (launchQuad g a) (launchIndex g a)).owner ≠ t.id.vdev then .done (s.launchBegun x g { o with failure := some (.permission, 0) })
      else if s.engineHolds x.gid (s.stashLines x.tid off 128) false then .wait (.order (s.engineHolders x.gid (s.stashLines x.tid off 128) false))
      else s.launchReads x g d a l s.mod.tick (s.touch x.tid off 128 false) := rfl

variable (h : Issues s (.launch d a l) x g) (ht : Store.find (s.openIssue x).teams x.tid = some t)

include h ht

theorem launch_waits (hh : (s.openIssue x).launchHeld x g = true) :
    Waits s (.launch d a l) x (if 255 ≤ g.eng.count 3 then .full 3 else .order (g.before true)) :=
  issue_waits h exec_launch (by
    simp only [ht, hh, if_true, waitFor, decide_eq_true_eq])

variable (hh : (s.openIssue x).launchHeld x g = false)

include hh

theorem launch_misaligned (hm : (g.regs.sc a.toNat).toNat % 128 ≠ 0) : Steps s (.launch d a l) x g
    ((s.openIssue x).launchBegun x g { launchOp x g d l s.mod.tick with failure := some (.misaligned, 0) }) :=
  issue_steps h exec_launch (by
    simp only [ht, openIssue_mod]
    exact (if_neg (Bool.eq_false_iff.mp hh)).trans (if_pos hm))

variable (hm : (g.regs.sc a.toNat).toNat % 128 = 0)

include hm

theorem launch_denied (hd : (s.openIssue x).launchDenied g a t) : Steps s (.launch d a l) x g
    ((s.openIssue x).launchBegun x g { launchOp x g d l s.mod.tick with failure := some (.permission, 0) }) :=
  issue_steps h exec_launch (by
    simp only [ht, openIssue_mod]
    exact (if_neg (Bool.eq_false_iff.mp hh)).trans ((if_neg (not_not.mpr hm)).trans (if_pos (by rw [Bool.not_eq_true']; exact hd))))

variable (hd : ¬ (s.openIssue x).launchDenied g a t)

include hd

omit h ht hh hm in
theorem launch_allowed : ¬ (t.id.stashBytes < (g.regs.sc a.toNat).toNat + 128 ∨
    (!((s.openIssue x).part t.id.part).regs.members.contains (launchQuad g a)) = true ∨
      ((s.openIssue x).queue (launchQuad g a) (launchIndex g a)).owner ≠ t.id.vdev) := by
  rw [Bool.not_eq_true']
  exact hd

theorem launch_held (hl : (s.openIssue x).engineHolders x.gid ((s.openIssue x).stashLines x.tid (g.regs.sc a.toNat).toNat 128) false ≠ []) :
    Waits s (.launch d a l) x
      (.order ((s.openIssue x).engineHolders x.gid ((s.openIssue x).stashLines x.tid (g.regs.sc a.toNat).toNat 128) false)) :=
  issue_waits h exec_launch (by
    simp only [ht]
    exact (if_neg (Bool.eq_false_iff.mp hh)).trans ((if_neg (not_not.mpr hm)).trans ((if_neg (launch_allowed hd)).trans (if_pos (holders_wait hl)))))

variable (hl : (s.openIssue x).engineHolders x.gid ((s.openIssue x).stashLines x.tid (g.regs.sc a.toNat).toNat 128) false = [])
  {r : State × Option AccessFail} (hr : (s.openIssue x).touch x.tid (g.regs.sc a.toNat).toNat 128 false = r)

include hl hr

theorem launch_readWaits {w : Wait} (hw : (s.openIssue x).launchReads x g d a l s.mod.tick r = .wait w) : Waits s (.launch d a l) x w :=
  issue_waits h exec_launch (by
    simp only [ht, openIssue_mod, hr]
    exact (if_neg (Bool.eq_false_iff.mp hh)).trans ((if_neg (not_not.mpr hm)).trans ((if_neg (launch_allowed hd)).trans
      ((if_neg (no_holder_waits hl)).trans hw))))

theorem launch_readDone {s' : State} (hw : (s.openIssue x).launchReads x g d a l s.mod.tick r = .done s') : Steps s (.launch d a l) x g s' :=
  issue_steps h exec_launch (by
    simp only [ht, openIssue_mod, hr]
    exact (if_neg (Bool.eq_false_iff.mp hh)).trans ((if_neg (not_not.mpr hm)).trans ((if_neg (launch_allowed hd)).trans
      ((if_neg (no_holder_waits hl)).trans hw))))

end

/-! ### The entry of a packet, and the ports -/

section

variable {s : State} {gid : Nat} {g : Group} {o : LongOp} {qn : Nat} {data : List Byte}

theorem exec_launchPacketEntry (hg : Store.find s.groups gid = some g) (h : s.launchEnters gid g = some (o, qn, data)) :
    exec (.launchPacketEntry gid) s = .next
      ((((s.enqueue (qn / 64) (qn % 64) data).modOp gid o.serial fun o => { o with probing := some 1 }).finishWork gid 3 o.serial).reportLaunches gid) := by
  change execLaunchPacketEntry gid s = _
  simp only [execLaunchPacketEntry, hg, h]

/-- A packet enters a queue that has room, and before every other that waits for the queue. -/
theorem launchEnters_first (h : s.launchEnters gid g = some (o, qn, data)) : (s.queue (qn / 64) (qn % 64)).packets.length < 32 ∧
    ∀ k g2 o2 data2, Store.find s.groups k = some g2 → (o2, qn, data2) ∈ g2.waitingLaunches → launchBefore k o2 gid o = false := by
  have hp := List.find?_some h
  simp only [Bool.and_eq_true, decide_eq_true_eq, List.all_eq_true] at hp
  refine ⟨hp.1, fun k g2 o2 data2 hk hm => ?_⟩
  simpa using hp.2 _ (Store.mem_of_find hk) _ hm

theorem exec_launchPortWrite {q n : Nat} (hq : q < 4) (hn : n < 64) : exec (.launchPortWrite q n data) s = .next (s.postPacket q n data) :=
  if_neg (by omega)

end

/-! ### The acceptance of a packet -/

/-- Why a partition refuses a packet of a device. -/
def State.refusesPacket (s : State) (part : Nat) (v : Vdev) (p : Packet) : Option Nat :=
  packetReason p.bytes (s.part part).regs.members (descRh v.desc) (descRw v.desc) (carveStash v.vcarve)

section

variable {s : State} {q n k : Nat} {p : Packet} {rest : List Packet} {v : Vdev} (h : s.acceptable q n = true) (hp : (s.queue q n).packets = p :: rest)
  (hv : Store.find s.vdevs (s.queue q n).owner = some v) (hk : freeIndex (s.part (s.partOfQuad q)).disp.launches 256 = some k)

include h hp hv hk

theorem exec_packetAccept_refused {r : Nat} (hr : s.refusesPacket (s.partOfQuad q) v p = some r) : exec (.packetAccept q n) s = .next
    (((s.modQueue q n fun w => { w with packets := rest }).writeCompletion (s.partOfQuad q) (s.queue q n).owner p.bytes (if r = 16 then 5 else 4) r
      none).cancelDependents (s.partOfQuad q) (s.queue q n).owner (pkCompBmp p.bytes)) := by
  rw [State.refusesPacket] at hr
  change execPacketAccept q n s = _
  simp only [execPacketAccept, h, hp, hv, hk, hr]

theorem exec_packetAccept_taken (hr : s.refusesPacket (s.partOfQuad q) v p = none) : exec (.packetAccept q n) s = .next
    ((s.modDisp (s.partOfQuad q) fun d => { d with
      launches := Store.put d.launches k
        { quad := q, queue := n, vdev := (s.queue q n).owner, packet := p.bytes, accepted := s.mod.tick, order := d.acceptOrder, prev := (s.queue q n).last },
      acceptOrder := d.acceptOrder + 1, decide := true }).modQueue q n fun w =>
        { w with last := some (s.part (s.partOfQuad q)).disp.acceptOrder }) := by
  rw [State.refusesPacket] at hr
  change execPacketAccept q n s = _
  simp only [execPacketAccept, h, hp, hv, hk, hr]

end

/-- Settles O43: LAUNCH by its checks in their order and what the read of its packet answers, and each event by what it finds. Points that the manual leaves
open follow the model's reading (logs 20 and 27). -/
theorem launchResult : Obligations.LaunchResult := by
  unfold Obligations.LaunchResult
  refine ⟨fun s x g d a l t h ht => ?issue, fun s gid g o qn data => exec_launchPacketEntry, fun s gid g o qn data _ => launchEnters_first,
    fun s q n data => exec_launchPortWrite, fun s q n p rest v k => fun h hp hv hk =>
      ⟨fun r => exec_packetAccept_refused h hp hv hk, exec_packetAccept_taken h hp hv hk⟩⟩
  simp only [← launchQuad_eq, ← launchIndex_eq]
  exact ⟨launch_waits h ht, launch_misaligned h ht, launch_denied h ht, launch_held h ht,
    fun s1 hh hm hd hl hr => launch_readWaits h ht hh hm hd hl hr rfl, fun s1 c hh hm hd hl hr => launch_readDone h ht hh hm hd hl hr rfl,
    fun s1 site hh hm hd hl hr => launch_readDone h ht hh hm hd hl hr rfl, fun s1 hh hm hd hl hr => launch_readDone h ht hh hm hd hl hr rfl⟩

end Sys2Proof.Machine


/-! O49: the commands on a context (R327, R330, R354 to R356, R360, R406, R408): SAVE, RESTORE, CHECKPOINT, MIGRATE_OUT and MIGRATE_IN, each answer with what
leads to it. -/

namespace Sys2Proof.Machine

section

variable {s : State} {src : CommandSource} {c : Command}

/-! ### SAVE -/

/-- A buffer that SAVE takes: a page of the host's memory and what follows. -/
def State.saveBuffer (s : State) (c : Command) : Prop := c.get 8 8 % 4096 = 0 ∧ s.hostRange (c.get 8 8) (max (c.get 16 8) 1) = true

theorem not_saveBuffer_iff : ¬ s.saveBuffer c ↔ c.get 8 8 % 4096 ≠ 0 ∨ (!s.hostRange (c.get 8 8) (max (c.get 16 8) 1)) = true := by
  simp only [State.saveBuffer, not_and_or, Bool.not_eq_true', Bool.not_eq_true, ne_eq]

section

variable {m : Nat} {v : Vdev} (h : Runs s (.mailbox m) 0x04 0 c) (hv : Store.find (s.taken (.mailbox m)).vdevs (c.get 0 1) = some v)

include h hv

omit h in
theorem exec_save : ∃ body, exec (.save (.mailbox m)) s = s.runCommand (.mailbox m) 0x04 0 body ∧ body c (s.taken (.mailbox m)) =
    if c.get 8 8 % 4096 ≠ 0 ∨ (!(s.taken (.mailbox m)).hostRange (c.get 8 8) (max (c.get 16 8) 1)) = true then .refused 1 0
    else match v.cannotSave with
      | some st => .refused st 0
      | none => .going ((s.taken (.mailbox m)).startSave (c.get 0 1) (.save m (c.get 8 8) (c.get 16 8))) :=
  ⟨_, (rfl : _ = execSave (.mailbox m) s), by simp only [hv] <;> rfl⟩

theorem save_refusesBuffer (hn : ¬ (s.taken (.mailbox m)).saveBuffer c) : Refuses s (.save (.mailbox m)) (.mailbox m) 1 := by
  obtain ⟨body, he, hbody⟩ := exec_save hv
  exact command_refuses h he (hbody.trans (if_pos (not_saveBuffer_iff.mp hn)))

variable (hk : (s.taken (.mailbox m)).saveBuffer c)

include hk

theorem save_refusesPhase {st : Nat} (hp : v.cannotSave = some st) : Refuses s (.save (.mailbox m)) (.mailbox m) st := by
  obtain ⟨body, he, hbody⟩ := exec_save hv
  exact command_refuses h he (hbody.trans ((if_neg fun hb => not_saveBuffer_iff.mpr hb hk).trans (by rw [hp])))

theorem save_goesOn (hp : v.cannotSave = none) : exec (.save (.mailbox m)) s =
    .next ((s.taken (.mailbox m)).startSave (c.get 0 1) (.save m (c.get 8 8) (c.get 16 8))) := by
  obtain ⟨body, he, hbody⟩ := exec_save hv
  exact command_goesOn h he (hbody.trans ((if_neg fun hb => not_saveBuffer_iff.mpr hb hk).trans (by rw [hp])))

end

/-! ### RESTORE -/

/-- What RESTORE does with the bytes of an image (R330). -/
def State.restores (s : State) (c : Command) (v : Vdev) (b : List Byte) : Reply := match s.imageRefusal v (b.take (c.get 16 8)) with
  | some r => .refused 1 r
  | none => match v.saved.image with
    | none => .refused 1 5
    | some i =>
      if !s.launchRoom (descPart v.desc) (c.get 0 1) i then .refused 2 0
      else .done ((match i.epoch with
        | some e => s.writePages (descPart v.desc) (c.get 0 1) v e
        | none => s).moveIn (descPart v.desc) (c.get 0 1) i) []

/-- The bytes of the image that RESTORE names, as they are read. -/
def State.restoreRead (s : State) (src : CommandSource) (c : Command) : State × Option (List Byte) := s.commandRead src (c.get 8 8) (max (c.get 16 8) 1)

section

variable {v : Vdev} (h : Runs s src 0x05 0 c) (hv : Store.find (s.taken src).vdevs (c.get 0 1) = some v)

include h hv

omit h in
theorem exec_restore : ∃ body, exec (.restore src) s = s.runCommand src 0x05 0 body ∧ body c (s.taken src) =
    if v.lost then .refused 3 0
    else if (s.taken src).isResident (c.get 0 1) v then (match v.saved.phase with
      | .stopping _ => .refused 2 0
      | _ => .refused 3 0)
    else if v.cannotSave = some 2 then .refused 2 0
    else match (s.taken src).restoreRead src c with
      | (_, none) => .refused 1 0
      | (s1, some b) => s1.restores c v b :=
  ⟨_, (rfl : _ = execRestore src s), by simp only [hv] <;> rfl⟩

theorem restore_refusesLost (hl : v.lost = true) : Refuses s (.restore src) src 3 := by
  obtain ⟨body, he, hbody⟩ := exec_restore hv
  exact command_refuses h he (hbody.trans (if_pos hl))

variable (hl : v.lost = false)

include hl

theorem restore_refusesResident (hr : (s.taken src).isResident (c.get 0 1) v = true) (hp : v.saved.phase = .running) :
    Refuses s (.restore src) src 3 := by
  obtain ⟨body, he, hbody⟩ := exec_restore hv
  exact command_refuses h he (hbody.trans ((if_neg (Bool.eq_false_iff.mp hl)).trans ((if_pos hr).trans (by rw [hp]))))

variable (hr : (s.taken src).isResident (c.get 0 1) v = false) (hc : v.cannotSave ≠ some 2) {s1 : State} {b : List Byte}
  (ha : (s.taken src).restoreRead src c = (s1, some b))

include hr hc ha

omit h in
/-- RESTORE of a context that is not here comes to the bytes that it reads. -/
theorem exec_restoreRead : ∃ body, exec (.restore src) s = s.runCommand src 0x05 0 body ∧ body c (s.taken src) = s1.restores c v b := by
  obtain ⟨body, he, hbody⟩ := exec_restore hv
  exact ⟨body, he, hbody.trans ((if_neg (Bool.eq_false_iff.mp hl)).trans ((if_neg (Bool.eq_false_iff.mp hr)).trans ((if_neg hc).trans (by rw [ha]))))⟩

theorem restore_refusesImage {r : Nat} (hi : s1.imageRefusal v (b.take (c.get 16 8)) = some r) :
    exec (.restore src) s = .next ((s.taken src).endCommand src 1 r []) := by
  obtain ⟨body, he, hbody⟩ := exec_restoreRead hv hl hr hc ha
  rw [he, runCommand_runs h, hbody, State.restores, hi]

variable {i : Image} (hi : s1.imageRefusal v (b.take (c.get 16 8)) = none) (him : v.saved.image = some i)

include hi him

theorem restore_refusesRoom (hroom : s1.launchRoom (descPart v.desc) (c.get 0 1) i = false) : Refuses s (.restore src) src 2 := by
  obtain ⟨body, he, hbody⟩ := exec_restoreRead hv hl hr hc ha
  exact command_refuses h he (hbody.trans (by simp only [State.restores, hi, him, hroom, Bool.not_false, if_true]))

variable (hroom : s1.launchRoom (descPart v.desc) (c.get 0 1) i = true)

include hroom

theorem restore_endsImage (hep : i.epoch = none) : Ends s (.restore src) src (s1.moveIn (descPart v.desc) (c.get 0 1) i) [] := by
  obtain ⟨body, he, hbody⟩ := exec_restoreRead hv hl hr hc ha
  exact command_ends h he (hbody.trans (by simp only [State.restores, hi, him, hroom, Bool.not_true, Bool.false_eq_true, if_false, hep]))

theorem restore_endsEpoch {e : Nat} (hep : i.epoch = some e) : Ends s (.restore src) src
    ((s1.writePages (descPart v.desc) (c.get 0 1) v e).moveIn (descPart v.desc) (c.get 0 1) i) [] := by
  obtain ⟨body, he, hbody⟩ := exec_restoreRead hv hl hr hc ha
  exact command_ends h he (hbody.trans (by simp only [State.restores, hi, him, hroom, Bool.not_true, Bool.false_eq_true, if_false, hep]))

end

/-! ### CHECKPOINT -/

/-- The state once the device that a command names has a checkpoint control. -/
def State.setCheckpoint (s : State) (c : Command) (k : Checkpoint) : State := s.modVdev (c.get 0 1) fun v => { v with ckpt := k }

/-- The checkpoint of a device once the command has set its CKCTL. -/
def Command.checkpoint (c : Command) (k : Checkpoint) (w : BitVec 64) : Checkpoint := { k with ctl := w, length := c.get 16 8 }

/-- The checkpoint that starts at epoch 1 (R355). -/
def State.firstEpoch (s : State) (c : Command) (w : BitVec 64) : Checkpoint := { ctl := w, epoch := 1, length := c.get 16 8, nextPage := s.mod.tick }

section

variable {v : Vdev} {w : BitVec 64} (hv : Store.find (s.taken src).vdevs (c.get 0 1) = some v) (hw : c.ckctl = some w)

include hv hw

theorem exec_checkpointWith (mode : Nat) (f : State → Nat → Vdev → BitVec 64 → Nat → Reply) : ∃ body,
    checkpointWith s src mode f = s.runCommand src 0x08 mode body ∧ body c (s.taken src) = match v.cannotCheckpoint with
      | some st => .refused st 0
      | none => f (s.taken src) (c.get 0 1) v w (c.get 16 8) :=
  ⟨_, rfl, by simp only [hv, hw] <;> rfl⟩

/-- A CHECKPOINT of a device that cannot be checkpointed is refused, in all its modes. -/
theorem checkpointWith_refused {i : Instr} {mode st : Nat} {f : State → Nat → Vdev → BitVec 64 → Nat → Reply}
    (he : exec i s = checkpointWith s src mode f) (h : Runs s src 0x08 mode c) (hc : v.cannotCheckpoint = some st) : Refuses s i src st := by
  obtain ⟨body, hrun, hbody⟩ := exec_checkpointWith hv hw mode f
  exact command_refuses h (he.trans hrun) (hbody.trans (by rw [hc]))

theorem checkpoint_refused (i : Instr) (sub st : Nat) (hc : v.cannotCheckpoint = some st) (hn : commandNames i = some (src, 0x08, sub))
    (h : Runs s src 0x08 sub c) : Refuses s i src st := by
  unfold commandNames at hn
  split at hn
  case h_8 =>
    cases hn
    exact checkpointWith_refused hv hw (rfl : _ = execCheckpointDisable src s) h hc
  case h_9 =>
    cases hn
    exact checkpointWith_refused hv hw (rfl : _ = execCheckpointRun src s) h hc
  case h_10 =>
    cases hn
    exact checkpointWith_refused hv hw (rfl : _ = execCheckpointCloseNow src s) h hc
  case h_46 | h_47 => split at hn <;> cases hn
  all_goals cases hn

variable (hc : v.cannotCheckpoint = none)

include hc

theorem checkpointWith_ends {i : Instr} {mode : Nat} {f : State → Nat → Vdev → BitVec 64 → Nat → Reply} {t : State} {r : List Byte}
    (he : exec i s = checkpointWith s src mode f) (h : Runs s src 0x08 mode c)
    (hf : f (s.taken src) (c.get 0 1) v w (c.get 16 8) = .done t r) : Ends s i src t r := by
  obtain ⟨body, hrun, hbody⟩ := exec_checkpointWith hv hw mode f
  exact command_ends h (he.trans hrun) (hbody.trans (by rw [hc, hf]))

theorem checkpointWith_refuses {i : Instr} {mode st : Nat} {f : State → Nat → Vdev → BitVec 64 → Nat → Reply}
    (he : exec i s = checkpointWith s src mode f) (h : Runs s src 0x08 mode c)
    (hf : f (s.taken src) (c.get 0 1) v w (c.get 16 8) = .refused st 0) : Refuses s i src st := by
  obtain ⟨body, hrun, hbody⟩ := exec_checkpointWith hv hw mode f
  exact command_refuses h (he.trans hrun) (hbody.trans (by rw [hc, hf]))

theorem checkpointDisable_ends (h : Runs s src 0x08 0 c) : Ends s (.checkpointDisable src) src
    ((s.taken src).setCheckpoint c (c.checkpoint v.ckpt w)) (c.checkpoint v.ckpt w).reply :=
  checkpointWith_ends hv hw hc (rfl : _ = execCheckpointDisable src s) h rfl

section

variable (h : Runs s src 0x08 1 c)

include h

theorem checkpointRun_ends (hk : (s.taken src).regionOk (descPart v.desc) (c.get 0 1) ((s.taken src).firstEpoch c w).region (c.get 16 8) = true) :
    Ends s (.checkpointRun src) src ((s.taken src).setCheckpoint c ((s.taken src).firstEpoch c w)) ((s.taken src).firstEpoch c w).reply :=
  checkpointWith_ends hv hw hc (rfl : _ = execCheckpointRun src s) h (if_pos hk)

theorem checkpointRun_refused (hk : (s.taken src).regionOk (descPart v.desc) (c.get 0 1) ((s.taken src).firstEpoch c w).region (c.get 16 8) = false) :
    Refuses s (.checkpointRun src) src 1 :=
  checkpointWith_refuses hv hw hc (rfl : _ = execCheckpointRun src s) h (if_neg (Bool.eq_false_iff.mp hk))

end

variable (h : Runs s src 0x08 2 c)

include h

theorem checkpointCloseNow_refusesMode (hm : v.ckpt.mode ≠ 1 ∨ v.saved.phase = .saved) : Refuses s (.checkpointCloseNow src) src 3 :=
  checkpointWith_refuses hv hw hc (rfl : _ = execCheckpointCloseNow src s) h (if_pos hm)

variable (hm : v.ckpt.mode = 1) (hp : v.saved.phase ≠ .saved)

include hm hp

omit hv hw hc h in
theorem runsCheckpoint : ¬ (v.ckpt.mode ≠ 1 ∨ v.saved.phase = .saved) := not_or.mpr ⟨not_not.mpr hm, hp⟩

theorem checkpointCloseNow_refusesRegion (hr : (c.checkpoint v.ckpt (w - (1 <<< 56))).region ≠ v.ckpt.region) : Refuses s (.checkpointCloseNow src) src 1 :=
  checkpointWith_refuses hv hw hc (rfl : _ = execCheckpointCloseNow src s) h ((if_neg (runsCheckpoint hm hp)).trans (if_pos hr))

theorem checkpointCloseNow_ends (hr : (c.checkpoint v.ckpt (w - (1 <<< 56))).region = v.ckpt.region) : Ends s (.checkpointCloseNow src) src
    (((s.taken src).setCheckpoint c (c.checkpoint v.ckpt (w - (1 <<< 56)))).startSave (c.get 0 1) .epoch)
    (c.checkpoint v.ckpt (w - (1 <<< 56))).reply :=
  checkpointWith_ends hv hw hc (rfl : _ = execCheckpointCloseNow src s) h ((if_neg (runsCheckpoint hm hp)).trans (if_neg (not_not.mpr hr)))

end

/-! ### MIGRATE_OUT -/

/-- A MIGRATE_OUT of a form that is refused: no endpoint, a rate outside expert mode, or another context. -/
def Command.badMigrate (c : Command) (v : Vdev) : Prop := 2048 ≤ c.get 2 2 ∨ (c.expert = false ∧ c.get 4 4 ≠ 0) ∨ c.get 8 4 ≠ v.ctx.ctxid

/-- A device of which the migration away from here is done. -/
def Vdev.migrated (v : Vdev) : Prop := v.mig.phase = 4 ∧ v.mig.incoming = false

/-- The migration that a MIGRATE_OUT starts. -/
def Command.migration (c : Command) (m : Nat) : Migration :=
  { phase := 1, peer := c.get 2 2, mailbox := some m, rate := if c.get 4 4 = 0 then 4096 else c.get 4 4 }

/-- What MIGRATE_OUT does with a device that may be saved (R360). -/
def State.startsMigration (s : State) (c : Command) (m : Nat) (v : Vdev) : Reply :=
  if (!(s.mayMigrate v (c.get 2 2)).1) = true then .refused 3 0
  else .going (((s.mayMigrate v (c.get 2 2)).2.modVdev (c.get 0 1) fun v => { v with mig := c.migration m }).startSave (c.get 0 1) (.migrate m))

section

variable {m : Nat} {v : Vdev} (h : Runs s (.mailbox m) 0x06 0 c) (hv : Store.find (s.taken (.mailbox m)).vdevs (c.get 0 1) = some v)

include h hv

omit h in
theorem exec_migrateOut : ∃ body, exec (.migrateOut (.mailbox m)) s = s.runCommand (.mailbox m) 0x06 0 body ∧ body c (s.taken (.mailbox m)) =
    if 2048 ≤ c.get 2 2 ∨ ((!c.expert) = true ∧ c.get 4 4 ≠ 0) ∨ c.get 8 4 ≠ v.ctx.ctxid then .refused 1 0
    else if v.lost then .refused 3 0
    else if v.mig.phase = 4 ∧ (!v.mig.incoming) = true then .done (s.taken (.mailbox m)) (migrateReply 4 v.mig.sent.length)
    else match v.cannotSave with
      | some st => .refused st 0
      | none => (s.taken (.mailbox m)).startsMigration c m v :=
  ⟨_, (rfl : _ = execMigrateOut (.mailbox m) s), by simp only [hv] <;> rfl⟩

theorem migrateOut_refusesForm (hb : c.badMigrate v) : Refuses s (.migrateOut (.mailbox m)) (.mailbox m) 1 := by
  obtain ⟨body, he, hbody⟩ := exec_migrateOut hv
  exact command_refuses h he (hbody.trans (if_pos (by rw [Bool.not_eq_true']; exact hb)))

variable (hb : ¬ c.badMigrate v)

include hb

omit h hv in
theorem goodMigrate : ¬ (2048 ≤ c.get 2 2 ∨ ((!c.expert) = true ∧ c.get 4 4 ≠ 0) ∨ c.get 8 4 ≠ v.ctx.ctxid) := by
  rw [Bool.not_eq_true']
  exact hb

theorem migrateOut_refusesLost (hl : v.lost = true) : Refuses s (.migrateOut (.mailbox m)) (.mailbox m) 3 := by
  obtain ⟨body, he, hbody⟩ := exec_migrateOut hv
  exact command_refuses h he (hbody.trans ((if_neg (goodMigrate hb)).trans (if_pos hl)))

variable (hl : v.lost = false)

include hl

theorem migrateOut_ends (hd : v.migrated) : Ends s (.migrateOut (.mailbox m)) (.mailbox m) (s.taken (.mailbox m))
    (bytesOf 1 4 ++ bytesOf 7 0 ++ bytesOf 8 v.mig.sent.length) := by
  obtain ⟨body, he, hbody⟩ := exec_migrateOut hv
  exact command_ends h he (hbody.trans ((if_neg (goodMigrate hb)).trans ((if_neg (Bool.eq_false_iff.mp hl)).trans
    (if_pos (by rw [Bool.not_eq_true']; exact hd)))))

variable (hd : ¬ v.migrated)

include hd

omit h in
/-- MIGRATE_OUT of a device that is still here comes to whether the device can be saved. -/
theorem exec_migrateOut_here : ∃ body, exec (.migrateOut (.mailbox m)) s = s.runCommand (.mailbox m) 0x06 0 body ∧ body c (s.taken (.mailbox m)) =
    match v.cannotSave with
    | some st => .refused st 0
    | none => (s.taken (.mailbox m)).startsMigration c m v := by
  obtain ⟨body, he, hbody⟩ := exec_migrateOut hv
  exact ⟨body, he, hbody.trans ((if_neg (goodMigrate hb)).trans ((if_neg (Bool.eq_false_iff.mp hl)).trans
    (if_neg (by rw [Bool.not_eq_true']; exact hd))))⟩

theorem migrateOut_refusesPhase {st : Nat} (hc : v.cannotSave = some st) : Refuses s (.migrateOut (.mailbox m)) (.mailbox m) st := by
  obtain ⟨body, he, hbody⟩ := exec_migrateOut_here hv hb hl hd
  exact command_refuses h he (hbody.trans (by rw [hc]))

variable (hc : v.cannotSave = none) {s1 : State}

include hc

theorem migrateOut_refusesPeer (hp : (s.taken (.mailbox m)).mayMigrate v (c.get 2 2) = (false, s1)) :
    Refuses s (.migrateOut (.mailbox m)) (.mailbox m) 3 := by
  obtain ⟨body, he, hbody⟩ := exec_migrateOut_here hv hb hl hd
  exact command_refuses h he (hbody.trans (by simp only [hc, State.startsMigration, hp, Bool.not_false, if_true]))

theorem migrateOut_goesOn (hp : (s.taken (.mailbox m)).mayMigrate v (c.get 2 2) = (true, s1)) : exec (.migrateOut (.mailbox m)) s =
    .next ((s1.modVdev (c.get 0 1) fun v => { v with mig := c.migration m }).startSave (c.get 0 1) (.migrate m)) := by
  obtain ⟨body, he, hbody⟩ := exec_migrateOut_here hv hb hl hd
  exact command_goesOn h he (hbody.trans (by simp only [hc, State.startsMigration, hp, Bool.not_true, Bool.false_eq_true, if_false]))

end

/-! ### MIGRATE_IN -/

/-- A MIGRATE_IN that is refused: no endpoint, or a descriptor that the module does not take. -/
def State.badArrival (s : State) (c : Command) : Prop :=
  2048 ≤ c.get 64 2 ∨ Store.has s.vdevs (field (c.bytes 0 64) 0 1) = true ∨ s.descriptorOk (c.bytes 0 64) = false ∨ s.canHold (c.bytes 0 64) = false

/-- The device that MIGRATE_IN makes, whose context is still to come (R360). -/
def Command.arrivingVdev (c : Command) : Vdev :=
  { desc := c.bytes 0 64
    ctx := { ctl := BitVec.ofNat 64 (field (c.bytes 0 64) 4 8), ctxid := c.get 68 4 }
    faults := { base := field (c.bytes 0 64) 32 8 }
    tab := { dirtyBase := field (c.bytes 0 64) 40 8, dirtyLen := field (c.bytes 0 64) 48 4 }
    vcarve := BitVec.ofNat 32 (field (c.bytes 0 64) 16 4)
    saved := { phase := .saved }
    mig := { incoming := true, peer := c.get 64 2 } }

section

variable (h : Runs s src 0x07 0 c)

include h

omit h in
theorem exec_migrateIn : ∃ body, exec (.migrateIn src) s = s.runCommand src 0x07 0 body ∧ body c (s.taken src) =
    if 2048 ≤ c.get 64 2 ∨ Store.has (s.taken src).vdevs (field (c.bytes 0 64) 0 1) = true ∨ (!(s.taken src).descriptorOk (c.bytes 0 64)) = true ∨
      (!(s.taken src).canHold (c.bytes 0 64)) = true then .refused 1 0
    else .done ((s.taken src).enterVdev (c.bytes 0 64) c.arrivingVdev) [] :=
  ⟨_, (rfl : _ = execMigrateIn src s), rfl⟩

theorem migrateIn_refused (hb : (s.taken src).badArrival c) : Refuses s (.migrateIn src) src 1 := by
  obtain ⟨body, he, hbody⟩ := exec_migrateIn
  exact command_refuses h he (hbody.trans (if_pos (by rw [Bool.not_eq_true', Bool.not_eq_true']; exact hb)))

theorem migrateIn_ends (hb : ¬ (s.taken src).badArrival c) :
    Ends s (.migrateIn src) src ((s.taken src).enterVdev (c.bytes 0 64) c.arrivingVdev) [] := by
  obtain ⟨body, he, hbody⟩ := exec_migrateIn
  exact command_ends h he (hbody.trans (if_neg (by rw [Bool.not_eq_true', Bool.not_eq_true']; exact hb)))

end

end

/-- Settles O49: each command by its answers. What RESTORE knows an image by is log 12 (DESIGN CHOICE), another module's answer to a MIGRATE_IN log 19
(DESIGN CHOICE); points that the manual leaves open follow the model's reading (logs 28, 29, 31 and 46). -/
theorem contextCommands : Obligations.ContextCommands := by
  unfold Obligations.ContextCommands
  intro s src c s0 vdev
  refine ⟨?save, fun v h hv => ⟨restore_refusesLost h hv, restore_refusesResident h hv, fun s1 b hl hr hc ha =>
      ⟨fun r => restore_refusesImage h hv hl hr hc ha, fun i hi him => ⟨restore_refusesRoom h hv hl hr hc ha hi him, fun hroom =>
        ⟨restore_endsImage h hv hl hr hc ha hi him hroom, fun e => restore_endsEpoch h hv hl hr hc ha hi him hroom⟩⟩⟩⟩,
    fun v w hv hw => ⟨checkpoint_refused hv hw, checkpointDisable_ends hv hw, fun hc h => ⟨checkpointRun_ends hv hw hc h, checkpointRun_refused hv hw hc h⟩,
      fun hc h => ⟨checkpointCloseNow_refusesMode hv hw hc h, checkpointCloseNow_refusesRegion hv hw hc h, checkpointCloseNow_ends hv hw hc h⟩⟩,
    ?out, fun h => ⟨migrateIn_refused h, fun hb => ⟨c.arrivingVdev, rfl, rfl, rfl, rfl, rfl, rfl, rfl, migrateIn_ends h hb⟩⟩⟩
  case save =>
    rintro m v rfl h hv
    exact ⟨save_refusesBuffer h hv, fun _ hk => save_refusesPhase h hv hk, save_goesOn h hv⟩
  case out =>
    rintro m v rfl h hv
    exact ⟨migrateOut_refusesForm h hv, migrateOut_refusesLost h hv, migrateOut_ends h hv, fun _ hb hl hd => migrateOut_refusesPhase h hv hb hl hd,
      fun _ hb hl hd hc => migrateOut_refusesPeer h hv hb hl hd hc, fun _ hb hl hd hc => migrateOut_goesOn h hv hb hl hd hc⟩

end Sys2Proof.Machine


/-! O52: the commands for debugging (R331, R332, R409, R412 to R414): DEBUG_ATTACH with its operations, DUMP by the host and by a guest, and ATTEST, each
answer with what leads to it. -/

namespace Sys2Proof.Machine

section

variable {s : State} {src : CommandSource} {c : Command}

/-- A command comes from the source that gives it. -/
theorem Gives.source {op sub : Nat} (h : Gives s src op sub c) : c.src = src := by
  obtain ⟨b, -, rfl, -, -⟩ := h.name
  rfl

/-! ### DEBUG_ATTACH -/

/-- A DEBUG_ATTACH of a form that is refused: no policy or no mode. -/
def Command.badDebug (c : Command) : Prop := 2 < c.get 2 1 ∨ 1 < c.get 3 1

/-- A debug operation ends and answers how many groups of the device are stopped. -/
def Answers (s : State) (i : Instr) (src : CommandSource) (c : Command) (t : State) : Prop := Ends s i src t (bytesOf 4 (t.stoppedNow (c.get 0 1)))

/-- A debug operation that needs a debugger. -/
def onDebugger (f : Command → Nat → Vdev → Debugger → State → Reply) (c : Command) (vdev : Nat) (v : Vdev) (s : State) : Reply :=
  match v.debugger with
  | none => .refused 3 0
  | some d => f c vdev v d s

theorem debugOn_eq {op : Nat} {f : Command → Nat → Vdev → Debugger → State → Reply} :
    debugOn s src op f = debugWith s src op (onDebugger f) := rfl

section

variable {v : Vdev} {op st : Nat} {i : Instr} {t : State} {f : Command → Nat → Vdev → State → Reply} (hv : Store.find (s.taken src).vdevs (c.get 0 1) = some v)

include hv

theorem exec_debugWith : ∃ body, debugWith s src op f = s.runCommand src 0x0E op body ∧ body c (s.taken src) =
    if v.ctx.prot then .refused 3 0 else if 2 < c.get 2 1 ∨ 1 < c.get 3 1 then .refused 1 0 else f c (c.get 0 1) v (s.taken src) :=
  ⟨_, rfl, by simp only [hv]⟩

variable (he : exec i s = debugWith s src op f) (h : Runs s src 0x0E op c)

include he h

theorem debugWith_protected (hp : v.ctx.prot = true) : Refuses s i src 3 := by
  obtain ⟨body, hrun, hbody⟩ := exec_debugWith hv
  exact command_refuses h (he.trans hrun) (hbody.trans (if_pos hp))

variable (hp : v.ctx.prot = false)

include hp

theorem debugWith_badForm (hb : c.badDebug) : Refuses s i src 1 := by
  obtain ⟨body, hrun, hbody⟩ := exec_debugWith hv
  exact command_refuses h (he.trans hrun) (hbody.trans ((if_neg (Bool.eq_false_iff.mp hp)).trans (if_pos hb)))

variable (hb : ¬ c.badDebug)

include hb

theorem debugWith_refuses (hf : f c (c.get 0 1) v (s.taken src) = .refused st 0) : Refuses s i src st := by
  obtain ⟨body, hrun, hbody⟩ := exec_debugWith hv
  exact command_refuses h (he.trans hrun) (hbody.trans ((if_neg (Bool.eq_false_iff.mp hp)).trans ((if_neg hb).trans hf)))

theorem debugWith_answers (hf : f c (c.get 0 1) v (s.taken src) = .done t (t.stoppedReply (c.get 0 1))) : Answers s i src c t := by
  obtain ⟨body, hrun, hbody⟩ := exec_debugWith hv
  exact command_ends h (he.trans hrun) (hbody.trans ((if_neg (Bool.eq_false_iff.mp hp)).trans ((if_neg hb).trans hf)))

end

/-- Every operation of DEBUG_ATTACH runs by `debugWith`, and all but attach on a debugger. -/
theorem debug_named {i : Instr} {sub : Nat} (hn : commandNames i = some (src, 0x0E, sub)) :
    ∃ f, exec i s = debugWith s src sub f ∧ (sub ≠ 0 → ∃ g, f = onDebugger g) := by
  unfold commandNames at hn
  split at hn
  case h_16 =>
    cases hn
    exact ⟨_, (rfl : _ = execDebugAttachAttach src s), fun h0 => absurd rfl h0⟩
  case h_17 =>
    cases hn
    exact ⟨_, (rfl : _ = execDebugAttachDetach src s).trans debugOn_eq, fun _ => ⟨_, rfl⟩⟩
  case h_18 =>
    cases hn
    exact ⟨_, (rfl : _ = execDebugAttachStop src s).trans debugOn_eq, fun _ => ⟨_, rfl⟩⟩
  case h_19 =>
    cases hn
    exact ⟨_, (rfl : _ = execDebugAttachStep src s).trans debugOn_eq, fun _ => ⟨_, rfl⟩⟩
  case h_20 =>
    cases hn
    exact ⟨_, (rfl : _ = execDebugAttachSetSampling src s).trans debugOn_eq, fun _ => ⟨_, rfl⟩⟩
  case h_21 =>
    cases hn
    exact ⟨_, (rfl : _ = execDebugAttachSetTriggers src s).trans debugOn_eq, fun _ => ⟨_, rfl⟩⟩
  case h_46 | h_47 => split at hn <;> cases hn
  all_goals cases hn

theorem debug_protected {v : Vdev} {i : Instr} {sub : Nat} (hv : Store.find (s.taken src).vdevs (c.get 0 1) = some v)
    (hn : commandNames i = some (src, 0x0E, sub)) (h : Runs s src 0x0E sub c) (hp : v.ctx.prot = true) : Refuses s i src 3 := by
  obtain ⟨f, he, -⟩ := debug_named hn
  exact debugWith_protected hv he h hp

theorem debug_badForm {v : Vdev} {i : Instr} {sub : Nat} (hv : Store.find (s.taken src).vdevs (c.get 0 1) = some v)
    (hn : commandNames i = some (src, 0x0E, sub)) (h : Runs s src 0x0E sub c) (hp : v.ctx.prot = false) (hb : c.badDebug) : Refuses s i src 1 := by
  obtain ⟨f, he, -⟩ := debug_named hn
  exact debugWith_badForm hv he h hp hb

theorem debug_refusesNoDebugger {v : Vdev} {i : Instr} {sub : Nat} (hv : Store.find (s.taken src).vdevs (c.get 0 1) = some v)
    (hn : commandNames i = some (src, 0x0E, sub)) (h : Runs s src 0x0E sub c) (hp : v.ctx.prot = false) (hb : ¬ c.badDebug)
    (hd : v.debugger = none) (h0 : sub ≠ 0) : Refuses s i src 3 := by
  obtain ⟨f, he, hon⟩ := debug_named hn
  obtain ⟨g, rfl⟩ := hon h0
  exact debugWith_refuses hv he h hp hb (by simp only [onDebugger, hd])

/-! ### DEBUG_ATTACH: attach -/

/-- The state once a debugger has attached to the device of a command, measured in MR7. -/
def State.attached (s : State) (c : Command) (vendor : Bool) : State :=
  (s.modVdev (c.get 0 1) fun v => { v with debugger := some { policy := c.get 2 1, vendor := vendor } }).extendMr 7 (digestOf [0, if vendor then 1 else 0])

/-- The state once a vendor's debugger may come: without the keys, when the module is provisioned (R414). -/
def State.openedToVendor (s : State) : State := if s.mod.ident.security = .provisioned then s.eraseKeys else s

section

variable {v : Vdev} (hv : Store.find (s.taken src).vdevs (c.get 0 1) = some v) (hp : v.ctx.prot = false) (hb : ¬ c.badDebug) (h : Runs s src 0x0E 0 c)

include hv hp hb h

theorem attach_refusesSecond (hd : v.debugger.isSome = true) : Refuses s (.debugAttachAttach src) src 3 :=
  debugWith_refuses hv (rfl : _ = execDebugAttachAttach src s) h hp hb (if_pos hd)

variable (hd : v.debugger = none)

include hd

theorem attach_answers (hm : c.get 3 1 = 0) : Answers s (.debugAttachAttach src) src c ((s.taken src).attached c false) := by
  refine debugWith_answers hv (rfl : _ = execDebugAttachAttach src s) h hp hb ?_
  have hvendor : (c.get 3 1 == 1) = false := by rw [hm]; rfl
  simp only [hd, hvendor, Option.isSome_none, Bool.false_eq_true, false_and, if_false] <;> rfl

variable (hm : c.get 3 1 = 1)

include hm

theorem attach_refusesVendor (hn : (s.taken src).protectedResident = true ∨ (s.taken src).tokenGood c = false) :
    Refuses s (.debugAttachAttach src) src 3 :=
  debugWith_refuses hv (rfl : _ = execDebugAttachAttach src s) h hp hb
    ((if_neg (by simp [hd])).trans (if_pos ⟨beq_iff_eq.mpr hm, by rwa [Bool.not_eq_true']⟩))

theorem attach_answersVendor (hn : ¬ ((s.taken src).protectedResident = true ∨ (s.taken src).tokenGood c = false)) :
    Answers s (.debugAttachAttach src) src c ((s.taken src).openedToVendor.attached c true) := by
  refine debugWith_answers hv (rfl : _ = execDebugAttachAttach src s) h hp hb
    ((if_neg (by simp [hd])).trans ((if_neg fun hr => hn (by rw [← Bool.not_eq_true']; exact hr.2)).trans ?_))
  have hvendor : (c.get 3 1 == 1) = true := beq_iff_eq.mpr hm
  simp only [hvendor, true_and, if_true] <;> rfl

end

/-! ### DEBUG_ATTACH: the operations of a debugger -/

/-- The state once a debugger has let its device go on and has left it (R409). -/
def State.debuggerGone (s : State) (vdev : Nat) : State :=
  (((s.groupsOfVdev vdev).map (·.1)).foldl (fun s k => s.modGroup k fun g => g.released (s.core (coreOf k)).clk) s).modVdev vdev fun v =>
    { v with
      debugger := none
      saved := { v.saved with teams := v.saved.teams.map fun t => { t with groups := t.groups.map fun g => g.released 0 } }
      ctx := if v.ctx.haltFault.isNone then { v.ctx with halted := false } else v.ctx }

/-- The state once no partition samples a device. -/
def State.samplingOff (s : State) (vdev : Nat) : State :=
  { s with parts := Store.mapVals s.parts fun _ p => if (p.sampling.map (·.vdev)) = some vdev then { p with sampling := none } else p }

theorem samplingOff_eq {vdev : Nat} {quiet : Part → Part}
    (hq : ∀ p, quiet p = if (p.sampling.map (·.vdev)) = some vdev then { p with sampling := none } else p) :
    { s with parts := Store.mapVals s.parts fun _ p => quiet p } = s.samplingOff vdev := by
  simp only [State.samplingOff, hq]

/-- The team that a debug operation names, among those of its device. -/
abbrev State.debugTeam (s : State) (c : Command) : Option (Nat × Team) := (s.teamsOf (c.get 0 1)).find? fun t => t.2.id.number == c.get 4 4

/-- The groups that a debug operation names. -/
abbrev State.debugNamed (s : State) (c : Command) : List (Nat × Group) := s.named (c.get 0 1) (c.get 4 4) (c.get 8 1)

/-- A stop that names no group, or no team. -/
def State.stopsNone (s : State) (c : Command) : Prop := (c.get 2 1 = 0 ∧ s.debugNamed c = []) ∨ (c.get 2 1 = 1 ∧ s.debugTeam c = none)

theorem stopsNone_iff : s.stopsNone c ↔ (c.get 2 1 = 0 ∧ ((s.debugNamed c).head?.map (·.1)).isNone = true) ∨
    (c.get 2 1 = 1 ∧ ((s.debugTeam c).map (·.1)).isNone = true) := by
  simp only [State.stopsNone, Option.isNone_map, Option.isNone_iff_eq_none, List.head?_eq_none_iff]

/-- A group that may take a step under a debugger: a stopped one, or one of a device that a debugger has halted. -/
def mayStep (v : Vdev) (kv : Nat × Group) : Bool := match kv.2.stops.stop with
  | some _ => kv.2.answerable v.ctx.trapsvc
  | none => v.ctx.halted && v.ctx.haltFault.isNone && !kv.2.flow.exited

/-- What the step operation answers once it has looked for the group that steps. -/
def State.stepReply (s : State) (vdev : Nat) : Option (Nat × Group) → Reply
  | none => .refused 3 0
  | some kv =>
    let s1 := s.modGroup kv.1 fun g =>
      let h := g.resumed (s.core (coreOf kv.1)).clk
      { h with stops := { h.stops with stepOne := true } }
    .done s1 (s1.stoppedReply vdev)

/-- The sampling that a debugger sets. -/
def Command.sampling (c : Command) : Sampling :=
  { vdev := c.get 0 1, buffer := c.get 16 8, length := c.get 24 4, rate := c.get 28 1, team := c.get 32 4, group := c.get 36 1,
    low := c.get 40 8, high := c.get 48 8 }

/-- A sampling that may be set. -/
def State.samplingOk (s : State) (c : Command) : Prop := 4 ≤ c.get 28 1 ∧ c.get 28 1 ≤ 24 ∧ s.hostRange (c.get 16 8) (max 1 (c.get 24 4)) = true ∧
  (c.get 36 1 < 32 ∨ c.get 36 1 = 0xFF) ∧ c.get 40 8 < 2 ^ 56 ∧ c.get 48 8 < 2 ^ 56

theorem not_samplingOk_iff : ¬ s.samplingOk c ↔ c.get 28 1 < 4 ∨ 24 < c.get 28 1 ∨ (!(s.hostRange (c.get 16 8) (max 1 (c.get 24 4)))) = true ∨
    (32 ≤ c.get 36 1 ∧ c.get 36 1 ≠ 0xFF) ∨ 2 ^ 56 ≤ c.get 40 8 ∨ 2 ^ 56 ≤ c.get 48 8 := by
  simp only [State.samplingOk, not_and_or, not_or, not_le, not_lt, Bool.not_eq_true', Bool.not_eq_true, ne_eq]

/-- The trigger stages that a debugger sets. -/
def Command.stages (c : Command) : List Trigger := (List.range 4).filterMap c.stage

/-- A trigger stage that may be set. -/
def Trigger.ok (t : Trigger) : Prop := t.kind ≤ 2 ∧ (t.kind = 0 → t.value < 2 ^ 56) ∧ (t.kind = 1 → 1 ≤ t.value ∧ t.value ≤ 0x1B) ∧
  (t.kind = 2 → isCounter t.selector = true)

/-- A trigger stage that is refused, as the command computes it. -/
def Trigger.bad (t : Trigger) : Bool := decide (2 < t.kind) || (t.kind == 0 && decide (2 ^ 56 ≤ t.value)) ||
  (t.kind == 1 && (t.value == 0 || decide (0x1B < t.value))) || (t.kind == 2 && !isCounter t.selector)

theorem Trigger.bad_iff (t : Trigger) : t.bad = true ↔ ¬ t.ok := by
  simp only [Trigger.bad, Trigger.ok, Bool.or_eq_true, Bool.and_eq_true, decide_eq_true_eq, beq_iff_eq, Bool.not_eq_true', not_and_or, Classical.not_imp,
    not_le, not_lt, Nat.lt_one_iff, Bool.not_eq_true, or_assoc]

theorem stages_bad_iff : c.stages.any Trigger.bad = true ↔ ∃ t ∈ c.stages, ¬ t.ok := by
  simp only [List.any_eq_true, Trigger.bad_iff]

section

variable {v : Vdev} {d : Debugger} (hv : Store.find (s.taken src).vdevs (c.get 0 1) = some v) (hp : v.ctx.prot = false) (hb : ¬ c.badDebug)
  (hd : v.debugger = some d)

include hv hp hb hd

theorem debugOn_refuses {op st : Nat} {i : Instr} {f : Command → Nat → Vdev → Debugger → State → Reply}
    (he : exec i s = debugOn s src op f) (h : Runs s src 0x0E op c) (hf : f c (c.get 0 1) v d (s.taken src) = .refused st 0) : Refuses s i src st :=
  debugWith_refuses hv (he.trans debugOn_eq) h hp hb (by rw [onDebugger, hd]; exact hf)

theorem debugOn_answers {op : Nat} {i : Instr} {f : Command → Nat → Vdev → Debugger → State → Reply} {t : State}
    (he : exec i s = debugOn s src op f) (h : Runs s src 0x0E op c) (hf : f c (c.get 0 1) v d (s.taken src) = .done t (t.stoppedReply (c.get 0 1))) : Answers s i src c t :=
  debugWith_answers hv (he.trans debugOn_eq) h hp hb (by rw [onDebugger, hd]; exact hf)

theorem detach_answers (h : Runs s src 0x0E 1 c) : Answers s (.debugAttachDetach src) src c
    ((((s.taken src).debuggerGone (c.get 0 1)).samplingOff (c.get 0 1)).extendMr 7 (digestOf [1, if d.vendor then 1 else 0])) := by
  refine debugOn_answers hv hp hb hd (rfl : _ = execDebugAttachDetach src s) h
    (congrArg (fun (t : State) => Reply.done (t.extendMr 7 _) ((t.extendMr 7 _).stoppedReply _)) (samplingOff_eq fun p => ?_))
  cases hs : p.sampling with
  | none => rfl
  | some x => exact if_congr Option.some_inj.symm rfl rfl

section

variable (h : Runs s src 0x0E 2 c)

include h

theorem stop_refused (hn : (s.taken src).stopsNone c) : Refuses s (.debugAttachStop src) src 3 :=
  debugOn_refuses hv hp hb hd (rfl : _ = execDebugAttachStop src s) h (if_pos (stopsNone_iff.mp hn))

theorem stop_answers (hn : ¬ (s.taken src).stopsNone c) : Answers s (.debugAttachStop src) src c
    ((s.taken src).stopUnder (c.get 2 1) (c.get 0 1) ((((s.taken src).debugTeam c).map (·.1)).getD 0) (((s.taken src).debugNamed c).head?.map (·.1))) :=
  debugOn_answers hv hp hb hd (rfl : _ = execDebugAttachStop src s) h (if_neg (mt stopsNone_iff.mpr hn))

end

section

variable (h : Runs s src 0x0E 3 c)

include h

theorem step_refused (hn : ((s.taken src).debugNamed c).find? (mayStep v) = none) : Refuses s (.debugAttachStep src) src 3 :=
  debugOn_refuses hv hp hb hd (rfl : _ = execDebugAttachStep src s) h
    (congrArg (State.stepReply (s.taken src) (c.get 0 1)) hn : _ = State.stepReply (s.taken src) (c.get 0 1) none)

theorem step_answers {kv : Nat × Group} (hn : ((s.taken src).debugNamed c).find? (mayStep v) = some kv) :
    Answers s (.debugAttachStep src) src c ((s.taken src).modGroup kv.1 fun g =>
      { g.resumed ((s.taken src).core (coreOf kv.1)).clk with
        stops := { (g.resumed ((s.taken src).core (coreOf kv.1)).clk).stops with stepOne := true } }) :=
  debugOn_answers hv hp hb hd (rfl : _ = execDebugAttachStep src s) h
    (congrArg (State.stepReply (s.taken src) (c.get 0 1)) hn : _ = State.stepReply (s.taken src) (c.get 0 1) (some kv))

end

section

variable (h : Runs s src 0x0E 4 c)

include h

theorem setSampling_refused (hn : ¬ (s.taken src).samplingOk c) : Refuses s (.debugAttachSetSampling src) src 1 :=
  debugOn_refuses hv hp hb hd (rfl : _ = execDebugAttachSetSampling src s) h (if_pos (not_samplingOk_iff.mp hn))

theorem setSampling_answers (hk : (s.taken src).samplingOk c) : Answers s (.debugAttachSetSampling src) src c
    ((s.taken src).modPart (descPart v.desc) fun p => { p with sampling := some c.sampling }) :=
  debugOn_answers hv hp hb hd (rfl : _ = execDebugAttachSetSampling src s) h (if_neg fun hn => not_samplingOk_iff.mpr hn hk)

end

variable (h : Runs s src 0x0E 5 c)

include h

theorem setTriggers_refused (hn : ∃ t ∈ c.stages, ¬ t.ok) : Refuses s (.debugAttachSetTriggers src) src 1 :=
  debugOn_refuses hv hp hb hd (rfl : _ = execDebugAttachSetTriggers src s) h (if_pos (stages_bad_iff.mpr hn))

theorem setTriggers_answers (hk : ∀ t ∈ c.stages, t.ok) : Answers s (.debugAttachSetTriggers src) src c
    ((s.taken src).modVdev (c.get 0 1) fun v => { v with debugger := some { d with triggers := c.stages, armed := 0, hit := none } }) :=
  debugOn_answers hv hp hb hd (rfl : _ = execDebugAttachSetTriggers src s) h
    (if_neg fun hn => (stages_bad_iff.mp hn).elim fun t ht => ht.2 (hk t ht.1))

end

/-! ### DUMP by the host -/

/-- The bytes of a dump that its buffer holds before the first page that the host does not map; at least the header. -/
def dumpReach (maps : Nat → Bool) (buf room : Nat) : Nat :=
  match (upTo (room / 4096 + 2)).find? fun k => !maps (min (max 64 room) ((buf / 4096 + k + 1) * 4096 - buf)) with
  | some k => max 64 ((buf / 4096 + k) * 4096 - buf)
  | none => room

/-- The page before the first that is not mapped ends within the room: else it would not be mapped either. -/
theorem dumpReach_bounds {maps : Nat → Bool} {buf room : Nat} (hr : 64 ≤ room) : 64 ≤ dumpReach maps buf room ∧ dumpReach maps buf room ≤ room := by
  unfold dumpReach
  split
  · next k hk =>
    obtain ⟨hn, -, hlt⟩ := List.find?_range_eq_some.mp hk
    refine ⟨Nat.le_max_left _ _, max_le hr ?_⟩
    cases k with
    | zero => omega
    | succ j =>
      have hj := hlt j (Nat.lt_succ_self j)
      by_contra hover
      have hsame : min (max 64 room) ((buf / 4096 + (j + 1) + 1) * 4096 - buf) = min (max 64 room) ((buf / 4096 + j + 1) * 4096 - buf) := by omega
      rw [hsame] at hn
      simp [hn] at hj
  · exact ⟨hr, le_rfl⟩

/-- Where a dump stops: at the end of its reach, or earlier when the host refuses the write of its body. -/
def dumpStop (refuses : Bool) (reach wall room : Nat) : Nat := if refuses then min reach (min wall room) else reach

theorem dumpStop_bounds {refuses : Bool} {reach wall room : Nat} (hw : 64 ≤ wall) (hr : 64 ≤ reach ∧ reach ≤ room) :
    64 ≤ dumpStop refuses reach wall room ∧ dumpStop refuses reach wall room ≤ room := by
  unfold dumpStop
  split <;> omega

/-- What a dump writes is at least its header, within the buffer. -/
theorem dumpStop_inBuffer {refuses : Bool} {maps : Nat → Bool} {buf past len declared : Nat} (hl : 64 ≤ len) (hd : 64 ≤ declared) :
    (dumpStop refuses (dumpReach maps buf (min len declared)) (max 64 past) (min len declared) = 0 ∨
      64 ≤ dumpStop refuses (dumpReach maps buf (min len declared)) (max 64 past) (min len declared)) ∧
    dumpStop refuses (dumpReach maps buf (min len declared)) (max 64 past) (min len declared) ≤ len := by
  obtain ⟨hlow, hhigh⟩ := dumpStop_bounds (refuses := refuses) (Nat.le_max_left 64 past) (dumpReach_bounds (maps := maps) (buf := buf) (le_min hl hd))
  exact ⟨.inr hlow, hhigh.trans (min_le_left _ _)⟩

/-- The state in which DUMP asks the host for its header: the dump is counted, and its body has a length. -/
def State.dumpCounted (s : State) (vdev : Nat) (x : Context) : State :=
  ((s.modCtx vdev fun _ => if x.prot then { x with dumps := x.dumps + 1 } else x).anyNat (2 ^ 32)).2

/-- A dump answers that it wrote nothing, or at least its header, within the buffer. -/
theorem dumpTo_length (s : State) (vdev buf len : Nat) (x : Context) (hl : 64 ≤ len) :
    ∃ t n at', s.dumpTo vdev buf len x = .done t (bytesOf 8 n ++ bytesOf 8 at') ∧ (n = 0 ∨ 64 ≤ n) ∧ n ≤ len := by
  by_cases hc : ((s.dumpCounted vdev x).choose.1 || !(s.dumpCounted vdev x).choose.2.hostRange buf 64) = true
  · exact ⟨_, 0, buf, if_pos hc, .inl rfl, Nat.zero_le _⟩
  · exact ⟨_, dumpStop _ (dumpReach _ buf _) _ _, _, if_neg hc, dumpStop_inBuffer hl (Nat.le_add_right_of_le (Nat.le_add_right 64 _))⟩

section

variable {v : Vdev} (hg : isGuest src = false) (h : Runs s src 0x0F 0 c) (hv : Store.find (s.taken src).vdevs (c.get 0 1) = some v)

include hg h hv

omit h in
theorem exec_dump : ∃ body, exec (.dump src) s = s.runCommand src 0x0F 0 body ∧ body c (s.taken src) =
    if v.lost = true ∨ (!v.ctx.halted) = true then .refused 3 0
    else if c.get 16 8 < 64 then .refused 1 0
    else (s.taken src).dumpTo (c.get 0 1) (c.get 8 8) (c.get 16 8) v.ctx :=
  ⟨_, (if_neg (Bool.eq_false_iff.mp hg) : execDump src s = _), by simp only [State.hostDump, hv]⟩

theorem dump_refusesRunning (hn : v.lost = true ∨ v.ctx.halted = false) : Refuses s (.dump src) src 3 := by
  obtain ⟨body, he, hbody⟩ := exec_dump hg hv
  exact command_refuses h he (hbody.trans (if_pos (by rwa [Bool.not_eq_true'])))

variable (hl : v.lost = false) (hh : v.ctx.halted = true)

include hl hh

omit hg h hv in
theorem haltedHere : ¬ (v.lost = true ∨ (!v.ctx.halted) = true) := by simp [hl, hh]

theorem dump_refusesShort (hs : c.get 16 8 < 64) : Refuses s (.dump src) src 1 := by
  obtain ⟨body, he, hbody⟩ := exec_dump hg hv
  exact command_refuses h he (hbody.trans ((if_neg (haltedHere hl hh)).trans (if_pos hs)))

theorem dump_ends (hs : 64 ≤ c.get 16 8) : ∃ t n at',
    (s.taken src).dumpTo (c.get 0 1) (c.get 8 8) (c.get 16 8) v.ctx = .done t (bytesOf 8 n ++ bytesOf 8 at') ∧
    Ends s (.dump src) src t (bytesOf 8 n ++ bytesOf 8 at') ∧ (n = 0 ∨ 64 ≤ n) ∧ n ≤ c.get 16 8 := by
  obtain ⟨body, he, hbody⟩ := exec_dump hg hv
  obtain ⟨t, n, at', hdone, hlength⟩ := dumpTo_length (s.taken src) (c.get 0 1) (c.get 8 8) (c.get 16 8) v.ctx hs
  exact ⟨t, n, at', hdone, command_ends h he (hbody.trans ((if_neg (haltedHere hl hh)).trans ((if_neg (Nat.not_lt.mpr hs)).trans hdone))), hlength⟩

end

/-! ### DUMP by a guest -/

/-- The counter of a sealed dump, from its bytes. -/
def dumpCounter (b : List Byte) : Nat := field b 68 8 - 2 ^ 63

/-- The clear body that the model remembers of a dump (log 12). -/
def clearBody (index n : Nat) : List Byte := (List.range n).map (Config.imageByte index)

/-- The body of a dump and its tag as the device seals them. -/
def sealedBody (v : Vdev) (b : List Byte) (index n : Nat) : List Byte × List Byte := sealed v.ctx (field b 64 12) (dumpAad b) (clearBody index n)

/-- The bytes of a dump that this device sealed. -/
def Vdev.sealedHere (v : Vdev) (b : List Byte) (index n : Nat) : Prop := 2 ^ 63 ≤ field b 68 8 ∧ field b 16 8 = 96 + n ∧
  (b.drop 64).take 32 = dumpSeal v.ctx (dumpCounter b) (sealedBody v b index n).2 ∧ (b.drop 96).take n = (sealedBody v b index n).1

theorem not_sealedHere_iff {v : Vdev} {b : List Byte} {index n : Nat} : ¬ v.sealedHere b index n ↔ field b 68 8 < 2 ^ 63 ∨ field b 16 8 ≠ 96 + n ∨
    (b.drop 64).take 32 ≠ dumpSeal v.ctx (dumpCounter b) (sealedBody v b index n).2 ∨ (b.drop 96).take n ≠ (sealedBody v b index n).1 := by
  simp only [Vdev.sealedHere, not_and_or, not_le, ne_eq]

/-- The write of a dump's clear body into the memory of the guest. -/
def State.writeClear (s : State) (src : CommandSource) (c : Command) (index n : Nat) : State × Nat × Bool :=
  s.commandWrite src (c.get 24 8) ((clearBody index n).take (c.get 32 8))

/-- What a guest's DUMP does with a dump of which the device remembers the counter. -/
def State.opens (s : State) (src : CommandSource) (c : Command) (v : Vdev) (b : List Byte) (index n : Nat) : Reply :=
  if field b 68 8 < 2 ^ 63 ∨ field b 16 8 ≠ 96 + n ∨ (b.drop 64).take 32 ≠ dumpSeal v.ctx (dumpCounter b) (sealedBody v b index n).2 ∨
    (b.drop 96).take n ≠ (sealedBody v b index n).1 then .refused 1 3
  else if (s.writeClear src c index n).2.2 then .done (s.writeClear src c index n).1 (bytesOf 8 (s.writeClear src c index n).2.1) else .refused 1 0

/-- What a guest's DUMP does with the bytes that it reads. -/
def opensRead (src : CommandSource) (c : Command) (v : Vdev) : State × Except AccessFail (List Byte) → Reply
  | (_, .error _) => .refused 1 0
  | (s, .ok b) => match Store.find v.ctx.sealedDumps (dumpCounter b) with
    | none => .refused 1 3
    | some (index, n) => s.opens src c v b index n

section

variable {gid : Nat} {id : TeamId} {v : Vdev} (h : Runs s (.guest gid) 0x0F 0 c) (hid : (s.taken (.guest gid)).callerOf gid = some id)
  (hv : Store.find (s.taken (.guest gid)).vdevs id.vdev = some v)

/-- The read of the dump that a guest's command names. -/
def State.dumpRead (s : State) (c : Command) (id : TeamId) : State × Except AccessFail (List Byte) :=
  s.guestRead id.part id.vdev (c.get 8 8) (min (c.get 16 8) (2 ^ 33))

include h hid hv

theorem exec_dumpOpen : ∃ body, exec (.dumpOpen (.guest gid)) s = s.runCommand (.guest gid) 0x0F 0 body ∧ body c (s.taken (.guest gid)) =
    if (!v.ctx.prot) = true ∨ v.lost = true then .refused 3 0
    else if c.get 16 8 < 96 then .refused 1 0
    else opensRead (.guest gid) c v ((s.taken (.guest gid)).dumpRead c id) :=
  ⟨_, (if_pos rfl : execDumpOpen (.guest gid) s = _), by
    simp only [State.guestDump, h.source, hid, Option.bind_some, hv, Option.map_some] <;> rfl⟩

theorem dumpOpen_refusesClear (hn : v.ctx.prot = false ∨ v.lost = true) : Refuses s (.dumpOpen (.guest gid)) (.guest gid) 3 := by
  obtain ⟨body, he, hbody⟩ := exec_dumpOpen h hid hv
  exact command_refuses h he (hbody.trans (if_pos (by rwa [Bool.not_eq_true'])))

variable (hp : v.ctx.prot = true) (hl : v.lost = false)

include hp hl

omit h hid hv in
theorem protectedHere : ¬ ((!v.ctx.prot) = true ∨ v.lost = true) := by simp [hp, hl]

theorem dumpOpen_refusesShort (hs : c.get 16 8 < 96) : Refuses s (.dumpOpen (.guest gid)) (.guest gid) 1 := by
  obtain ⟨body, he, hbody⟩ := exec_dumpOpen h hid hv
  exact command_refuses h he (hbody.trans ((if_neg (protectedHere hp hl)).trans (if_pos hs)))

variable (hs : 96 ≤ c.get 16 8) {s1 : State}

include hs

theorem exec_dumpOpen_read : ∃ body, exec (.dumpOpen (.guest gid)) s = s.runCommand (.guest gid) 0x0F 0 body ∧
    body c (s.taken (.guest gid)) = opensRead (.guest gid) c v ((s.taken (.guest gid)).dumpRead c id) := by
  obtain ⟨body, he, hbody⟩ := exec_dumpOpen h hid hv
  exact ⟨body, he, hbody.trans ((if_neg (protectedHere hp hl)).trans (if_neg (Nat.not_lt.mpr hs)))⟩

theorem dumpOpen_refusesRead {f : AccessFail} (ha : (s.taken (.guest gid)).dumpRead c id = (s1, .error f)) :
    Refuses s (.dumpOpen (.guest gid)) (.guest gid) 1 := by
  obtain ⟨body, he, hbody⟩ := exec_dumpOpen_read h hid hv hp hl hs
  exact command_refuses h he (hbody.trans (by rw [ha, opensRead]))

variable {b : List Byte} (ha : (s.taken (.guest gid)).dumpRead c id = (s1, .ok b))

include ha

theorem dumpOpen_refusesCounter (hc : Store.find v.ctx.sealedDumps (dumpCounter b) = none) :
    exec (.dumpOpen (.guest gid)) s = .next ((s.taken (.guest gid)).endCommand (.guest gid) 1 3 []) := by
  obtain ⟨body, he, hbody⟩ := exec_dumpOpen_read h hid hv hp hl hs
  rw [he, runCommand_runs h, hbody, ha, opensRead, hc]

variable {index n : Nat} (hc : Store.find v.ctx.sealedDumps (dumpCounter b) = some (index, n))

include hc

theorem exec_dumpOpen_opens : ∃ body, exec (.dumpOpen (.guest gid)) s = s.runCommand (.guest gid) 0x0F 0 body ∧
    body c (s.taken (.guest gid)) = s1.opens (.guest gid) c v b index n := by
  obtain ⟨body, he, hbody⟩ := exec_dumpOpen_read h hid hv hp hl hs
  exact ⟨body, he, hbody.trans (by rw [ha, opensRead, hc])⟩

theorem dumpOpen_refusesSeal (hn : ¬ v.sealedHere b index n) :
    exec (.dumpOpen (.guest gid)) s = .next ((s.taken (.guest gid)).endCommand (.guest gid) 1 3 []) := by
  obtain ⟨body, he, hbody⟩ := exec_dumpOpen_opens h hid hv hp hl hs ha hc
  rw [he, runCommand_runs h, hbody, State.opens, if_pos (not_sealedHere_iff.mp hn)]

variable (hk : v.sealedHere b index n)

include hk

theorem dumpOpen_ends (hw : (s1.writeClear (.guest gid) c index n).2.2 = true) : Ends s (.dumpOpen (.guest gid)) (.guest gid)
    (s1.writeClear (.guest gid) c index n).1 (bytesOf 8 (s1.writeClear (.guest gid) c index n).2.1) := by
  obtain ⟨body, he, hbody⟩ := exec_dumpOpen_opens h hid hv hp hl hs ha hc
  exact command_ends h he (hbody.trans ((if_neg fun hn => not_sealedHere_iff.mpr hn hk).trans (if_pos hw)))

theorem dumpOpen_refusesWrite (hw : (s1.writeClear (.guest gid) c index n).2.2 = false) : Refuses s (.dumpOpen (.guest gid)) (.guest gid) 1 := by
  obtain ⟨body, he, hbody⟩ := exec_dumpOpen_opens h hid hv hp hl hs ha hc
  exact command_refuses h he (hbody.trans ((if_neg fun hn => not_sealedHere_iff.mpr hn hk).trans (if_neg (Bool.eq_false_iff.mp hw))))

end

/-! ### ATTEST -/

/-- Whether an expert ATTEST asks for the wear records too. -/
def Command.bank (c : Command) : Bool := c.get 32 1 == 1

/-- An expert ATTEST that is refused: no bank, or a buffer that does not hold the report. -/
def Command.badAttest (c : Command) : Prop := 1 < c.get 32 1 ∨ c.get 48 8 < (if c.bank then 34980 else 2980)

/-- The write of the report of an expert ATTEST. -/
def State.writeReport (s : State) (src : CommandSource) (c : Command) : State × Nat × Bool :=
  s.commandWrite src (c.get 40 8) (s.report (c.bytes 0 32) c.bank)

section

variable (h : Runs s src 0x0B 0 c)

include h

theorem exec_attest : ∃ body, exec (.attest src) s = s.runCommand src 0x0B 0 body ∧ body c (s.taken src) =
    if (!c.expert) = true then .done (s.taken src) ((s.taken src).report (c.bytes 0 32) false)
    else if 1 < c.get 32 1 ∨ c.get 48 8 < (if c.bank then 34980 else 2980) then .refused 1 0
    else if ((s.taken src).writeReport src c).2.2 then .done ((s.taken src).writeReport src c).1 (bytesOf 8 ((s.taken src).writeReport src c).2.1)
    else .refused 1 0 :=
  ⟨_, (rfl : _ = execAttest src s), by simp only [h.source] <;> rfl⟩

theorem attest_ends (he : c.expert = false) : Ends s (.attest src) src (s.taken src) ((s.taken src).report (c.bytes 0 32) false) := by
  obtain ⟨body, hrun, hbody⟩ := exec_attest h
  exact command_ends h hrun (hbody.trans (if_pos (congrArg (!·) he)))

variable (he : c.expert = true)

include he

theorem attest_refusesForm (hb : c.badAttest) : Refuses s (.attest src) src 1 := by
  obtain ⟨body, hrun, hbody⟩ := exec_attest h
  exact command_refuses h hrun (hbody.trans ((if_neg (by simp [he])).trans (if_pos hb)))

variable (hb : ¬ c.badAttest)

include hb

theorem attest_endsExpert (hw : ((s.taken src).writeReport src c).2.2 = true) : Ends s (.attest src) src ((s.taken src).writeReport src c).1
    (bytesOf 8 ((s.taken src).writeReport src c).2.1) := by
  obtain ⟨body, hrun, hbody⟩ := exec_attest h
  exact command_ends h hrun (hbody.trans ((if_neg (by simp [he])).trans ((if_neg hb).trans (if_pos hw))))

theorem attest_refusesWrite (hw : ((s.taken src).writeReport src c).2.2 = false) : Refuses s (.attest src) src 1 := by
  obtain ⟨body, hrun, hbody⟩ := exec_attest h
  exact command_refuses h hrun (hbody.trans ((if_neg (by simp [he])).trans ((if_neg hb).trans (if_neg (Bool.eq_false_iff.mp hw)))))

end

end

/-- Settles O52: DEBUG_ATTACH by the checks that its operations share and by each operation, DUMP by who gives it, and ATTEST. What the model remembers of a
dump is log 12 (DESIGN CHOICE), what MR7 takes and the reading of a vendor token log 13 (PRESUMED); points that the manual leaves open follow the
model's reading (log 30). -/
theorem debugCommands : Obligations.DebugCommands := by
  unfold Obligations.DebugCommands
  intro s src c v s0 vdev answer bad
  refine ⟨fun i sub hv hn h => ⟨debug_protected hv hn h, debug_badForm hv hn h, debug_refusesNoDebugger hv hn h⟩,
    fun hv hp hb => ⟨fun h => ⟨attach_refusesSecond hv hp hb h, attach_answers hv hp hb h, ?vendor⟩,
      fun d hd => ⟨detach_answers hv hp hb hd, stop_refused hv hp hb hd, stop_answers hv hp hb hd, step_refused hv hp hb hd,
        fun _ h => step_answers hv hp hb hd h, fun h => ⟨setSampling_refused hv hp hb hd h, setSampling_answers hv hp hb hd h⟩,
        fun h => ⟨setTriggers_refused hv hp hb hd h, setTriggers_answers hv hp hb hd h⟩⟩⟩,
    fun hg h hv => ⟨dump_refusesRunning hg h hv, dump_refusesShort hg h hv, dump_ends hg h hv⟩, ?opens,
    fun h => ⟨attest_ends h, fun he => ⟨attest_refusesForm h he, attest_endsExpert h he, attest_refusesWrite h he⟩⟩⟩
  case vendor =>
    intro hd hm
    split
    · next hn => exact attach_refusesVendor hv hp hb h hd hm hn
    · next hn => exact attach_answersVendor hv hp hb h hd hm hn
  case opens =>
    rintro gid id b index n rfl h hid hv
    exact ⟨dumpOpen_refusesClear h hid hv, dumpOpen_refusesShort h hid hv, fun s1 f hp hl hs => dumpOpen_refusesRead h hid hv hp hl hs,
      fun s1 hp hl hs ha => ⟨dumpOpen_refusesCounter h hid hv hp hl hs ha, fun hc => ⟨dumpOpen_refusesSeal h hid hv hp hl hs ha hc,
        dumpOpen_ends h hid hv hp hl hs ha hc, dumpOpen_refusesWrite h hid hv hp hl hs ha hc⟩⟩⟩

end Sys2Proof.Machine


/-! O53: checkpoint pages, epochs, pulls, the switch, notices and forwarding (R340, R353 to R361). -/

namespace Sys2Proof.Machine

section

variable {s : State} {vdev : Nat} {v : Vdev} (hv : Store.find s.vdevs vdev = some v)

/-! ### Pages of a checkpoint and the close of an epoch -/

/-- The page that waits for its next turn, at the tick that the rate gives (R355). -/
def State.pageLater (s : State) (vdev tick : Nat) : State := s.modVdev vdev fun v => { v with ckpt := { v.ckpt with nextPage := tick } }

/-- The tick of the next page of a checkpoint (R355). -/
def State.pageTick (s : State) (v : Vdev) : Nat := s.mod.tick + 4112 * 84000 / max 1 v.ckpt.rate

/-- The record of a streamed page (R355). -/
def pageRecord (v : Vdev) (page : Nat) (bytes : List Byte) : List Byte := bytesOf 4 v.ckpt.epoch ++ bytesOf 4 0 ++ bytesOf 8 (page * 4096) ++ bytes

/-- The device once a page is streamed: its record stands in the region, and the next page has its tick. -/
def State.pageStreamed (s : State) (vdev page tick : Nat) : State := s.modVdev vdev fun v => { v with ckpt := { v.ckpt with
  position := v.ckpt.position + 4112
  pages := v.ckpt.pages + 1
  records := v.ckpt.records ++ [⟨v.ckpt.epoch, page * 4096, v.ckpt.position⟩]
  nextPage := tick } }

/-- What becomes of a page by the write of its record. -/
def State.pageWritten (s : State) (vdev page tick : Nat) : Option State → Host.Outcome State Fault Refusal
  | none => .next (s.pageLater vdev tick)
  | some s4 => .next (s4.pageStreamed vdev page tick)

/-- What becomes of a page by the read of its bytes. -/
def State.pageRead (s : State) (vdev page tick : Nat) (v : Vdev) : State × Except AccessFail (List Byte) → Host.Outcome State Fault Refusal
  | (_, .error f) => .next ((match f with
    | .lost site => s.detect site
    | _ => s).pageLater vdev tick)
  | (s3, .ok bytes) => s.pageWritten vdev page tick (s3.streamWrite (descPart v.desc) vdev (v.ckpt.region + v.ckpt.position) (pageRecord v page bytes))

/-- What becomes of a page by where the second stage puts it. -/
def State.pageFound (s : State) (vdev page tick : Nat) (v : Vdev) : State × Except AccessFail Nat → Host.Outcome State Fault Refusal
  | (_, .error _) => .next (s.pageLater vdev tick)
  | (s2, .ok a) => s.pageRead vdev page tick v (s2.servedBytes (descPart v.desc) vdev a 4096)

/-- The state in which a page has been taken, with what had been translated performed as far as it can be (R337, R340). -/
def State.pageTaken (s : State) (vdev page : Nat) : State := (s.takePage vdev page).settleVdev vdev

section

variable {page : Nat} (hs : s.streams vdev v = true) (hp : page ∈ s.dirtyPages vdev)

include hv hs hp

theorem exec_checkpointPageStream : exec (.checkpointPageStream vdev page) s =
    if (s.pageTaken vdev page).unsettled vdev then .next (s.pageLater vdev (s.pageTick v))
    else s.pageFound vdev page (s.pageTick v) v ((s.pageTaken vdev page).guestPage (descPart v.desc) vdev (page * 4096)) := by
  have hgo : ¬ (!s.streams vdev v || !(s.dirtyPages vdev).contains page) = true := by simp [hs, hp]
  show execCheckpointPageStream vdev page s = _
  simp only [execCheckpointPageStream, hv, if_neg hgo]
  rfl

theorem checkpointPageStream_waits (hu : (s.pageTaken vdev page).unsettled vdev = true) :
    exec (.checkpointPageStream vdev page) s = .next (s.pageLater vdev (s.pageTick v)) := by
  rw [exec_checkpointPageStream hv hs hp, if_pos hu]

variable (hu : (s.pageTaken vdev page).unsettled vdev = false) {s2 : State}

include hu

theorem checkpointPageStream_unmapped {f : AccessFail}
    (hh : (s.pageTaken vdev page).guestPage (descPart v.desc) vdev (page * 4096) = (s2, .error f)) :
    exec (.checkpointPageStream vdev page) s = .next (s.pageLater vdev (s.pageTick v)) := by
  rw [exec_checkpointPageStream hv hs hp, if_neg (Bool.eq_false_iff.mp hu), hh, State.pageFound]

variable {a : Nat} (hh : (s.pageTaken vdev page).guestPage (descPart v.desc) vdev (page * 4096) = (s2, .ok a)) {s3 : State}

include hh

theorem checkpointPageStream_reads : exec (.checkpointPageStream vdev page) s =
    s.pageRead vdev page (s.pageTick v) v (s2.servedBytes (descPart v.desc) vdev a 4096) := by
  rw [exec_checkpointPageStream hv hs hp, if_neg (Bool.eq_false_iff.mp hu), hh, State.pageFound]

theorem checkpointPageStream_lost {site : ErrorSite} (hb : s2.servedBytes (descPart v.desc) vdev a 4096 = (s3, .error (.lost site))) :
    exec (.checkpointPageStream vdev page) s = .next ((s.detect site).pageLater vdev (s.pageTick v)) := by
  rw [checkpointPageStream_reads hv hs hp hu hh, hb, State.pageRead]

variable {bytes : List Byte} (hb : s2.servedBytes (descPart v.desc) vdev a 4096 = (s3, .ok bytes))

include hb

theorem checkpointPageStream_unwritten
    (hw : s3.streamWrite (descPart v.desc) vdev (v.ckpt.region + v.ckpt.position) (pageRecord v page bytes) = none) :
    exec (.checkpointPageStream vdev page) s = .next (s.pageLater vdev (s.pageTick v)) := by
  rw [checkpointPageStream_reads hv hs hp hu hh, hb, State.pageRead, hw, State.pageWritten]

theorem checkpointPageStream_streams {s4 : State}
    (hw : s3.streamWrite (descPart v.desc) vdev (v.ckpt.region + v.ckpt.position) (pageRecord v page bytes) = some s4) :
    exec (.checkpointPageStream vdev page) s = .next (s4.pageStreamed vdev page (s.pageTick v)) := by
  rw [checkpointPageStream_reads hv hs hp hu hh, hb, State.pageRead, hw, State.pageWritten]

end

/-- The write that closes an epoch: its image and its trailer, behind the streamed pages (R355). -/
def State.closeWrite (s : State) (vdev : Nat) (v : Vdev) (i : Image) : Option State :=
  s.streamWrite (descPart v.desc) vdev (v.ckpt.region + v.ckpt.position) (imageBytes v.ctx i ++ epochTrailer v.ckpt i)

/-- An epoch whose every page is streamed closes as soon as its image can be written. -/
theorem closed_eq {i : Image} (hi : v.saved.image = some i) (hc : v.ckpt.closing = true) (hp : v.saved.phase = .saved) (hl : v.lost = false)
    (hd : s.dirtyPages vdev = []) (hroom : v.ckpt.position + i.length + 64 ≤ v.ckpt.length) : s.closed vdev v = s.closeWrite vdev v i := by
  have hready : (v.ckpt.closing && v.saved.phase == .saved && !v.lost && (s.dirtyPages vdev).isEmpty) = true := by rw [hc, hp, hl, hd]; rfl
  rw [State.closed, if_pos hready, hi, Option.bind_some, if_pos hroom, State.closeWrite]

section

variable {i : Image} (hi : v.saved.image = some i)

include hv hi

theorem epochClose_closes {s1 : State} (hc : s.closed vdev v = some s1) : exec (.epochClose vdev) s = .next (s1.modVdev vdev fun v =>
    { v with
      ckpt := { v.ckpt with epoch := v.ckpt.epoch + 1, position := v.ckpt.position + i.length + 64, pages := 0, closing := false, fullFrom := none }
      saved := { v.saved with phase := .running } }) := by
  show execEpochClose vdev s = _
  simp only [execEpochClose, hv, hc, hi]

omit hi in
theorem epochClose_waits (hc : s.closed vdev v = none) : exec (.epochClose vdev) s = .next s := by
  show execEpochClose vdev s = _
  simp only [execEpochClose, hv, hc]

end

/-! ### Pulls -/

/-- Memory, the devices and the registers of every group are as before. -/
structure KeepsRegs (s t : State) : Prop where
  mem : t.mem = s.mem
  vdevs : t.vdevs = s.vdevs
  regs : t.regsOf = s.regsOf

theorem KeepsRegs.trans {s t u : State} (h : KeepsRegs s t) (h' : KeepsRegs t u) : KeepsRegs s u :=
  ⟨h'.mem.trans h.mem, h'.vdevs.trans h.vdevs, h'.regs.trans h.regs⟩

theorem modGroup_keepsRegs (s : State) (k : Nat) (f : Group → Group) (hf : ∀ g, (f g).regs = g.regs) : KeepsRegs s (s.modGroup k f) where
  mem := State.modGroup_mem s k f
  vdevs := State.modGroup_vdevs s k f
  regs := by
    funext gid
    rw [State.regsOf, State.regsOf, State.modGroup_find]
    split
    · next h =>
      rw [h, Option.map_map]
      exact congrArg (Option.map · _) (funext hf)
    · rfl

theorem replayOf_regs (g : Group) (clk : Nat) (sel : LongOp → Bool) : (g.replayOf clk sel).regs = g.regs := by
  unfold Group.replayOf
  split <;> rfl

/-- A replay after a pull lets groups and copies go on; it touches no register. -/
theorem retryHidden_keepsRegs (s : State) (vdev : Nat) : KeepsRegs s (s.retryHidden vdev) := by
  refine List.foldlRecOn (motive := KeepsRegs s) _ _ ⟨rfl, rfl, rfl⟩ fun t h kv _ =>
    h.trans (KeepsRegs.trans (t := if (kv.2.stops.parked.map (·.hyper)).getD false then _ else t) ?_ ⟨rfl, rfl, rfl⟩)
  split
  · exact modGroup_keepsRegs t _ _ fun g => replayOf_regs g _ _
  · exact ⟨rfl, rfl, rfl⟩

/-- The migration of a device after a change of it, and a replay of what waits for its frames. -/
theorem retryHidden_migration {f : Migration → Migration} {t : State} (ht : Store.find t.vdevs vdev = some v) :
    (Store.find ((t.modVdev vdev fun v => { v with mig := f v.mig }).retryHidden vdev).vdevs vdev).map (·.mig) = some (f v.mig) := by
  rw [(retryHidden_keepsRegs _ vdev).vdevs, State.modVdev_find, if_pos rfl, ht]
  rfl

theorem modVdev_retryHidden_keeps (t : State) (f : Vdev → Vdev) : ((t.modVdev vdev f).retryHidden vdev).mem = t.mem ∧
    ((t.modVdev vdev f).retryHidden vdev).regsOf = t.regsOf := by
  obtain ⟨hm, -, hr⟩ := retryHidden_keepsRegs (t.modVdev vdev f) vdev
  refine ⟨hm.trans (State.modVdev_mem t vdev f), hr.trans ?_⟩
  funext gid
  rw [State.regsOf, State.regsOf, State.modVdev_groups]

/-- What is left to pull once a frame has landed. -/
def Migration.landed (m : Migration) (frame : Nat) (left : List Nat) : Migration :=
  if left.isEmpty then {} else { m with unpulled := left, touched := m.touched.filter (· != frame) }

theorem Migration.landed_eq (m : Migration) (frame : Nat) (left : List Nat) : m.landed frame left =
    if left = [] then {} else { m with unpulled := left, touched := m.touched.filter (· != frame) } := if_congr List.isEmpty_iff rfl rfl

/-- The frames that a device still has to pull behind this one. -/
def Vdev.pullsLeft (v : Vdev) (frame : Nat) : List Nat := v.mig.unpulled.filter (· != frame)

theorem landFrame_eq (s : State) (vdev frame : Nat) (v : Vdev) (data : List Byte) : s.landFrame vdev frame v data =
    (({ s with mem := memWrites s.mem (frame * 65536) data } : State).modVdev vdev fun w =>
      { w with mig := w.mig.landed frame (v.pullsLeft frame) }).retryHidden vdev := rfl

section

include hv

/-- A frame lands whole: its bytes in memory, the migration that goes on, and no register touched. -/
theorem landFrame_lands (frame : Nat) (data : List Byte) : (s.landFrame vdev frame v data).mem = memWrites s.mem (frame * 65536) data ∧
    (s.landFrame vdev frame v data).regsOf = s.regsOf ∧
    (Store.find (s.landFrame vdev frame v data).vdevs vdev).map (·.mig) =
      some (if v.pullsLeft frame = [] then {} else { v.mig with unpulled := v.pullsLeft frame, touched := v.mig.touched.filter (· != frame) }) := by
  rw [landFrame_eq, ← Migration.landed_eq]
  obtain ⟨hmem, hregs⟩ := modVdev_retryHidden_keeps (vdev := vdev) { s with mem := memWrites s.mem (frame * 65536) data }
    fun w => { w with mig := w.mig.landed frame (v.pullsLeft frame) }
  exact ⟨hmem, hregs, retryHidden_migration (f := fun m => m.landed frame (v.pullsLeft frame)) hv⟩

section

variable {frame : Nat} {data : List Byte} (hf : frame ∈ v.mig.unpulled) (hl : v.mig.sourceLost = false)

include hf hl

omit hv in
theorem pulls : ¬ ((!v.mig.unpulled.contains frame) = true ∨ v.mig.sourceLost = true) := by simp [hf, hl]

theorem framePullComplete_foreign (hq : s.endpointPart v.mig.peer = none) (hd : data.length = 65536) :
    exec (.framePullComplete vdev frame data) s = .next (s.landFrame vdev frame v data) := by
  show execFramePullComplete vdev frame data s = _
  simp only [execFramePullComplete, hv, if_neg (pulls hf hl), hq, hd, ne_eq, not_true_eq_false, if_false]

theorem framePullComplete_here {q src : Nat} {w : Vdev} {s1 : State} {bytes : List Byte} (hq : s.endpointPart v.mig.peer = some q)
    (hsrc : s.sourceOf v = some (src, w)) (hp : s.pullPages v src q frame (List.range 16) = (s1, some bytes)) :
    exec (.framePullComplete vdev frame data) s = .next ((s1.landFrame vdev frame v bytes).sourceSent vdev src frame w) := by
  show execFramePullComplete vdev frame data s = _
  simp only [execFramePullComplete, hv, if_neg (pulls hf hl), hq, hsrc, upTo, hp]

end

theorem migrationSourceLost_marks (hin : v.mig.incoming = true) (hph : v.mig.phase = 4) (hu : v.mig.unpulled ≠ []) :
    exec (.migrationSourceLost vdev) s = .next ((s.modVdev vdev fun w => { w with mig := { w.mig with sourceLost := true } }).retryHidden vdev) := by
  show execMigrationSourceLost vdev s = _
  simp only [execMigrationSourceLost, hv]
  exact if_pos ⟨hin, hph, by simpa using hu⟩

end

/-! ### The switch -/

theorem incoming_ctxid {part ctxid peer w : Nat} {dst : Vdev} (h : s.incoming part ctxid peer = some (w, dst)) : dst.ctx.ctxid = ctxid := by
  have hp := List.find?_some h
  simp only [Bool.and_eq_true, beq_iff_eq] at hp
  exact hp.1.1.2

/-- The partition of a device. -/
abbrev Vdev.part (v : Vdev) : Nat := descPart v.desc

/-- A destination that has the shape of an image, and offers it. -/
def State.takesShape (s : State) (q : Nat) (dst : Vdev) (i : Image) : Prop := i.shape = s.shapeOf dst.desc ∧ s.shapeOffered q dst.desc = true

theorem not_takesShape_iff {q : Nat} {dst : Vdev} {i : Image} : ¬ s.takesShape q dst i ↔
    i.shape ≠ s.shapeOf dst.desc ∨ (!s.shapeOffered q dst.desc) = true := by
  simp only [State.takesShape, not_and_or, Bool.not_eq_true', Bool.not_eq_true, ne_eq]

/-- What a switch to a device of this module comes to (R356, R360). -/
def State.switchHere (s : State) (vdev n : Nat) (v : Vdev) (i : Image) (q : Nat) : Option (Nat × Vdev) → Host.Outcome State Fault Refusal
  | none => .next (s.migrationRefused v.part vdev 4 v.mig.mailbox)
  | some (w, dst) => match s.arrivalRefusal v q dst i with
    | some r => .next (s.migrationRefused v.part vdev r v.mig.mailbox)
    | none =>
      if !s.launchRoom q w i then .next s
      else .next ((s.arriveVdev w v.ctx (some (i.remap (s.queuesOf v.part vdev) (s.queuesOf q w)))).switchSource v.part vdev n v.mig.peer v.mig.mailbox)

section

variable {n : Nat} {i : Image} (hin : v.mig.incoming = false) (hph : v.mig.phase = 2) (hn : freeIndex (s.part v.part).fab.forwarding 16 = some n)
  (hi : v.saved.image = some i)

include hv hin hph hn hi

omit hv hn hi in
theorem switching_source : ¬ (!v.switching) = true := by simp [Vdev.switching, hin, hph]

theorem migrationSwitch_foreign {ok : Bool} {r : Nat} {s1 s2 : State} (hq : s.endpointPart v.mig.peer = none) (hc : s.choose = (ok, s1))
    (hr : s1.anyNat 6 = (r, s2)) : exec (.migrationSwitch vdev) s = .next
      (if v.lost = true then s2.migrationRefused v.part vdev 3 v.mig.mailbox
        else if ok = true then s2.switchSource v.part vdev n v.mig.peer v.mig.mailbox else s2.migrationRefused v.part vdev (r + 1) v.mig.mailbox) := by
  show execMigrationSwitch vdev s = _
  simp only [execMigrationSwitch, hv, if_neg (switching_source hin hph), hin, Bool.false_eq_true, if_false, hn, hi, hq, hc, hr]

section

variable {q : Nat} (hq : s.endpointPart v.mig.peer = some q)

include hq

theorem exec_migrationSwitch_here : exec (.migrationSwitch vdev) s =
    s.switchHere vdev n v i q (s.incoming q v.ctx.ctxid (s.part v.part).regs.endpoint) := by
  show execMigrationSwitch vdev s = _
  simp only [execMigrationSwitch, hv, if_neg (switching_source hin hph), hin, Bool.false_eq_true, if_false, hn, hi, hq]
  rfl

theorem migrationSwitch_noDestination (hd : s.incoming q v.ctx.ctxid (s.part v.part).regs.endpoint = none) :
    exec (.migrationSwitch vdev) s = .next (s.migrationRefused v.part vdev 4 v.mig.mailbox) := by
  rw [exec_migrationSwitch_here hv hin hph hn hi hq, hd, State.switchHere]

variable {w : Nat} {dst : Vdev} (hd : s.incoming q v.ctx.ctxid (s.part v.part).regs.endpoint = some (w, dst))

include hd

theorem migrationSwitch_refuses {r : Nat} (hr : s.arrivalRefusal v q dst i = some r) :
    exec (.migrationSwitch vdev) s = .next (s.migrationRefused v.part vdev r v.mig.mailbox) := by
  rw [exec_migrationSwitch_here hv hin hph hn hi hq, hd, State.switchHere, hr]

theorem migrationSwitch_refusesProt (hp : dst.ctx.prot ≠ v.ctx.prot) :
    exec (.migrationSwitch vdev) s = .next (s.migrationRefused v.part vdev 6 v.mig.mailbox) :=
  migrationSwitch_refuses hv hin hph hn hi hq hd (if_pos (.inr hp))

variable (hp : dst.ctx.prot = v.ctx.prot)

include hp

omit hv hin hph hn hi hq in
theorem sameContext : ¬ (dst.ctx.ctxid ≠ v.ctx.ctxid ∨ dst.ctx.prot ≠ v.ctx.prot) := not_or.mpr ⟨not_not.mpr (incoming_ctxid hd), not_not.mpr hp⟩

theorem migrationSwitch_refusesLost (hl : v.lost = true) :
    exec (.migrationSwitch vdev) s = .next (s.migrationRefused v.part vdev 3 v.mig.mailbox) :=
  migrationSwitch_refuses hv hin hph hn hi hq hd ((if_neg (sameContext hd hp)).trans (if_pos hl))

variable (hl : v.lost = false)

include hl

theorem migrationSwitch_refusesShape (hs : ¬ s.takesShape q dst i) :
    exec (.migrationSwitch vdev) s = .next (s.migrationRefused v.part vdev 4 v.mig.mailbox) :=
  migrationSwitch_refuses hv hin hph hn hi hq hd
    ((if_neg (sameContext hd hp)).trans ((if_neg (Bool.eq_false_iff.mp hl)).trans (if_pos (not_takesShape_iff.mp hs))))

variable (hs : s.takesShape q dst i)

include hs

omit hv hin hph hn hi hq in
theorem arrivalRefusal_none : s.arrivalRefusal v q dst i = none :=
  (if_neg (sameContext hd hp)).trans ((if_neg (Bool.eq_false_iff.mp hl)).trans (if_neg fun hn => not_takesShape_iff.mpr hn hs))

theorem migrationSwitch_waits (hroom : s.launchRoom q w i = false) : exec (.migrationSwitch vdev) s = .next s := by
  rw [exec_migrationSwitch_here hv hin hph hn hi hq, hd, State.switchHere, arrivalRefusal_none hd hp hl hs]
  exact if_pos (congrArg (!·) hroom)

theorem migrationSwitch_arrives (hroom : s.launchRoom q w i = true) : exec (.migrationSwitch vdev) s = .next
    ((s.arriveVdev w v.ctx (some (i.remap (s.queuesOf v.part vdev) (s.queuesOf q w)))).switchSource v.part vdev n v.mig.peer v.mig.mailbox) := by
  rw [exec_migrationSwitch_here hv hin hph hn hi hq, hd, State.switchHere, arrivalRefusal_none hd hp hl hs]
  exact if_neg (by simp [hroom])

end

end

section

variable (hin : v.mig.incoming = true) (hph : v.mig.phase = 0) (hq : s.endpointPart v.mig.peer = none)

include hv hin hph hq

omit hv hq in
theorem switching_destination : ¬ (!v.switching) = true := by simp [Vdev.switching, hin, hph]

theorem migrationSwitch_notOffered (ho : s.shapeOffered v.part v.desc = false) : exec (.migrationSwitch vdev) s = .next s := by
  show execMigrationSwitch vdev s = _
  simp only [execMigrationSwitch, hv, if_neg (switching_destination hin hph), hin, if_true, hq, ho, Option.isSome_none, Bool.not_false, Bool.or_true]

/-- The context and the image that another module sends. -/
def State.arrivingImage (s : State) (vdev : Nat) (v : Vdev) : Image × State := (s.foreignContext v).2.foreignImage v.part vdev

/-- Whether the image that another module sends fits: the shape is the device's, and there is room for its launches. -/
def State.arrivalFits (s : State) (vdev : Nat) (v : Vdev) : Prop := (s.arrivingImage vdev v).1.shape = s.shapeOf v.desc ∧
  (s.arrivingImage vdev v).2.launchRoom v.part vdev (s.arrivingImage vdev v).1 = true

omit hv hin hph hq in
theorem not_arrivalFits_iff : ¬ s.arrivalFits vdev v ↔ (s.arrivingImage vdev v).1.shape ≠ s.shapeOf v.desc ∨
    (!(s.arrivingImage vdev v).2.launchRoom v.part vdev (s.arrivingImage vdev v).1) = true := by
  simp only [State.arrivalFits, not_and_or, Bool.not_eq_true', Bool.not_eq_true, ne_eq]

variable (ho : s.shapeOffered v.part v.desc = true)

include ho

theorem exec_migrationSwitch_arriving : exec (.migrationSwitch vdev) s =
    if (s.arrivingImage vdev v).1.shape ≠ s.shapeOf v.desc ∨ (!(s.arrivingImage vdev v).2.launchRoom v.part vdev (s.arrivingImage vdev v).1) = true then
      .next (s.arrivingImage vdev v).2
    else .next ((s.arrivingImage vdev v).2.arriveVdev vdev (s.foreignContext v).1 (some (s.arrivingImage vdev v).1)) := by
  show execMigrationSwitch vdev s = _
  simp only [execMigrationSwitch, hv, if_neg (switching_destination hin hph), hin, if_true, hq, ho, Option.isSome_none, Bool.not_true, Bool.or_self,
    Bool.false_eq_true, if_false]
  rfl

theorem migrationSwitch_takes (hf : s.arrivalFits vdev v) : exec (.migrationSwitch vdev) s =
    .next ((s.arrivingImage vdev v).2.arriveVdev vdev (s.foreignContext v).1 (some (s.arrivingImage vdev v).1)) :=
  (exec_migrationSwitch_arriving hv hin hph hq ho).trans (if_neg fun hn => not_arrivalFits_iff.mpr hn hf)

theorem migrationSwitch_misfits (hf : ¬ s.arrivalFits vdev v) : exec (.migrationSwitch vdev) s = .next (s.arrivingImage vdev v).2 :=
  (exec_migrationSwitch_arriving hv hin hph hq ho).trans (if_pos (not_arrivalFits_iff.mp hf))

end

/-! ### Notices and forwarding -/

/-- The fabric once a notice has re-pointed its entries for the old endpoint (R358, R359). -/
def Fabric.repointed (f : Fabric) (old new : Nat) : Fabric :=
  { f with
    remote := f.remote.filter fun r => r.endpoint != old
    moved := Store.put f.moved old new
    comms := Store.mapVals f.comms fun _ c => { c with members := c.members.map fun e => if e = old then new else e } }

/-- The acknowledgement of a notice, when the old endpoint is of this module. -/
def State.acknowledges (s : State) (handle part : Nat) : Option Nat → State
  | some q => s.push (.migrationAcknowledgement q handle part)
  | none => s

section

variable {part old new handle : Nat}

theorem migrationNotice_lastHome (hq : (s.modFab part fun f => f.repointed old new).endpointPart old = none) :
    exec (.migrationNotice part old new handle) s = .next (s.modFab part fun f => f.repointed old new) :=
  congrArg (fun q => Host.Outcome.next ((s.modFab part fun f => f.repointed old new).acknowledges handle part q)) hq

theorem migrationNotice_acknowledges {q : Nat} (hq : (s.modFab part fun f => f.repointed old new).endpointPart old = some q) :
    exec (.migrationNotice part old new handle) s =
      .next ((s.modFab part fun f => f.repointed old new).push (.migrationAcknowledgement q handle part)) :=
  congrArg (fun q => Host.Outcome.next ((s.modFab part fun f => f.repointed old new).acknowledges handle part q)) hq

end

section

variable {part handle : Nat} {f : Forwarding} (hf : Store.find (s.part part).fab.forwarding handle = some f)

include hf

theorem migrationAcknowledgement_last {peer : Nat} (ha : f.peers &&& ~~~(f.acks ||| BitVec.ofNat 64 (2 ^ peer)) = 0) :
    exec (.migrationAcknowledgement part handle peer) s = .next (s.modFab part fun x => { x with forwarding := Store.erase x.forwarding handle }) := by
  show execMigrationAcknowledgement part handle peer s = _
  simp only [execMigrationAcknowledgement, hf, if_pos ha]

theorem migrationAcknowledgement_notes {peer : Nat} (ha : f.peers &&& ~~~(f.acks ||| BitVec.ofNat 64 (2 ^ peer)) ≠ 0) :
    exec (.migrationAcknowledgement part handle peer) s = .next
      (s.modFab part fun x => { x with forwarding := Store.put x.forwarding handle { f with acks := f.acks ||| BitVec.ofNat 64 (2 ^ peer) } }) := by
  show execMigrationAcknowledgement part handle peer s = _
  simp only [execMigrationAcknowledgement, hf, if_neg ha]

theorem forwardingExpiry_removes (ht : f.expiry ≤ s.mod.tick) :
    exec (.forwardingExpiry part handle) s = .next (s.modFab part fun x => { x with forwarding := Store.erase x.forwarding handle }) := by
  show execForwardingExpiry part handle s = _
  simp only [execForwardingExpiry, hf, if_pos ht]

theorem forwardingExpiry_waits (ht : s.mod.tick < f.expiry) : exec (.forwardingExpiry part handle) s = .next s := by
  show execForwardingExpiry part handle s = _
  simp only [execForwardingExpiry, hf, if_neg (Nat.not_le.mpr ht)]

end

/-- The flits of an access from outside are counted, and nothing else. -/
theorem forwardedAccess_counts (part handle frame : Nat) : ∃ vdev, exec (.forwardedAccess part handle frame) s = .next (s.edgeFlits part vdev) := by
  show ∃ vdev, execForwardedAccess part handle frame s = _
  unfold execForwardedAccess
  split
  · exact ⟨_, rfl⟩
  · split
    · exact ⟨_, rfl⟩
    · exact ⟨_, rfl⟩

/-! ### Requests for frames -/

/-- The frames that a source has sent, with this one. -/
def Vdev.sentWith (v : Vdev) (frame : Nat) : List Nat := if v.mig.sent.contains frame then v.mig.sent else v.mig.sent ++ [frame]

/-- The state once a source has sent a frame: its pages are taken, and the frame is noted. -/
def State.frameSent (s : State) (vdev frame : Nat) (v : Vdev) : State :=
  ((s.takeFrame vdev frame v).edgeFlits v.part vdev).modVdev vdev fun w => { w with mig := { w.mig with sent := v.sentWith frame } }

section

variable {frame : Nat} (hin : v.mig.incoming = false) (hph : v.mig.phase = 4) (ho : s.ownerOf (frame * 65536) = vdev)
  (hq : s.endpointPart v.mig.peer = none)

include hv hin hph ho hq

theorem exec_pullRequest : exec (.pullRequest v.part vdev frame) s = .next
    (if ((s.frameSent vdev frame v).framesOf vdev).all (v.sentWith frame).contains then (s.frameSent vdev frame v).removeVdev vdev none
      else s.frameSent vdev frame v) := by
  have hserve : ¬ (v.mig.incoming = true ∨ v.mig.phase ≠ 4 ∨ descPart v.desc ≠ v.part ∨ s.ownerOf (frame * 65536) ≠ vdev ∨
      (s.endpointPart v.mig.peer).isSome = true) := by simp [hin, hph, ho, hq]
  show execPullRequest v.part vdev frame s = _
  simp only [execPullRequest, hv]
  rw [if_neg hserve]
  rfl

theorem pullRequest_last (ha : ∀ f ∈ (s.frameSent vdev frame v).framesOf vdev, f ∈ v.sentWith frame) :
    exec (.pullRequest v.part vdev frame) s = .next ((s.frameSent vdev frame v).removeVdev vdev none) := by
  rw [exec_pullRequest hv hin hph ho hq, if_pos (by simpa using ha)]

theorem pullRequest_sends (ha : ∃ f ∈ (s.frameSent vdev frame v).framesOf vdev, f ∉ v.sentWith frame) :
    exec (.pullRequest v.part vdev frame) s = .next (s.frameSent vdev frame v) := by
  rw [exec_pullRequest hv hin hph ho hq, if_neg (by simpa using ha)]

end

end

/-- Settles O53: each event by the cases that lead to it. The image beside its bytes, the trailer and what is streamed next are log 12 (DESIGN CHOICE), what
another module sends or decides log 19 (DESIGN CHOICE); points that the manual leaves open follow the model's reading (log 31). -/
theorem migrationEvents : Obligations.MigrationEvents := by
  unfold Obligations.MigrationEvents
  intro s vdev v hv part
  refine ⟨fun page hs hp => ⟨checkpointPageStream_waits hv hs hp, fun s2 f hu => checkpointPageStream_unmapped hv hs hp hu,
      fun s2 s3 a site hu hh => checkpointPageStream_lost hv hs hp hu hh,
      fun s2 s3 a bytes hu hh hb => ⟨checkpointPageStream_unwritten hv hs hp hu hh hb, fun s4 => checkpointPageStream_streams hv hs hp hu hh hb⟩⟩,
    fun i hi hc hp hl hd hroom => ⟨fun s1 hw => epochClose_closes hv hi ((closed_eq hi hc hp hl hd hroom).trans hw),
      fun hw => epochClose_waits hv ((closed_eq hi hc hp hl hd hroom).trans hw)⟩,
    fun frame data hf hl => ⟨fun hq hd => ⟨_, framePullComplete_foreign hv hf hl hq hd, landFrame_lands hv frame data⟩,
      fun q src w s1 bytes => framePullComplete_here hv hf hl⟩,
    fun hin hph hu => ⟨_, migrationSourceLost_marks hv hin hph hu, ?lost⟩,
    fun n i hin hph hn hi => ⟨fun ok r s1 s2 => migrationSwitch_foreign hv hin hph hn hi, fun q => migrationSwitch_noDestination hv hin hph hn hi,
      fun q w dst hq hd => ⟨migrationSwitch_refusesProt hv hin hph hn hi hq hd, migrationSwitch_refusesLost hv hin hph hn hi hq hd,
        migrationSwitch_refusesShape hv hin hph hn hi hq hd, migrationSwitch_waits hv hin hph hn hi hq hd,
        migrationSwitch_arrives hv hin hph hn hi hq hd⟩⟩,
    fun hin hph hq => ⟨migrationSwitch_takes hv hin hph hq, migrationSwitch_misfits hv hin hph hq, migrationSwitch_notOffered hv hin hph hq⟩,
    fun old new handle => ⟨migrationNotice_lastHome, fun q => migrationNotice_acknowledges⟩,
    fun handle f hf => ⟨fun peer => migrationAcknowledgement_last hf, fun peer => migrationAcknowledgement_notes hf,
      forwardingExpiry_removes hf, forwardingExpiry_waits hf⟩,
    fun handle frame => ?forwarded,
    fun frame hin hph ho hq => ⟨pullRequest_last hv hin hph ho hq, pullRequest_sends hv hin hph ho hq⟩⟩
  case lost =>
    obtain ⟨hmem, hregs⟩ := modVdev_retryHidden_keeps (vdev := vdev) s fun w => { w with mig := { w.mig with sourceLost := true } }
    exact ⟨hmem, hregs, retryHidden_migration (f := fun m => { m with sourceLost := true }) hv⟩
  case forwarded =>
    obtain ⟨w, hw⟩ := forwardedAccess_counts (s := s) part handle frame
    exact ⟨_, hw, rfl, rfl, rfl, rfl, rfl⟩

end Sys2Proof.Machine


/-! O45: interval boundaries, spares, monitors, boost ends and core retirement (R266, R277, R366 to R382). -/

namespace Sys2Proof.Machine

/-! ### Dies and partitions -/

theorem modDie_die (s : State) (d : Nat) (f : DieMap → DieMap) (k : Nat) : (s.modDie d f).die k = if k = d then f (s.die d) else s.die k :=
  Store.get_put _ _ _ _ _

theorem die_congr {s t : State} (h : t.mod.dies = s.mod.dies) : t.die = s.die := by
  funext d
  rw [State.die, State.die, h]

theorem wearOf_congr {s t : State} (h : t.wear.records = s.wear.records) : t.wearOf = s.wearOf := by
  funext u
  rw [State.wearOf, State.wearOf, h]

/-- The store with a new value for a key: the first value with a property has the key as before, when that key was its own or the property is kept. -/
theorem Store.find?_put_key {α : Type} {p : α → Bool} {i : Nat} {x y : α} (hp : p y = p x) : ∀ {m : Store α}, Store.find m i = some x →
    (∀ kv, m.find? (fun kv => p kv.2) = some kv → kv.1 = i) →
    ((Store.put m i y).find? fun kv => p kv.2).map (·.1) = (m.find? fun kv => p kv.2).map (·.1)
  | [], hx, _ => by cases hx
  | (k, v) :: rest, hx, hkey => by
    rw [Store.put]
    split
    · cases hy : p y with
      | false => simp only [List.find?_cons, hy]
      | true =>
        have hsome : (((k, v) :: rest).find? fun kv => p kv.2).isSome := List.find?_isSome.mpr ⟨(i, x), Store.mem_of_find hx, hp.symm.trans hy⟩
        obtain ⟨kv, hkv⟩ := Option.isSome_iff_exists.mp hsome
        rw [hkv, List.find?_cons, hy, Option.map_some, Option.map_some, hkey kv hkv]
    · split
      · next heq =>
        subst heq
        obtain rfl : v = x := by simpa [Store.find] using hx
        rw [List.find?_cons, List.find?_cons, hp]
        cases p v <;> rfl
      · next hne =>
        have hx' : Store.find rest i = some x := by rwa [Store.find, if_neg (Ne.symm hne)] at hx
        rw [List.find?_cons, List.find?_cons]
        cases hv : p v with
        | true => rfl
        | false => exact Store.find?_put_key hp hx' fun kv h => hkey kv (by rwa [List.find?_cons, hv])

theorem partOfQuad_eq (s : State) (q : Nat) : s.partOfQuad q = ((s.parts.find? fun kv => kv.2.regs.members.contains q).map (·.1)).getD q := by
  unfold State.partOfQuad
  split
  · next kv h => rw [h, Option.map_some, Option.getD_some]
  · next h => rw [h, Option.map_none, Option.getD_none]

/-- The partition of a quadrant is the same once its dispatcher has changed. -/
theorem partOfQuad_modDisp (s : State) (q : Nat) (f : Dispatcher → Dispatcher) : (s.modDisp (s.partOfQuad q) f).partOfQuad q = s.partOfQuad q := by
  rw [State.modDisp, State.modPart]
  split
  · next x hx =>
    rw [partOfQuad_eq, partOfQuad_eq]
    rw [partOfQuad_eq] at hx
    refine congrArg (Option.getD · q) (Store.find?_put_key (p := fun x => x.regs.members.contains q) (x := x) (y := { x with disp := f x.disp }) rfl hx fun kv hkv => ?_)
    rw [hkv, Option.map_some, Option.getD_some]
  · rfl

/-- A partition holds the gangs that its dispatcher has not dropped. -/
theorem dropGangs_gone (s : State) (p : Nat) (gone : Gang → Bool) : ∀ g ∈ ((s.modDisp p fun d => d.dropGangs gone).part p).disp.gangs, gone g.2 = false := by
  rw [State.part, Store.get_of_find, State.modDisp, State.modPart_find, if_pos rfl]
  cases Store.find s.parts p with
  | none => exact fun g hg => absurd hg List.not_mem_nil
  | some x => exact fun g hg => by simpa using (List.mem_filter.mp hg).2

/-! ### Boundaries -/

theorem intervalBoundary_early {s : State} (h : s.mod.tick < s.mod.nextBoundary) : exec .intervalBoundary s = .next s := if_pos h

/-! ### Spares -/

section

variable {s : State} {die spare l : Nat} (h : s.swapReady die = some (spare, l))

/-- The core that a swap takes out goes to the spares, unless it is retired. -/
def State.swappedOut (s : State) (die l : Nat) : List Nat := (((s.die die).map.getD l none).toList).filter fun p => !(s.die die).retired.contains p

include h

theorem swapReady_pending : (spare, l) ∈ (s.die die).pendingSwap := List.mem_of_find?_eq_some h

theorem swapReady_clear : s.teamsOn (die * 24 + l) = [] := by
  have hc := List.find?_some h
  simp only [State.coreClear, Bool.and_eq_true, List.isEmpty_iff] at hc
  exact hc.1

theorem exec_spareSwapOut : exec (.spareSwapOut die) s = .next (s.swapIn die spare l) := by
  show execSpareSwapOut die s = _
  simp only [execSpareSwapOut, h]

end

/-- The state once a swap has counted the time of the core that it takes out. -/
def State.swapCounted (s : State) (die l : Nat) : State := match (s.die die).map.getD l none with
  | none => s
  | some p => s.modWear fun w => { w with activity := { w.activity with
      active := Store.modify 0 (Store.modify 0 w.activity.active (die * 26 + p) (· + (s.core (die * 24 + l)).activeClk)) (die * 26 + p + 208)
        (· + (s.core (die * 24 + l)).arrayClk) } }

/-- The map of a die once a spare has come in. -/
def DieMap.swapped (d : DieMap) (spare l : Nat) (out : List Nat) : DieMap :=
  { d with map := d.map.set l (some spare), spares := d.spares ++ out, pendingSwap := d.pendingSwap.filter fun x => x.2 != l }

/-- The state once a spare stands in the map, before its core starts afresh. -/
def State.swapMapped (s : State) (die spare l : Nat) : State :=
  ((s.swapCounted die l).modDie die fun d => d.swapped spare l (s.swappedOut die l)).modWear fun w =>
    { w with activity := { w.activity with since := Store.put w.activity.since (die * 26 + spare) s.mod.tick } }

theorem swapCounted_only (s : State) (die l : Nat) : ∃ activity, s.swapCounted die l = { s with wear := { s.wear with activity := activity } } := by
  unfold State.swapCounted
  split
  · exact ⟨_, rfl⟩
  · exact ⟨_, rfl⟩

theorem swappedOut_eq (s : State) (die l : Nat) : s.swappedOut die l = match (s.die die).map.getD l none with
    | some p => if (s.die die).retired.contains p then [] else [p]
    | none => [] := by
  unfold State.swappedOut
  cases (s.die die).map.getD l none with
  | none => rfl
  | some p => by_cases h : p ∈ (s.die die).retired <;> simp [h]

theorem swapIn_eq (s : State) (die spare l : Nat) : s.swapIn die spare l =
    ((s.swapMapped die spare l).modCore (die * 24 + l) fun c => { c with activeClk := 0, arrayClk := 0, paid := none, boost := false }).modDisp
      ((s.swapMapped die spare l).partOfCore (die * 24 + l)) fun p => { p with decide := true } := by
  simp only [State.swapMapped, swappedOut_eq]
  rfl

theorem swapIn_die (s : State) (die spare l : Nat) :
    (s.swapIn die spare l).die die = (s.die die).swapped spare l (s.swappedOut die l) := by
  obtain ⟨activity, ha⟩ := swapCounted_only s die l
  rw [swapIn_eq, die_congr (congrArg Module.dies (State.modDisp_mod _ _ _)), State.swapMapped, ha]
  exact (modDie_die _ _ _ _).trans (if_pos rfl)

theorem swapIn_core (s : State) (die spare l : Nat) :
    ((s.swapIn die spare l).core (die * 24 + l)).paid = none ∧ ((s.swapIn die spare l).core (die * 24 + l)).boost = false := by
  rw [swapIn_eq, State.core_congr (State.modDisp_cores _ _ _), State.modCore_core, if_pos rfl]
  exact ⟨rfl, rfl⟩

theorem swapIn_keeps (s : State) (die spare l : Nat) : (s.swapIn die spare l).wear.records = s.wear.records ∧
    (s.swapIn die spare l).wear.lbud = s.wear.lbud ∧ (s.swapIn die spare l).groups = s.groups ∧ (s.swapIn die spare l).teams = s.teams ∧
    (s.swapIn die spare l).mem = s.mem := by
  obtain ⟨activity, ha⟩ := swapCounted_only s die l
  rw [swapIn_eq, State.modDisp_wear, State.modDisp_groups, State.modDisp_teams, State.modDisp_mem, State.swapMapped, ha]
  exact ⟨rfl, rfl, rfl, rfl, rfl⟩

/-! ### Ends of a boost -/

section

variable {s : State} {core : Nat}

theorem exec_boostThermalDrop (h : s.tooHot core = true) :
    exec (.boostThermalDrop core) s = .next ((s.endGrant core).modCore core fun c => { c with boost := false }) := if_neg (by simp [h])

theorem endGrant_grant (s : State) (core : Nat) : ((s.endGrant core).core core).grant = none := by
  unfold State.endGrant
  split
  · exact congrArg Core.grant (Store.get_put_self _ _ _ _)
  · exact congrArg Core.grant (Store.get_put_self _ _ _ _)
  · next h => exact h

theorem endGrant_records (s : State) (core : Nat) : (s.endGrant core).wear.records = s.wear.records := by
  unfold State.endGrant
  split
  · rfl
  · rfl
  · rfl

/-- A grant that ends is paid back for the intervals that it has left. -/
theorem endGrant_lbud {q : Grant} {u : Nat} (hg : (s.core core).grant = some q) (hu : s.unitOfCore core = some u) :
    Store.get 0 (s.endGrant core).wear.lbud u = Store.get 0 s.wear.lbud u + q.x * (q.remaining : Int) := by
  rw [State.endGrant, hg, hu]
  exact Store.get_put_self _ _ _ _

end

/-! ### Retirement of a core -/

theorem restartClk_only (s : State) (core : Nat) : ∃ benches cores, s.restartClk core = { s with benches := benches, cores := cores } := by
  unfold State.restartClk
  split
  · exact ⟨_, _, rfl⟩
  · exact ⟨_, _, rfl⟩

/-- Two states that differ at most in wear records, life budgets, benches and cores. -/
def WakesOnly (s t : State) : Prop := ∃ records lbud benches cores,
  t = { s with wear := { s.wear with records := records, lbud := lbud }, benches := benches, cores := cores }

theorem wakeCore_only (s : State) (u : Nat) : WakesOnly s (s.wakeCore u) := by
  unfold State.wakeCore
  split
  · exact ⟨_, _, _, _, rfl⟩
  · obtain ⟨records, lbud, hs1⟩ := (completeRest_chargesOnly s u).trans (completeRest_chargesOnly _ (u + 208))
    dsimp only
    rw [hs1]
    split
    · next c hc =>
      obtain ⟨benches, cores, hs2⟩ := restartClk_only { s with wear := { s.wear with records := records, lbud := lbud } } c
      exact ⟨records, lbud, benches, cores, hs2⟩
    · exact ⟨_, _, _, _, rfl⟩

/-- Waking a core completes the rests of its two units. -/
theorem wearOf_wakeCore (s : State) (u k : Nat) : (s.wakeCore u).wearOf k = s.wearOf k ∧ (s.wearOf u).rest = none ∨
    (s.wakeCore u).wearOf k = ((s.completeRest u).completeRest (u + 208)).wearOf k := by
  unfold State.wakeCore
  split
  · next h => exact .inl ⟨rfl, Option.isNone_iff_eq_none.mp h⟩
  · refine .inr ?_
    dsimp only
    split
    · next c hc =>
      obtain ⟨benches, cores, hs2⟩ := restartClk_only ((s.completeRest u).completeRest (u + 208)) c
      rw [hs2]
      rfl
    · rfl

theorem wearOf_wakeCore_self (s : State) (u : Nat) : (s.wakeCore u).wearOf u = (s.wearOf u).rested := by
  rcases wearOf_wakeCore s u u with ⟨hw, hr⟩ | hw
  · rw [hw, WearRecord.rested_of_none hr]
  · rw [hw, wearOf_completeRest, if_neg (by omega), wearOf_completeRest, if_pos rfl]

theorem WearRecord.rested_mon (r : WearRecord) : r.rested.mon = r.mon := by cases h : r.rest <;> simp [WearRecord.rested, h]

theorem wearOf_completeRest_mon (s : State) (u k : Nat) : ((s.completeRest u).wearOf k).mon = (s.wearOf k).mon := by
  rw [wearOf_completeRest]
  split
  · next h => rw [h, WearRecord.rested_mon]
  · rfl

theorem wearOf_wakeCore_mon (s : State) (u k : Nat) : ((s.wakeCore u).wearOf k).mon = (s.wearOf k).mon := by
  rcases wearOf_wakeCore s u k with ⟨hw, -⟩ | hw
  · rw [hw]
  · rw [hw, wearOf_completeRest_mon, wearOf_completeRest_mon]

/-- The cores of a die that wait for a unit as their spare, and run on none that works. -/
def DieMap.calledAgain (d : DieMap) (pos : Nat) : List Nat :=
  ((d.pendingSwap.filter fun x => x.1 == pos).map (·.2)).filter fun l => ((d.map.getD l none).map d.retired.contains).getD true

/-- The map of a die once a position is retired. -/
def DieMap.withdrawn (d : DieMap) (pos : Nat) (again : List Nat) : DieMap :=
  { d with
    retired := d.retired ++ [pos]
    spares := d.spares.filter (· != pos)
    pendingSwap := d.pendingSwap.filter fun x => x.1 != pos
    retiredSince := distinct (d.retiredSince ++ again) }

/-- The state once the unit of a position has completed its rest and is retired. -/
def State.coreWithdrawn (s : State) (die pos : Nat) : State :=
  (s.wakeCore (die * 26 + pos)).modDie die fun d => d.withdrawn pos ((s.die die).calledAgain pos)

/-- The state once the logical core of a retired unit is unavailable, and no gang keeps it. -/
def State.backingLost (s : State) (die : Nat) : Option Nat → State
  | some c => (s.modDie die fun d => { d with retiredSince := distinct (d.retiredSince ++ [c % 24]) }).modDisp
      ((s.modDie die fun d => { d with retiredSince := distinct (d.retiredSince ++ [c % 24]) }).partOfCore c) fun p => p.dropGangs fun g => g.cores.contains c
  | none => s

/-- The state that a retirement logs. -/
def State.coreRetired (s : State) (die pos : Nat) : State := (s.coreWithdrawn die pos).backingLost die (s.logicalOf (die * 26 + pos))

/-- The event of a retirement (R315). -/
def State.retireEvent (s : State) (die pos : Nat) : State := s.logEvent (s.partOfQuad (die / 2))
  { type := 4, quad := die / 2, unit := die * 26 + pos, time := s.now }

theorem retireCore_eq {s : State} {die pos : Nat} (hn : pos ∉ (s.die die).retired) (hp : pos < 26) :
    s.retireCore die pos = (s.coreRetired die pos).retireEvent die pos :=
  if_neg (not_or.mpr ⟨by simpa using hn, Nat.not_le.mpr hp⟩)

theorem retireCore_idle {s : State} {die pos : Nat} (hn : pos ∈ (s.die die).retired) : s.retireCore die pos = s :=
  if_pos (.inl (by simpa using hn))

theorem coreWithdrawn_die (s : State) (die pos k : Nat) : (s.coreWithdrawn die pos).die k =
    if k = die then (s.die die).withdrawn pos ((s.die die).calledAgain pos) else s.die k := by
  obtain ⟨records, lbud, benches, cores, hw⟩ := wakeCore_only s (die * 26 + pos)
  rw [State.coreWithdrawn, hw]
  exact modDie_die _ _ _ _

theorem backingLost_die (s : State) (die : Nat) (c : Option Nat) (k : Nat) :
    ∃ since, (s.backingLost die c).die k = { s.die k with retiredSince := since } ∧ (k = die → ∀ core, c = some core → core % 24 ∈ since) := by
  cases c with
  | none => exact ⟨_, rfl, fun _ core h => by cases h⟩
  | some core =>
    rw [State.backingLost, die_congr (congrArg Module.dies (State.modDisp_mod _ _ _)), modDie_die]
    split
    · next h =>
      subst h
      refine ⟨_, rfl, fun _ core' h' => ?_⟩
      cases h'
      exact mem_distinct.mpr (List.mem_append_right _ (List.mem_singleton.mpr rfl))
    · next h => exact ⟨_, rfl, fun h' => absurd h' h⟩

theorem backingLost_keeps (s : State) (die : Nat) (c : Option Nat) : (s.backingLost die c).wear = s.wear ∧ (s.backingLost die c).quads = s.quads ∧
    (s.backingLost die c).mod.tick = s.mod.tick := by
  cases c with
  | none => exact ⟨rfl, rfl, rfl⟩
  | some core =>
    rw [State.backingLost, State.modDisp_wear, State.modDisp_quads, State.modDisp_mod]
    exact ⟨rfl, rfl, rfl⟩

section

variable (s : State) (die pos : Nat)

theorem coreRetired_wear : (s.coreRetired die pos).wear = (s.wakeCore (die * 26 + pos)).wear := (backingLost_keeps _ _ _).1

theorem coreRetired_quads : (s.coreRetired die pos).quads = s.quads := by
  obtain ⟨records, lbud, benches, cores, hw⟩ := wakeCore_only s (die * 26 + pos)
  exact (backingLost_keeps _ _ _).2.1.trans (by rw [State.coreWithdrawn, hw]; rfl)

theorem coreRetired_now : (s.coreRetired die pos).now = s.now := by
  obtain ⟨records, lbud, benches, cores, hw⟩ := wakeCore_only s (die * 26 + pos)
  exact congrArg (· / 84) ((backingLost_keeps _ _ _).2.2.trans (by rw [State.coreWithdrawn, hw]; rfl))

/-- The die of a retired unit: the position is retired, no spare, and called by no core; and its logical core is unavailable. -/
theorem coreRetired_die : ∃ since, (s.coreRetired die pos).die die = { (s.die die).withdrawn pos [] with retiredSince := since } ∧
    ∀ core, s.logicalOf (die * 26 + pos) = some core → core % 24 ∈ since := by
  obtain ⟨since, hdie, hsince⟩ := backingLost_die (s.coreWithdrawn die pos) die (s.logicalOf (die * 26 + pos)) die
  refine ⟨since, hdie.trans ?_, hsince rfl⟩
  rw [coreWithdrawn_die, if_pos rfl]
  rfl

theorem coreRetired_retired (k : Nat) :
    ((s.coreRetired die pos).die k).retired = if k = die then (s.die die).retired ++ [pos] else (s.die k).retired := by
  obtain ⟨since, hdie, -⟩ := backingLost_die (s.coreWithdrawn die pos) die (s.logicalOf (die * 26 + pos)) k
  rw [State.coreRetired, hdie, coreWithdrawn_die]
  split <;> rfl

end

/-- The logical core of a unit is one of its die that the map gives to it. -/
theorem logicalOf_unit {s : State} {u c : Nat} (h : s.logicalOf u = some c) : dieOfCore c = u / 26 ∧ s.unitOfCore c = some u := by
  obtain ⟨l, hl, rfl⟩ := List.mem_map.mp (List.mem_of_find?_eq_some h)
  have hlt : l < 24 := List.mem_range.mp hl
  exact ⟨by rw [dieOfCore]; omega, beq_iff_eq.mp (List.find?_some (p := fun c => s.unitOfCore c == some u) h)⟩

section

variable {s : State} {die pos c : Nat} (hp : pos < 26) (hc : s.logicalOf (die * 26 + pos) = some c)

include hp hc

/-- The logical core of a retired unit is unavailable. -/
theorem coreRetired_coreUp : (s.coreRetired die pos).coreUp c = false := by
  obtain ⟨hdie, hunit⟩ := logicalOf_unit hc
  obtain ⟨since, hd, -⟩ := coreRetired_die s die pos
  have hdie' : dieOfCore c = die := by omega
  have hunit' : (s.coreRetired die pos).unitOfCore c = some (die * 26 + pos) := by
    rw [State.unitOfCore, hdie', hd, ← hunit, State.unitOfCore, hdie']
    rfl
  have hpos : (die * 26 + pos) % 26 = pos := by omega
  rw [State.coreUp, hunit', hdie', hd]
  simp only [hpos]
  simp [DieMap.withdrawn]

omit hp in
/-- No gang keeps the logical core of a retired unit. -/
theorem coreRetired_gangs : ∀ g ∈ ((s.coreRetired die pos).part ((s.coreRetired die pos).partOfCore c)).disp.gangs, c ∉ g.2.cores := by
  intro g hg
  rw [State.coreRetired, hc, State.backingLost, State.partOfCore, State.partOfCore, partOfQuad_modDisp] at hg
  simpa using dropGangs_gone _ _ _ g hg

end

/-! ### Measurements of the monitors -/

/-- Two states with the same wear, quadrants and dies. -/
structure SameUnits (s t : State) : Prop where
  wear : t.wear = s.wear
  quads : t.quads = s.quads
  dies : t.mod.dies = s.mod.dies

theorem modPart_sameUnits (s : State) (p : Nat) (f : Part → Part) : SameUnits s (s.modPart p f) where
  wear := State.modPart_wear s p f
  quads := State.modPart_quads s p f
  dies := congrArg Module.dies (State.modPart_mod s p f)

theorem logEvent_sameUnits (s : State) (part : Nat) (e : EventRecord) : SameUnits s (s.logEvent part e) := by
  unfold State.logEvent
  dsimp only
  split
  · exact modPart_sameUnits s part _
  · split
    · exact modPart_sameUnits s part _
    · obtain ⟨hwear, hquads, hdies⟩ := modPart_sameUnits s part fun p => { p with log := { p.log with records := p.log.records ++ [e], fresh := true } }
      split
      · exact ⟨hwear, hquads, hdies⟩
      · exact ⟨hwear, hquads, hdies⟩

theorem retireEvent_sameUnits (s : State) (die pos : Nat) : SameUnits s (s.retireEvent die pos) := logEvent_sameUnits _ _ _

section

variable (s : State) (die pos : Nat)

theorem retireCore_mon (hp : pos < 26) (k : Nat) : ((s.retireCore die pos).wearOf k).mon = (s.wearOf k).mon := by
  by_cases hn : pos ∈ (s.die die).retired
  · rw [retireCore_idle hn]
  · rw [retireCore_eq hn hp, wearOf_congr (congrArg Wear.records ((retireEvent_sameUnits _ _ _).wear.trans (coreRetired_wear s die pos))), wearOf_wakeCore_mon]

theorem retireCore_quads (hp : pos < 26) : (s.retireCore die pos).quads = s.quads := by
  by_cases hn : pos ∈ (s.die die).retired
  · rw [retireCore_idle hn]
  · rw [retireCore_eq hn hp, (retireEvent_sameUnits _ _ _).quads, coreRetired_quads]

/-- A retirement retires its position, and no other. -/
theorem mem_retireCore_retired (hp : pos < 26) (k j : Nat) :
    j ∈ ((s.retireCore die pos).die k).retired ↔ j ∈ (s.die k).retired ∨ (k = die ∧ j = pos) := by
  by_cases hn : pos ∈ (s.die die).retired
  · rw [retireCore_idle hn]
    refine ⟨.inl, ?_⟩
    rintro (h | ⟨rfl, rfl⟩)
    · exact h
    · exact hn
  · rw [retireCore_eq hn hp, die_congr (retireEvent_sameUnits _ _ _).dies, coreRetired_retired]
    split
    · next h => subst h; simp
    · next h => simp [h]

end

/-- The state once a unit has its reading. -/
def State.monitored (s : State) (x : Nat × Nat) : State :=
  s.modWear fun w => { w with records := Store.modify {} w.records x.1 fun r => { r with mon := x.2 % 2 ^ 32 } }

/-- The state once the monitors of a unit are measured: what is over RETIREPPM is retired, or reported. -/
def State.measureUnit (s : State) (x : Nat × Nat) : State :=
  if x.2 % 2 ^ 32 ≤ wcRetire (s.quad (unitQuad x.1)).wearctl then s.monitored x
  else if x.1 < 208 then (s.monitored x).retireCore (x.1 / 26) (x.1 % 26)
  else if x.1 < 416 then s.monitored x
  else (s.monitored x).logEvent ((s.monitored x).partOfQuad (unitQuad x.1))
    { type := 9, quad := unitQuad x.1, unit := x.1, time := (s.monitored x).now }

theorem measure_eq (s : State) (readings : List Nat) : s.measure readings = ((List.range 500).zip readings).foldl State.measureUnit s := rfl

section

variable (s : State) (x : Nat × Nat)

theorem monitored_mon (k : Nat) : ((s.monitored x).wearOf k).mon = if k = x.1 then x.2 % 2 ^ 32 else (s.wearOf k).mon := by
  rw [State.monitored, wearOf_modifyRecord]
  split <;> rfl

theorem measureUnit_mon (k : Nat) : ((s.measureUnit x).wearOf k).mon = if k = x.1 then x.2 % 2 ^ 32 else (s.wearOf k).mon := by
  rw [← monitored_mon, State.measureUnit]
  split
  · rfl
  · split
    · rw [retireCore_mon _ _ _ (Nat.mod_lt _ (by decide))]
    · split
      · rfl
      · rw [wearOf_congr (congrArg Wear.records (logEvent_sameUnits _ _ _).wear)]

theorem measureUnit_quads : (s.measureUnit x).quads = s.quads := by
  rw [State.measureUnit]
  split
  · rfl
  · split
    · exact retireCore_quads _ _ _ (Nat.mod_lt _ (by decide))
    · split
      · rfl
      · exact (logEvent_sameUnits _ _ _).quads

/-- A reading retires the core of its unit exactly when it is over RETIREPPM. -/
theorem mem_measureUnit_retired {die pos : Nat} (hd : die < 8) (hp : pos < 26) : pos ∈ ((s.measureUnit x).die die).retired ↔
    pos ∈ (s.die die).retired ∨ (x.1 = 26 * die + pos ∧ wcRetire (s.quad (die / 2)).wearctl < x.2 % 2 ^ 32) := by
  have hquad : unitQuad (26 * die + pos) = die / 2 := by
    rw [unitQuad, if_pos (by omega)]
    omega
  have hdies : (s.monitored x).die = s.die := rfl
  by_cases hu : x.1 = 26 * die + pos
  · rw [State.measureUnit, hu, hquad]
    by_cases hr : x.2 % 2 ^ 32 ≤ wcRetire (s.quad (die / 2)).wearctl
    · rw [if_pos hr, hdies]
      exact (or_iff_left fun h => absurd h.2 (Nat.not_lt.mpr hr)).symm
    · rw [if_neg hr, if_pos (by omega), mem_retireCore_retired _ _ _ (Nat.mod_lt _ (by decide)), hdies]
      exact or_congr_right ⟨fun _ => ⟨rfl, Nat.not_le.mp hr⟩, fun _ => by omega⟩
  · have hother : pos ∈ ((s.measureUnit x).die die).retired ↔ pos ∈ (s.die die).retired := by
      rw [State.measureUnit]
      split
      · rfl
      · split
        · rw [mem_retireCore_retired _ _ _ (Nat.mod_lt _ (by decide)), hdies]
          exact or_iff_left fun h => hu (by omega)
        · split
          · rfl
          · rw [die_congr (logEvent_sameUnits _ _ _).dies, hdies]
    rw [hother]
    exact (or_iff_left fun h => hu h.1).symm

end

theorem foldl_measureUnit_mon_of_not_mem (xs : List (Nat × Nat)) (s : State) (k : Nat) (hk : k ∉ xs.map (·.1)) :
    ((xs.foldl State.measureUnit s).wearOf k).mon = (s.wearOf k).mon := by
  induction xs generalizing s with
  | nil => rfl
  | cons x xs ih =>
    rw [List.map_cons, List.mem_cons, not_or] at hk
    rw [List.foldl_cons, ih _ hk.2, measureUnit_mon, if_neg hk.1]

/-- Each unit keeps its own reading. -/
theorem foldl_measureUnit_mon (xs : List (Nat × Nat)) (hn : (xs.map (·.1)).Nodup) (s : State) {x : Nat × Nat} (hx : x ∈ xs) :
    ((xs.foldl State.measureUnit s).wearOf x.1).mon = x.2 % 2 ^ 32 := by
  induction xs generalizing s with
  | nil => cases hx
  | cons y xs ih =>
    rw [List.map_cons, List.nodup_cons] at hn
    rcases List.mem_cons.mp hx with rfl | hx
    · rw [List.foldl_cons, foldl_measureUnit_mon_of_not_mem xs _ _ hn.1, measureUnit_mon, if_pos rfl]
    · exact ih hn.2 _ hx

/-- The cores that a measurement retires are those with a reading over RETIREPPM. -/
theorem mem_foldl_measureUnit_retired {die pos : Nat} (hd : die < 8) (hp : pos < 26) (xs : List (Nat × Nat)) (s : State) :
    pos ∈ ((xs.foldl State.measureUnit s).die die).retired ↔
      pos ∈ (s.die die).retired ∨ ∃ r, (26 * die + pos, r) ∈ xs ∧ wcRetire (s.quad (die / 2)).wearctl < r % 2 ^ 32 := by
  induction xs generalizing s with
  | nil => simp
  | cons x xs ih =>
    rw [List.foldl_cons, ih, mem_measureUnit_retired s x hd hp, State.quad_congr (measureUnit_quads s x), or_assoc]
    refine or_congr_right ⟨?_, ?_⟩
    · rintro (⟨hx, hr⟩ | ⟨r, hmem, hr⟩)
      · exact ⟨x.2, List.mem_cons.mpr (.inl (Prod.ext hx.symm rfl)), hr⟩
      · exact ⟨r, List.mem_cons_of_mem _ hmem, hr⟩
    · rintro ⟨r, hmem, hr⟩
      rcases List.mem_cons.mp hmem with rfl | hmem
      · exact .inl ⟨rfl, hr⟩
      · exact .inr ⟨r, hmem, hr⟩

/-- A reading is paired with the unit of its place. -/
theorem mem_zip_range {n k r : Nat} {readings : List Nat} : (k, r) ∈ (List.range n).zip readings ↔ k < n ∧ readings[k]? = some r := by
  rw [List.mem_iff_getElem?]
  constructor
  · rintro ⟨i, hi⟩
    obtain ⟨hk, hr⟩ := List.getElem?_zip_eq_some.mp hi
    obtain ⟨hlt, rfl⟩ := List.getElem?_eq_some_iff.mp hk
    rw [List.length_range] at hlt
    rw [List.getElem_range] at *
    exact ⟨hlt, hr⟩
  · rintro ⟨hk, hr⟩
    exact ⟨k, List.getElem?_zip_eq_some.mpr ⟨List.getElem?_range hk, hr⟩⟩

theorem map_fst_zip_sublist : ∀ (xs ys : List Nat), ((xs.zip ys).map (·.1)).Sublist xs
  | [], _ => List.Sublist.refl _
  | _ :: _, [] => List.nil_sublist _
  | _ :: xs, _ :: ys => (map_fst_zip_sublist xs ys).cons_cons _

theorem measure_mon (s : State) {readings : List Nat} {u r : Nat} (hu : u < 500) (hr : readings[u]? = some r) :
    ((s.measure readings).wearOf u).mon = r % 2 ^ 32 := by
  have hkeys : (((List.range 500).zip readings).map (·.1)).Nodup := (map_fst_zip_sublist _ _).nodup List.nodup_range
  have hmem : (u, r) ∈ (List.range 500).zip readings := mem_zip_range.mpr ⟨hu, hr⟩
  rw [measure_eq]
  exact foldl_measureUnit_mon (x := (u, r)) _ hkeys s hmem

theorem mem_measure_retired (s : State) (readings : List Nat) {die pos : Nat} (hd : die < 8) (hp : pos < 26) :
    pos ∈ ((s.measure readings).die die).retired ↔
      pos ∈ (s.die die).retired ∨ ∃ r, readings[26 * die + pos]? = some r ∧ wcRetire (s.quad (die / 2)).wearctl < r % 2 ^ 32 := by
  have hu : 26 * die + pos < 500 := by omega
  rw [measure_eq, mem_foldl_measureUnit_retired hd hp]
  simp only [mem_zip_range, hu, true_and]

/-! ### The event of a retirement -/

section

variable {s : State} {die pos : Nat} (hd : die < 8) (hp : pos < 26) (hn : pos ∉ (s.die die).retired)

include hd hp hn

theorem exec_coreRetirement : exec (.coreRetirement die pos) s = .next ((s.coreRetired die pos).logEvent ((s.coreRetired die pos).partOfQuad (die / 2))
    { type := 4, quad := die / 2, unit := die * 26 + pos, time := s.now }) := by
  rw [← coreRetired_now s die pos]
  exact (if_neg (Nat.not_le.mpr hd)).trans (congrArg Host.Outcome.next (retireCore_eq hn hp))

end

theorem coreRetired_wearOf (s : State) (die pos : Nat) :
    (s.coreRetired die pos).wearOf (die * 26 + pos) = (s.wearOf (die * 26 + pos)).rested := by
  rw [wearOf_congr (congrArg Wear.records (coreRetired_wear s die pos)), wearOf_wakeCore_self]

/-- Settles O45: the boundary before and at its time, a swap, a measurement unit by unit, an end of a boost and a retirement. Points that the manual leaves open
follow the model's reading (logs 24, 32 and 43). -/
theorem wearEvents : Obligations.WearEvents := by
  unfold Obligations.WearEvents
  intro s
  refine ⟨intervalBoundary_early, fun h => if_neg (Nat.not_lt.mpr h), fun die spare l h => ?swap,
    fun readings => ⟨s.measure readings, rfl, fun u r => measure_mon s, fun die pos => mem_measure_retired s readings⟩,
    fun core h => ⟨_, exec_boostThermalDrop h, ?grant, ?boost, endGrant_records s core, fun q u => endGrant_lbud⟩,
    fun die pos hd hp hn => ?retirement⟩
  case swap =>
    obtain ⟨hrecords, hlbud, hgroups, hteams, hmem⟩ := swapIn_keeps s die spare l
    obtain ⟨hpaid, hboost⟩ := swapIn_core s die spare l
    have hdie := swapIn_die s die spare l
    refine ⟨_, exec_spareSwapOut h, swapReady_pending h, swapReady_clear h, by rw [hdie]; rfl, by rw [hdie]; rfl, by rw [hdie]; rfl, fun x hx => ?_,
      hrecords, hlbud, hpaid, hboost, hgroups, hteams, hmem⟩
    rw [hdie] at hx
    simpa using (List.mem_filter.mp hx).2
  case grant => exact (congrArg Core.grant ((State.modCore_core _ _ _ _).trans (if_pos rfl))).trans (endGrant_grant s core)
  case boost => exact congrArg Core.boost ((State.modCore_core _ _ _ _).trans (if_pos rfl))
  case retirement =>
    obtain ⟨since, hdie, hsince⟩ := coreRetired_die s die pos
    have hwear := coreRetired_wearOf s die pos
    refine ⟨s.coreRetired die pos, exec_coreRetirement hd hp hn, by rw [hdie]; rfl, by rw [hdie]; rfl, fun x hx => ?pending,
      fun hr => hwear.trans (WearRecord.rested_of_none hr), fun q hq => hwear.trans (by rw [WearRecord.rested, hq]),
      fun c hc => ⟨by rw [hdie]; exact hsince c hc, coreRetired_coreUp hp hc, coreRetired_gangs hc⟩⟩
    case pending =>
      rw [hdie] at hx
      simpa using (List.mem_filter.mp hx).2

end Sys2Proof.Machine
